-- ==== Sys2Proof/Word.lean ====
section
/-! DEFINITION. The word types of the block and the sparse tables its state is held in (R15, R16). -/

namespace Sys2Proof

/-- One byte of memory, of a record or of a buffer. -/
abbrev Byte := BitVec 8

/-- A run of bytes, lowest address first (R15). -/
abbrev Bytes := List (BitVec 8)

/-- A 32-bit register of BAR0 (R386). -/
abbrev Reg := BitVec 32

/-- A scalar register value (R206). -/
abbrev Word := BitVec 64

/-- One 36-bit container of a tile register (R257, R275). -/
abbrev Cont := BitVec 36

/-- The 1,024 containers of a tile register, element (r, c) at place 32r + c (R275). Places beyond
the end of the list hold zero, so the empty list is the wiped tile. -/
abbrev Tile := List (BitVec 36)

/-- A table keyed by numbers: rising keys, an absent key reads as the table's default. -/
abbrev Tbl (α : Type) := List (Nat × α)

/-- A memory: the bytes that are not 0, by rising address. A byte never written reads as 0. -/
abbrev Mem := Tbl Byte

end Sys2Proof
end

