-- ==== Sys2Proof/Syntax.lean ====
section
/-! DEFINITION. The commands of the block: one constructor of `Instr` for each row of the table of
operations and events, with the operands that the row's rule gives it. An operand that stands for
something outside the module (a byte the host's memory answers, a temperature, an arrival) is the
environment's; docstrings cite the rule a row follows. -/

namespace Sys2Proof

/-- The two host ports (R7, R382). -/
inductive Port where
  | a | b
  deriving DecidableEq, Repr

/-- The sixteen number formats, in the order of their codes (R256). -/
inductive Fmt where
  | z36 | z28 | z18 | s8 | s16 | s32 | u8 | f4e2s | f8e4 | f8e4s | f8e5 | f12e5 | f16e5 | f16e8 | f24e8 | f32e8
  deriving DecidableEq, Repr

/-- The prime families (R122). -/
inductive Family where
  | z36 | z28 | z18
  deriving DecidableEq, Repr

/-- Where a slot operation issues: the logical core, whether it is the last operation of its bundle, with which the bundle
issues whole, and whether the bundle's words were fetched from the program store without an uncorrectable error (R207, R208, R210).
DESIGN CHOICE, safe (assumption 18). -/
structure Issue where
  core : Nat
  last : Bool
  good : Bool
  deriving DecidableEq, Repr

/-- A scalar register S0 to S31 (R206). -/
abbrev SReg := BitVec 5
/-- A tile register T0 to T7 (R206). -/
abbrev TReg := BitVec 3
/-- An output-tile buffer O0 or O1 (R233). -/
abbrev OBuf := BitVec 1

/-- A handle and a byte offset (R213). -/
structure Loc where
  h : Nat
  off : Nat
  deriving DecidableEq, Repr

/-- A data operand of a vector operation (R276). -/
inductive VSrc where
  | tile (t : TReg) | rowBcast (t : TReg) | colBcast (t : TReg) | scalar (r : SReg)
  deriving DecidableEq, Repr

/-- How a residue operation selects the prime of each element (R277). -/
inductive PSel where
  | uniform (r : SReg) | perCol (t : TReg) | perRow (t : TReg)
  deriving DecidableEq, Repr

/-- The masks of a vector operation: a row and a column mask register where named, and ZERO or KEEP (R284). -/
structure VMask where
  row : Option SReg
  col : Option SReg
  zero : Bool
  deriving DecidableEq, Repr

/-- What every vector operation names: format, destination, masks and status register (R276, R284, R286); `alt` is a second format
that one of its operands names (R287). -/
structure VDst where
  fmt : Fmt
  alt : Option Fmt
  d : TReg
  mask : VMask
  status : Option SReg
  deriving DecidableEq, Repr

/-- The activations of R243 with their parameter registers, and a code that names none of them (R287). -/
inductive Act where
  | none | relu | leaky (slope : SReg) | clamp (lo hi : SReg) | gelu | sigmoid | tanh | unknown
  deriving DecidableEq, Repr

/-- An operand of an array product: a tile register or a panel of leaves (R233). -/
inductive MSrc where
  | tile (t : TReg) | panel (l : Loc) (transpose : Bool)
  deriving DecidableEq, Repr

/-- The fields of an array product (R233, R248). -/
structure Mma where
  o : OBuf
  a : MSrc
  b : MSrc
  k : Nat
  fa : Fmt
  fb : Fmt
  trace : Bool
  deriving DecidableEq, Repr

/-- Where an epilogue constant comes from (R242). -/
inductive EpiSrc where
  | uniform (r : SReg) | perCol (t : TReg) | perRow (t : TReg)
  deriving DecidableEq, Repr

/-- Where a drain writes its tile (R242). -/
inductive DrainDst where
  | tile (t : TReg) | leaf (l : Loc)
  deriving DecidableEq, Repr

/-- The fields of a drain (R241, R242, R244). -/
structure Drain where
  o : OBuf
  dst : DrainDst
  fmt : Fmt
  scale : Option EpiSrc
  bias : Option EpiSrc
  act : Act
  zero : Bool
  status : Option SReg
  deriving DecidableEq, Repr

/-- How an NTT operation names its limbs' primes (R252). -/
inductive NttPrime where
  | fixed (f : Family) (index : Nat)
  | chain (set : Nat) (pChain : Bool) (first : Nat)
  deriving DecidableEq, Repr

/-- The fields of an NTT operation (R252). -/
structure Ntt where
  src : Loc
  dst : Loc
  n : Nat
  limbs : Nat
  stride : Nat
  fmt : Fmt
  prime : NttPrime
  deriving DecidableEq, Repr

/-- The form of a tile load or store (R311, R313); a ROW_MAJOR handle takes the descriptor's strides. -/
inductive TileForm where
  | leaf | rowMajor (rs : Int) (cs : Nat) | fromHandle (rs : Int) (cs : Nat)
  deriving DecidableEq, Repr

/-- The key a key-switching operation names, and its scratch (R175, R185). -/
structure KeyRef where
  slot : Nat
  index : Nat
  scratch : Loc
  deriving DecidableEq, Repr

/-- One side of a transforming copy: place, form and matrix size (R315). -/
inductive CopyForm where
  | blocked (lpr lpc : Nat) | rowMajor (rs : Int) (cs : Nat) | fromHandle (rs : Int) (cs : Nat)
  deriving DecidableEq, Repr

/-- A matrix in memory (R315). -/
structure Mat where
  loc : Loc
  form : CopyForm
  rows : Nat
  cols : Nat
  deriving DecidableEq, Repr

/-- A slice of a MOVE or TRANSPOSE with its deckle (R320); `value` is none for ZERO. -/
structure Slice where
  rs : Nat
  cs : Nat
  rd : Nat
  cd : Nat
  h : Nat
  w : Nat
  t : Nat
  b : Nat
  l : Nat
  r : Nat
  value : Option SReg
  deriving DecidableEq, Repr

/-- What every transforming copy names: its queue, format and completion semaphore (R315). -/
structure CopyHead where
  queue : BitVec 1
  fmt : Fmt
  sem : Option Nat
  deriving DecidableEq, Repr

/-- The fields of STRM (R327, R328); `outbound` is the slot it issued from (R326), and `link` says that the far side is a
quire link, whose stream number stands in `far.h`. -/
structure Strm where
  outbound : Bool
  link : Bool
  channel : Nat
  e : Nat
  far : Loc
  dims : List (Int × Nat)
  buf : Loc
  depth : Nat
  full : Nat
  empty : Nat
  release : Nat
  mark0 : Nat
  done : Option Nat
  deriving DecidableEq, Repr

/-- How a read of protected storage came out: the words were good, the check bits of a word were
uncorrectable, or a stored owner tag refused it; the word or sector that failed is named by its distance from the
first byte read (R110, R111, R353).
DESIGN CHOICE, safe (assumption 128). -/
inductive ReadErr where
  | good
  | checkBits (off : Nat)
  | tag (t off : Nat)
  deriving DecidableEq, Repr

/-- What a correction storm strikes (R111). -/
inductive StormRes where
  | group (mill g : Nat)
  | pc (global : Nat)
  deriving DecidableEq, Repr

/-- How an engine's work came out: good, a failed datapath check, an uncorrectable error in a register, a working store
or a staging buffer, or a read of memory through a handle, from an offset on, that failed (R110, R251, R288, R323).
DESIGN CHOICE, safe (assumption 128). -/
inductive EngCheck where
  | good | datapath | storage
  | read (h off : Nat) (e : ReadErr)
  deriving DecidableEq, Repr

/-- How the delivery of a key block came out at the headbox: good, an uncorrectable error in a staging block or an expander queue, a failed
check of an expander's datapath, or an uncorrectable error in the key's container or in its entry of the key directory (R178).
DEDUCED, unsafe (assumption 84). -/
inductive HbCheck where
  | good | storage
  | expander (i : Nat)
  | container | directory
  deriving DecidableEq, Repr

/-- What one sampling of the sensors reads, in degrees Celsius (R61, R62). -/
structure Readings where
  mills : List Nat
  hub : Nat
  hbm : List Nat
  regs : Nat
  deriving DecidableEq, Repr

/-- An operating point that the firmware chooses under the cap: the duty it takes at once, and the divider and the duty
it moves to (R54, R55). -/
structure CapPoint where
  now : Nat
  divK : Nat
  duty : Nat
  deriving DecidableEq, Repr

/-- The reference sources (R65). -/
inductive Source where
  | crystal | sysref | oscillator
  deriving DecidableEq, Repr

/-- A resource named by a fault (R415). -/
inductive Res where
  | none | core | bankGroup | pseudoChannel | linkLane | headbox | peer
  deriving DecidableEq, Repr

/-- The header of a flit (R422). -/
structure FlitHdr where
  dst : Nat
  src : Nat
  seq : Nat
  ack : Nat
  nak : Bool
  credClass : Nat
  credits : Nat
  span : Nat
  tag : Nat
  first : Bool
  last : Bool
  encrypted : Bool
  deriving DecidableEq, Repr

/-- How a flit came over the lanes: whole, with an uncorrectable codeword, with a failed HCHK, or with a failed tag (R423, R430). -/
inductive FlitLine where
  | good | codeword | hchk | tag
  deriving DecidableEq, Repr

/-- The flit that brings a message: its link, CLASS and header, and how it came (R422, R423).
DESIGN CHOICE, safe (assumption 59). -/
structure Arrival where
  k : Nat
  cls : Nat
  hdr : FlitHdr
  line : FlitLine := .good
  deriving DecidableEq, Repr

/-- What the training of a link finds: its good lanes, the other end with its link, the one-way delay, and whether that end sets ENCRYPT
(R418, R430). -/
structure Training where
  lanes : BitVec 5
  peer : Nat
  peerLink : Nat
  delay : Nat
  encrypt : Bool
  deriving DecidableEq, Repr

/-- A member's vote (R116). -/
inductive Vote where
  | ready | notReady | fault
  deriving DecidableEq, Repr

/-- The master's decision (R116). -/
inductive Decision where
  | commit | defer | rollback
  deriving DecidableEq, Repr

/-- The result code of the public-key engine (R461). -/
inductive PkeResult where
  | ok | invalidInput | invalidKey | invalidSignature
  deriving DecidableEq, Repr

/-- A point of P-384 as the engine is given it. -/
inductive PkePoint where
  | infinity | xy (x y : Nat)
  deriving DecidableEq, Repr

/-- The parameter set that the type codes of an LMS signature or key name: N, W and height. -/
structure LmsSet where
  n : Nat
  w : Nat
  h : Nat
  deriving DecidableEq, Repr

/-- The public-key operations (R461) with what the engine examines of their inputs (R462): points, scalars, types and leaf indices,
whether every length and type code is right for the set, and whether the signature matches, which external standards say. -/
inductive PkeOp where
  | ecdsaVerify (sized : Bool) (pub : PkePoint) (r s : Nat) (matching : Bool)
  | ecdsaSign (sized : Bool) (d : Nat)
  | ecdh (sized : Bool) (d : Nat) (peer : PkePoint)
  | keygen
  | hssSign
  | lmsVerify (sized : Bool) (sig key : LmsSet) (leaf : Nat) (matching : Bool)
  deriving DecidableEq, Repr

/-- The owners of the operand memory (R465). -/
inductive PkeOwner where
  | none | bootRom | firmware | attestation | session (p : Port) (id : Nat)
  deriving DecidableEq, Repr

/-- A request of the public-key engine: its owner, its operation and its operands' bytes (R461, R465). -/
structure PkeReq where
  owner : PkeOwner
  op : PkeOp
  operands : List (BitVec 8)
  deriving DecidableEq, Repr

/-- The form of a BAR0 or BAR2 request (R386). -/
structure Req where
  write : Bool
  dws : Nat
  byteEn : BitVec 4
  deriving DecidableEq, Repr

/-- The page answer of a translation (R338, R339): none, or the range it covers and the access it grants. -/
structure Xlat where
  bus : Nat
  len : Nat
  read : Bool
  write : Bool
  deriving DecidableEq, Repr

/-- The response codes of a page request group (R339). -/
inductive PageResp where
  | success | invalid | failure
  deriving DecidableEq, Repr

/-- The self-tested blocks (R468). -/
inductive Block where
  | core (mill slot : Nat) | headbox (mill : Nat) | copyEngine (mill : Nat) | streamEngine (mill : Nat) | hub
  deriving DecidableEq, Repr

/-- What JTAG asks for (R447, R482): boundary scan, a scan chain, a word of SRAM, a sector of HBM or its side bits, or the
security block's key slots; and what the factory writes through it (R439, R441): UDS, SERIAL, GRADE, the provisioning record, and
the end of the factory test. -/
inductive JtagTarget where
  | boundary
  | scan (securityBlock jobData : Bool)
  | sram (addr : Nat)
  | hbm (pc byte : Nat)
  | sramSide (addr : Nat)
  | hbmSide (pc byte : Nat)
  | keySlots
  | uds (v : List (BitVec 8))
  | serial (v : List (BitVec 8))
  | grade (code : BitVec 4)
  | provision (fw token : List (BitVec 8)) (admin : Port)
  | production
  deriving DecidableEq, Repr

/-- What the verification of a signed object found (R443, R449): whether the ECDSA and the HSS signature verify.
DESIGN CHOICE, safe (assumption 19). -/
structure Checks where
  ecdsa : Bool
  hss : Bool
  deriving DecidableEq, Repr

/-- A firmware image (R448): the bytes of its header and of its body, and what the verification of its two signatures finds. -/
structure FwImage where
  header : Bytes
  body : Bytes
  checks : Checks
  deriving DecidableEq, Repr

/-- The commands of the block, in the order of the table of operations and events. An operand with a default is the usual one where a
command does not give it. -/
inductive Instr where
  -- Power, pins and the module's surroundings
  /-- COLD_RESET (R76): PWR_EN rises with VIN at `vin` mV; `low` says that it was low long enough before (R34). -/
  | coldReset (vin : Nat) (low : Bool)
  /-- PWR_EN_DEASSERT (R58). -/
  | pwrEnDeassert
  /-- VIN_BELOW_SAFE_SHUTDOWN (R58): VIN falls to `vin` mV. -/
  | vinBelowSafeShutdown (vin : Nat)
  /-- VIN_LOW (R57): VIN is at `vin` mV. -/
  | vinLow (vin : Nat)
  /-- FREEZE (R481): FREEZE_N was low for `ns` nanoseconds (R37). -/
  | freeze (ns : Nat)
  /-- PERST_ASSERT (R80). -/
  | perstAssert (p : Port)
  /-- PERST_DEASSERT (R80); `refclk` says that the port's reference clock is driven (R32, R34). -/
  | perstDeassert (p : Port) (refclk : Bool := true)
  /-- HOT_RESET (R80). -/
  | hotReset (p : Port)
  /-- FLR (R80). -/
  | flr (p : Port)
  /-- D3HOT_ENTRY (R383). -/
  | d3hotEntry (p : Port)
  /-- PORT_LINK_UP (R80, R25): the link trained at `gts` tenths of GT/s and `width` lanes, with the lane reversal and the
  inverted lanes that training found. -/
  | portLinkUp (p : Port) (gts width : Nat) (reversed : Bool := false) (polarity : BitVec 16 := 0)
  /-- EEPROM_WRITE (R31) at the SMBus address `dev` (R30). -/
  | eepromWrite (addr : Nat) (data : Byte) (dev : Nat := 0x50)
  /-- INTEGRATOR_CAP_SET (R53), a message to the MCTP endpoint `dev` (R30). -/
  | integratorCapSet (watts : Nat) (dev : Nat := 0x58)
  /-- MCTP_EVENT_READ (R37), a message to the MCTP endpoint `dev` (R30). -/
  | mctpEventRead (dev : Nat := 0x58)
  /-- JTAG_ACCESS (R447, R482), with TRST_N at the level `trstN` (R29). -/
  | jtagAccess (t : JtagTarget) (trstN : Bool := true)
  /-- SENSOR_SAMPLE (R62). -/
  | sensorSample (r : Readings)
  /-- THERMAL_THROTTLE_STEP (R62), of mill `m`, or of the hub for 4. -/
  | thermalThrottleStep (m : Nat)
  /-- THERMAL_RECOVERY_STEP (R62). -/
  | thermalRecoveryStep (m : Nat)
  /-- REGULATOR_CAP_STEP (R62). -/
  | regulatorCapStep
  /-- REGULATOR_CAP_RESTORE (R62). -/
  | regulatorCapRestore
  /-- SENSOR_CALIBRATION (R476). -/
  | sensorCalibration
  /-- HARDWARE_LIMITER (R54): the 20 µs average input power in W. -/
  | hardwareLimiter (watts : Nat)
  /-- LIMITER_RELEASE (R54): the 1 ms average in W. -/
  | limiterRelease (watts : Nat)
  /-- FIRMWARE_CAP_EVAL (R54): the 1 ms average in W, and, where it is above the cap, how many ranks of mills the firmware
  lowers in the order of R55, and the operating point it chooses for them. -/
  | firmwareCapEval (watts ranks : Nat) (pt : CapPoint)
  /-- FIRMWARE_RESTORE (R54): the 1 ms average, the mill the firmware raises and whether by duty. -/
  | firmwareRestore (watts m : Nat) (byDuty : Bool)
  /-- DIVIDER_RAMP_STEP (R52), of domain `d`: 0 to 3 the mills, 4 the hub, 5 the fabric, 6 to 17 the HBM stacks. -/
  | dividerRampStep (d : Nat)
  /-- RAIL_RAISED (R52). -/
  | railRaised (m : Nat)
  -- Clocks
  /-- CLOCK_MONITOR_WINDOW (R65): the count of a reference, the active one or a SYSREF that is not (R69). -/
  | clockMonitorWindow (count : Nat) (ref : Source := .crystal)
  /-- REFERENCE_EDGE_TIMEOUT (R65): 200 ns have passed without an edge of the reference. -/
  | referenceEdgeTimeout (ref : Source := .crystal)
  /-- PLL_RELOCK (R66). -/
  | pllRelock
  /-- LIMP_QUIESCE_COMPLETE (R66). -/
  | limpQuiesceComplete
  /-- SYSREF_QUALIFIED (R69). -/
  | sysrefQualified
  /-- CLOCK_RESELECT (R68): the POLICY_SET in execution on the ring. -/
  | clockReselect (p : Port) (r : Nat)
  /-- FMC_START (R73): a write of FMC_CTRL. -/
  | fmcStart (p : Port) (v : Reg)
  /-- FMC_DONE (R73): the window ends with `count` target cycles; `stopped` says the target was stopped. -/
  | fmcDone (p : Port) (count : Nat) (stopped : Bool)
  -- Essentials page and resets
  /-- WARM_RESET (R79): a write of ESS_GO for action 0x01. -/
  | warmReset (p : Port) (v : Reg)
  /-- ESS_ARM (R396): a write of ESS_ARM. -/
  | essArm (p : Port) (v : Reg)
  /-- ESS_ARM_LAPSE (R396). -/
  | essArmLapse (p : Port)
  /-- ESS_FREEZE (R396): a write of ESS_GO for action 0x02. -/
  | essFreeze (p : Port) (v : Reg)
  /-- ESS_POWER_DOWN (R396): a write of ESS_GO for action 0x03. -/
  | essPowerDown (p : Port) (v : Reg)
  /-- ESS_KILL (R397). -/
  | essKill (p : Port) (v : Reg)
  /-- ESS_FLR (R397). -/
  | essFlr (p : Port) (v : Reg)
  -- Bring-up
  /-- FUSES_SENSED (R88). -/
  | fusesSensed
  /-- EEPROM_FIELDS_READ (R88, R69); `readable` is false for an unreadable EEPROM (R94). -/
  | eepromFieldsRead (readable : Bool)
  /-- CONFIG_SPACE_READY (R89). -/
  | configSpaceReady (p : Port)
  /-- MILL_SRAM_READY (R88, R303): the groups whose banks failed built-in self-test. -/
  | millSramReady (m : Nat) (badGroups : List Nat)
  /-- FIRMWARE_VERIFIED (R449). -/
  | firmwareVerified
  /-- RECOVERY_IMAGE (R451). -/
  | recoveryImage (img : FwImage)
  /-- SECURITY_READY (R88). -/
  | securityReady
  /-- MILL_CORES_READY (R88, R94): the physical slots that failed the scan test. -/
  | millCoresReady (m : Nat) (badSlots : List Nat)
  /-- HBM_READY (R88, R354): whether the stack trained, the failed data lanes of its pseudo-channels and the failed command/address lanes
  of its channels, by their numbers in the stack. -/
  | hbmReady (st : Nat) (trained : Bool) (data cmd : List (Nat × Nat))
  /-- LINK_TRAINED (R418): lanes good, the peer found, the measured delay, whether the peer sets ENCRYPT, and the
  inverted lanes. -/
  | linkTrained (k : Nat) (lanes : BitVec 5) (peer peerLink delay : Nat) (peerEncrypt : Bool) (polarity : BitVec 5 := 0)
  /-- REPULP_TABLE_BUILT (R93), for the set whose place in the ready bitmap is `i` (R90). -/
  | repulpTableBuilt (i : Nat)
  -- Sheets, couches and recovery
  /-- TICK (R96). -/
  | tick
  /-- SCHEDULE_OVERRUN (R56). -/
  | scheduleOverrun (j : Nat)
  /-- REAM_BOUNDARY (R117). -/
  | reamBoundary
  /-- TICK_MESSAGE_SEND (R433). -/
  | tickMessageSend
  /-- COUCH_COMMIT (R104). -/
  | couchCommit (j : Nat)
  /-- ROLE_FOLD_COMPLETE (R102). -/
  | roleFoldComplete (j : Nat)
  /-- RELEASE_COMPLETE (R106): the engine writes up to `n` entries more of the release in hand, which ends with its last one;
  how the read of the entry after them came out (R107). -/
  | releaseComplete (j : Nat) (n : Nat := 1) (e : ReadErr := .good)
  /-- REPLAY_QUIESCE_DONE (R113). -/
  | replayQuiesceDone (j : Nat)
  /-- CORRECTION_STORM (R111): `n` corrected errors in the resource within the sheet. -/
  | correctionStorm (r : StormRes) (n : Nat)
  /-- VOTE (R116): member `m`'s vote for the span's couch, with its DIV_K, duty, and its deadlock state (R222, R490). `arr`, here and in the other
  messages, is the flit that brings it, where the link layer is described. -/
  | vote (span m seq : Nat) (v : Vote) (divK duty : Nat) (dead : Bool) (arr : Option Arrival := none)
  /-- DECISION (R116); `lost` says that this module's vote did not reach the master in time (R436). -/
  | decision (span seq : Nat) (d : Decision) (arr : Option Arrival := none) (lost : Bool := false)
  /-- VOTE_TIMEOUT (R436). -/
  | voteTimeout (span m : Nat)
  /-- DECISION_TIMEOUT (R436). -/
  | decisionTimeout (span : Nat)
  /-- DECISION_REQUEST (R436), from member `m`. -/
  | decisionRequest (span m seq : Nat) (arr : Option Arrival := none)
  /-- START (R435): the tick of the first stride; `hops` is the longest path between members. -/
  | start (span tick hops : Nat) (agree : Bool) (arr : Option Arrival := none)
  /-- SPAN_SUBMIT_TIMEOUT (R435). -/
  | spanSubmitTimeout (span : Nat)
  /-- RELEASE_END (R428). -/
  | releaseEnd (span stream seq bytes : Nat) (arr : Option Arrival := none)
  /-- STOP (R379, R82): the cause code of the message. -/
  | stop (span cause : Nat) (arr : Option Arrival := none)
  /-- STATS_SNAPSHOT (R118). -/
  | statsSnapshot (p : Port) (r : Nat)
  /-- SNAP_CTRL_WRITE (R391). -/
  | snapCtrlWrite (p : Port) (v : Reg)
  /-- SNAPSHOT_FILLED (R390). -/
  | snapshotFilled (p : Port)
  -- Ciphertext operations; `e` is how the header reads came out (R141 step 1)
  /-- CIPHERTEXT_ADD (R147). -/
  | ciphertextAdd (i : Issue) (a b dst : Loc) (e : ReadErr)
  /-- CIPHERTEXT_SUBTRACT (R147). -/
  | ciphertextSubtract (i : Issue) (a b dst : Loc) (e : ReadErr)
  /-- CIPHERTEXT_NEGATE (R147). -/
  | ciphertextNegate (i : Issue) (a dst : Loc) (e : ReadErr)
  /-- ADD_PLAINTEXT (R147). -/
  | addPlaintext (i : Issue) (a pt dst : Loc) (e : ReadErr)
  /-- MULTIPLY_PLAINTEXT (R147). -/
  | multiplyPlaintext (i : Issue) (a pt dst : Loc) (e : ReadErr)
  /-- MULTIPLY_CONSTANT (R147). -/
  | multiplyConstant (i : Issue) (a dst : Loc) (c : Int) (e : ReadErr)
  /-- TENSOR_PRODUCT (R147). -/
  | tensorProduct (i : Issue) (a b dst : Loc) (e : ReadErr)
  /-- RELINEARISE (R181). -/
  | relinearise (i : Issue) (a dst : Loc) (k : KeyRef) (e : ReadErr)
  /-- MULTIPLY_RELINEARISE (R181). -/
  | multiplyRelinearise (i : Issue) (a b dst : Loc) (k : KeyRef) (e : ReadErr)
  /-- ROTATE (R176), by `r` slots, or by the Galois element `r` for an unbatched ciphertext. -/
  | rotate (i : Issue) (a dst : Loc) (r : Int) (k : KeyRef) (e : ReadErr)
  /-- HOISTED_ROTATE (R188): one output, rotation and key index for each rotation. -/
  | hoistedRotate (i : Issue) (a : Loc) (outs : List (Loc × Int × Nat)) (k : KeyRef) (e : ReadErr)
  /-- CONJUGATE (R176). -/
  | conjugate (i : Issue) (a dst : Loc) (k : KeyRef) (e : ReadErr)
  /-- RESCALE (R493). -/
  | rescale (i : Issue) (a dst : Loc) (e : ReadErr)
  /-- LEVEL_DROP (R493). -/
  | levelDrop (i : Issue) (a dst : Loc) (k : Nat) (e : ReadErr)
  /-- FORM_CONVERSION (R143). -/
  | formConversion (i : Issue) (a dst : Loc) (toEval : Bool) (e : ReadErr)
  /-- REPULP (R199). -/
  | repulp (i : Issue) (a : Loc) (slot : Nat) (e : ReadErr)
  /-- CIPHERTEXT_OUTPUT_WRITTEN (R144), and how the sequence's reads and checks came out (R110, R251). -/
  | ciphertextOutputWritten (core : Nat) (e : EngCheck)
  /-- CORE_HALTED (R199). -/
  | coreHalted (core : Nat)
  /-- INTERLUDE_COUCH (R200). -/
  | interludeCouch (j : Nat)
  /-- MACRO_SHEET_COUCH (R200): whether the sheet's work is finished, and whether it is the macro's last; and the offset in its REPULP table
  of a word whose check bits failed as the macro read it (R197). -/
  | macroSheetCouch (j : Nat) (finished last : Bool) (bad : Option Nat := none)
  /-- INTERLUDE_RESUME (R201). -/
  | interludeResume (j : Nat)
  -- Keys
  /-- KEY_INGEST (R159): the ring's command, and the bytes its source answers, none for a source fault. -/
  | keyIngest (p : Port) (r : Nat) (src : Option Bytes)
  /-- KEY_INGEST_COMPLETE (R160). -/
  | keyIngestComplete (p : Port) (r : Nat)
  /-- KEYSET_BIND (R163): the ring's command and its ring-member list. -/
  | keysetBind (p : Port) (r : Nat) (buf : Option Bytes)
  /-- KEYSET_UNBIND (R163). -/
  | keysetUnbind (p : Port) (r : Nat)
  /-- KEYRING_INCOMPLETE (R171). -/
  | keyringIncomplete (p : Port) (r : Nat)
  /-- KEY_SELFCHECK (R165); `ok` says that the host's buffer took the record. -/
  | keySelfcheck (p : Port) (r : Nat) (ok : Bool) (written : Nat := 0)
  /-- KEY_STREAM_START (R167): a key, a digit range, a limb range and a broadcast group of the mill's cores. -/
  | keyStreamStart (i : Issue) (slot index d0 d1 l0 l1 : Nat) (group : List Nat)
  /-- KEY_BLOCK_ACKNOWLEDGED (R167, R178): `e` says how the block's delivery came out. -/
  | keyBlockAcknowledged (m stream core : Nat) (e : HbCheck)
  /-- PASS_REQUEST (R429): from member `src` for a key of a set. -/
  | passRequest (link src : Nat) (keyset : Bytes) (index d0 d1 : Nat) (arr : Option Arrival := none)
  /-- KEY_MESSAGE (R172); `line` and `cls` are how its flit came and its CLASS. -/
  | keyMessage (link : Nat) (h : FlitHdr) (keyset : Bytes) (payload : Bytes) (line : FlitLine := .good) (cls : Nat := 2)
  -- Scalar operations
  /-- ADD (R211). -/
  | add (i : Issue) (d a b : SReg)
  /-- SUB (R211). -/
  | sub (i : Issue) (d a b : SReg)
  /-- AND (R211). -/
  | and (i : Issue) (d a b : SReg)
  /-- OR (R211). -/
  | or (i : Issue) (d a b : SReg)
  /-- XOR (R211). -/
  | xor (i : Issue) (d a b : SReg)
  /-- SHL (R211). -/
  | shl (i : Issue) (d a b : SReg)
  /-- SHR (R211). -/
  | shr (i : Issue) (d a b : SReg)
  /-- SAR (R211). -/
  | sar (i : Issue) (d a b : SReg)
  /-- MIN (R211). -/
  | min (i : Issue) (d a b : SReg)
  /-- MAX (R211). -/
  | max (i : Issue) (d a b : SReg)
  /-- MINU (R211). -/
  | minu (i : Issue) (d a b : SReg)
  /-- MAXU (R211). -/
  | maxu (i : Issue) (d a b : SReg)
  /-- CMPEQ (R211). -/
  | cmpeq (i : Issue) (d a b : SReg)
  /-- CMPLT (R211). -/
  | cmplt (i : Issue) (d a b : SReg)
  /-- CMPLTU (R211). -/
  | cmpltu (i : Issue) (d a b : SReg)
  /-- SEL (R211). -/
  | sel (i : Issue) (d a b c : SReg)
  /-- LI (R211). -/
  | li (i : Issue) (d : SReg) (imm : BitVec 32)
  /-- LUI (R211). -/
  | lui (i : Issue) (d : SReg) (imm : BitVec 32)
  /-- MUL (R211). -/
  | mul (i : Issue) (d a b : SReg)
  /-- MULHU (R211). -/
  | mulhu (i : Issue) (d a b : SReg)
  /-- MULHS (R211). -/
  | mulhs (i : Issue) (d a b : SReg)
  /-- GETID (R211). -/
  | getid (i : Issue) (d : SReg) (code : Nat)
  /-- SCALAR_RESULT_WRITTEN (R211): the core's oldest multi-cycle result. -/
  | scalarResultWritten (core : Nat)
  -- Control flow
  /-- BR (R212). -/
  | br (i : Issue) (dest : Nat)
  /-- BRZ (R212). -/
  | brz (i : Issue) (a : SReg) (dest : Nat)
  /-- BRNZ (R212). -/
  | brnz (i : Issue) (a : SReg) (dest : Nat)
  /-- CALL (R212). -/
  | call (i : Issue) (dest : Nat)
  /-- RET (R212). -/
  | ret (i : Issue)
  /-- LOOP (R212): an immediate count, or bits [31:0] of a register. -/
  | loop (i : Issue) (n : Nat) (reg : Option SReg) (stopAt : Nat)
  -- Loads, stores and synchronisation
  /-- LD.S (R213): 1, 2, 4 or 8 bytes, sign-extended for the .X form. -/
  | ldS (i : Issue) (d : SReg) (l : Loc) (size : Nat) (signed : Bool)
  /-- ST.S (R213). -/
  | stS (i : Issue) (a : SReg) (l : Loc) (size : Nat)
  /-- LD.T (R313). -/
  | ldT (i : Issue) (t : TReg) (f : Fmt) (l : Loc) (form : TileForm)
  /-- ST.T (R313). -/
  | stT (i : Issue) (t : TReg) (f : Fmt) (l : Loc) (form : TileForm)
  /-- LOAD_DATA_DELIVERED (R214): the core's oldest load, and how its read came out. -/
  | loadDataDelivered (core : Nat) (e : ReadErr)
  /-- STORE_ACKNOWLEDGED (R214): the core's oldest store, and how the read came out that a partial write makes (R111). -/
  | storeAcknowledged (core : Nat) (e : ReadErr)
  /-- SIG (R215). -/
  | sig (i : Issue) (sem k : Nat)
  /-- SIG_APPLIED (R215): the core's oldest SIG reaches its semaphore. -/
  | sigApplied (core : Nat)
  /-- WAIT (R215). -/
  | wait (i : Issue) (sem k : Nat)
  /-- SIG_MESSAGE (R216). -/
  | sigMessage (span sem k : Nat) (arr : Option Arrival := none)
  /-- BAR (R218). -/
  | bar (i : Issue) (b : Nat)
  /-- COUCH (R219). -/
  | couch (i : Issue)
  /-- END (R220). -/
  | endOp (i : Issue)
  /-- PROGRAM_LOAD (R226): the ring's command and the image its buffer holds. -/
  | programLoad (p : Port) (r : Nat) (img : Option Bytes)
  /-- SUBMIT (R98). -/
  | submit (p : Port) (r : Nat)
  -- The matrix array and the NTT engine
  /-- MMA with START (R235): the product, its row and column mask registers and its prime selector. -/
  | mmaStart (i : Issue) (m : Mma) (row col : Option SReg) (prime : Option PSel)
  /-- MMA with CONT (R235). -/
  | mmaCont (i : Issue) (m : Mma)
  /-- MMA_LAST_RESULT (R234): of buffer `o`, and the array's own checks. -/
  | mmaLastResult (core : Nat) (o : OBuf) (e : EngCheck)
  /-- DRAIN (R242). -/
  | drain (i : Issue) (d : Drain)
  /-- DRAIN_COMPLETE (R244), and the epilogue's own checks. -/
  | drainComplete (core : Nat) (o : OBuf) (e : EngCheck)
  /-- NTT.F (R252). -/
  | nttF (i : Issue) (n : Ntt)
  /-- NTT.I (R252). -/
  | nttI (i : Issue) (n : Ntt)
  /-- NTT_LIMB_WRITTEN (R253), and the engine's own checks (R251). -/
  | nttLimbWritten (core : Nat) (e : EngCheck)
  -- The vector engine
  /-- ADD of tiles (R279). -/
  | vectorAdd (i : Issue) (v : VDst) (a b : VSrc)
  /-- SUB of tiles (R279). -/
  | vectorSub (i : Issue) (v : VDst) (a b : VSrc)
  /-- MUL of tiles (R279). -/
  | vectorMul (i : Issue) (v : VDst) (a b : VSrc)
  /-- FMA (R279). -/
  | fma (i : Issue) (v : VDst) (a b c : VSrc)
  /-- NEG (R279). -/
  | neg (i : Issue) (v : VDst) (a : VSrc)
  /-- ABS (R279). -/
  | abs (i : Issue) (v : VDst) (a : VSrc)
  /-- MIN of tiles (R279). -/
  | vectorMin (i : Issue) (v : VDst) (a b : VSrc)
  /-- MAX of tiles (R279). -/
  | vectorMax (i : Issue) (v : VDst) (a b : VSrc)
  /-- CMPEQ of tiles (R279). -/
  | vectorCmpeq (i : Issue) (v : VDst) (a b : VSrc)
  /-- CMPLT of tiles (R279). -/
  | vectorCmplt (i : Issue) (v : VDst) (a b : VSrc)
  /-- CMPLE (R279). -/
  | cmple (i : Issue) (v : VDst) (a b : VSrc)
  /-- SEL of tiles (R279): `a` is the predicate. -/
  | vectorSel (i : Issue) (v : VDst) (a b c : VSrc)
  /-- AND of tiles (R279). -/
  | vectorAnd (i : Issue) (v : VDst) (a b : VSrc)
  /-- OR of tiles (R279). -/
  | vectorOr (i : Issue) (v : VDst) (a b : VSrc)
  /-- XOR of tiles (R279). -/
  | vectorXor (i : Issue) (v : VDst) (a b : VSrc)
  /-- NOT (R279). -/
  | not (i : Issue) (v : VDst) (a : VSrc)
  /-- SHL of tiles (R279). -/
  | vectorShl (i : Issue) (v : VDst) (a b : VSrc)
  /-- SHR of tiles (R279). -/
  | vectorShr (i : Issue) (v : VDst) (a b : VSrc)
  /-- SAR of tiles (R279). -/
  | vectorSar (i : Issue) (v : VDst) (a b : VSrc)
  /-- EXP2 (R280). -/
  | exp2 (i : Issue) (v : VDst) (a : VSrc)
  /-- RCP (R280). -/
  | rcp (i : Issue) (v : VDst) (a : VSrc)
  /-- RSQRT (R280). -/
  | rsqrt (i : Issue) (v : VDst) (a : VSrc)
  /-- ACT (R243). -/
  | act (i : Issue) (v : VDst) (a : VSrc) (f : Act)
  /-- MADD (R281). -/
  | madd (i : Issue) (v : VDst) (a b : VSrc) (q : PSel)
  /-- MSUB (R281). -/
  | msub (i : Issue) (v : VDst) (a b : VSrc) (q : PSel)
  /-- MNEG (R281). -/
  | mneg (i : Issue) (v : VDst) (a : VSrc) (q : PSel)
  /-- MMUL (R281). -/
  | mmul (i : Issue) (v : VDst) (a b : VSrc) (q : PSel)
  /-- MFMA (R281). -/
  | mfma (i : Issue) (v : VDst) (a b c : VSrc) (q : PSel)
  /-- MSUBMUL (R281). -/
  | msubmul (i : Issue) (v : VDst) (a b c : VSrc) (q : PSel)
  /-- MCENTRE (R281): source prime `q`, destination prime `q2`. -/
  | mcentre (i : Issue) (v : VDst) (a : VSrc) (q q2 : PSel)
  /-- VCVT (R282): `v.fmt` is the source format and `df` the destination's. -/
  | vcvt (i : Issue) (v : VDst) (a : VSrc) (df : Fmt) (q q2 : Option PSel) (sigma : Option SReg)
  /-- VMOV (R282). -/
  | vmov (i : Issue) (d a : TReg)
  /-- VRED (R283): kind 0 SUM, 1 MSUM, 2 MAX, 3 MIN; along columns where `col`. -/
  | vred (i : Issue) (v : VDst) (a : VSrc) (df : Fmt) (kind : Nat) (col : Bool) (q : Option PSel)
  /-- VECTOR_RESULT_WRITTEN (R274): the core's oldest vector result, and the lanes' own checks (R288). -/
  | vectorResultWritten (core : Nat) (e : EngCheck)
  -- Handles and banks
  /-- HANDLE_MAP (R296): map operations of the ring's command; its operations buffer. -/
  | handleMap (p : Port) (r : Nat) (buf : Option Bytes)
  /-- HANDLE_UNMAP (R296). -/
  | handleUnmap (p : Port) (r : Nat) (buf : Option Bytes)
  /-- WINDOW_OPEN (R411). -/
  | windowOpen (p : Port) (r : Nat) (buf : Option Bytes)
  /-- WINDOW_CLOSE (R411). -/
  | windowClose (p : Port) (r : Nat) (buf : Option Bytes)
  /-- BANK_POWER down (R300). -/
  | bankPowerDown (p : Port) (r : Nat)
  /-- BANK_POWER up (R301). -/
  | bankPowerUp (p : Port) (r : Nat)
  /-- BANK_GROUP_DARK (R300). -/
  | bankGroupDark (m g : Nat)
  /-- BANK_GROUP_WIPED (R299). -/
  | bankGroupWiped (m g : Nat)
  /-- BANK_GROUP_OFF (R299). -/
  | bankGroupOff (m g : Nat)
  /-- EVACUATION_DONE (R304); `ok` is false where correction failed during the copy. -/
  | evacuationDone (m g : Nat) (ok : Bool)
  -- Transforming copies
  /-- XCOPY MOVE (R316). -/
  | xcopyMove (i : Issue) (h : CopyHead) (src dst : Mat) (slices : List Slice)
  /-- XCOPY TRANSPOSE (R316). -/
  | xcopyTranspose (i : Issue) (h : CopyHead) (src dst : Mat) (slices : List Slice)
  /-- XCOPY GALOIS (R316). -/
  | xcopyGalois (i : Issue) (h : CopyHead) (src dst : Mat) (n g limbs stride : Nat)
  /-- XCOPY GATHER (R316). -/
  | xcopyGather (i : Issue) (h : CopyHead) (src dst : Mat) (index : Loc)
  /-- XCOPY_STAGING_GRANTED (R319). -/
  | xcopyStagingGranted (core : Nat) (queue : BitVec 1)
  /-- XCOPY_COMPLETE (R317), and how the copy's reads and the engine's checks came out (R323). -/
  | xcopyComplete (core : Nat) (queue : BitVec 1) (e : EngCheck)
  /-- A write of XC_RACE_SEEN (R324). -/
  | xcRaceSeenWrite (p : Port) (v : Reg)
  -- Streams and host pages
  /-- STRM (R327). -/
  | strm (i : Issue) (f : Strm)
  /-- STRM.MARK (R331). -/
  | strmMark (i : Issue) (channel mark : Nat) (outbound : Bool)
  /-- STREAM_ELEMENT_COMPLETE (R333): the bytes the host answers for a host source; how the read of memory came out; and the
  64-byte boundary of the element that the stream reaches, in sectors. -/
  | streamElementComplete (core channel : Nat) (host : Bytes) (e : ReadErr) (upTo : Nat := 1024)
  /-- ATS_TRANSLATION_COMPLETION (R338): for the page of an I/O virtual address under a PASID. -/
  | atsTranslationCompletion (p : Port) (pasid page : Nat) (x : Option Xlat)
  /-- PAGE_REQUEST (R341). -/
  | pageRequest (p : Port) (pasid page : Nat)
  /-- PAGE_RESPONSE (R339). -/
  | pageResponse (p : Port) (pasid page : Nat) (r : PageResp)
  /-- PAGE_TIMEOUT (R340): of a job's stream on a core's channel, or of its release engine. -/
  | pageTimeout (j : Nat) (stream : Option (Nat × Nat)) (ring : Option (Port × Nat) := none)
  /-- ATS_INVALIDATION (R338). -/
  | atsInvalidation (p : Port) (pasid page len : Nat)
  -- HBM
  /-- PC_RETRAIN (R356). -/
  | pcRetrain (pc : Nat)
  /-- PC_RETRAIN_DONE (R356): the data lanes and the command/address lanes that failed. -/
  | pcRetrainDone (pc : Nat) (data cmd : Nat)
  /-- MIGRATION_DONE (R358): with the byte offsets of the granules that could not be read. -/
  | migrationDone (pc : Nat) (lost : List Nat)
  /-- UNIT_FILLED (R360). -/
  | unitFilled (m k : Nat)
  /-- PATROL_SCRUB (R361): the sector and how it read. -/
  | patrolScrub (pc byte : Nat) (corrected : Nat) (e : ReadErr)
  /-- SELF_REFRESH_IDLE (R362). -/
  | selfRefreshIdle (st : Nat)
  -- Jobs and policy
  /-- JOB_CREATE (R370). -/
  | jobCreate (p : Port) (r : Nat)
  /-- JOB_KILL (R377). -/
  | jobKill (p : Port) (r : Nat)
  /-- JOB_WIPED (R377). -/
  | jobWiped (j : Nat)
  /-- POLICY_SET of the sheet period (R95); `groupJobs` says that another module of the group holds a job (R433). -/
  | policySetPeriod (p : Port) (r : Nat) (groupJobs : Bool := false)
  /-- POLICY_SET of the ream length (R117). -/
  | policySetReam (p : Port) (r : Nat)
  /-- POLICY_SET of the page-fault timeout (R340). -/
  | policySetTimeout (p : Port) (r : Nat)
  /-- POLICY_SET of the self-test interval (R366). -/
  | policySetSelftestInterval (p : Port) (r : Nat)
  /-- POLICY_SET of the administrative cap (R53). -/
  | policySetAdminCap (p : Port) (r : Nat)
  /-- POLICY_SET of ADMIT_A and ADMIT_B (R366). -/
  | policySetAdmission (p : Port) (r : Nat)
  /-- POLICY_SET of the other port's quota (R366). -/
  | policySetQuota (p : Port) (r : Nat)
  -- Registers and host access
  /-- BUS_ERROR (R387): a BAR0 request. -/
  | busError (p : Port) (off : Nat) (q : Req) (data : List Reg := [])
  /-- REGISTER_WRITE (R388): a 1-DW write. -/
  | registerWrite (p : Port) (off : Nat) (v : Reg)
  /-- A write of ERR_STATUS (R392). -/
  | errStatusWrite (p : Port) (v : Reg)
  /-- A write of ERRREC_VALID_LO or _HI (R478). -/
  | errrecValidWrite (p : Port) (hi : Bool) (v : Reg)
  /-- BAR2_READ (R399). -/
  | bar2Read (p : Port) (off len : Nat) (e : ReadErr)
  /-- BAR2_WRITE (R399). -/
  | bar2Write (p : Port) (off : Nat) (data : Bytes) (e : ReadErr)
  /-- MSIX_UNMASK (R400). -/
  | msixUnmask (p : Port) (vector : Nat)
  /-- HEARTBEAT (R394). -/
  | heartbeat
  -- Rings
  /-- DOORBELL (R404): a write of SQ_TAIL. -/
  | doorbell (p : Port) (r : Nat) (v : Reg)
  /-- RING_ENABLE (R403): a write of RING_CFG that sets ENABLE. -/
  | ringEnable (p : Port) (r : Nat) (v : Reg)
  /-- RING_DISABLE (R403): a write of RING_CFG that clears ENABLE. -/
  | ringDisable (p : Port) (r : Nat) (v : Reg)
  /-- A write of CQ_HEAD (R404). -/
  | cqHeadWrite (p : Port) (r : Nat) (v : Reg)
  /-- COMMAND_FETCH (R404): the 64 bytes that host memory answers at the ring's head. -/
  | commandFetch (p : Port) (r : Nat) (bytes : Bytes)
  /-- EV_ENABLE (R414): a write of EV_CFG. -/
  | evEnable (p : Port) (v : Reg)
  /-- A write of EV_HEAD (R415). -/
  | evHeadWrite (p : Port) (v : Reg)
  /-- EVENT_RECORD_POST (R415). -/
  | eventRecordPost (p : Port)
  /-- QUERY_PRIMES (R126); `ok` says that the host's buffer took the records, and `written` how many bytes it took before a page was refused. -/
  | queryPrimes (p : Port) (r : Nat) (ok : Bool) (written : Nat := 0)
  /-- QUERY_PARAMSET (R131). -/
  | queryParamset (p : Port) (r : Nat) (ok : Bool) (written : Nat := 0)
  /-- QUERY_READY (R412). -/
  | queryReady (p : Port) (r : Nat) (ok : Bool) (written : Nat := 0)
  -- Self-test
  /-- SELFTEST of one core (R472). -/
  | selftestCore (p : Port) (r : Nat)
  /-- SELFTEST of the module (R473). -/
  | selftestModule (p : Port) (r : Nat)
  /-- SELFTEST_TURN (R469). -/
  | selftestTurn (m : Nat)
  /-- SCAN_DONE (R471). -/
  | scanDone (b : Block) (pass : Bool) (sig : Nat := 0)
  -- Security
  /-- ATTEST (R454). -/
  | attest (p : Port) (r : Nat) (ok : Bool) (torn : Option (List (BitVec 8)) := none)
  /-- FW_UPDATE (R452). -/
  | fwUpdate (p : Port) (r : Nat) (img : Option FwImage)
  /-- FW_UPDATE_DONE (R452). -/
  | fwUpdateDone (p : Port) (r : Nat)
  /-- LINK_ROUTE (R431). -/
  | linkRoute (p : Port) (r : Nat) (buf : Option Bytes)
  /-- DEBUG_UNLOCK with an UNLOCK token (R444). -/
  | debugUnlock (p : Port) (r : Nat) (token : Option Bytes) (c : Checks)
  /-- DEBUG_UNLOCK with an ADMIN_PORT token (R446). -/
  | adminPortChange (p : Port) (r : Nat) (token : Option Bytes) (c : Checks)
  /-- DEBUG_UNLOCK with a RETIRE token (R445). -/
  | retire (p : Port) (r : Nat) (token : Option Bytes) (c : Checks)
  /-- SVN_ADVANCE (R450). -/
  | svnAdvance (blown : Nat := 64)
  /-- HSS_BUCKET_REFILL (R457). -/
  | hssBucketRefill (torn : Option (List (BitVec 8)) := none)
  /-- PKE_OPERATION_DONE (R461): the request whose operation ends, and the requests that have arrived while it ran (R464). -/
  | pkeOperationDone (owner : PkeOwner) (op : PkeOp) (operands : List (BitVec 8)) (arrived : List PkeReq)
  /-- GET_VERSION (R458). -/
  | getVersion (p : Port)
  /-- GET_CAPABILITIES (R458). -/
  | getCapabilities (p : Port)
  /-- NEGOTIATE_ALGORITHMS (R458): whether the request offers the supported algorithms. -/
  | negotiateAlgorithms (p : Port) (offered : Bool)
  /-- GET_DIGESTS (R458). -/
  | getDigests (p : Port)
  /-- GET_CERTIFICATE (R458). -/
  | getCertificate (p : Port) (slot : Nat)
  /-- CHALLENGE (R458). -/
  | challenge (p : Port) (slot : Nat) (nonce : Bytes)
  /-- GET_MEASUREMENTS (R458). -/
  | getMeasurements (p : Port) (index : Nat) (nonce : Bytes)
  /-- KEY_EXCHANGE (R458). -/
  | keyExchange (p : Port) (peer : Bytes)
  /-- FINISH (R458). -/
  | finish (p : Port) (session : Nat)
  /-- SPDM HEARTBEAT (R458). -/
  | spdmHeartbeat (p : Port) (session : Nat)
  /-- KEY_UPDATE (R458). -/
  | keyUpdate (p : Port) (session : Nat)
  /-- END_SESSION (R458). -/
  | endSession (p : Port) (session : Nat)
  /-- IDE_KM KEY_PROG (R459): stream 0 the link stream, 1 and 2 the selective ones. -/
  | ideKmKeyProg (p : Port) (session stream : Nat) (rx : Bool)
  /-- IDE_KM K_SET_GO (R459). -/
  | kSetGo (p : Port) (session stream : Nat)
  /-- PCIE_EQUALISATION (R476). -/
  | pcieEqualisation (p : Port)
  -- Quire links
  /-- LINK_TRAINING_RETRY (R418). -/
  | linkTrainingRetry (k : Nat)
  /-- LANE_RECALIBRATION (R419, R420): its start, or its end with the outcome `ok`. -/
  | laneRecalibration (k lane : Nat) (ok : Bool) (begins : Bool := false)
  /-- LANE_RETIRED (R421): the symbols corrected on the lane in the sheet. -/
  | laneRetired (k lane corrections : Nat)
  /-- LINK_RETRY_EXHAUSTED (R424): times the flit was resent, and microseconds without a good flit. -/
  | linkRetryExhausted (k resent quietUs : Nat)
  /-- LINK_RETRAIN_DONE (R419): what the training found, and the modules of the domain that turn out to have been reset, to be without power or
  to have lost their links (R174). -/
  | linkRetrainDone (k : Nat) (ok : Bool) (found : Option Training := none) (lost : List Nat := [])
  /-- DATA_FLIT (R423); `good` is the FEC's outcome, `auth` the GCM tag's, `line` what else the lanes made of it, `cls` its CLASS. -/
  | dataFlit (k : Nat) (h : FlitHdr) (payload : Bytes) (good auth : Bool) (line : FlitLine := .good) (cls : Nat := 1)
  /-- IDLE (R422). -/
  | idle (k : Nat) (h : FlitHdr) (line : FlitLine := .good)
  /-- NAK (R424): the last good sequence number. -/
  | nak (k seq : Nat)
  /-- GRANT (R427): receive-area credits for a stream of a span. -/
  | grant (span stream credits : Nat) (arr : Option Arrival := none)
  /-- TICK_MESSAGE (R433). -/
  | tickMessage (k tickNo period hops delay : Nat) (arr : Option Arrival := none)
  /-- MASTER_LOST (R434): the modules of the domain still reachable. -/
  | masterLost (reachable : List Nat)
  /-- PING (R433). -/
  | ping (k stamp : Nat) (arr : Option Arrival := none)
  /-- PONG (R433): the one-way delay measured, in ns. -/
  | pong (k delay : Nat) (arr : Option Arrival := none)
  /-- DELAY_MEASUREMENT (R433). -/
  | delayMeasurement
  /-- LINK_REKEY (R430). -/
  | linkRekey (k : Nat)
  /-- LINK_AUTH_DOWN (R430): tag failures on the link in the sheet. -/
  | linkAuthDown (k failures : Nat)
  -- Rows that stand last in the table
  /-- PWR_GOOD (R34): the straps, and the level of FREEZE_N (true for high). -/
  | pwrGood (moduleId : BitVec 3) (freezeN : Bool)
  /-- VIN_IN_OPERATING_RANGE (R57): VIN is at `vin` mV. -/
  | vinInOperatingRange (vin : Nat)
  /-- CRYSTAL_RECOVERED (R68). -/
  | crystalRecovered
  /-- FIRMWARE_RESTARTED (R79). -/
  | firmwareRestarted
  /-- HB_STALE (R395): HB_AGE has reached `us` microseconds. -/
  | hbStale (us : Nat)
  /-- KEYRING_BIND_COMPLETE (R171). -/
  | keyringBindComplete (p : Port) (r : Nat)
  /-- PRI_RESET (R339): the host writes the port's ATS, PRI and PASID enables and its allocation of page requests (R341). -/
  | priReset (p : Port) (ats pri pasid : Bool) (alloc : Nat := 512)
  deriving DecidableEq, Repr
end Sys2Proof
end

