-- ==== Sys2Proof/Decode.lean ====
section
/-! DEFINITION. The commands of the block have no words: the table of operations and events gives none of its
rows a bit, so no word spells a command. -/

namespace Sys2Proof

/-- The command that a word of `nbits` bits spells by the table's bits: none, for the table gives no row any.
DESIGN CHOICE, safe (assumption 11). -/
def decodeTableWord (_nbits _w : Nat) : Option Instr := none

end Sys2Proof
end

