-- ==== Sys2Proof/Config.lean ====
section
/-! DEFINITION. What one implementation fixes and the spec does not state: constants with no body, so that
no proof can rest on a value of them. Each is named in the assumption log. -/

namespace Sys2Proof.Config

/-- A fresh choice between two outcomes that the spec both allows (R37, R103), by the draw's number.
DESIGN CHOICE, safe (assumption 13); DESIGN CHOICE, safe (assumption 14); DESIGN CHOICE, safe (assumption 15). -/
opaque freeBit : Nat → Bool

/-- A fresh 64-bit value for a random draw of the security block (R455, R464), by the draw's number.
DESIGN CHOICE, safe (assumption 13); DESIGN CHOICE, safe (assumption 20). -/
opaque freeWord : Nat → BitVec 64

/-- The primes of the families Z36, Z28 and Z18 by family code, in the order of their indices (R122 to R124): values not printed.
The meanings take them where they are what the rules require of them.
DESIGN CHOICE, safe (assumption 16). -/
opaque primes : Nat → List Nat

/-- ROOT of each prime (R126, R139): family, index. The meanings take it where it has the order that R126 states.
DESIGN CHOICE, safe (assumption 16). -/
opaque root : Nat → Nat → Nat

/-- The prime indices of the Q and P chains of a parameter set (R128, R131). The meanings take them where they are distinct.
DESIGN CHOICE, safe (assumption 17). -/
opaque chainQ : Nat → List Nat
opaque chainP : Nat → List Nat

/-- The size in 8-byte words, from 1 on and counted modulo 6, of the bundle that a code section holds at a position: the encoding
is private (R17).
DESIGN CHOICE, safe (assumption 18). -/
opaque bundleWords : List (BitVec 8) → Nat → Nat

/-- SHA-384 of the boot ROM (R454).
DESIGN CHOICE, safe (assumption 19). -/
opaque romDigest : List (BitVec 8)

/-- The signature of the Alias key, by what identity rests on and the message, and that of the HSS device key, by UDS, leaf
index and message: external standards (R453 to R456).
DESIGN CHOICE, safe (assumption 19). -/
opaque aliasSign : List (BitVec 8) → List (BitVec 8) → List (BitVec 8)
opaque hssSign : List (BitVec 8) → Nat → List (BitVec 8) → List (BitVec 8)

/-- The certificate chains of SPDM slots 0 and 1 and their digests, by what identity rests on (R458).
DESIGN CHOICE, safe (assumption 19). -/
opaque certificate : List (BitVec 8) → Nat → List (BitVec 8)
opaque certDigest : List (BitVec 8) → Nat → List (BitVec 8)

/-- AES-256-GCM over a link flit (R430): link, session number, flit counter, header and plain payload give the
ciphertext and the tag. The keys come from an agreement that the spec leaves to external standards.
DESIGN CHOICE, safe (assumption 19); DESIGN CHOICE, safe (assumption 114). -/
opaque gcm : Nat → Nat → Nat → List (BitVec 8) → List (BitVec 8) → List (BitVec 8)

/-- The member of a span that holds each semaphore (R216): span, semaphore; the place among the members.
DESIGN CHOICE, safe (assumption 21). -/
opaque semHome : Nat → Nat → Nat

/-- The member that receives each outbound quire stream (R105, R428): span and stream number; the place among the other members.
DESIGN CHOICE, safe (assumption 21). -/
opaque quireDst : Nat → Nat → Nat

/-- Residues that the spec does not state: of a REPULP output (kind 0), of a BFV tensor product (1), of component 0 of a BFV plaintext
addition (2) and subtraction (5), and of the scratch of a key switch (3), from the operands' bytes and the residue's number (R147, R185,
R193, R493); and the bytes of a REPULP work area or save area, or of a saved core image (4), from a draw's number (R198, R199, R473).
DESIGN CHOICE, safe (assumption 22). -/
opaque ctValue : Nat → List (BitVec 8) → Nat → Nat

/-- The credits of a key stream, in staging blocks (R167): at least one, counted modulo the 1024 blocks of the buffer.
DESIGN CHOICE, safe (assumption 148). -/
opaque keyCredits : Nat

/-- The rounding of a rescale or modulus switch (R128, R146): prime and remainder; the quotient is rounded up.
DESIGN CHOICE, safe (assumption 23). -/
opaque rescaleUp : Nat → Nat → Bool

/-- The error of a function of the vector engine or the epilogue at an operand (R243, R280): function, sign, significand,
exponent. The meanings bound it as the spec does.
DESIGN CHOICE, unsafe (assumption 24). -/
opaque fnOffset : Nat → Bool → Nat → Int → Nat

/-- The check bits of a data word of HBM under an owner tag (R351): the spec gives the code's kind and its sizes, not its polynomial.
DESIGN CHOICE, safe (assumption 66). -/
opaque checkBits : BitVec 64 → BitVec 8 → BitVec 15

/-- Which of the numbers of signed terms that a prime can be written with its record gives (R123, R126): family code and index.
DESIGN CHOICE, safe (assumption 16). -/
opaque primeTerms : Nat → Nat → Nat

end Sys2Proof.Config
end

