-- ==== Sys2Proof/Machine/State.lean ====
section
/-! DEFINITION. The state of the block as plain data, with the value of every field at reset: the value
in the Reset column of the spec's tables (R17: after cold reset) where it has one, else the value that the
assumption log names. -/

namespace Sys2Proof.Machine

/-! ### Power, pins and clocks -/

/-- The grades (R4). -/
inductive Grade where
  | fx1224 | fx1216 | fx1208c
  deriving DecidableEq, Repr

/-- The power state of the module (R34, R58, R35): unpowered, starting between PWR_EN and PWR_GOOD,
running, in a safe shutdown, or tripped. -/
inductive Power where
  | off | starting | on | shutdown | tripped
  deriving DecidableEq, Repr

/-- How far a switch to the oscillator has gone (R66). -/
inductive SwitchPhase where
  | none | ramping | relocked
  deriving DecidableEq, Repr

/-- The pins the module samples or drives (R28 to R37).
DESIGN CHOICE, unsafe (assumption 5). -/
structure Pins where
  /-- The supply voltage in mV. -/
  vin : Nat := 60000
  pwrEn : Bool := true
  pwrGood : Bool := false
  /-- PERST_A_N and PERST_B_N are high. -/
  perstA : Bool := false
  perstB : Bool := false
  freezeN : Bool := true
  /-- ALERT_N is asserted (low). -/
  alert : Bool := false
  /-- THERMTRIP_N is asserted (low). -/
  thermtrip : Bool := false
  moduleId : BitVec 3 := 0
  /-- REFCLK_A and REFCLK_B are driven (R32). -/
  refclkA : Bool := true
  refclkB : Bool := true
  /-- TRST_N is high: low, as an open pin is, it keeps the test access port in reset (R28, R29). -/
  trstN : Bool := false
  /-- The power state. -/
  power : Power := .starting
  /-- Event codes that the management controller has not read yet (R37). -/
  mctp : List Nat := []
  deriving DecidableEq, Repr

/-- The operating point of one mill (R51, R52, R71). `capK`, `capDuty`, `thermK` are what each cause
asks for; the point applied is the highest divider and the lowest duty of them. -/
structure Mill where
  /-- Current divider (R71). -/
  divK : Nat := 32
  /-- Core rail in mV (R51). -/
  rail : Nat := 650
  /-- The firmware cap's divider and duty count (R54). -/
  capK : Nat := 16
  capDuty : Nat := 16
  /-- The duty of the cap's point, taken once its divider is reached (R54, R55). -/
  goal : Nat := 16
  /-- DIV_K when the switch of source under way began (R52). -/
  before : Nat := 32
  /-- The thermal throttle's divider (R62). -/
  thermK : Nat := 16
  /-- The hardware limiter holds the duty at 8 (R54). -/
  limiter : Bool := false
  /-- The die is at or above its limit: duty 4 (R62). -/
  thermLimit : Bool := false
  /-- The last reading of the die in degrees (R62). -/
  temp : Nat := 0
  /-- The die's or an owned stack's reading is at or above onset. -/
  hot : Bool := false
  /-- The SRAM has reported ready, so the mill ramps to 16 (R71). -/
  ramped : Bool := false
  /-- The mill has run below nominal in the sheet under way (R479). -/
  slow : Bool := false
  deriving DecidableEq, Repr

/-- One HBM stack (R354 to R363).
DESIGN CHOICE, unsafe (assumption 8). -/
structure Stack where
  /-- STATE of HBM_STACK: 0 training or filling, 1 in use, 2 self-refresh, 3 retired (R363). -/
  st : Nat := 0
  /-- Retired pseudo-channels, by their number in the stack. -/
  retired : List Nat := []
  /-- The pseudo-channel being retrained, and those whose retraining waits (R356, R364). -/
  retraining : Option Nat := none
  due : List Nat := []
  /-- The temperature at the last training of the stack, and at the last retraining of each pseudo-channel since (R356). -/
  trainedAt : Option Nat := none
  trainTemp : Tbl Nat := []
  /-- Pseudo-channels being migrated, the running one first, with the bytes that its engine has copied (R358). -/
  migrating : List (Nat × Nat) := []
  /-- Pseudo-channels that a training failure retired: they are migrated at half the rate (R358). -/
  slowCopy : List Nat := []
  /-- Granules of migrating pseudo-channels that are migrated, since they were written: pseudo-channel × 2^22 + granule (R358). -/
  moved : List Nat := []
  /-- A reset is filling the whole stack (R360, R363). -/
  filling : Bool := false
  /-- Spare data lanes switched in, by pseudo-channel, and spare command/address lanes, by channel (R347, R354). -/
  dataSpares : Tbl Nat := []
  cmdSpares : Tbl Nat := []
  temp : Nat := 0
  rate : Nat := 0
  /-- The divider of the stack's controller and physical layer, in sixteenths of nominal (R52, R63). -/
  div : Nat := 16
  /-- Row activations of the thermal limit and of the cap, in percent (R54, R62). -/
  actTherm : Nat := 100
  actCap : Nat := 100
  refreshDoubled : Bool := false
  deriving DecidableEq, Repr

/-- Power, cap and clock state of the module.
DESIGN CHOICE, unsafe (assumption 5); DESIGN CHOICE, unsafe (assumption 137). -/
structure Clk where
  source : Source := .crystal
  crystalOk : Bool := true
  /-- SYSREF is qualified; it is used when SYSREF_CFG bit 0 is set (R69). -/
  sysrefQualified : Bool := false
  sysrefUse : Bool := false
  /-- The crystal or SYSREF has stopped: no edge came for 200 ns (R65, R74). -/
  crystalStopped : Bool := false
  sysrefStopped : Bool := false
  switching : SwitchPhase := .none
  /-- A warm reset waits for the end of the switch (R87). -/
  warmWaits : Bool := false
  /-- Dividers of the hub and the fabric in sixteenths of nominal (R52, R63). -/
  hub : Nat := 16
  fabric : Nat := 16
  hubTherm : Nat := 16
  hubTemp : Nat := 0
  hubHot : Bool := false
  /-- The integrator cap as set, and the lowering by input voltage and by the regulators (R53, R57, R62). -/
  integratorCap : Nat := 1000
  vinCap : Nat := 1000
  regCap : Nat := 1000
  regHot : Bool := false
  adminCap : Nat := 1000
  /-- A requested administrative cap takes effect at the next firmware cap evaluation (R366). -/
  adminCapNext : Nat := 1000
  /-- The floor's HBM activation limit of the cap (R54). -/
  inputPower : Nat := 0
  /-- VIN in mV as the telemetry block has sampled it (R72). -/
  vinSample : Nat := 0
  vinLow : Bool := false
  /-- SYSREF stabilisation delay in half milliseconds (R69). -/
  sysrefDelay : Nat := 20
  deriving DecidableEq, Repr

/-- Bring-up and reset progress (R76 to R94). -/
structure Boot where
  fusesSensed : Bool := false
  eepromRead : Bool := false
  /-- A warm reset runs (R395), and CONTROL has not set again yet. -/
  warm : Bool := false
  /-- The module is in freeze (R481). -/
  frozen : Bool := false
  /-- ESS_CAUSE (R394). -/
  cause : Nat := 0
  heartbeat : BitVec 32 := 0
  hbAge : BitVec 32 := 0
  degraded : Bool := false
  /-- The safe state of a failed hub block (R474). -/
  safe : Bool := false
  /-- Failure records of the bring-up log, oldest first: code, unit, index, tick, info (R94, R412). -/
  log : List (Nat × Nat × Nat × Nat × Nat) := []
  deriving DecidableEq, Repr

/-! ### The security block -/

/-- The security fuses (R439). FW_KEY_HASH and TOKEN_KEY_HASH hold two SHA-384 hashes each, of the ECDSA key first.
DESIGN CHOICE, unsafe (assumption 6). -/
structure Fuses where
  uds : Bytes := List.replicate 32 0
  udsKill : Bool := false
  provisioned : Bool := true
  production : Bool := true
  retired : Bool := false
  /-- The 12 characters of SERIAL. -/
  serial : Bytes := List.replicate 12 0x30
  /-- The four fuses of GRADE. -/
  grade : BitVec 4 := 1
  fwKeyHash : Bytes := List.replicate 96 0
  tokenKeyHash : Bytes := List.replicate 96 0
  adminDefault : Port := .a
  adminChanges : Nat := 0
  unlockCount : Nat := 0
  svn : Nat := 0
  deriving DecidableEq, Repr

/-- An image slot of the flash with its record (R448). -/
structure Slot where
  img : Option FwImage := none
  valid : Bool := false
  /-- SEQUENCE of the slot's record. -/
  seq : Nat := 0
  deriving DecidableEq, Repr

/-- The running image (R449): its slot, SVN, body digest, and whether it came through recovery. -/
structure Running where
  slotB : Bool
  svn : Nat
  digest : Bytes
  recovered : Bool
  deriving DecidableEq, Repr

/-- An accepted token that waits for the last wipe: its port, ring, whether it retires the module, and the jobs that existed at the entry and
are still to be wiped (R444, R445).
DEDUCED, unsafe (assumption 174). -/
structure TokenWait where
  port : Port
  ring : Nat
  retire : Bool
  jobs : List Nat := []
  /-- Its ring was reset, so it has no completion (R403). -/
  lost : Bool := false
  deriving DecidableEq, Repr

/-- The key slots of the security block (R453): the private scalars of DeviceID and Alias, SEED and I of the HSS device key, and CDI_FW. -/
structure KeySlots where
  deviceId : Nat
  hss : Bytes
  cdiFw : Bytes
  alias_ : Nat
  deriving DecidableEq, Repr

/-- The security block (R439 to R467).
DESIGN CHOICE, unsafe (assumption 7). -/
structure Sec where
  fuses : Fuses := {}
  /-- DEBUG_UNLOCKED, volatile (R440). -/
  debug : Bool := false
  slotA : Slot := {}
  slotB : Slot := {}
  running : Option Running := none
  recovery : Bool := false
  /-- The UDS key path is locked until cold reset (R449). -/
  locked : Bool := false
  /-- What the key slots hold, none before an identity is derived (R449, R453). -/
  keys : Option KeySlots := none
  /-- The entries of the journal that are not fully erased, by block, 64 bytes each (R456). -/
  entries : List Bytes := []
  /-- The block in use and its next lower leaf (R455, R467). -/
  block : Option Nat := none
  leaf : Nat := 0
  /-- HSS signatures available (R457). -/
  bucket : Nat := 256
  /-- ATTEST commands that wait for the bucket: port, ring, whether the host's buffer takes the report, and the image digest at the issue
  (R455, R457). -/
  attestQ : List (Port × Nat × Bool × Bytes) := []
  /-- The FW_UPDATE that runs: port, ring and image (R452). -/
  update : Option (Port × Nat × FwImage) := none
  token : Option TokenWait := none
  /-- The owner of the operand memory, its contents, and the last result (R461, R465). -/
  owner : PkeOwner := .none
  opMem : Bytes := []
  result : PkeResult := .ok
  /-- Requests of the public-key engine in arrival order; the dummies run before the last operation, and the dummy store (R464). -/
  pkeQ : List PkeReq := []
  dummies : Nat := 0
  dummyStore : Bytes := []
  deriving DecidableEq, Repr

/-- An SPDM session of a port (R458): KEY_EXCHANGE opened it, FINISH establishes it; the key updates done. -/
structure Session where
  id : Nat
  finished : Bool := false
  updates : Nat := 0
  deriving DecidableEq, Repr

/-- An IDE stream of a port (R459): the keys programmed per direction, by the draw that made them, the key set in use, and the
SPDM session in which it was keyed (R489). -/
structure Ide where
  rx : Option Nat := none
  tx : Option Nat := none
  live : Option (Nat × Nat) := none
  session : Option Nat := none
  deriving DecidableEq, Repr

/-- The stream is active: a key set is in use. -/
def Ide.active (x : Ide) : Bool := x.live.isSome

/-! ### Host ports -/

/-- An entry of a port's error log (R392). -/
structure ErrEntry where
  off : Nat
  bar : Nat
  write : Bool
  kind : Nat
  tick : Nat
  deriving DecidableEq, Repr

/-- A BAR2 window (R398). -/
structure Win where
  keyStaging : Bool := false
  job : Nat := 0
  handle : Nat := 0
  baseGib : Nat := 0
  deriving DecidableEq, Repr

/-- The page of a command's buffer whose translation the command awaits, the access it needs, and whether it is halted on a page fault
(R338, R339, R406). -/
structure BufPage where
  pasid : Nat
  page : Nat
  write : Bool
  halted : Bool := false
  deriving DecidableEq, Repr

/-- A command ring (R402 to R405). `current` is the command in execution; `held` says that it was
accepted and waits (for a couch, for an engine) before its completion is posted. -/
structure Ring where
  sqLo : Reg := 0
  sqHi : Reg := 0
  cqLo : Reg := 0
  cqHi : Reg := 0
  enable : Bool := false
  sqLog2 : Nat := 4
  cqLog2 : Nat := 4
  sqTail : Nat := 0
  sqHead : Nat := 0
  cqHead : Nat := 0
  cqTail : Nat := 0
  phase : Bool := true
  current : Option Bytes := none
  held : Bool := false
  /-- The place of the command in execution in the order in which the firmware read the commands of the port's rings (R404). -/
  seq : Nat := 0
  /-- The page of its buffer that the command awaits, and the bytes of the buffer that it has written. -/
  page : Option BufPage := none
  sent : Nat := 0
  deriving DecidableEq, Repr

/-- An event record waiting or posted (R415). `body` holds the bytes from 0x10 on. -/
structure EvRec where
  type : Nat
  units : Nat
  job : Nat
  code : Nat
  tick : Nat
  body : Bytes
  deriving DecidableEq, Repr

/-- The event ring of a port (R414, R415). -/
structure EvRing where
  lo : Reg := 0
  hi : Reg := 0
  enable : Bool := false
  log2 : Nat := 6
  head : Nat := 0
  tail : Nat := 0
  lost : Nat := 0
  phase : Bool := true
  /-- Records waiting in the module, oldest first. -/
  waiting : List EvRec := []
  deriving DecidableEq, Repr

/-- The PCI identification that a port presents in its configuration space (R48). -/
structure PciId where
  vendor : Nat
  device : Nat
  subsystemVendor : Nat
  subsystem : Nat
  classCode : Nat
  revision : Nat
  deriving DecidableEq, Repr

/-- What else a port's configuration space holds beside its identification: the addresses that the host gives its two BARs (R384), the
Completer Abort bits of AER, status and severity, which is non-fatal by default (R382, R387), and the enable of ASPM L1 (R382).
DESIGN CHOICE, safe (assumption 167). -/
structure PciConf where
  bar0 : Nat := 0
  bar2 : Nat := 0
  caStatus : Bool := false
  caFatal : Bool := false
  aspmL1 : Bool := false
  deriving DecidableEq, Repr

/-- The frequency-measuring counter of a port (R73). -/
structure Fmc where
  start : Bool := false
  /-- The reference has stopped during the measurement under way, so only a new START ends it (R74). -/
  hung : Bool := false
  windowExp : Nat := 0
  targetSel : Nat := 0
  refSel : Nat := 0
  valid : Bool := false
  targetStopped : Bool := false
  selInvalid : Bool := false
  count : Nat := 0
  deriving DecidableEq, Repr

/-- A cached translation (R338): `write` and `read` are the accesses it grants. -/
structure AtsEntry where
  pasid : Nat
  page : Nat
  bus : Nat
  len : Nat
  read : Bool
  write : Bool
  deriving DecidableEq, Repr

/-- An error record (R478). -/
structure ErrRec where
  code : Nat := 0
  res : Nat := 0
  cls : Nat := 0
  job : Nat := 0
  detail : Nat := 0
  index : Nat := 0
  tick : Nat := 0
  info : Nat := 0
  deriving DecidableEq, Repr

/-- One host port with its function, rings and logs.
PRESUMED, unsafe (assumption 129); DESIGN CHOICE, safe (assumption 167). -/
structure PortSt where
  linkUp : Bool := false
  /-- Trained rate in tenths of GT/s and width (R25). -/
  gts : Nat := 0
  width : Nat := 0
  /-- The lanes are reversed, and the lanes of inverted polarity, as training found them (R25). -/
  reversed : Bool := false
  polarity : BitVec 16 := 0
  cfgReady : Bool := false
  /-- The identification presented while the configuration space answers (R48). -/
  pci : Option PciId := none
  /-- The configuration space beside it (R382 to R384). -/
  conf : PciConf := {}
  /-- A port reset whose PORT bit has not set again (R80). -/
  inReset : Bool := false
  d3 : Bool := false
  /-- ERR_STATUS [3:0], TOTAL and the entries held, oldest first (R392). -/
  errStatus : BitVec 4 := 0
  errTotal : Nat := 0
  errs : List ErrEntry := []
  /-- SNAP_CTRL BUSY, SNAP_SEQ, and the holding registers by counter key (R390, R391). -/
  snapBusy : Bool := false
  snapSeq : BitVec 32 := 0
  hold : Tbl Nat := []
  /-- A snapshot command whose completion waits for the fill: its ring. -/
  snapRing : Option Nat := none
  /-- The armed essentials action, 0 for none, and whether the arm has lapsed (R396). -/
  armed : Nat := 0
  wins : Tbl (Option Win) := []
  /-- Per-vector mask bits, all set at reset, and pending bits of MSI-X (R400). -/
  msixMask : BitVec 64 := BitVec.allOnes 64
  msixPend : BitVec 64 := 0
  msixAddr : Tbl Reg := []
  rings : Tbl Ring := []
  ev : EvRing := {}
  fmc : Fmc := {}
  /-- CLK_STATUS [10:8] (R70). -/
  clkSticky : BitVec 3 := 0
  /-- XC_RACE_SEEN of this port (R324). -/
  xcRace : BitVec 16 := 0
  /-- LINK_ERR sticky bits of each quire link (R437). -/
  linkErr : Tbl (BitVec 16) := []
  /-- VALID bits of the error records, and the records held by index (R477, R478). -/
  recValid : BitVec 32 := 0
  recs : Tbl ErrRec := []
  recLost : Nat := 0
  /-- ATS, PRI and PASID enables, the translation cache, the page requests outstanding (pasid, page)
  and those waiting for a free request (R338 to R341). -/
  ats : Bool := false
  pri : Bool := false
  pasidEn : Bool := false
  priFailed : Bool := false
  atc : List AtsEntry := []
  /-- Translation Requests outstanding: PASID and page (R338). -/
  atsReqs : List (Nat × Nat) := []
  /-- The host's outstanding page request allocation (R341). -/
  pageAlloc : Nat := 512
  pageReqs : List (Nat × Nat) := []
  pageWait : List (Nat × Nat) := []
  /-- SPDM: how far version, capabilities and algorithms are agreed (0 to 3), and the open sessions (R458). -/
  agreed : Nat := 0
  sessions : List Session := []
  /-- IDE: the link stream and the two selective streams (R459). -/
  ideLink : Ide := {}
  ideSel0 : Ide := {}
  ideSel1 : Ide := {}
  deriving DecidableEq, Repr

/-! ### Cores -/

/-- Where a core stands (R230). -/
inductive CoreMode where
  | idle | issuing | wait (sem k : Nat) | bar (b : Nat) | couch | ended | halted | out
  deriving DecidableEq, Repr

/-- One level of a hardware loop: the position of its first bundle, of its last bundle, and the
passes left after the one running (R212). -/
structure LoopLvl where
  start : Nat
  stop : Nat
  left : Nat
  deriving DecidableEq, Repr

/-- The sequencer's branch decision in a bundle: none, a target, the skipping of a loop body of count 0, or a loop level entered
(R212). -/
inductive Branch where
  | none | jump (pos : Nat) | skip (stop : Nat) | enter (stop left : Nat)
  deriving DecidableEq, Repr

/-- A scalar result still to be written: register and value (R208, R211). -/
structure SRes where
  d : SReg
  v : Word
  deriving DecidableEq, Repr

/-- A load under way: the register it writes and the data captured at issue (R208, R214). -/
inductive LoadOp where
  | scalar (d : SReg) (v : Word) | tile (t : TReg) (v : Tile)
  deriving DecidableEq, Repr

/-- What a storage operation touched: its kind of block decides the class of a storage fault (R110, R353). -/
inductive Zone where
  | wet | dry
  deriving DecidableEq, Repr

/-- What an engine's operation touches of memory: its handles, the wet blocks among those that it reads (`Machine.blkKey`), and for the
cells that it writes in part of a word or sector the handle, offset and bytes that stand there again where the read of the rest fails
(R110, R111). -/
structure Touched where
  handles : List Nat := []
  wet : List Nat := []
  old : List (Nat × Nat × Bytes) := []
  deriving DecidableEq, Repr

/-- A load in flight, with the wet blocks it read, the bundle that issued it and where it read. -/
structure LoadQ where
  op : LoadOp
  wet : List Nat
  bundle : Nat
  handle : Nat
  off : Nat
  deriving DecidableEq, Repr

/-- A vector result in flight (R274): a tile, its status register and word. -/
structure VecQ where
  stamp : Nat
  d : TReg
  v : Tile
  status : Option SReg
  word : Word
  bundle : Nat
  deriving DecidableEq, Repr

/-- A store in flight; its data stands in memory since its issue (R208, R214). One that covers part of a word reads the
rest of it: the wet blocks it read, and the bytes that stand there again where that read fails (R111). -/
structure StoreQ where
  stamp : Nat
  bundle : Nat
  wet : List Nat
  handle : Nat
  off : Nat
  part : Bool
  old : List (Nat × Bytes)
  deriving DecidableEq, Repr

/-- A SIG that has not reached its semaphore (R215). -/
structure SigQ where
  stamp : Nat
  sem : Nat
  k : Nat
  bundle : Nat
  deriving DecidableEq, Repr

/-- A number of the internal formats: NaN, a signed infinity, or the finite value
`(-1)^neg × mant × 2^exp`, held with `mant` odd, or 0 with `exp` 0 (R239, R269). -/
inductive FVal where
  | nan | inf (neg : Bool) | fin (neg : Bool) (mant : Nat) (exp : Int)
  deriving DecidableEq, Repr

/-- The event history of an element (R245, R246): its first cause (0 for none) with its k, whether the
cause arose in the epilogue, and what its history produced. -/
structure Hist where
  cause : Nat := 0
  k : Nat := 0xFFFFFF
  epi : Bool := false
  ovf : Bool := false
  inf : Bool := false
  nan : Bool := false
  deriving DecidableEq, Repr

/-- The accumulator of one element: the float total, or the integer or residue, and its history (R235 to R240). -/
structure Acc where
  i : Int := 0
  f : FVal := .fin false 0 0
  /-- The history of its products and tree sums, and that of its total, which comes after it (R246). -/
  h : Hist := {}
  t : Hist := {}
  deriving DecidableEq, Repr

/-- A product in flight: the bundle that issued it, and the memory that it reads (R110). -/
structure MmaQ where
  bundle : Nat
  mem : Touched
  deriving DecidableEq, Repr

/-- An output-tile buffer (R235): EMPTY, or OPEN with its group. -/
structure OBufSt where
  isOpen : Bool := false
  fa : Fmt := .s8
  fb : Fmt := .s8
  trace : Bool := false
  row : BitVec 32 := 0
  col : BitVec 32 := 0
  /-- The prime index of each column in residue mode (R237). -/
  primes : List Nat := []
  /-- k-values accumulated since START. -/
  k : Nat := 0
  acc : List Acc := []
  /-- Products issued whose last result has not reached the buffer, oldest first (R235). -/
  inFlight : List MmaQ := []
  draining : Bool := false
  deriving DecidableEq, Repr

/-- A drain in flight (R244): its buffer, the tile it writes, the status register, its status word, its
bundle, and whether it is a store. -/
structure DrainQ where
  o : OBuf
  tile : Option (TReg × Tile)
  status : Option SReg
  word : Word
  stamp : Nat
  bundle : Nat
  store : Bool
  mem : Touched := {}
  deriving DecidableEq, Repr

/-- An NTT operation in flight: the limbs whose writes are not acknowledged (R253). -/
structure NttQ where
  stamp : Nat
  left : Nat
  bundle : Nat
  mem : Touched := {}
  deriving DecidableEq, Repr

/-- A transforming copy in a queue (R314), its data in place since its issue: the order in which the engine takes it,
its staging bytes and whether they are granted, its completion semaphore, its bundle, its destination sectors (R322). -/
structure XcQ where
  stamp : Nat
  order : Nat
  staging : Nat
  granted : Bool
  sem : Option Nat
  bundle : Nat
  foot : List Nat
  mem : Touched := {}
  deriving DecidableEq, Repr

/-- The ciphertext operations (R493). `repulp` is the request of R199. -/
inductive CtKind where
  | add | sub | neg | addPt | mulPt | mulConst (c : Int) | tensor | relin | mulRelin | rotate (r : Int) | hoisted (rs : List Int)
  | conjugate | rescale | levelDrop (k : Nat) | form (toEval : Bool) | repulp
  deriving DecidableEq, Repr

/-- A ciphertext operation with its operands in order, its outputs, and the key slot, key indices and scratch that it names. -/
structure CtOp where
  kind : CtKind
  srcs : List Loc
  dsts : List Loc
  slot : Nat := 0
  keys : List Nat := []
  scratch : Option Loc := none
  deriving DecidableEq, Repr

/-- A ciphertext operation in flight (R141, R144, R184): its operands, headers and bodies, as they were at its issue, the keys
that have still to stream, in order, and the containers of those that have; the handles that it has still to write. -/
structure CtQ where
  op : CtOp
  data : List Bytes
  keys : List Nat
  got : List (Nat × Bytes)
  foot : List Nat
  stamp : Nat
  bundle : Nat
  mem : Touched := {}
  deriving DecidableEq, Repr

/-- A running stream of a channel (R326 to R334): its command and bundle, its position, which is the elements completed and
the 64-byte sectors of the next one (R333), its mark, and the PASID and page of the host on which it is halted (R340). A
credit is held while a block is partly moved (R332). -/
structure Chan where
  f : Strm
  bundle : Nat
  pos : Nat
  sub : Nat
  mark : Nat
  halt : Option (Nat × Nat)
  deriving DecidableEq, Repr

/-- The sticky exception register (R247): the unit (0 and 1 the buffers, 2 the vector engine), its bundle, its status
word, and when it was issued. -/
structure ExcReg where
  stamp : Nat
  unit : Nat
  bundle : Nat
  word : Word
  deriving DecidableEq, Repr

/-- One logical core (R206).
DESIGN CHOICE, unsafe (assumption 8). -/
structure CoreSt where
  job : Nat := 0
  index : Nat := 0
  mode : CoreMode := .idle
  bundle : Nat := 0
  /-- The code section, and the positions in it at which a bundle begins (R207). -/
  code : Bytes := []
  starts : List Nat := []
  sreg : Tbl Word := []
  treg : Tbl Tile := []
  o0 : OBufSt := {}
  o1 : OBufSt := {}
  /-- Return stack, innermost first, and loop levels, innermost first (R206, R212). -/
  stack : List Nat := []
  loops : List LoopLvl := []
  /-- The bundle at which a waiting core resumes. -/
  resume : Nat := 0
  /-- The operations of the bundle in issue whose last one has not come (R207, R208). -/
  staged : List Instr := []
  /-- Operations issued: the order of a SIG after the writes before it (R215). -/
  stamp : Nat := 0
  scalarQ : List SRes := []
  vecQ : List VecQ := []
  loadQ : List LoadQ := []
  storeQ : List StoreQ := []
  sigQ : List SigQ := []
  drainQ : List DrainQ := []
  nttQ : List NttQ := []
  ctQ : List CtQ := []
  xq0 : List XcQ := []
  xq1 : List XcQ := []
  chans : Tbl (Option Chan) := []
  /-- The sticky exception register: unit, bundle, status word (R247). -/
  exc : Option ExcReg := none
  /-- Affected drains and vector operations since the last tick (R247). -/
  excCount : Nat := 0
  /-- The mode a halt for an interlude replaced (R199, R229). -/
  before : CoreMode := .idle
  /-- The last tick of a DATAPATH_CHECK on the core (R111). -/
  lastCheck : Option Nat := none
  deriving DecidableEq, Repr

/-! ### Banks, handles and HBM units -/

/-- The states of a bank group (R299). -/
inductive GroupSt where
  | off | wiping | free | owned | draining | dark | evacuating | retired
  deriving DecidableEq, Repr

/-- A bank group (R299 to R304). -/
structure Group where
  st : GroupSt := .off
  /-- The owning job, or the job it is being wiped for; 0 for none. -/
  owner : Nat := 0
  /-- The group stands in its job's bank map (R300, R301). -/
  mapped : Bool := false
  /-- A pending power change: some true for up (R298). -/
  pend : Option Bool := none
  /-- The number is served by a spare group (R303, R304). -/
  spare : Bool := false
  /-- The last tick at which a correction storm struck the group (R111). -/
  storm : Option Nat := none
  deriving DecidableEq, Repr

/-- What a job has a unit of HBM for: NEAR, part of a SPREAD frame, of its key region, or of its image area (R369, R408). -/
inductive UnitUse where
  | near | frame | key | image
  deriving DecidableEq, Repr

/-- A unit of HBM (R348): its owner, 0 for none, 255 for the firmware, its use, whether it is being filled, and the stacks over which its
owner holds it (R355). -/
structure HUnit where
  owner : Nat := 0
  use : UnitUse := .near
  filling : Bool := false
  onStacks : List Nat := []
  deriving DecidableEq, Repr

/-- A handle-table entry in the layout of R293; SPACE 0 is the empty entry. -/
structure Handle where
  space : Nat := 0
  attr : Nat := 0
  layout : Nat := 0
  mode : Nat := 0
  context : Nat := 0
  bound : Nat := 0
  baseA : Nat := 0
  baseB : Nat := 0
  deriving DecidableEq, Repr

/-- The role and written bits of a durable block (R102): `roleB` says that copy B is dry. -/
structure Blk where
  roleB : Bool := false
  written : Bool := false
  deriving DecidableEq, Repr

/-- An operation of HANDLE_MAP that changes the table (R411): the handle and its new entry. -/
structure MapOp where
  h : Nat
  e : Handle
  deriving DecidableEq, Repr

/-- A HANDLE_MAP that waits for the job's next couch, with its ring (R296). -/
structure PendMap where
  port : Port
  ring : Nat
  ops : List MapOp
  deriving DecidableEq, Repr

/-- A BANK_POWER under way (R300, R301): its ring, its direction, its groups (mill × 128 + group), and
whether it has taken effect at a couch. -/
structure PendPower where
  port : Port
  ring : Nat
  up : Bool
  groups : List Nat
  begun : Bool
  deriving DecidableEq, Repr

/-! ### Jobs -/

/-- The states of a job that exists (R371). -/
inductive JobSt where
  | created | loaded | running | done | stopped | wiping
  deriving DecidableEq, Repr

/-- A loaded program image: the fields of its header that outlive the load, its core sections and tables (R223). -/
structure Image where
  bytes : Nat
  digest : Bytes
  formats : Nat
  engines : Nat
  semaphores : Nat
  barriers : Nat
  paramSet : Nat
  handles : Nat
  /-- (semaphore, initial count). -/
  semInit : List (Nat × Nat)
  /-- Participants of each barrier, as a mask of core indices. -/
  barMask : List Nat
  /-- For core index i: the logical core, the code bytes, the entry. -/
  cores : List (Nat × Bytes × Nat)
  deriving DecidableEq, Repr

/-- An entry of the sticky exception summary of a stride (R247). -/
structure Exc where
  sheet : Nat
  core : Nat
  unit : Nat
  bundle : Nat
  status : Word
  deriving DecidableEq, Repr

/-- The resource a fault names, with its index (R415). -/
structure ResIx where
  res : Res := .none
  index : Nat := 0
  deriving DecidableEq, Repr

/-- A quiesce under way (R112): the fault's class, cause, resource, detail and stored tag; the span has decided it already, so no vote of
this module reports it (R116); the tick of the sheet that detected it (R415). -/
structure Quiesce where
  contained : Bool
  code : Nat
  res : ResIx
  detail : Nat
  tag : Nat
  told : Bool := false
  tick : Option Nat := none
  deriving DecidableEq, Repr

/-- Where a released byte goes: a host address under a port and PASID, or a stream of a span (R105, R428). -/
inductive RelDst where
  | host (p : Port) (pasid addr : Nat) | link (span stream : Nat)
  deriving DecidableEq, Repr

/-- An entry staged in a release area: handle, offset within the ring, length, destination (R105); whether its bytes begin and end a block
of a quire stream (R330). -/
structure RelEntry where
  h : Nat
  off : Nat
  len : Nat
  dst : RelDst
  opens : Bool := true
  ends : Bool := true
  deriving DecidableEq, Repr

/-- A release or receive area's pointers, as byte counts that never wrap (R105).
DEDUCED, unsafe (assumption 45). -/
structure Area where
  flush : Nat := 0
  commit : Nat := 0
  write : Nat := 0
  /-- Entries staged since the last couch, oldest first. -/
  staged : List RelEntry := []
  /-- Byte counts of a receive area at which blocks of its sender end, of those that no couch has recorded as read: each is a credit to
  return (R105). -/
  ends : List Nat := []
  deriving DecidableEq, Repr

/-- A couched release with the report that follows it (R106): whether it has begun, its entries and how many of them the
engine has written, its couch report. -/
structure Release where
  begun : Bool
  seq : Nat
  entries : List RelEntry
  done : Nat := 0
  report : EvRec
  final : Bool
  deriving DecidableEq, Repr

/-! ### Keys, headboxes and interludes -/

/-- An entry of a manifest (R153). -/
structure KeyEntry where
  kind : Nat
  flags : Nat
  galois : Nat
  bytes : Nat
  digest : Bytes
  deriving DecidableEq, Repr

/-- A key placed in the key region: its 128-byte header, its stored half, and DAMAGED (R156, R178).
DESIGN CHOICE, safe (assumption 82). -/
structure KeyBody where
  header : Bytes
  body : Bytes
  damaged : Bool := false
  /-- The 4 KiB blocks of the key region that the container occupies, in order, as runs: first block and number (R159, R166). -/
  runs : List (Nat × Nat) := []
  deriving DecidableEq, Repr

/-- The ring a key set is bound to: its members in order and this module's position (R171). -/
structure KeyRing where
  members : List Nat
  pos : Nat
  /-- Members that were reset, lost power or lost their links to the ring: their keys are no longer available (R174). -/
  lost : List Nat := []
  deriving DecidableEq, Repr

/-- A key set of a job (R153 to R163). A set is OPEN until every key of its manifest, or of the
module's shard, is placed. -/
structure KeySet where
  id : Bytes
  scheme : Nat
  set : Nat
  plainMod : Nat
  flags : Nat
  entries : List KeyEntry
  /-- The 4 KiB blocks of the key region that the manifest occupies, as runs (R159). -/
  runs : List (Nat × Nat) := []
  placed : Tbl KeyBody := []
  ring : Option KeyRing := none
  /-- The slot it is bound to. -/
  slot : Option Nat := none
  /-- The slot of a pending bind, and its ring. -/
  binding : Option (Nat × Port × Nat) := none
  /-- The members of a key ring that have bound the same identifier, M and order (R171). -/
  joined : List Nat := []
  /-- An unbind is pending, with its port and ring. -/
  unbinding : Option (Port × Nat) := none
  deriving DecidableEq, Repr

/-- A KEY_INGEST that waits for the ingest in hand (R162): its port and ring, and the host bytes that its source gives. -/
structure IngestWait where
  port : Port
  ring : Nat
  src : Option Bytes
  deriving DecidableEq, Repr

/-- A bind or an unbind of a key set that waits for a couch (R163). -/
structure BindOp where
  set : Bytes
  unbind : Bool
  deriving DecidableEq, Repr

/-- An ingest in progress (R162): the port and ring, the job, the identifier and the bytes read. -/
structure Ingest where
  port : Port
  ring : Nat
  job : Nat
  set : Bytes
  src : Bytes
  deriving DecidableEq, Repr

/-- A key stream of a headbox (R167): its job, key, digits, limbs by their place in the key, broadcast group, the blocks in all,
those staged so far, those that each core has acknowledged, and the ciphertext operations that it feeds, by core and stamp (R184).
DEDUCED, unsafe (assumption 49). -/
structure KeyStream where
  job : Nat
  slot : Nat
  index : Nat
  d0 : Nat
  d1 : Nat
  limbs : List Nat
  group : List Nat
  blocks : Nat
  staged : Nat
  acked : Tbl Nat
  ops : List (Nat × Nat)
  remote : Bool
  deriving DecidableEq, Repr

/-- A block of the staging buffer (R166, R170): the job, stream and block of the stream whose leaf pairs it holds, or held last where
it is free and not wiped. -/
structure StageBlk where
  job : Nat
  stream : Nat
  block : Nat
  busy : Bool
  deriving DecidableEq, Repr

/-- An entry of the key directory (R166), with its job. -/
structure DirEntry where
  job : Nat
  keyset : Bytes
  scheme : Nat
  set : Nat
  plainMod : Nat
  kind : Nat
  galois : Nat
  state : Nat
  slot : Nat
  index : Nat
  block : Nat
  deriving DecidableEq, Repr

/-- The headbox of a mill (R166): its streams by number, its retired expanders, the sheet of the last failed check of each (R178), the
staging buffer by block, the blocks granted to each job in the round of the rotation in hand (R170), and the key directory.
DEDUCED, unsafe (assumption 49); DESIGN CHOICE, safe (assumption 148). -/
structure Headbox where
  streams : Tbl (Option KeyStream) := []
  retired : List Nat := []
  lastCheck : Tbl (Option Nat) := []
  staging : Tbl StageBlk := []
  served : Tbl Nat := []
  dir : List DirEntry := []
  deriving DecidableEq, Repr

/-- The working expanders of a headbox, of its sixteen (R178). -/
def Headbox.expanders (h : Headbox) : Nat := 16 - h.retired.length

/-- A key pass arriving from a key ring (R172): the job that requested it, the set, the key, the bytes received, and those that the streams have
read, whose room is free again. -/
structure Pass where
  job : Nat
  set : Bytes
  index : Nat
  got : Bytes
  freed : Nat := 0
  deriving DecidableEq, Repr

/-- What an interlude saves of a core beyond its couched state (R199). -/
structure CoreImg where
  treg : Tbl Tile
  o0 : OBufSt
  o1 : OBufSt
  deriving DecidableEq, Repr

/-- A request for a REPULP (R199, R202): its core, bundle, ciphertext, key slot and whether AUTO inserted it. -/
structure RepReq where
  core : Nat
  bundle : Nat
  ct : Loc
  slot : Nat
  auto : Bool
  deriving DecidableEq, Repr

/-- Where an interlude stands (R199 to R202). -/
inductive Inter where
  | none | halting | couching | working | resuming
  deriving DecidableEq, Repr

/-- The interlude of a job: its phase, its batch, the requests that wait for the next one, the saved images. -/
structure Interlude where
  ph : Inter := .none
  batch : List RepReq := []
  later : List RepReq := []
  images : Tbl CoreImg := []
  /-- The macro sheet that waits for the decision of its span is the last one (R204). -/
  last : Bool := false
  deriving DecidableEq, Repr

/-- What a couch records of a core (R101). -/
structure CoreSnap where
  bundle : Nat
  resume : Nat
  sreg : Tbl Word
  stack : List Nat
  loops : List LoopLvl
  mode : CoreMode
  chans : Tbl Chan
  /-- SIGs issued before the couch that had not reached their semaphores (R215). -/
  sigQ : List SigQ
  deriving DecidableEq, Repr

/-- What a couch records of a job (R101). -/
structure Snap where
  cores : Tbl CoreSnap := []
  sems : Tbl Nat := []
  bars : Tbl (List Nat) := []
  handles : Tbl Handle := []
  inter : Interlude := {}
  /-- Key streams that were running, or that waited to run again, by mill and number (R101). -/
  keys : List (Nat × Nat × KeyStream) := []
  deriving DecidableEq, Repr

/-- A job that exists (R365 to R380). -/
structure Job where
  st : JobSt := .created
  owner : Port := .a
  /-- Admission number, 0 for best effort (R373). -/
  adm : Nat := 0
  /-- Logical cores, in increasing number. -/
  cores : List Nat := []
  /-- Core share, key-stream shares by mill and release latency: admitted, and as last reported to the owner (R372, R376). -/
  coreShare : Nat := 0
  coreCur : Nat := 0
  keyShare : List Nat := []
  keyCur : List Nat := []
  lat : Nat := 0
  latCur : Nat := 0
  relBytes : Nat := 0
  /-- The current values that the last tick found: a change that lasts less than one sheet posts no record (R376). -/
  seenCore : Nat := 0
  seenKey : List Nat := []
  seenLat : Nat := 0
  /-- The cause of the last revocation of the core share, of the key-stream share of each mill and of the latency (R376). -/
  whyCore : Nat := 0
  whyKey : List Nat := []
  whyLat : Nat := 0
  /-- What each cause left of the core shares and of the key-stream shares of the mills when a tick last found the reported value (R376). -/
  baseCore : List (List Nat) := []
  baseKey : List (List Nat) := []
  /-- The key region: 96 MiB NEAR units (mill, k) or SPREAD frames k (R369, R408). -/
  keySpread : Bool := false
  keyUnits : Nat := 0
  /-- NEAR units given, by mill: the image area is what the key region leaves of them (R369, R408). -/
  near : List Nat := []
  /-- The loaded image, none before PROGRAM_LOAD. -/
  image : Option Image := none
  /-- SUBMIT's fields (R98, R189, R198, R248). -/
  stride : Nat := 1
  auto : Bool := false
  nanTrace : Bool := false
  work : Option Nat := none
  save : Option Nat := none
  handles : Tbl Handle := []
  maps : List PendMap := []
  power : List PendPower := []
  /-- Durable blocks, keyed handle × 2^36 + block (R102). -/
  blks : Tbl Blk := []
  /-- Contents at the last couch of the HBM scratch sectors written since (R103). -/
  undo : Tbl Bytes := []
  sems : Tbl Nat := []
  bars : Tbl (List Nat) := []
  areas : Tbl Area := []
  rels : List Release := []
  /-- Inbound quire streams by number: the data of a release whose RELEASE_END has not come, and the member that sent it
  (R428); the credits granted for outbound ones (R427). -/
  rxHidden : Tbl Bytes := []
  rxFrom : Tbl Nat := []
  txCredits : Tbl Nat := []
  /-- Credits spent since the last couch: a replay puts them back (R101, R112). -/
  txSpent : Tbl Nat := []
  /-- The stride begins at the next tick (R98, R112, R201, R472). -/
  begins : Bool := false
  /-- The sheets of the stride that have ended, counted towards D or not (R98, R342), and the final couch is made (R220). -/
  elapsed : Nat := 0
  final : Bool := false
  /-- SHEET_IN_STRIDE, sheets since the last couch, late ticks of the stride and of the ream (R98, R109, R119). -/
  sheet : Nat := 0
  sheets : Nat := 0
  late : Nat := 0
  lateReam : Nat := 0
  /-- The last tick was a late one: it counts in the ream that began at that tick (R117). -/
  lateNow : Bool := false
  uncounted : Nat := 0
  /-- The highest divider and lowest duty applied to a mill of the job in its stride (R56). -/
  kMax : Nat := 16
  dMin : Nat := 16
  /-- A page request has been outstanding in the current sheet (R342). -/
  paged : Bool := false
  /-- The deadlock condition has held since the last tick (R221). -/
  stuck : Bool := false
  /-- The couch found due at the last tick waits for its commit (R104), and a voted READY waits for a decision (R116). -/
  couching : Bool := false
  /-- The sheet that just ended was the last one allowed by R56 and the job did not couch. -/
  overrun : Bool := false
  /-- The sheet that has just ended counts towards D (R342). -/
  counts : Bool := false
  /-- Role folding is in progress in the background (R102). -/
  folding : Bool := false
  seq : Nat := 0
  replaying : Bool := false
  /-- The quiesce under way, and later faults of it that needed a remap of their own (R113). -/
  quiesce : Option Quiesce := none
  more : List Quiesce := []
  suspended : Bool := false
  /-- A suspension takes place at the next couch (R472, R473). -/
  suspend : Bool := false
  /-- Stride summary (R247). -/
  excCount : Nat := 0
  exc : Option Exc := none
  sets : List KeySet := []
  /-- Binds and unbinds that wait, in the order of their acceptance (R163). -/
  binds : List BindOp := []
  /-- The REPULP tables mapped READONLY at submission, by their place in the ready bitmap (R197). -/
  tables : List Nat := []
  inter : Interlude := {}
  snap : Snap := {}
  /-- Couched key streams of a replayed stride that wait for a free stream of their headbox, by mill and number (R101). -/
  keysWait : List (Nat × Nat × KeyStream) := []
  /-- Release engine halted on a page: PASID and page (R336). -/
  relHalt : Option (Nat × Nat) := none
  /-- The span of a job that spans modules (R116, R435). -/
  span : Option Nat := none
  /-- XC_RACE_COUNT and XC_FIRST_RACE (R324). -/
  races : Nat := 0
  firstRace : Nat := 0
  /-- Wipes still to be reported of a WIPING job: bank groups and units (R377). -/
  wipeGroups : List Nat := []
  wipeUnits : List Nat := []
  deriving DecidableEq, Repr

/-! ### Self-test -/

/-- A self-test of a slot under way (R470): the physical slot, the logical core that the spare or a
stand-in serves, the ring that asked for it, and whether the scan has ended and how. -/
structure SlotTest where
  slot : Nat
  /-- The logical core handed over, if any. -/
  core : Option Nat
  /-- The requester's port and ring. -/
  asker : Option (Port × Nat)
  /-- Handed over: the scan runs. -/
  scanning : Bool
  /-- The scan has ended. -/
  result : Option Bool
  /-- The stand-in core of a forced test, and the job suspended for it, 0 for none (R472). -/
  standIn : Option Nat := none
  suspended : Nat := 0
  /-- The spare stands in for the tested slot. -/
  spare : Bool := false
  deriving DecidableEq, Repr

/-- The self-test state of a mill (R469 to R478). -/
structure STest where
  /-- SPARE: 0 free, 1 standing in, 2 replacing a retired core, 3 retired. -/
  spare : Nat := 0
  nextSlot : Nat := 0
  /-- A turn of the rotation has come and waits (R471, R483). -/
  turn : Bool := false
  /-- The tests under way, oldest first: one that the spare serves, or of the spare, and those of a stand-in core (R472). -/
  under : List SlotTest := []
  /-- Requests waiting: logical core, FORCE, port and ring. -/
  queue : List (Nat × Bool × Port × Nat) := []
  /-- Slots retired, and the retired slot whose logical core the spare serves for good (R3, R471). -/
  retiredSlots : List Nat := []
  spareFor : Option Nat := none
  deriving DecidableEq, Repr

/-- A module-wide self-test (R473). -/
structure ModTest where
  asker : Option (Port × Nat)
  /-- Every job is suspended and the blocks are being scanned. -/
  scanning : Bool
  /-- Blocks whose scan has not ended. -/
  left : List Block
  failed : Bool
  /-- The unit of HBM in which the firmware saves the images of the cores. -/
  unit : Option Nat := none
  deriving DecidableEq, Repr

/-! ### Quire links and spans -/

/-- The states of a link (R419). -/
inductive LinkSt where
  | off | training | up | recal | retrain | down
  deriving DecidableEq, Repr

/-- A flit that waits for a credit, or in the retry buffer until it is acknowledged: class, destination, span,
tag, flags and payload (R422, R424, R426). -/
structure Flit where
  cls : Nat
  dst : Nat
  src : Nat
  span : Nat
  tag : Nat
  first : Bool
  last : Bool
  payload : Bytes
  /-- The link by which a forwarded flit came: its credit goes back there when the flit goes on (R426). -/
  via : Option Nat := none
  deriving DecidableEq, Repr

/-- A quire link (R418 to R437).
DESIGN CHOICE, unsafe (assumption 8). -/
structure Link where
  st : LinkSt := .off
  good : BitVec 5 := 0
  /-- The lanes of inverted polarity, as training found them (R39, R418). -/
  polarity : BitVec 5 := 0
  /-- The retired lane that lane 4 replaces. -/
  spareFor : Option Nat := none
  peer : Nat := 0
  peerLink : Nat := 0
  delay : Nat := 0
  encrypted : Bool := false
  /-- Number of key agreements: the session number of the nonce (R430). -/
  session : Nat := 0
  /-- The next sequence numbers out and in, and the last one acknowledged by the peer (R423, R424). -/
  txSeq : Nat := 0
  rxSeq : Nat := 0
  retry : List (Nat × Flit) := []
  waiting : List Flit := []
  /-- Credits used of each class; a class has 128 (R426). -/
  used : Tbl Nat := []
  /-- Credits to return to the peer, and the source last served, of each class (R426). -/
  owed : Tbl Nat := []
  last : Tbl Nat := []
  /-- Flits encrypted and flits decrypted under the session keys: the flit counter of each direction (R430). -/
  txCount : Nat := 0
  rxCount : Nat := 0
  /-- The local jobs whose traffic used the link in the sheet in hand (R424). -/
  users : List Nat := []
  deriving DecidableEq, Repr

/-- A link entry of the route table (R431). -/
structure RouteLink where
  k : Nat
  peer : Nat
  peerLink : Nat
  deriving DecidableEq, Repr

/-- A span entry (R431). -/
structure RouteSpan where
  id : Nat
  job : Nat
  members : List Nat
  deriving DecidableEq, Repr

/-- The route table (R431): forward entries are (destination, link mask). -/
structure Route where
  self : Nat
  master : Nat
  backup : Nat
  encrypt : Bool
  links : List RouteLink
  forwards : List (Nat × Nat)
  spans : List RouteSpan
  deriving DecidableEq, Repr

/-- The running state of a span (R435, R436): the SUBMIT that waits for START, the votes of the couch in hand,
the decisions kept, and the operating points and deadlock state the votes reported (R222, R490). -/
structure Span where
  submit : Option (Port × Nat) := none
  firstTick : Option Nat := none
  votes : List (Nat × Vote) := []
  /-- COUCH_SEQ of the votes in hand. -/
  voteSeq : Nat := 0
  dead : Bool := true
  kMax : Nat := 16
  dMin : Nat := 16
  /-- The master's decisions: COUCH_SEQ, tick and decision, newest first. -/
  decisions : List (Nat × Nat × Decision) := []
  /-- This module's vote of the last tick, while it holds no decision on it. -/
  mine : Option Vote := none
  /-- A fault of this module whose rollback of the span is not decided yet (R116). -/
  faulted : Bool := false
  /-- A fault found after a READY vote, handled after the decision (R116). -/
  deferred : Option Quiesce := none
  deriving DecidableEq, Repr

/-- The module's place in its tick group (R433, R434, R437): 0 alone, 1 master, 2 follower, 3 backup that has taken over.
DEDUCED, unsafe (assumption 96). -/
structure TickGroup where
  role : Nat := 0
  master : Nat := 0
  pathDelay : Nat := 0
  /-- The number and period of the TICK in use. -/
  next : Nat := 0
  hops : Nat := 0
  deriving DecidableEq, Repr

/-! ### The state -/

/-- What the module has sent to the outside, newest first in `State.out` (the model's own log of its
interfaces).
DESIGN CHOICE, safe (assumption 12). -/
inductive Out where
  /-- A completion written to the completion ring of port and ring, at an index (R405, R407). -/
  | completion (p : Port) (r idx : Nat) (bytes : Bytes)
  /-- An event record written at a unit index of the event ring (R415). -/
  | event (p : Port) (idx : Nat) (bytes : Bytes)
  /-- An MSI-X vector (R400). -/
  | msix (p : Port) (v : Nat)
  /-- A BAR0 or BAR2 read completed with data (R386, R399). -/
  | data (p : Port) (bytes : Bytes)
  /-- A request completed or reported as Completer Abort (R387, R399). -/
  | abort (p : Port)
  /-- Bytes written to host memory under a PASID, or to a bus address (R105, R406). -/
  | host (p : Port) (pasid : Option Nat) (addr : Nat) (bytes : Bytes)
  /-- A page request (R339), a Translation Request, and the completion of an invalidation (R338). -/
  | page (p : Port) (pasid page : Nat)
  | translate (p : Port) (pasid page : Nat)
  | invalidated (p : Port) (pasid page : Nat)
  /-- The NACK of an EEPROM byte (R31), and a refused cap (R53). -/
  | nack
  /-- Bytes read over MCTP, JTAG or SPDM (R37, R458, R482). -/
  | mctp (code : Nat)
  | jtag (bytes : Bytes)
  | spdm (p : Port) (bytes : Bytes)
  /-- A flit sent on a quire link (R422). -/
  | link (k : Nat) (bytes : Bytes)
  deriving DecidableEq, Repr

/-- Reasons for a stop of the whole machine: this block has none, since every event the spec describes
has an effect or is discarded; the one constructor marks a state that no command reaches. Safe. -/
inductive Fault where
  /-- Raised by nothing. Safe: no claim can rest on it. -/
  | unreachable
  deriving DecidableEq, Repr

/-- Reasons for refusing a command. -/
inductive Refusal where
  /-- The command has no meaning yet: answered by its arm of `exec` only. Safe. -/
  | notModelled (mnemonic : String)
  deriving DecidableEq, Repr

/-- The whole block (R2, R13): everything the spec gives it, its queue of commands, and the log of what
it sent. -/
structure State where
  pins : Pins := {}
  clk : Clk := {}
  mills : Tbl Mill := []
  hbms : Tbl Stack := []
  boot : Boot := {}
  sec : Sec := {}
  grade : Grade := .fx1224
  /-- The ready bitmap, READY_HI above READY_LO (R90). -/
  ready : BitVec 64 := 0
  portA : PortSt := {}
  portB : PortSt := {}
  /-- Configuration EEPROM, 8 KiB (R31). -/
  eeprom : Mem := []
  /-- Sheet and ream state (R95, R117, R119). -/
  period : Nat := 100
  periodNext : Nat := 100
  /-- A period has been accepted since the last tick. -/
  periodSet : Bool := false
  reamLen : Nat := 10000
  reamNext : Nat := 10000
  sheetInReam : Nat := 0
  /-- The last tick was a boundary whose latch is still to come: the live counters at that instant. -/
  boundary : Option (Tbl Nat) := none
  /-- The first tick has begun the first ream (R117). -/
  reamOn : Bool := false
  /-- CONTROL has set since cold reset, so the module ticks. -/
  ticking : Bool := false
  /-- Number of the next tick (R96). -/
  tick : Nat := 0
  reams : BitVec 32 := 0
  /-- Policy (R366). -/
  timeoutMs : Nat := 50
  selftestHours : Nat := 24
  admitA : Bool := true
  admitB : Bool := true
  quotaJobs : Nat := 16
  quotaCores : Nat := 64
  adminPort : Port := .a
  /-- The number of admissions since cold reset (R373). -/
  admissions : Nat := 0
  /-- Jobs 1 to 16; an absent number is free. -/
  jobs : Tbl (Option Job) := []
  cores : Tbl CoreSt := []
  groups : Tbl Group := []
  /-- Spare bank groups left of each mill (R303). -/
  sparesUsed : Tbl Nat := []
  units : Tbl HUnit := []
  sram : Mem := []
  hbm : Mem := []
  hbmTag : Tbl Nat := []
  headboxes : Tbl Headbox := []
  ingest : Option Ingest := none
  /-- Ingests that wait, in order of arrival, and the port of the last one taken (R162). -/
  ingestQ : List IngestWait := []
  ingestLast : Port := .b
  passes : List Pass := []
  /-- The REPULP table being built, by its place in the ready bitmap (R93). -/
  building : List Nat := []
  /-- The HBM units of each table, by that place (R197). -/
  tableUnits : Tbl (List Nat) := []
  /-- Transforming copies issued: the order in which the engines take them (R319). -/
  xcOrder : Nat := 0
  links : Tbl Link := []
  route : Option Route := none
  spans : Tbl Span := []
  tickGroup : TickGroup := {}
  /-- Live counters and ream registers by counter key (R479, R305, R437). -/
  ctr : Tbl Nat := []
  ream : Tbl Nat := []
  /-- The last correction storm of each pseudo-channel, and its last tag mismatch (R111, R353). -/
  pcStorm : Tbl (Option Nat) := []
  pcTag : Tbl (Option Nat) := []
  stests : Tbl STest := []
  modTest : Option ModTest := none
  /-- The model's own: how many free values have been drawn. -/
  freeCtr : Nat := 0
  /-- The model's own: what was sent, newest first. -/
  out : List Out := []
  /-- The commands that wait, first in first out. -/
  pending : List Instr := []
  deriving DecidableEq, Repr

/-- The machine right after a cold reset (R17, R76).
DESIGN CHOICE, unsafe (assumption 5); DESIGN CHOICE, unsafe (assumption 6); DESIGN CHOICE, unsafe (assumption 7); DESIGN CHOICE, unsafe (assumption 8). -/
def State.reset : State := {}

end Sys2Proof.Machine
end

