-- ==== Sys2Proof/Machine/Tables.lean ====
section
/-! DEFINITION. Reading and writing the sparse tables and memories that the state is held in. -/

namespace Sys2Proof

/-- What a table holds at a key, the default where it holds nothing. -/
def Tbl.get {α : Type} (d : α) : Tbl α → Nat → α
  | [], _ => d
  | (k, v) :: t, n => if k = n then v else Tbl.get d t n

/-- The table with one entry written, in key order. -/
def Tbl.set {α : Type} : Tbl α → Nat → α → Tbl α
  | [], n, v => [(n, v)]
  | (k, w) :: t, n, v =>
    if n < k then (n, v) :: (k, w) :: t
    else if n = k then (n, v) :: t
    else (k, w) :: Tbl.set t n v

/-- The table with one key removed. -/
def Tbl.erase {α : Type} : Tbl α → Nat → Tbl α
  | [], _ => []
  | (k, w) :: t, n => if k = n then t else (k, w) :: Tbl.erase t n

/-- The keys rise strictly. -/
def Tbl.sorted {α : Type} : Tbl α → Bool
  | [] => true
  | [_] => true
  | (k, _) :: (k', w) :: t => k < k' && Tbl.sorted ((k', w) :: t)

/-- The byte at an address.
DESIGN CHOICE, unsafe (assumption 10). -/
def Mem.get (m : Mem) (a : Nat) : Byte := Tbl.get 0 m a

/-- The memory with one byte written; a byte of value 0 is not listed.
DESIGN CHOICE, unsafe (assumption 10). -/
def Mem.set (m : Mem) (a : Nat) (v : Byte) : Mem :=
  if v = 0 then Tbl.erase m a else Tbl.set m a v

/-- The canonical form: addresses strictly rising, no byte 0 listed.
DESIGN CHOICE, unsafe (assumption 10). -/
def Mem.wf (m : Mem) : Bool := Tbl.sorted m && m.all fun c => c.2 != 0

/-- `n` bytes from address `a` on. -/
def Mem.read (m : Mem) (a : Nat) : Nat → Bytes
  | 0 => []
  | n + 1 => m.get a :: Mem.read m (a + 1) n

/-- Bytes written from address `a` on. -/
def Mem.write (m : Mem) (a : Nat) : Bytes → Mem
  | [] => m
  | b :: bs => Mem.write (m.set a b) (a + 1) bs

/-- `n` bytes from address `a` on set to 0: the entries in the range are dropped.
DESIGN CHOICE, unsafe (assumption 10). -/
def Mem.wipe (m : Mem) (a n : Nat) : Mem := m.filter fun c => c.1 < a || a + n ≤ c.1

end Sys2Proof
end

