-- ==== Sys2Proof/Machine/Formats.lean ====
section
/-! DEFINITION. The sixteen number formats, the two internal ones, rounding and conversion (R256 to R273). -/

namespace Sys2Proof.Machine

/-! ### Codes, widths and classes (R256) -/

def fmtCode : Fmt → Nat
  | .z36 => 0 | .z28 => 1 | .z18 => 2 | .s8 => 3 | .s16 => 4 | .s32 => 5 | .u8 => 6 | .f4e2s => 7
  | .f8e4 => 8 | .f8e4s => 9 | .f8e5 => 10 | .f12e5 => 11 | .f16e5 => 12 | .f16e8 => 13 | .f24e8 => 14 | .f32e8 => 15

/-- The field width in bits. -/
def fmtWidth : Fmt → Nat
  | .z36 => 36 | .z28 => 28 | .z18 => 18 | .s8 => 8 | .s16 => 16 | .s32 => 32 | .u8 => 8 | .f4e2s => 4
  | .f8e4 => 8 | .f8e4s => 8 | .f8e5 => 8 | .f12e5 => 12 | .f16e5 => 16 | .f16e8 => 16 | .f24e8 => 24 | .f32e8 => 32

/-- The classes of format. -/
inductive FmtClass where
  | residue | int | float
  deriving DecidableEq, Repr

def fmtClass : Fmt → FmtClass
  | .z36 | .z28 | .z18 => .residue
  | .s8 | .s16 | .s32 | .u8 => .int
  | _ => .float

/-- Packed formats, whose elements are not whole bytes, and the size of their groups in bytes (R257, R311). -/
def fmtGroup : Fmt → Option Nat
  | .z36 => some 36 | .z28 => some 28 | .z18 => some 18 | .f4e2s => some 1 | .f12e5 => some 3 | _ => none

/-- The bytes of a leaf of 1,024 elements. -/
def leafBytes (f : Fmt) : Nat := 128 * fmtWidth f

/-! ### Packing (R257)

Every format packs its elements as one little-endian run of bits, eight elements in `w` bytes. -/

/-- The elements of a number of `8w` bits. -/
def splitGroup (w v : Nat) : List (BitVec 36) := (List.range 8).map fun i => BitVec.ofNat 36 (v / 2 ^ (w * i) % 2 ^ w)

/-- Little-endian value of bytes. -/
def bytesVal : Bytes → Nat
  | [] => 0
  | b :: bs => b.toNat + 256 * bytesVal bs

/-- `n` bytes of a value, little-endian. -/
def valBytes : Nat → Nat → Bytes
  | 0, _ => []
  | n + 1, v => BitVec.ofNat 8 v :: valBytes n (v / 256)

/-- `n` groups of eight elements read from bytes. -/
def unpack (w : Nat) : Nat → Bytes → List (BitVec 36)
  | 0, _ => []
  | n + 1, b => splitGroup w (bytesVal (b.take w)) ++ unpack w n (b.drop w)

/-- The number that elements form, each in `w` bits. -/
def joinGroup (w : Nat) : List (BitVec 36) → Nat
  | [] => 0
  | x :: xs => x.toNat % 2 ^ w + 2 ^ w * joinGroup w xs

/-- `n` groups of eight elements packed. -/
def pack (w : Nat) : Nat → List (BitVec 36) → Bytes
  | 0, _ => []
  | n + 1, xs => valBytes w (joinGroup w (xs.take 8)) ++ pack w n (xs.drop 8)

/-- The tile that a leaf holds. -/
def unpackLeaf (f : Fmt) (b : Bytes) : Tile := unpack (fmtWidth f) 128 b

/-- A tile's element, 0 beyond the end of its list. -/
def tileAt (t : Tile) (i : Nat) : BitVec 36 := t.getD i 0

/-- The 1,024 elements of a tile. -/
def tileFull (t : Tile) : Tile := (List.range 1024).map (tileAt t)

/-- The leaf that a tile packs into. -/
def packLeaf (f : Fmt) (t : Tile) : Bytes := pack (fmtWidth f) 128 (tileFull t)

/-! ### Dyadic values -/

def FVal.zero (neg : Bool) : FVal := .fin neg 0 0

/-- The bits of a number. -/
def bitLen (n : Nat) : Nat := if n = 0 then 0 else Nat.log2 n + 1

/-- Compares `m × 2^e` with `m' × 2^e'`: true when the first is less. -/
def dyLt (m : Nat) (e : Int) (m' : Nat) (e' : Int) : Bool :=
  let b := min e e'
  m * 2 ^ (e - b).toNat < m' * 2 ^ (e' - b).toNat

/-- The exact sum. `x + (−x)` is +0, and −0 + −0 is −0 (R239). -/
def FVal.add : FVal → FVal → FVal
  | .nan, _ => .nan
  | _, .nan => .nan
  | .inf a, .inf b => if a = b then .inf a else .nan
  | .inf a, .fin _ _ _ => .inf a
  | .fin _ _ _, .inf b => .inf b
  | .fin a m e, .fin b n f =>
    let g := min e f
    let x : Int := (if a then -1 else 1) * (m * 2 ^ (e - g).toNat)
    let y : Int := (if b then -1 else 1) * (n * 2 ^ (f - g).toNat)
    let z := x + y
    if z = 0 then .fin (a && b) 0 0 else .fin (z < 0) z.natAbs g

def FVal.negate : FVal → FVal
  | .nan => .nan
  | .inf a => .inf (!a)
  | .fin a m e => .fin (!a) m e

/-- The exact product; 0 × ∞ is NaN. -/
def FVal.mul : FVal → FVal → FVal
  | .nan, _ => .nan
  | _, .nan => .nan
  | .inf a, .inf b => .inf (a != b)
  | .inf a, .fin b m _ => if m = 0 then .nan else .inf (a != b)
  | .fin a m _, .inf b => if m = 0 then .nan else .inf (a != b)
  | .fin a m e, .fin b n f => if m = 0 ∨ n = 0 then .fin (a != b) 0 0 else .fin (a != b) (m * n) (e + f)

def FVal.isNan : FVal → Bool | .nan => true | _ => false
def FVal.isInf : FVal → Bool | .inf _ => true | _ => false
def FVal.isZero : FVal → Bool | .fin _ 0 _ => true | _ => false
def FVal.neg? : FVal → Bool | .nan => false | .inf a => a | .fin a _ _ => a

/-- The signed integer scaled: `m × 2^e` of a finite value as a pair of an integer and an exponent. -/
def FVal.signed : FVal → Int × Int
  | .fin a m e => ((if a then -1 else 1) * m, e)
  | _ => (0, 0)

/-- Numerical order, with −0 below +0 where `zeros` is set; false when either is NaN (R279, R280).
DEDUCED, unsafe (assumption 34). -/
def FVal.less (zeros : Bool) : FVal → FVal → Bool
  | .nan, _ => false
  | _, .nan => false
  | .inf a, .inf b => a && !b
  | .inf a, .fin _ _ _ => a
  | .fin _ _ _, .inf b => !b
  | .fin a m e, .fin b n f =>
    if m = 0 ∧ n = 0 then zeros && a && !b
    else
      let g := min e f
      (if a then -1 else 1) * ((m * 2 ^ (e - g).toNat : Nat) : Int) < (if b then -1 else 1) * ((n * 2 ^ (f - g).toNat : Nat) : Int)

/-! ### Float formats (R261 to R263, R269) -/

/-- A float layout: exponent and fraction bits, bias, and what the top exponent holds: 0 infinities and NaN, 1 finite
values and one NaN (F8E4S), 2 finite values only (F4E2S). -/
structure FSpec where
  e : Nat
  f : Nat
  top : Nat
  deriving DecidableEq, Repr

def FSpec.bias (p : FSpec) : Int := 2 ^ (p.e - 1) - 1

/-- The layouts of the storable float formats; of no meaning for the others. -/
def fSpec : Fmt → FSpec
  | .f4e2s => ⟨2, 1, 2⟩ | .f8e4 => ⟨4, 3, 0⟩ | .f8e4s => ⟨4, 3, 1⟩ | .f8e5 => ⟨5, 2, 0⟩ | .f12e5 => ⟨5, 6, 0⟩
  | .f16e5 => ⟨5, 10, 0⟩ | .f16e8 => ⟨8, 7, 0⟩ | .f24e8 => ⟨8, 15, 0⟩ | _ => ⟨8, 23, 0⟩

/-- The partial and the total format of the array (R269). -/
def partialSpec : FSpec := ⟨8, 26, 0⟩
def totalSpec : FSpec := ⟨11, 40, 0⟩

/-- The significand and exponent of the largest finite value. -/
def FSpec.largest (p : FSpec) : Nat × Int :=
  let m := if p.top = 1 then 2 ^ (p.f + 1) - 2 else 2 ^ (p.f + 1) - 1
  let top : Int := if p.top = 0 then 2 ^ p.e - 2 else 2 ^ p.e - 1
  (m, top - p.bias - p.f)

/-- The least exponent of a normal value: it is 2 to this. -/
def FSpec.minExp (p : FSpec) : Int := 1 - p.bias

/-- `m × 2^e` rounded to `n` significant bits, to nearest with ties to even, as if the exponent had no bound (R265, R266). -/
def roundBits (n m : Nat) (e : Int) : Nat × Int :=
  let k := bitLen m - n
  if k = 0 then (m, e)
  else
    let q := m / 2 ^ k
    let r := m % 2 ^ k
    let h := 2 ^ (k - 1)
    (if h < r ∨ (r = h ∧ q % 2 = 1) then q + 1 else q, e + k)

/-- Trailing zeros of a significand moved to its exponent, so that equal values are equal data. -/
def trim : Nat → Nat → Int → Nat × Int
  | 0, m, e => (m, e)
  | n + 1, m, e => if m ≠ 0 ∧ m % 2 = 0 then trim n (m / 2) (e + 1) else (m, e)

/-- A finite value with an odd significand, or a zero with exponent 0. -/
def FVal.canon : FVal → FVal
  | .fin a 0 _ => .fin a 0 0
  | .fin a m e => let x := trim (bitLen m) m e; .fin a x.1 x.2
  | v => v

/-- A value rounded to a format, with the OVERFLOW event (R265 to R267): a magnitude at or beyond the threshold gives
infinity, or the largest finite value in a saturating format. -/
def FSpec.round (p : FSpec) : FVal → FVal × Bool
  | .fin a m e =>
    if m = 0 then (.fin a 0 0, false)
    else
      let l := p.largest
      if dyLt m e (2 * l.1 + 1) (l.2 - 1) then
        let q := roundBits (p.f + 1) m e
        if (Nat.log2 q.1 : Int) + q.2 < p.minExp then (.fin a 0 0, false) else ((FVal.fin a q.1 q.2).canon, false)
      else (if p.top = 0 then .inf a else (FVal.fin a l.1 l.2).canon, true)
  | .inf a => if p.top = 0 then (.inf a, false) else ((FVal.fin a p.largest.1 p.largest.2).canon, true)
  | .nan => (.nan, false)

/-- The value of a code; subnormals read as zero (R261, R262, R264, R265). -/
def FSpec.decode (p : FSpec) (c : Nat) : FVal :=
  let s := c / 2 ^ (p.e + p.f) % 2 == 1
  let x := c / 2 ^ p.f % 2 ^ p.e
  let f := c % 2 ^ p.f
  if x = 0 then .fin s 0 0
  else if x = 2 ^ p.e - 1 ∧ p.top = 0 then (if f = 0 then .inf s else .nan)
  else if x = 2 ^ p.e - 1 ∧ p.top = 1 ∧ f = 2 ^ p.f - 1 then .nan
  else (FVal.fin s (2 ^ p.f + f) ((x : Int) - p.bias - p.f)).canon

/-- The code of the written NaN: top exponent with the highest fraction bit, all ones in F8E4S, and +0 in F4E2S, which has
none (R262, R264, R270). -/
def FSpec.nanCode (p : FSpec) : Nat :=
  if p.top = 2 then 0
  else if p.top = 1 then 2 ^ (p.e + p.f) - 1
  else (2 ^ p.e - 1) * 2 ^ p.f + 2 ^ (p.f - 1)

/-- The code of a value that the format holds exactly. -/
def FSpec.encode (p : FSpec) : FVal → Nat
  | .nan => p.nanCode
  | .inf a => (if a then 2 ^ (p.e + p.f) else 0) + (2 ^ p.e - 1) * 2 ^ p.f
  | .fin a m e =>
    let s := if a then 2 ^ (p.e + p.f) else 0
    if m = 0 then s
    else
      let k := Nat.log2 m
      let x := ((k : Int) + e + p.bias).toNat
      let f := if k ≤ p.f then m * 2 ^ (p.f - k) else m / 2 ^ (k - p.f)
      s + x * 2 ^ p.f + f % 2 ^ p.f

/-- A value written in a float format: its code and the OVERFLOW event. -/
def FSpec.write (p : FSpec) (v : FVal) : Nat × Bool :=
  let r := p.round v
  (p.encode r.1, r.2)

/-! ### Integer formats (R260) -/

/-- The least and the greatest value. -/
def intRange : Fmt → Int × Int
  | .s8 => (-128, 127) | .s16 => (-32768, 32767) | .u8 => (0, 255) | _ => (-2147483648, 2147483647)

/-- The value of a field. -/
def intRead (f : Fmt) (c : Nat) : Int :=
  let w := fmtWidth f
  let v := c % 2 ^ w
  if f = .u8 then v else if 2 ^ (w - 1) ≤ v then (v : Int) - 2 ^ w else v

/-- A value saturated, with the OVERFLOW event. -/
def intSat (f : Fmt) (x : Int) : Int × Bool :=
  let r := intRange f
  if x < r.1 then (r.1, true) else if r.2 < x then (r.2, true) else (x, false)

/-- The field of a value in range. -/
def intCode (f : Fmt) (x : Int) : Nat := (x % 2 ^ fmtWidth f).toNat

/-- A value written in an integer format: its field and the OVERFLOW event. -/
def intWrite (f : Fmt) (x : Int) : Nat × Bool :=
  let r := intSat f x
  (intCode f r.1, r.2)

/-! ### Residues (R258, R259) -/

/-- The centred representative of a residue. -/
def centred (q r : Nat) : Int := if r % q ≤ (q - 1) / 2 then ((r % q : Nat) : Int) else ((r % q : Nat) : Int) - q

/-- An integer modulo a prime, from 0 to q − 1. -/
def intMod (x : Int) (q : Nat) : Nat := (x % q).toNat

/-! ### Conversions (R270 to R272) -/

/-- `m × 2^e` rounded to an integer, to nearest with ties to even (R266). -/
def roundInt (neg : Bool) (m : Nat) (e : Int) : Int :=
  let n : Nat :=
    if 0 ≤ e then m * 2 ^ e.toNat
    else
      let k := (-e).toNat
      let q := m / 2 ^ k
      let r := m % 2 ^ k
      if 2 ^ k < 2 * r ∨ (2 * r = 2 ^ k ∧ q % 2 = 1) then q + 1 else q
  if neg then -(n : Int) else n

/-- What an element of a format reads as: a number, an infinity or the NaN; a residue by its centred representative. -/
def readVal (f : Fmt) (q c : Nat) : FVal :=
  match fmtClass f with
  | .float => (fSpec f).decode (c % 2 ^ fmtWidth f)
  | .int => let x := intRead f c; .fin (x < 0) x.natAbs 0
  | .residue => let x := centred q (c % 2 ^ fmtWidth f); .fin (x < 0) x.natAbs 0

/-- The events of an element, by their cause codes of R245. -/
def evNan : Nat := 1
def evZeroInf : Nat := 2
def evInfInf : Nat := 3
def evOverflow : Nat := 4
def evInf : Nat := 5
def evDomain : Nat := 6

/-- The destination format has a NaN, or an infinity. -/
def hasNan (f : Fmt) : Bool := fmtClass f == .float && (fSpec f).top != 2
def hasInf (f : Fmt) : Bool := fmtClass f == .float && (fSpec f).top == 0

/-- A conversion of an element from `f` to `d` (R270, R271): source prime, destination prime, and the scale as
significand and exponent. The written field, and the events in the order of R272. -/
def convert (f d : Fmt) (q q2 : Nat) (sm : Nat) (sx : Int) (c : Nat) : Nat × List Nat :=
  let v := readVal f q c
  let v' := if fmtClass f = .residue ∧ fmtClass d = .float ∨ fmtClass f = .float ∧ fmtClass d = .residue then v.mul (.fin false sm sx) else v
  let ev1 := if v.isNan ∧ !hasNan d then [evNan] else if v.isInf ∧ !hasInf d then [evInf] else []
  match fmtClass d with
  | .float =>
    let v' := match v' with
      | .fin _ 0 _ => if fmtClass f = .float then v' else .fin false 0 0
      | x => x
    let r := (fSpec d).write v'
    (r.1, ev1 ++ (if r.2 then [evOverflow] else []))
  | .int =>
    match v' with
    | .nan => (0, ev1)
    | .inf a => (intCode d (if a then (intRange d).1 else (intRange d).2), ev1 ++ [evOverflow])
    | .fin a m e =>
      let r := intWrite d (roundInt a m e)
      (r.1, if r.2 then [evOverflow] else [])
  | .residue =>
    match v' with
    | .fin a m e => (intMod (roundInt a m e) q2, [])
    | _ => (0, ev1)

/-! ### Functions of the vector engine and of the epilogue (R243, R280)

Their values are fixed by polynomials that the spec does not print: it bounds their error. The model takes a value
within the bound: an approximation far closer than it, moved by a free offset in steps of 2^-40. -/

/-- A free offset of at most 2^18 steps either way. -/
def offset (fn : Nat) (neg : Bool) (m : Nat) (e : Int) : Int :=
  let x : Int := (Config.fnOffset fn neg m e % (2 ^ 19 + 1) : Nat)
  x - 2 ^ 18

/-- `v × (1 + n × 2^-40)`. -/
def FVal.relErr (v : FVal) (n : Int) : FVal := v.mul (FVal.add (.fin false 1 0) (.fin (n < 0) n.natAbs (-40)))

/-- `r` lies within 2^-22 of the function's value that `v` approximates. The approximation's own error is below 2^-34, and none from 2^13 on,
where GELU falls short of its operand by less than any format can tell. -/
def FVal.near (v r : FVal) : Bool :=
  match v.add r.negate, v with
  | .fin a m e, .fin b n f => dyLt m e (2 ^ 18 - 2 ^ 6) (-40) || (!a && !b && !dyLt n f 1 13 && !dyLt (2 ^ 18) (-40) m e)
  | _, _ => false

/-- `v + n × 2^-40`, where that and its rounding to the total format before stage 5 keep the bound of R243; else `v`.
DESIGN CHOICE, unsafe (assumption 24). -/
def FVal.absErr (v : FVal) (n : Int) : FVal :=
  let w := v.add (.fin (n < 0) n.natAbs (-40))
  if v.near w && v.near (totalSpec.round w).1 then w else v

/-- 2^(2^-i) for i from 1 on, in units of 2^-96, each the square root of the one before. -/
def rootsOfTwo : Nat → Nat → List Nat
  | 0, _ => []
  | n + 1, x => let r := Nat.sqrt (x * 2 ^ 96); r :: rootsOfTwo n r

/-- 2 to the fraction `f × 2^-64`, in units of 2^-96. -/
def exp2Frac (f : Nat) : Nat :=
  ((rootsOfTwo 64 (2 ^ 97)).zipIdx).foldl (fun a p => if f / 2 ^ (63 - p.2) % 2 = 1 then a * p.1 / 2 ^ 96 else a) (2 ^ 96)

/-- 2 to a fixed-point number of units of 2^-64, as a value. -/
def exp2Fix (x : Int) : FVal := .fin false (exp2Frac (x % 2 ^ 64).toNat) (x / 2 ^ 64 - 96)

/-- A finite value in units of 2^-64, rounded down; a magnitude of 2^13 or more is held at 2^13.
DESIGN CHOICE, unsafe (assumption 24). -/
def toFix (neg : Bool) (m : Nat) (e : Int) : Int :=
  let big := !dyLt m e 1 13
  let n : Nat := if big then 2 ^ 77 else if 0 ≤ e + 64 then m * 2 ^ (e + 64).toNat else m / 2 ^ (-(e + 64)).toNat
  if neg then -(n : Int) else n

/-- log2 e in units of 2^-64. -/
def log2e : Int := 26613026195688644983

/-- e to a number in units of 2^-64, in units of 2^-64; 0 where it is too small to tell from 0.
DESIGN CHOICE, unsafe (assumption 24). -/
def expFix (x : Int) : Nat :=
  let y := x * log2e / 2 ^ 64
  let k := y / 2 ^ 64
  let m := exp2Frac (y % 2 ^ 64).toNat
  if 0 ≤ k then m * 2 ^ k.toNat / 2 ^ 32 else m / 2 ^ (32 + (-k).toNat)

/-- The series of the normal distribution function: the sum of x^(2n+1) / (1·3·5···(2n+1)), in units of 2^-64.
DESIGN CHOICE, unsafe (assumption 24). -/
def phiSeries (x : Nat) : Nat → Nat → Nat → Nat
  | 0, _, _ => 0
  | n + 1, term, k => term + phiSeries x n (term * x / 2 ^ 64 * x / 2 ^ 64 / (k + 2)) (k + 2)

/-- The standard normal density in units of 2^-128: 2^64 / √(2π) times e^(−a²/2), as 2 to a fraction and a shift. -/
def normalDensity (a : Nat) : Nat :=
  let y := -((a * a / 2 ^ 65 : Nat) : Int) * log2e / 2 ^ 64
  exp2Frac (y % 2 ^ 64).toNat * 7359186146747302452 / 2 ^ (32 + (-(y / 2 ^ 64)).toNat)

/-- The standard normal distribution function in units of 2^-64; from 7 on it is 1 to within 2^-39. -/
def phi (x : Int) : Int :=
  let a := x.natAbs
  if 7 * 2 ^ 64 ≤ a then (if x < 0 then 0 else 2 ^ 64)
  else
    let h : Int := (normalDensity a * phiSeries a 120 a 1 / 2 ^ 128 : Nat)
    if x < 0 then 2 ^ 63 - h else 2 ^ 63 + h

/-- A number in units of 2^-64 as a value. -/
def ofFix (x : Int) : FVal := .fin (x < 0) x.natAbs (-64)

/-- EXP2 (R280). -/
def fnExp2 : FVal → FVal
  | .nan => .nan
  | .inf a => if a then .fin false 0 0 else .inf false
  | .fin a m e =>
    if m = 0 then .fin false 1 0
    else (exp2Fix (toFix a m e)).relErr (offset 0 a m e)

/-- RCP (R280). -/
def fnRcp : FVal → FVal
  | .nan => .nan
  | .inf a => .fin a 0 0
  | .fin a m e =>
    if m = 0 then .inf a
    else (FVal.fin a (2 ^ (bitLen m + 64) / m) (-(bitLen m + 64 : Nat) - e)).relErr (offset 1 a m e)

/-- RSQRT (R280), of a value that is not negative. -/
def fnRsqrt : FVal → FVal
  | .nan => .nan
  | .inf _ => .fin false 0 0
  | .fin a m e =>
    if m = 0 then .inf a
    else
      let (m', e') := if e % 2 = 0 then (m, e) else (2 * m, e - 1)
      let k := bitLen m' + 64
      (FVal.fin false (Nat.sqrt (2 ^ (2 * k) / m')) (-(k : Int) - e' / 2)).relErr (offset 2 a m e)

/-- GELU, SIGMOID and TANH of a finite value (R243). -/
def fnGelu : FVal → FVal
  | .nan => .nan
  | .inf a => if a then .fin true 0 0 else .inf false
  | .fin a m e => if m = 0 then .fin a 0 0 else
      (if !dyLt m e 1 13 then (if a then .fin true 0 0 else .fin a m e)
       else (FVal.fin a m e).mul (ofFix (phi (toFix a m e)))).absErr (offset 3 a m e)

def fnSigmoid : FVal → FVal
  | .nan => .nan
  | .inf a => if a then .fin false 0 0 else .fin false 1 0
  | .fin a m e =>
    let x := toFix a m e
    let t := expFix (-(x.natAbs : Int))
    let p : Int := (2 ^ 128 / (2 ^ 64 + t) : Nat)
    (ofFix (if x < 0 then 2 ^ 64 - p else p)).absErr (offset 4 a m e)

def fnTanh : FVal → FVal
  | .nan => .nan
  | .inf a => .fin a 1 0
  | .fin a m e =>
    if m = 0 then .fin a 0 0
    else
      let x := toFix a m e
      let t := expFix (-(2 * x.natAbs : Int))
      let p : Int := ((2 ^ 64 - t) * 2 ^ 64 / (2 ^ 64 + t) : Nat)
      (ofFix (if a then -p else p)).absErr (offset 5 a m e)

end Sys2Proof.Machine
end

