-- ==== Sys2Proof/Machine/Params.lean ====
section
/-! DEFINITION. The prime table, the parameter sets, the transforms of a limb and the logarithms of the noise model
(R122 to R131, R139, R146, R149). -/

namespace Sys2Proof.Machine

/-! ### Primes (R122, R126) -/

/-- The code of a family. -/
def famCode : Family → Nat
  | .z36 => 1
  | .z28 => 2
  | .z18 => 3

/-- The number of primes of a family. -/
def famCount : Family → Nat
  | .z36 => 256
  | .z28 => 64
  | .z18 => 32

/-- The family of a residue format (R277). -/
def fmtFamily : Fmt → Option Family
  | .z36 => some .z36
  | .z28 => some .z28
  | .z18 => some .z18
  | _ => none

def famFmt : Family → Fmt
  | .z36 => .z36
  | .z28 => .z28
  | .z18 => .z18

/-- A number is the sum of `n` signed powers of two with distinct exponents of a list. -/
def signedSum : List Nat → Nat → Int → Bool
  | [], n, x => n == 0 && x == 0
  | e :: es, n, x =>
    signedSum es n x || (0 < n && (signedSum es (n - 1) (x - (2 : Int) ^ e) || signedSum es (n - 1) (x + (2 : Int) ^ e)))

/-- The width and the least exponent of the sparse form of a family (R123). -/
def sparseForm : Family → Nat × Nat
  | .z36 => (36, 18)
  | .z28 => (28, 17)
  | .z18 => (18, 0)

/-- A number has the form of R123 with `n` terms. -/
def sparse (f : Family) (n q : Nat) : Bool :=
  let w := (sparseForm f).1
  let lo := (sparseForm f).2
  signedSum ((List.range (w - lo)).map (lo + ·)) n ((2 : Int) ^ w - q + 1)

/-- A prime that a family may hold (R122, R123). -/
def familyPrime (f : Family) (q : Nat) : Bool :=
  decide q.Prime && match f with
    | .z36 => 2 ^ 35 < q && q < 2 ^ 36 && q % 2 ^ 18 == 1 && [1, 2, 3, 4].any (sparse f · q)
    | .z28 => 2 ^ 27 < q && q < 2 ^ 28 && q % 2 ^ 17 == 1 && [1, 2, 3, 4].any (sparse f · q)
    | .z18 => 2 ^ 10 < q && q < 2 ^ 18 && q % 2 == 1

/-- A table of a family is what R122 requires: as many primes as it counts, in decreasing order. -/
def tableOk (f : Family) (t : List Nat) : Bool :=
  t.length == famCount f && t.all (familyPrime f) && decide (t.Pairwise (· > ·))

/-- The primes of a family: a free table of those that R122 and R123 allow, else their largest primes.
DESIGN CHOICE, safe (assumption 16). -/
def primeTable (f : Family) : List Nat :=
  if tableOk f (Config.primes (famCode f)) then Config.primes (famCode f)
  else (((List.range (2 ^ (sparseForm f).1)).reverse.filter (familyPrime f)).take (famCount f))

/-- The prime that a family and an index name (R122). -/
def primeOf (f : Family) (i : Nat) : Nat := (primeTable f).getD i 0

/-- A power modulo `q`, by squaring; the count of bits is the first argument. -/
def powMod (q : Nat) : Nat → Nat → Nat → Nat
  | 0, _, _ => 1 % q
  | n + 1, x, e => if e % 2 = 1 then x * powMod q n (x * x % q) (e / 2) % q else powMod q n (x * x % q) (e / 2)

/-- The largest `k` up to `n` with q ≡ 1 mod 2^k. -/
def twoAdicity (q : Nat) : Nat → Nat
  | 0 => 0
  | n + 1 => if (q - 1) % 2 ^ (n + 1) = 0 then n + 1 else twoAdicity q n

/-- The logarithm of the order of ROOT (R126). -/
def rootLog (f : Family) (q : Nat) : Nat :=
  match f with
  | .z36 => 18
  | .z28 => 17
  | .z18 => min (twoAdicity q 36) 17

/-- A residue of order 2^j modulo a prime. -/
def hasOrder (q j r : Nat) : Bool := r < q && (if j = 0 then r == 1 else powMod q 64 r (2 ^ (j - 1)) == q - 1)

/-- ROOT (R126): a free root of its order.
DESIGN CHOICE, safe (assumption 16). -/
def rootOf (f : Family) (i : Nat) : Nat :=
  let q := primeOf f i
  let j := rootLog f q
  let r := Config.root (famCode f) i
  if hasOrder q j r then r
  else (((List.range q).map fun g => powMod q 64 g ((q - 1) / 2 ^ j)).find? (hasOrder q j)).getD 1

/-- TERMS (R123, R126): a number of signed terms that the prime can be written with, and 0 for Z18.
DESIGN CHOICE, safe (assumption 16). -/
def termsOf (f : Family) (i : Nat) : Nat :=
  let ns := [1, 2, 3, 4].filter (sparse f · (primeOf f i))
  if f = .z18 then 0 else ns.getD (Config.primeTerms (famCode f) i % ns.length) 1

/-- A 24-byte record of QUERY_PRIMES (R126). -/
def primeRecord (f : Family) (i : Nat) : Bytes :=
  let q := primeOf f i
  valBytes 1 (famCode f) ++ valBytes 1 i ++ valBytes 1 (twoAdicity q 36) ++
    valBytes 1 (termsOf f i) ++ valBytes 4 0 ++ valBytes 8 q ++
    valBytes 8 (rootOf f i)

/-! ### Parameter sets (R127, R146) -/

/-- What the module holds of a parameter set. Constants of the noise model are in units of 1/256. -/
structure ParamSet where
  code : Nat
  /-- Bit 0 CKKS, bit 1 BGV, bit 2 BFV. -/
  schemes : Nat
  logN : Nat
  fam : Family
  l : Nat
  k : Nat
  dnum : Nat
  ePt : Nat
  eRs : Nat
  eKs : Nat
  floor : Nat
  hRep : Nat
  repLimbs : Nat
  deriving DecidableEq, Repr

/-- The parameter sets. -/
def paramSets : List ParamSet :=
  [⟨0x01, 1, 13, .z36, 5, 1, 5, 12 * 256, 17 * 256, 18 * 256, 8 * 256, 10 * 256, 2⟩,
   ⟨0x02, 1, 14, .z36, 10, 2, 5, 13 * 256, 18 * 256, 19 * 256, 8 * 256, 11 * 256, 4⟩,
   ⟨0x03, 1, 15, .z36, 19, 5, 4, 14 * 256, 19 * 256, 20 * 256, 8 * 256, 12 * 256, 9⟩,
   ⟨0x04, 1, 16, .z36, 36, 12, 3, 15 * 256, 20 * 256, 21 * 256, 8 * 256, 14 * 256, 22⟩,
   ⟨0x05, 1, 17, .z36, 72, 24, 3, 16 * 256, 21 * 256, 22 * 256, 8 * 256, 15 * 256, 56⟩] ++
  [⟨0x12, 6, 14, .z36, 10, 2, 5, 0, 18 * 256, 19 * 256, 256, 0, 0⟩,
   ⟨0x13, 6, 15, .z36, 19, 5, 4, 0, 19 * 256, 20 * 256, 256, 0, 0⟩,
   ⟨0x14, 6, 16, .z36, 36, 12, 3, 0, 20 * 256, 21 * 256, 256, 0, 0⟩,
   ⟨0x23, 1, 15, .z28, 25, 5, 5, 14 * 256, 19 * 256, 20 * 256, 4 * 256, 7 * 256, 10⟩,
   ⟨0x24, 1, 16, .z28, 48, 12, 4, 15 * 256, 20 * 256, 21 * 256, 4 * 256, 8 * 256, 30⟩]

/-- The set of a code. -/
def paramSet (c : Nat) : Option ParamSet := paramSets.find? fun p => p.code == c

def ParamSet.n (p : ParamSet) : Nat := 2 ^ p.logN

/-- α: the Q primes of a digit. -/
def ParamSet.alpha (p : ParamSet) : Nat := (p.l + p.dnum - 1) / p.dnum

/-- The bytes of a limb, packed (R137). -/
def ParamSet.limbBytes (p : ParamSet) : Nat := p.n / 8 * fmtWidth (famFmt p.fam)

/-- The indices in the family of the primes of a set, the Q chain and then the P chain: free, and distinct (R128, R131).
DESIGN CHOICE, safe (assumption 17). -/
def ParamSet.chain (p : ParamSet) : List Nat :=
  let q := Config.chainQ p.code
  let s := Config.chainP p.code
  if q.length = p.l ∧ s.length = p.k ∧ (q ++ s).Nodup ∧ ∀ i ∈ q ++ s, i < famCount p.fam then q ++ s else List.range (p.l + p.k)

/-- The indices in the family of q_i and of prime i of the P chain (R128, R131). -/
def ParamSet.qIx (p : ParamSet) (i : Nat) : Nat := p.chain.getD i 0
def ParamSet.pIx (p : ParamSet) (i : Nat) : Nat := p.chain.getD (p.l + i) 0

/-- The prime q_i of the Q chain, and prime i of the P chain (R128). -/
def ParamSet.q (p : ParamSet) (i : Nat) : Nat := primeOf p.fam (p.qIx i)
def ParamSet.p (p : ParamSet) (i : Nat) : Nat := primeOf p.fam (p.pIx i)

def ParamSet.qs (p : ParamSet) (n : Nat) : List Nat := (List.range n).map p.q
def ParamSet.ps (p : ParamSet) : List Nat := (List.range p.k).map p.p

/-- The 128-byte record of QUERY_PARAMSET (R131). -/
def ParamSet.record (p : ParamSet) : Bytes :=
  valBytes 1 p.code ++ valBytes 1 p.schemes ++ valBytes 1 p.logN ++ valBytes 1 (famCode p.fam) ++ valBytes 1 p.l ++ valBytes 1 p.k ++
    valBytes 1 p.dnum ++ valBytes 1 p.alpha ++ valBytes 2 p.ePt ++ valBytes 2 p.eRs ++ valBytes 2 p.eKs ++ valBytes 2 p.floor ++
    valBytes 2 p.hRep ++ valBytes 1 p.repLimbs ++ List.replicate 13 0 ++
    (List.range p.l).map (fun i => BitVec.ofNat 8 (p.qIx i)) ++
    (List.range p.k).map (fun i => BitVec.ofNat 8 (p.pIx i)) ++ List.replicate (96 - p.l - p.k) 0

/-! ### Arithmetic modulo a prime -/

/-- The inverse modulo a prime. -/
def invMod (q x : Nat) : Nat := powMod q 64 (x % q) (q - 2)

/-! ### The transforms of a limb (R139) -/

/-- The bits of `k` reversed, `n` of them. -/
def bitRev : Nat → Nat → Nat
  | 0, _ => 0
  | n + 1, k => k % 2 * 2 ^ n + bitRev n (k / 2)

/-- ψ for a ring of dimension 2^`logN`: the primitive 2N-th root that evaluation form uses. -/
def psi (f : Family) (i logN : Nat) : Nat :=
  powMod (primeOf f i) 64 (rootOf f i) (2 ^ ((if f = .z36 then 17 else 16) - logN))

/-- The value of a polynomial, its coefficients from degree 0 on. -/
def evalPoly (q x : Nat) (a : List Nat) : Nat := a.foldr (fun c v => (c + x * v) % q) 0

/-- Coefficient form to evaluation form: position k holds the value at ψ^(2·brv(k) + 1). -/
def nttForward (f : Family) (i logN : Nat) (a : List Nat) : List Nat :=
  let q := primeOf f i
  let w := psi f i logN
  let a := a.map (· % q)
  (List.range (2 ^ logN)).map fun k => evalPoly q (powMod q 64 w (2 * bitRev logN k + 1)) a

/-- Evaluation form to coefficient form, with the factor 1/N (R252). -/
def nttInverse (f : Family) (i logN : Nat) (a : List Nat) : List Nat :=
  let q := primeOf f i
  let w := invMod q (psi f i logN)
  let n := invMod q (2 ^ logN)
  let a := a.map (· % q)
  (List.range (2 ^ logN)).map fun j =>
    let r := (a.zipIdx).foldl (fun v c => (v + c.1 * powMod q 64 w ((2 * bitRev logN c.2 + 1) * j)) % q) 0
    r * n % q

/-! ### Limbs as bytes (R137, R138) -/

/-- The residues of a limb in memory. -/
def unpackLimb (f : Fmt) (n : Nat) (b : Bytes) : List Nat := (unpack (fmtWidth f) (n / 8) b).map BitVec.toNat

/-- A limb packed. -/
def packLimb (f : Fmt) (n : Nat) (xs : List Nat) : Bytes := pack (fmtWidth f) (n / 8) (xs.map (BitVec.ofNat 36))

/-! ### Logarithms (R149)

Fixed-point numbers in units of 2^-64 stand for the logarithms. -/

/-- The fraction bits of log2 of a number `x × 2^-96` with 2^96 ≤ x < 2^97, `n` of them, in units of 2^-64. -/
def log2Frac : Nat → Nat → Nat
  | 0, _ => 0
  | n + 1, x =>
    let y := x * x / 2 ^ 96
    if 2 ^ 97 ≤ y then 2 ^ n + log2Frac n (y / 2) else log2Frac n y

/-- log2 of a positive number, in units of 2^-64. -/
def log2Fix (x : Nat) : Int :=
  let k := Nat.log2 x
  let m := if k ≤ 96 then x * 2 ^ (96 - k) else x / 2 ^ (k - 96)
  (k : Int) * 2 ^ 64 + log2Frac 64 m

/-- a ⊕ b = log2(2^a + 2^b). -/
def oplus (a b : Int) : Int :=
  let hi := max a b
  let d := hi - min a b
  if 2 ^ 71 ≤ d then hi
  else hi + log2Fix (2 ^ 96 + exp2Frac ((-d) % 2 ^ 64).toNat / 2 ^ (-((-d) / 2 ^ 64)).toNat) - 96 * 2 ^ 64

/-- A code of 1/256 as a logarithm. -/
def ofCode (c : Nat) : Int := c * 2 ^ 56

/-- log2 of the product of primes. -/
def log2Sum (qs : List Nat) : Int := (qs.map log2Fix).foldl (· + ·) 0

/-- The header unit's error of less than 2^-24 at a value: a free choice (R149).
DESIGN CHOICE, safe (assumption 25). -/
def unitErr (x : Int) : Int :=
  let n : Int := (Config.fnOffset 6 (x < 0) x.natAbs 0 % (2 ^ 41 - 2 ^ 31) : Nat)
  n - (2 ^ 40 - 2 ^ 30)

end Sys2Proof.Machine
end

