-- ==== Sys2Proof/Machine/Hash.lean ====
section
/-! DEFINITION. The check and hash functions that the spec names: CRC-8 (R422), CRC-32 (R133), SHA-384
(R154, R223) and SHAKE128 (R164). -/

namespace Sys2Proof

/-- One bit of CRC-8 with polynomial 0x07 (R422). -/
def crc8Bit (c : Nat) : Nat := if 128 ≤ c then Nat.xor (c * 2 % 256) 7 else c * 2

/-- CRC-8, polynomial 0x07, initial value 0, over bytes (R422). -/
def crc8 (b : Bytes) : Nat :=
  b.foldl (fun c x => crc8Bit (crc8Bit (crc8Bit (crc8Bit (crc8Bit (crc8Bit (crc8Bit (crc8Bit (Nat.xor c x.toNat))))))))) 0

/-- One bit of the reflected CRC-32 with polynomial 0xEDB88320. -/
def crc32Bit (c : Nat) : Nat := if c % 2 = 1 then Nat.xor (c / 2) 0xEDB88320 else c / 2

/-- CRC-32 of IEEE 802.3 (R133). -/
def crc32 (b : Bytes) : Nat :=
  Nat.xor (b.foldl (fun c x => crc32Bit (crc32Bit (crc32Bit (crc32Bit (crc32Bit (crc32Bit (crc32Bit (crc32Bit (Nat.xor c x.toNat))))))))) 0xFFFFFFFF)
    0xFFFFFFFF

/-! ### SHA-384 -/

def m64 : Nat := 2 ^ 64

/-- The largest number of `n` bits above `r` whose power of degree `k` does not exceed `x`. -/
def rootUp (k x : Nat) : Nat → Nat → Nat
  | 0, r => r
  | n + 1, r => rootUp k x n (if (r + 2 ^ n) ^ k ≤ x then r + 2 ^ n else r)

/-- The first 64 bits of the fraction of the root of degree `k` of a number below 512. -/
def rootFrac (k p : Nat) : Nat := rootUp k (p * m64 ^ k) 69 0 % m64

/-- The primes below 410, of which there are 80. -/
def smallPrimes : List Nat := (List.range 410).filter fun n => 2 ≤ n && (List.range 21).all fun d => d < 2 || n ≤ d || n % d != 0

/-- The round constants: fractions of the cube roots of the first 80 primes. -/
def shaConsts : List Nat := smallPrimes.map (rootFrac 3)

/-- The initial value of SHA-384: fractions of the square roots of the ninth to sixteenth prime. -/
def sha384Init : List Nat := ((smallPrimes.drop 8).take 8).map (rootFrac 2)

/-- Rotation right of a 64-bit number. -/
def ror (x n : Nat) : Nat := (x / 2 ^ n + x * 2 ^ (64 - n)) % m64
def not64 (x : Nat) : Nat := m64 - 1 - x

/-- The next word of the message schedule, from the last sixteen, newest first. -/
def shaNext (w : List Nat) : Nat :=
  let x := w.getD 14 0
  let y := w.getD 1 0
  let s0 := Nat.xor (Nat.xor (ror x 1) (ror x 8)) (x / 128)
  let s1 := Nat.xor (Nat.xor (ror y 19) (ror y 61)) (y / 64)
  (w.getD 15 0 + s0 + w.getD 6 0 + s1) % m64

/-- The rounds over the constants left, with the schedule words still to use (oldest first) and the last sixteen
(newest first). -/
def shaRounds : List Nat → List Nat → List Nat → List Nat → List Nat
  | [], _, _, v => v
  | k :: ks, m, w, v =>
    let (x, m', w') : Nat × List Nat × List Nat := match m with
      | y :: ys => (y, ys, y :: w)
      | [] => let y := shaNext w; (y, [], y :: w.take 15)
    match v with
    | [a, b, c, d, e, f, g, h] =>
      let s1 := Nat.xor (Nat.xor (ror e 14) (ror e 18)) (ror e 41)
      let ch := Nat.xor (Nat.land e f) (Nat.land (not64 e) g)
      let t1 := h + s1 + ch + k + x
      let s0 := Nat.xor (Nat.xor (ror a 28) (ror a 34)) (ror a 39)
      let mj := Nat.xor (Nat.xor (Nat.land a b) (Nat.land a c)) (Nat.land b c)
      shaRounds ks m' w' [(t1 + s0 + mj) % m64, a, b, c, (d + t1) % m64, e, f, g]
    | _ => v

/-- A number of bytes read big-endian. -/
def beVal (b : Bytes) : Nat := b.foldl (fun a x => a * 256 + x.toNat) 0

/-- `n` bytes of a number, big-endian. -/
def be : Nat → Nat → Bytes
  | 0, _ => []
  | n + 1, v => be n (v / 256) ++ [BitVec.ofNat 8 v]

/-- One block of 128 bytes compressed into the chaining value. -/
def shaBlock (v : List Nat) (b : Bytes) : List Nat :=
  let m := (List.range 16).map fun i => beVal ((b.drop (8 * i)).take 8)
  (List.zipWith (fun x y => (x + y) % m64) v (shaRounds shaConsts m [] v))

/-- `n` blocks compressed in order. -/
def shaBlocks : Nat → List Nat → Bytes → List Nat
  | 0, v, _ => v
  | n + 1, v, b => shaBlocks n (shaBlock v (b.take 128)) (b.drop 128)

/-- SHA-384 of a message: 48 bytes. -/
def sha384 (b : Bytes) : Bytes :=
  let n := (b.length + 16) / 128 + 1
  let p := b ++ [0x80] ++ List.replicate (n * 128 - b.length - 17) 0 ++ be 16 (8 * b.length)
  ((shaBlocks n sha384Init p).flatMap (be 8)).take 48

/-! ### SHAKE128 -/

/-- One step of the shift register of the round constants, of 8 bits. -/
def rcStep (r : Nat) : Nat := Nat.xor (r * 2) (r / 128 * 0x171)

/-- `n` bits that the register gives from a content on. -/
def rcBits : Nat → Nat → List Nat
  | 0, _ => []
  | n + 1, r => r % 2 :: rcBits n (rcStep r)

/-- The round constants of Keccak-f[1600]: seven bits of the register for each round, at the places 2^j - 1. -/
def keccakRC : List Nat :=
  let bs := rcBits 168 1
  (List.range 24).map fun i => (List.range 7).foldl (fun a j => a + bs.getD (7 * i + j) 0 * 2 ^ (2 ^ j - 1)) 0

/-- The lanes that the rotation offsets go through, `n` of them from lane (x, y) on. -/
def rotWalk : Nat → Nat → Nat → List Nat
  | 0, _, _ => []
  | n + 1, x, y => (x + 5 * y) :: rotWalk n y ((2 * x + 3 * y) % 5)

/-- The rotation offsets of lane x + 5y: the triangular numbers along the walk from (1, 0), and 0 for lane 0. -/
def keccakRot : List Nat :=
  let w := rotWalk 24 1 0
  (List.range 25).map fun i => match w.findIdx? (· == i) with
    | none => 0
    | some t => (t + 1) * (t + 2) / 2 % 64

/-- Rotation left of a 64-bit lane. -/
def rol (x n : Nat) : Nat := if n = 0 then x else (x * 2 ^ n + x / 2 ^ (64 - n)) % m64

/-- One round over the 25 lanes. -/
def keccakRound (a : List Nat) (rc : Nat) : List Nat :=
  let g (l : List Nat) (i : Nat) := l.getD i 0
  let c := (List.range 5).map fun x => Nat.xor (g a x) (Nat.xor (g a (x + 5)) (Nat.xor (g a (x + 10)) (Nat.xor (g a (x + 15)) (g a (x + 20)))))
  let d := (List.range 5).map fun x => Nat.xor (g c ((x + 4) % 5)) (rol (g c ((x + 1) % 5)) 1)
  let a1 := (List.range 25).map fun i => rol (Nat.xor (g a i) (g d (i % 5))) (keccakRot.getD i 0)
  let b := (List.range 25).map fun i =>
    let x := i % 5
    let y := i / 5
    g a1 ((x + 3 * y) % 5 + 5 * x)
  let e := (List.range 25).map fun i =>
    let x := i % 5
    let y := 5 * (i / 5)
    Nat.xor (g b i) (Nat.land (not64 (g b ((x + 1) % 5 + y))) (g b ((x + 2) % 5 + y)))
  match e with
  | [] => []
  | h :: t => Nat.xor h rc :: t

/-- The permutation. -/
def keccakF (a : List Nat) : List Nat := keccakRC.foldl keccakRound a

/-- `n` bytes of a 64-bit lane, little-endian. -/
def laneBytes : Nat → Nat → Bytes
  | 0, _ => []
  | n + 1, v => BitVec.ofNat 8 v :: laneBytes n (v / 256)

/-- The lanes of a block of 168 bytes. -/
def blockLanes (b : Bytes) : List Nat := (List.range 21).map fun i => beVal ((b.drop (8 * i)).take 8).reverse

/-- Blocks absorbed in order. -/
def absorb : Nat → List Nat → Bytes → List Nat
  | 0, a, _ => a
  | n + 1, a, b =>
    let x := blockLanes (b.take 168) ++ List.replicate 4 0
    absorb n (keccakF (List.zipWith Nat.xor a x)) (b.drop 168)

/-- Blocks squeezed in order. -/
def squeeze : Nat → List Nat → Bytes
  | 0, _ => []
  | n + 1, a => (a.take 21).flatMap (laneBytes 8) ++ squeeze n (keccakF a)

/-- The first `n` bytes of the SHAKE128 output of a message (R164). -/
def shake128 (b : Bytes) (n : Nat) : Bytes :=
  let k := b.length / 168 + 1
  let pad := k * 168 - b.length
  let p := if pad = 1 then b ++ [0x9F] else b ++ [0x1F] ++ List.replicate (pad - 2) 0 ++ [0x80]
  (squeeze (n / 168 + 1) (absorb k (List.replicate 25 0) p)).take n

end Sys2Proof
end

