-- ==== Sys2Proof/Machine/Ops.lean ====
section
/-! DEFINITION. The named operations over the state that the meanings share: access to ports, jobs, cores
and resources, the ready bitmap, the error log, event records, completions and counters. -/

namespace Sys2Proof.Machine

/-- The outcome of a command. -/
abbrev Outcome := Host.Outcome State Fault Refusal

/-! ### Access -/

def State.port (s : State) : Port → PortSt
  | .a => s.portA
  | .b => s.portB

def State.setPort (s : State) (p : Port) (x : PortSt) : State :=
  match p with
  | .a => { s with portA := x }
  | .b => { s with portB := x }

/-- A port's record changed by a function. -/
def State.modPort (s : State) (p : Port) (f : PortSt → PortSt) : State := s.setPort p (f (s.port p))

def State.job (s : State) (j : Nat) : Option Job := Tbl.get none s.jobs j
def State.setJob (s : State) (j : Nat) (x : Option Job) : State := { s with jobs := Tbl.set s.jobs j x }

/-- An existing job changed by a function; a number that is not in use changes nothing. -/
def State.modJob (s : State) (j : Nat) (f : Job → Job) : State :=
  match s.job j with
  | none => s
  | some x => s.setJob j (some (f x))

def State.core (s : State) (n : Nat) : CoreSt := Tbl.get {} s.cores n
def State.setCore (s : State) (n : Nat) (x : CoreSt) : State := { s with cores := Tbl.set s.cores n x }
def State.modCore (s : State) (n : Nat) (f : CoreSt → CoreSt) : State := s.setCore n (f (s.core n))

def State.mill (s : State) (m : Nat) : Mill := Tbl.get {} s.mills m
def State.setMill (s : State) (m : Nat) (x : Mill) : State := { s with mills := Tbl.set s.mills m x }
def State.modMill (s : State) (m : Nat) (f : Mill → Mill) : State := s.setMill m (f (s.mill m))

def State.stack (s : State) (k : Nat) : Stack := Tbl.get {} s.hbms k
def State.modStack (s : State) (k : Nat) (f : Stack → Stack) : State := { s with hbms := Tbl.set s.hbms k (f (s.stack k)) }

/-- Bank group `g` of mill `m` has the number 128m + g. -/
def State.group (s : State) (x : Nat) : Group := Tbl.get {} s.groups x
def State.modGroup (s : State) (x : Nat) (f : Group → Group) : State := { s with groups := Tbl.set s.groups x (f (s.group x)) }

/-- Unit (m, k) has the number 1536m + k. -/
def State.hunit (s : State) (x : Nat) : HUnit := Tbl.get {} s.units x
def State.modUnit (s : State) (x : Nat) (f : HUnit → HUnit) : State := { s with units := Tbl.set s.units x (f (s.hunit x)) }

def State.headbox (s : State) (m : Nat) : Headbox := Tbl.get {} s.headboxes m
def State.modHeadbox (s : State) (m : Nat) (f : Headbox → Headbox) : State :=
  { s with headboxes := Tbl.set s.headboxes m (f (s.headbox m)) }

def State.stest (s : State) (m : Nat) : STest := Tbl.get {} s.stests m
def State.modStest (s : State) (m : Nat) (f : STest → STest) : State := { s with stests := Tbl.set s.stests m (f (s.stest m)) }

def PortSt.ring (x : PortSt) (r : Nat) : Ring := Tbl.get {} x.rings r
def State.ring (s : State) (p : Port) (r : Nat) : Ring := (s.port p).ring r
def State.setRing (s : State) (p : Port) (r : Nat) (x : Ring) : State :=
  s.modPort p fun q => { q with rings := Tbl.set q.rings r x }

/-- The other port. -/
def otherPort : Port → Port
  | .a => .b
  | .b => .a

/-- 0 for port A, 1 for port B. -/
def portNum : Port → Nat
  | .a => 0
  | .b => 1

/-- The job numbers in use, 1 to 16 in order. -/
def State.jobNums (s : State) : List Nat := (List.range 17).filter fun j => (s.job j).isSome

/-- One port applied after the other. -/
def State.onPorts (s : State) (f : State → Port → State) : State := f (f s .a) .b

/-- A list of steps applied in order. -/
def State.each {α : Type} (s : State) (xs : List α) (f : State → α → State) : State := xs.foldl f s

/-- The module is powered, not frozen and not shutting down: its clocks run.
DEDUCED, safe (assumption 4). -/
def State.live (s : State) : Bool := s.pins.power == .on && !s.boot.frozen

/-! ### Grades and places (R3, R4) -/

/-- Active cores of a mill. -/
def Grade.coresPerMill : Grade → Nat
  | .fx1208c => 12
  | _ => 16

def Grade.code : Grade → Nat
  | .fx1224 => 1
  | .fx1216 => 2
  | .fx1208c => 3

/-- The PCI identification of a grade at stepping B0 (R4, R47, R48). -/
def Grade.pciId (g : Grade) : PciId :=
  { vendor := 0x1F3C, device := 0x0C0F + g.code, subsystemVendor := 0x1F3C, subsystem := 0x0001, classCode := 0x120000, revision := 0x10 }

/-- The quire links that the fuses enable (R4). -/
def Grade.linkOn : Grade → Nat → Bool
  | .fx1224, k => k < 24
  | .fx1216, k => k < 24 && k % 6 < 4
  | .fx1208c, k => k < 24 && k % 6 < 2

/-- FORMAT_MASK and ENGINE_MASK of the fuses (R225). -/
def Grade.formatMask : Grade → Nat
  | .fx1208c => 0x007F
  | _ => 0xFFFF

def Grade.engineMask : Grade → Nat
  | .fx1208c => 0x005F
  | _ => 0x007F

/-- The mill of a logical core (R3). -/
def State.millOf (s : State) (n : Nat) : Nat := n / s.grade.coresPerMill

/-- The logical cores of a mill (R3). -/
def State.coresOf (s : State) (m : Nat) : List Nat :=
  (List.range s.grade.coresPerMill).map fun i => m * s.grade.coresPerMill + i

/-- The mills on which a job has cores, in order. -/
def State.jobMills (s : State) (j : Job) : List Nat := (List.range 4).filter fun m => j.cores.any fun n => s.millOf n == m

/-! ### Bytes (R15) -/

/-- `n` bytes of a number, little-endian. -/
def le : Nat → Nat → Bytes
  | 0, _ => []
  | n + 1, v => BitVec.ofNat 8 v :: le n (v / 256)

/-- The number that bytes hold, little-endian. -/
def leVal : Bytes → Nat
  | [] => 0
  | b :: bs => b.toNat + 256 * leVal bs

/-- The field of `n` bytes at an offset of a record. -/
def field (b : Bytes) (off n : Nat) : Nat := leVal ((b.drop off).take n)

/-- `n` zero bytes. -/
def zeros (n : Nat) : Bytes := List.replicate n 0

/-- The bytes, filled with zeros or cut to a length. -/
def fit (n : Nat) (b : Bytes) : Bytes := (b ++ zeros n).take n

/-- Bit `i` of a number. -/
def bit (v i : Nat) : Bool := (v / 2 ^ i) % 2 == 1

/-- A truth value as a bit of weight `w`. -/
def b2n (b : Bool) (w : Nat) : Nat := if b then w else 0

/-- Bits [hi:lo] of a number. -/
def bits (v hi lo : Nat) : Nat := (v / 2 ^ lo) % 2 ^ (hi + 1 - lo)

/-- A masked write of R17: the low half of the word written, under its high half. -/
def masked (old : Nat) (v : Reg) : Nat :=
  let w := v.toNat % 65536
  let m := v.toNat / 65536
  Nat.lor (Nat.land w m) (Nat.land old (65535 - m))

/-- The bits a W1CM write clears (R17, R388). -/
def w1c (v : Reg) : Nat := Nat.land (v.toNat % 65536) (v.toNat / 65536)

/-- A sum that stops at a largest value. -/
def satAdd (top a b : Nat) : Nat := min top (a + b)

/-! ### Draws of free values -/

/-- The number of the next draw, and the state after it.
DESIGN CHOICE, safe (assumption 13). -/
def State.draw (s : State) : Nat × State := (s.freeCtr, { s with freeCtr := s.freeCtr + 1 })

/-- The state with one more line in the log of what was sent.
DESIGN CHOICE, safe (assumption 12). -/
def State.emit (s : State) (o : Out) : State := { s with out := o :: s.out }

/-! ### Ticks and counters -/

/-- The number of the last tick, 0 before the first one (R96, R412). -/
def State.now (s : State) : Nat := s.tick - 1

/-- A live counter raised (R118). -/
def State.bump (s : State) (key n : Nat) : State :=
  if n = 0 then s else { s with ctr := Tbl.set s.ctr key (Tbl.get 0 s.ctr key + n) }

/-- Keys of the live counters: those of job j (R479), of logical core n, of the module, a core's stalls, a
group's conflicts (R305), page requests of port B, and those of link k (R437). -/
def ctrJob (j i : Nat) : Nat := 16 * (j - 1) + i
def ctrCore (n i : Nat) : Nat := 256 + 4 * n + i
def ctrModule (i : Nat) : Nat := 512 + i
def ctrPages (p : Port) : Nat := 534 + 32 * (portNum p)
def ctrStall (n : Nat) : Nat := 600 + n
def ctrConflict (g : Nat) : Nat := 1000 + g
def ctrLink (k i : Nat) : Nat := 2000 + 16 * k + i

/-- Work of a core counted for its job (R118, R479). -/
def State.work (s : State) (n i amount : Nat) : State :=
  if (s.core n).job = 0 then s else s.bump (ctrJob (s.core n).job i) amount

/-! ### MSI-X (R400) -/

/-- A vector raised: it fires, or sets its pending bit where it is masked. -/
def State.raise (s : State) (p : Port) (v : Nat) : State :=
  if (s.port p).msixMask.getLsbD v then
    s.modPort p fun q => { q with msixPend := q.msixPend ||| (1 <<< v : BitVec 64) }
  else s.emit (.msix p v)

/-! ### Event records (R414, R415) -/

/-- A module-event or guarantee record, of which at most 256 wait. -/
def EvRec.droppable (e : EvRec) : Bool := e.type == 7 || e.type == 4

/-- The waiting records less the oldest droppable one. -/
def dropOldest : List EvRec → List EvRec
  | [] => []
  | e :: es => if e.droppable then es else e :: dropOldest es

/-- A record put in a port's queue (R415). -/
def State.post (s : State) (p : Port) (e : EvRec) : State :=
  s.modPort p fun q =>
    let w := q.ev.waiting
    if e.droppable && 256 ≤ (w.filter EvRec.droppable).length then
      { q with ev := { q.ev with waiting := dropOldest w ++ [e], lost := satAdd 0xFFFFFFFF q.ev.lost 1 } }
    else { q with ev := { q.ev with waiting := w ++ [e] } }

/-- A module event of one port, with its 8-byte value (R415). -/
def State.moduleEvent (s : State) (p : Port) (code value : Nat) : State :=
  s.post p { type := 7, units := 1, job := 0, code := code, tick := s.now, body := le 8 value }

/-- ESS_CAUSE holds the code of the last module-level event (R394). -/
def State.noteCause (s : State) (code : Nat) : State := { s with boot := { s.boot with cause := code } }

/-- A module event of both ports (R394, R415). -/
def State.moduleEvents (s : State) (code value : Nat) : State := (s.noteCause code).onPorts fun s p => s.moduleEvent p code value

/-- An event reported over MCTP: ALERT_N asserts (R37). -/
def State.mctpEvent (s : State) (code : Nat) : State :=
  { s with pins := { s.pins with mctp := s.pins.mctp ++ [code], alert := true } }

/-- A record of a job posted to its owner, with the tick in hand, or that of an earlier sheet (R415). -/
def State.jobEvent (s : State) (j type code units : Nat) (body : Bytes) (tick : Option Nat := none) : State :=
  match s.job j with
  | none => s
  | some x => s.post x.owner { type := type, units := units, job := j, code := code, tick := tick.getD s.now, body := body }

/-! ### The ready bitmap (R90, R91) -/

def bitControl : Nat := 0
def bitPort (p : Port) : Nat := 1 + (portNum p)
def bitSecurity : Nat := 3
def bitCores (m : Nat) : Nat := 4 + m
def bitSram (m : Nat) : Nat := 8 + m
def bitHbm (k : Nat) : Nat := 12 + k
def bitLink (k : Nat) : Nat := 32 + k
def bitRepulp (i : Nat) : Nat := 56 + i

def State.isReady (s : State) (i : Nat) : Bool := s.ready.getLsbD i

/-- READY_CHANGED, carrying the bitmap, to every port whose PORT bit is set (R91). -/
def State.readyChanged (s : State) : State :=
  State.onPorts (if s.isReady (bitPort .a) || s.isReady (bitPort .b) then s.noteCause 0x0707 else s) fun s p =>
    if s.isReady (bitPort p) then s.moduleEvent p 0x0707 s.ready.toNat else s

/-- A ready bit given a value; a change posts READY_CHANGED (R91). -/
def State.setReady (s : State) (i : Nat) (v : Bool) : State :=
  if s.isReady i = v then s
  else State.readyChanged
    { s with ready := if v then s.ready ||| (1 <<< i : BitVec 64) else s.ready &&& ~~~(1 <<< i : BitVec 64) }

/-! ### The error log of a port (R392, R393) -/

/-- The ERR_STATUS bit of a kind of entry. -/
def kindBit (kind : Nat) : Nat :=
  if kind = 1 ∨ kind = 2 then 0 else if kind = 6 ∨ kind = 7 then 2 else 1

/-- An event entered in the log: counted, held while fewer than 16 entries are, with vector 1 for the
first one after the log was emptied (R392, R400). -/
def State.logErr (s : State) (p : Port) (off bar : Nat) (write : Bool) (kind : Nat) : State :=
  let q := s.port p
  let full := decide (16 ≤ q.errs.length)
  let st := q.errStatus ||| BitVec.ofNat 4 (2 ^ kindBit kind) ||| (if full then 8#4 else 0#4)
  let e : ErrEntry := { off := off % 2 ^ 32, bar := bar, write := write, kind := kind, tick := s.now % 2 ^ 24 }
  let s' := s.setPort p
    { q with errStatus := st, errTotal := satAdd 0xFFFF q.errTotal 1, errs := if full then q.errs else q.errs ++ [e] }
  if q.errTotal = 0 then s'.raise p 1 else s'

/-! ### Error records (R477, R478) -/

/-- The lowest free record index of a port. -/
def PortSt.freeRec (q : PortSt) : Option Nat := (List.range 32).find? fun i => !q.recValid.getLsbD i

/-- A record entered in one port's copy of the log. -/
def State.putRec (s : State) (p : Port) (r : ErrRec) : State :=
  s.modPort p fun q =>
    match q.freeRec with
    | none => { q with recLost := satAdd 0xFFFFFFFF q.recLost 1 }
    | some i => { q with recValid := q.recValid ||| (1 <<< i : BitVec 32), recs := Tbl.set q.recs i r }

/-- A record entered in both ports' copies; a job of the other port reads as none.
DEDUCED, unsafe (assumption 119). -/
def State.errRec (s : State) (r : ErrRec) : State :=
  s.onPorts fun s p =>
    let mine := match s.job r.job with
      | some x => decide (x.owner = p)
      | none => false
    s.putRec p { r with job := if mine then r.job else 0, tick := s.now % 2 ^ 32 }

/-! ### Completions (R405, R407) -/

/-- The status codes of R413 that completions carry. -/
def cSuccess : Nat := 0x0000
def cOpcodeUnknown : Nat := 0x0001
def cFieldInvalid : Nat := 0x0002
def cNotReady : Nat := 0x0003
def cBufferFault : Nat := 0x0004
def cBufferSmall : Nat := 0x0005
def cAborted : Nat := 0x0006

/-- The bytes of a completion (R407). -/
def completionBytes (tag status sqHead v0 v1 detail job opcode : Nat) (phase : Bool) : Bytes :=
  le 4 tag ++ le 2 status ++ le 2 sqHead ++ le 8 v0 ++ le 8 v1 ++ le 4 detail ++ le 1 job ++ le 1 opcode ++ [0] ++ le 1 (b2n phase 1)

/-- What a completion reports beside the fields it takes from its command. -/
structure Done where
  status : Nat := 0
  v0 : Nat := 0
  v1 : Nat := 0
  detail : Nat := 0
  job : Option Nat := none
  deriving DecidableEq, Repr

/-- The completion of the command in execution on a ring, posted at the tail of its completion ring; the ring
may then read its next command. A ring with no command in execution posts nothing. -/
def State.complete (s : State) (p : Port) (r : Nat) (d : Done) : State :=
  let g := s.ring p r
  match g.current with
  | none => s
  | some c =>
    let bytes := completionBytes (field c 4 4) d.status g.sqHead d.v0 d.v1 d.detail (d.job.getD (field c 2 1)) (field c 0 1) g.phase
    let tail := (g.cqTail + 1) % 2 ^ g.cqLog2
    let s := s.setRing p r
      { g with current := none, held := false, page := none, sent := 0, cqTail := tail, phase := if tail = 0 then !g.phase else g.phase }
    let s := s.emit (.completion p r g.cqTail bytes)
    if bit (field c 1 1) 0 then s else s.raise p (2 + r)

/-- A refusal: a completion with a status and nothing else. -/
def State.refuse (s : State) (p : Port) (r status : Nat) : State := s.complete p r { status := status }

/-- The ring's command is accepted and waits for its completion. -/
def State.hold (s : State) (p : Port) (r : Nat) : State :=
  s.setRing p r { s.ring p r with held := true }

/-! ### Translation of host pages (R337, R338) -/

/-- The numbers from `a` up to but not `b`. -/
def fromTo (a b : Nat) : List Nat := (List.range (b - a)).map (a + ·)

/-- The bus address of an I/O virtual address, where a cached entry grants the access. -/
def PortSt.xlat (q : PortSt) (pasid va : Nat) (write : Bool) : Option Nat :=
  (q.atc.find? fun e => e.pasid == pasid && e.page * 4096 ≤ va && va < e.page * 4096 + e.len && (if write then e.write else e.read)).map
    fun e => e.bus + (va - e.page * 4096)

/-- The pages of a range. -/
def pagesOf (va n : Nat) : List Nat := fromTo (va / 4096) ((va + n - 1) / 4096 + 1)

/-- The first page of a range that no cached entry covers for the access. -/
def PortSt.uncovered (q : PortSt) (pasid va n : Nat) (write : Bool) : Option Nat :=
  (pagesOf va n).find? fun pg => (q.xlat pasid (max va (pg * 4096)) write).isNone

/-- A Translation Request for a page that no cached entry covers, once (R338). -/
def State.askXlat (s : State) (p : Port) (pg : Nat × Nat) : State :=
  if (s.port p).atsReqs.contains pg then s
  else (s.modPort p fun q => { q with atsReqs := q.atsReqs ++ [pg] }).emit (.translate p pg.1 pg.2)

/-- Bytes written to host memory at the bus addresses of their pages (R338). -/
def State.hostWrite (s : State) (p : Port) (pasid va : Nat) (data : Bytes) : State :=
  s.each (pagesOf va data.length) fun s pg =>
    let a := max va (pg * 4096)
    let z := min (va + data.length) (pg * 4096 + 4096)
    s.emit (.host p (some pasid) (((s.port p).xlat pasid a true).getD a) ((data.drop (a - va)).take (z - a)))

/-- The port can serve host handles (R338). -/
def PortSt.servesHost (q : PortSt) : Bool := q.ats && q.pri && q.pasidEn

/-! ### Buffers of commands (R406) -/

/-- What stands between a command and bytes of its buffer: nothing, a port that serves no I/O virtual address, or a page to translate. -/
inductive BufStep where
  | go | refused | awaits (pg : Nat × Nat)
  deriving DecidableEq, Repr

/-- The PASID of a buffer whose address is an I/O virtual one. -/
def bufPasid (c : Bytes) : Option Nat := if bit (field c 0x14 4) 31 then some (field c 0x14 4 % 2 ^ 20) else none

/-- What stands between a command and `n` bytes of its buffer from an offset on. -/
def State.bufStep (s : State) (p : Port) (c : Bytes) (off n : Nat) (write : Bool) : BufStep :=
  match bufPasid c with
  | none => .go
  | some k =>
    if n = 0 then .go
    else if !(s.port p).servesHost then .refused
    else match (s.port p).uncovered k (field c 8 8 + off) n write with
      | none => .go
      | some pg => .awaits (k, pg)

/-- The bytes of its buffer that a command needs before it begins: those it reads, or the report that ATTEST writes, and whether it
writes them. -/
def bufNeeds (c : Bytes) : Nat × Bool :=
  match field c 0 1 with
  | 0x10 | 0x21 | 0x51 | 0x60 | 0x70 => (field c 0x10 4, false)
  | 0x11 => (if field c 0x29 1 = 0 then 2 * field c 0x2A 1 else 0, false)
  | 0x12 => (if field c 0x28 1 = 0 then field c 0x10 4 else 0, false)
  | 0x50 => (5632, true)
  | _ => (0, false)

/-- What stands between a command and its beginning. -/
def State.bufFirst (s : State) (p : Port) (c : Bytes) : BufStep := s.bufStep p c 0 (bufNeeds c).1 (bufNeeds c).2

/-- The status of a command whose buffer is refused (R409). -/
def bufFault (c : Bytes) : Nat := if field c 0 1 = 0x12 then 0x023A else cBufferFault

/-- The command of a ring awaits a page of its buffer, whose translation is asked for unless the command is halted on it already. -/
def State.askPage (s : State) (p : Port) (r : Nat) (pg : Nat × Nat) (write : Bool) : State :=
  let y : BufPage := { pasid := pg.1, page := pg.2, write := write }
  if (s.ring p r).page = some { y with halted := true } then s
  else (s.setRing p r { s.ring p r with page := some y }).askXlat p pg

/-- Some command of a port is halted on a page. -/
def State.ringHalted (s : State) (p : Port) (pg : Nat × Nat) : Bool :=
  (List.range 8).any fun r => (s.ring p r).page.any fun y => y.halted && (y.pasid, y.page) == pg

/-! ### Commands that name a job (R371, R404, R417) -/

/-- The opcodes that name a job. -/
def jobOpcodes : List Nat := [0x02, 0x10, 0x11, 0x12, 0x20, 0x21, 0x22]

/-- The state of a job accepts a command. -/
def JobSt.accepts (st : JobSt) (op : Nat) : Bool :=
  match st with
  | .created => op != 0x20
  | .loaded => true
  | .running => op != 0x20 && op != 0x10
  | .done | .stopped => op == 0x02
  | .wiping => false

/-- The state of the job that a command names accepts it (R371).
DEDUCED, unsafe (assumption 127). -/
def State.jobTakes (s : State) (c : Bytes) : Bool :=
  !jobOpcodes.contains (field c 0 1) || (s.job (field c 2 1)).all fun x => x.st.accepts (field c 0 1)

/-- The bind waits for the other members of its ring. -/
def KeySet.awaits (k : KeySet) : Bool := k.ring.isSome && k.joined.isEmpty

/-- The set of a job whose bind with a ring waits on a ring of commands. -/
def State.ringBind (s : State) (p : Port) (r : Nat) : Option (Nat × KeySet) :=
  s.jobNums.findSome? fun j => ((s.job j).bind fun x =>
    x.sets.find? fun k => k.awaits && k.binding.any fun b => b.2 == (p, r)).map fun k => (j, k)

/-- The place in their order of the last command that the firmware read from a ring of the port. -/
def State.lastRead (s : State) (p : Port) : Nat := ((List.range 8).map fun q => (s.ring p q).seq).foldl Nat.max 0

/-- The command of a ring waits for the next couch of its running job.
DEDUCED, unsafe (assumption 127). -/
def State.couchWaits (s : State) (p : Port) (r : Nat) (c : Bytes) : Bool :=
  (s.ring p r).held && [0x11, 0x21, 0x22].contains (field c 0 1) && ((s.job (field c 2 1)).any fun x => x.st == .running) &&
    (s.ringBind p r).isNone

/-- No other ring executes a command for the same job that the firmware read before this one, so that they take effect in the order of
their reading (R404). Where both wait for the same couch, the later one need not wait for the earlier; JOB_KILL waits for none (R417).
DEDUCED, unsafe (assumption 127). -/
def State.turn (s : State) (p : Port) (r : Nat) (c : Bytes) : Bool :=
  !jobOpcodes.contains (field c 0 1) || field c 0 1 == 0x02 || (List.range 8).all fun q =>
    !((s.ring p q).current.any fun d => jobOpcodes.contains (field d 0 1) && field d 2 1 == field c 2 1 &&
      decide ((s.ring p q).seq < (s.ring p r).seq) && !(s.couchWaits p q d && [0x11, 0x21, 0x22].contains (field c 0 1)))

/-- The command in execution on a ring where it has the opcode and was not accepted before, and its turn has come, while the
module runs and its firmware has not stopped for good (R445). -/
def State.fetched (s : State) (p : Port) (r opcode : Nat) : Option Bytes :=
  match (s.ring p r).current with
  | none => none
  | some c => if field c 0 1 = opcode ∧ (s.ring p r).held = false ∧ s.live ∧ !s.sec.fuses.retired ∧ s.turn p r c then some c else none

/-- That command where the state of its job accepts it at this moment (R371, R409), and its buffer can be reached (R406).
DESIGN CHOICE, safe (assumption 3); DEDUCED, safe (assumption 125). -/
def State.command (s : State) (p : Port) (r opcode : Nat) : Option Bytes :=
  (s.fetched p r opcode).filter fun c => s.jobTakes c && s.bufFirst p c == .go

/-- What becomes of that command otherwise: JOB_STATE where the state of its job, changed since the firmware read it, does not accept it
(R371); its buffer is refused, or a page of it is asked for (R338, R339, R406). -/
def State.turnAway (s : State) (p : Port) (r opcode : Nat) : State :=
  match s.fetched p r opcode with
  | none => s
  | some c =>
    if !s.jobTakes c then s.refuse p r 0x0109
    else match s.bufFirst p c with
      | .go => s
      | .refused => s.refuse p r (bufFault c)
      | .awaits pg => s.askPage p r pg (bufNeeds c).2

end Sys2Proof.Machine
end

