-- ==== Sys2Proof/Machine/Flits.lean ====
section
/-! DEFINITION. Sending on the quire links: flits, credits, retry buffers and routes (R422 to R431). -/

namespace Sys2Proof.Machine

def State.link (s : State) (k : Nat) : Link := Tbl.get {} s.links k
def State.modLink (s : State) (k : Nat) (f : Link → Link) : State := { s with links := Tbl.set s.links k (f (s.link k)) }
def State.span (s : State) (i : Nat) : Span := Tbl.get {} s.spans i
def State.modSpan (s : State) (i : Nat) (f : Span → Span) : State := { s with spans := Tbl.set s.spans i (f (s.span i)) }

/-- This module's number in its domain; 0 without a route table. -/
def State.self (s : State) : Nat := match s.route with | none => 0 | some r => r.self

/-- The span entry of an identifier (R431). -/
def State.spanEntry (s : State) (i : Nat) : Option RouteSpan :=
  match s.route with
  | none => none
  | some r => r.spans.find? fun x => x.id == i

/-- The members of a span, this module among them. -/
def State.members (s : State) (i : Nat) : List Nat := match s.spanEntry i with | none => [] | some x => x.members

/-- The local job of a span.
DEDUCED, unsafe (assumption 44). -/
def State.spanJob (s : State) (i : Nat) : Option Nat := (s.spanEntry i).map RouteSpan.job

/-! ### Classes and kinds (R422, R427) -/

def clsIdle : Nat := 0
def clsData : Nat := 1
def clsKey : Nat := 2
def clsTick : Nat := 3
def clsCouch : Nat := 4
def clsControl : Nat := 5

def kindReleaseEnd : Nat := 0x01
def kindVote : Nat := 0x02
def kindDecision : Nat := 0x03
def kindStart : Nat := 0x04
def kindSig : Nat := 0x10
def kindGrant : Nat := 0x11
def kindPassRequest : Nat := 0x12
def kindDecisionRequest : Nat := 0x13
def kindStop : Nat := 0x14
def kindPing : Nat := 0x15
def kindPong : Nat := 0x16

/-- The payload of a TICK: number, period in µs, hops, accumulated delay in ns (R427). -/
def tickPayload (no period hops delay : Nat) : Bytes := le 8 no ++ le 1 period ++ le 1 hops ++ le 4 delay

/-! ### One link -/

/-- The class and the number of the credits to return, the first class that owes any. -/
def Link.owes (x : Link) : Nat × Nat :=
  match [1, 2, 3, 4, 5].find? fun c => Tbl.get 0 x.owed c != 0 with
  | none => (0, 0)
  | some c => (c, Tbl.get 0 x.owed c)

/-- The 15 bytes of a header before HCHK (R422). -/
def Link.header (x : Link) (f : Flit) (seq : Nat) (nak : Bool) : Bytes :=
  let n := (f.payload.length + 15) / 16
  le 1 f.cls ++ le 1 (b2n f.first 1 + b2n f.last 2 + b2n (x.encrypted && f.cls != clsIdle) 4) ++ le 1 f.dst ++ le 1 f.src ++
    le 2 (seq % 4096) ++ le 2 ((x.rxSeq + 4095) % 4096 + b2n nak 32768) ++ le 2 (x.owes.1 * 8192 + x.owes.2) ++ le 2 f.span ++ le 2 f.tag ++
    le 1 n

/-- The 256 bytes of a flit (R422, R430). -/
def Link.bytes (x : Link) (k : Nat) (f : Flit) (seq : Nat) (nak : Bool) : Bytes :=
  let h := x.header f seq nak
  let h := h ++ le 1 (crc8 h)
  if x.encrypted && f.cls != clsIdle then h ++ fit 240 (Config.gcm k x.session x.txCount h (fit 224 f.payload))
  else h ++ fit 240 f.payload

/-- The local jobs whose traffic a flit of a class, SPAN and TAG is: the job of its span, or those that bind its key set to a ring. -/
def State.flitJobs (s : State) (cls span tag : Nat) : List Nat :=
  if cls = clsKey then
    s.jobNums.filter fun j => (s.job j).any fun x => x.sets.any fun k =>
      k.slot.isSome && k.ring.isSome && leVal (k.id.take 2) == tag && decide (span < k.entries.length)
  else (s.spanJob span).toList

/-- The jobs use a link in the sheet in hand (R424). -/
def State.useLink (s : State) (k : Nat) (js : List Nat) : State := s.modLink k fun x => { x with users := (x.users ++ js).dedup }

/-- An IDLE flit, which needs no credit and takes no sequence number, carries the acknowledgement and the credits
owed (R422, R426).
DEDUCED, unsafe (assumption 113). -/
def State.sendIdle (s : State) (k : Nat) (nak : Bool) : State :=
  let x := s.link k
  let f : Flit := { cls := clsIdle, dst := x.peer, src := s.self, span := 0, tag := 0, first := true, last := true, payload := [] }
  (s.emit (.link k (x.bytes k f x.txSeq nak))).modLink k fun x => { x with owed := Tbl.set x.owed x.owes.1 0 }

/-- A receive buffer of a class is free again: its credit goes back to the peer (R426). -/
def State.owe (s : State) (k cls : Nat) : State := s.modLink k fun x => { x with owed := Tbl.set x.owed cls (Tbl.get 0 x.owed cls + 1) }

/-- A flit put on the lanes: it takes the next sequence number and a credit, and stays in the retry buffer until
it is acknowledged (R424, R426). The buffer that a forwarded one held is free.
DESIGN CHOICE, safe (assumption 114). -/
def State.transmit (s : State) (k : Nat) (f : Flit) : State :=
  let x := s.link k
  let s := s.emit (.link k (x.bytes k f x.txSeq false))
  let s := s.modLink k fun x =>
    { x with txSeq := (x.txSeq + 1) % 4096, retry := x.retry ++ [(x.txSeq, f)], owed := Tbl.set x.owed x.owes.1 0,
             used := Tbl.set x.used f.cls (Tbl.get 0 x.used f.cls + 1), last := Tbl.set x.last f.cls f.src, txCount := x.txCount + 1 }
  let s := s.useLink k (s.flitJobs f.cls f.span f.tag)
  match f.via with
  | none => s
  | some i => (s.owe i f.cls).sendIdle i false

/-- The classes in priority order: TICK and COUCH, CONTROL, KEY, DATA (R426). -/
def priority : List Nat := [clsTick, clsCouch, clsControl, clsKey, clsData]

/-- The next source after the one last served comes first (R426). -/
def turn (last src : Nat) : Nat := (src + 127 - last % 128) % 128

/-- The flit of a class that is served next: the earliest of the source whose turn it is. -/
def Link.pick (x : Link) (c : Nat) : Option Flit :=
  let l := Tbl.get 127 x.last c
  (x.waiting.filter fun f => f.cls == c).foldl (fun a f => match a with
    | none => some f
    | some g => if turn l f.src < turn l g.src then some f else a) none

/-- The flit that goes out next: of the first class in priority that holds a flit and a credit, while the retry
buffer of 512 has room. -/
def Link.next (x : Link) : Option Flit :=
  if 512 ≤ x.retry.length then none
  else priority.findSome? fun c => if Tbl.get 0 x.used c < 128 then x.pick c else none

/-- The link carries traffic (R419). -/
def Link.carries (x : Link) : Bool := x.st == .up || x.st == .recal

/-- Traffic pauses: a lane is recalibrated while the spare already replaces a retired one (R419, R420). -/
def Link.paused (x : Link) : Bool := x.st == .recal && x.spareFor.isSome

/-- Waiting flits sent while credits and room last. -/
def State.pump : Nat → State → Nat → State
  | 0, s, _ => s
  | n + 1, s, k =>
    if !(s.link k).carries || (s.link k).paused then s else
    match (s.link k).next with
    | none => s
    | some f => State.pump n ((s.transmit k f).modLink k fun x => { x with waiting := x.waiting.erase f }) k

/-- Flits queued on a link, and sent as far as they may be. -/
def State.enqueue (s : State) (k : Nat) (fs : List Flit) : State :=
  let s := s.modLink k fun x => { x with waiting := x.waiting ++ fs }
  State.pump (s.link k).waiting.length s k

/-! ### Routes (R431) -/

/-- The links that the forward entry of a destination selects and that are not down: traffic waits on a link that
retrains (R419, R425). -/
def State.routesTo (s : State) (dst : Nat) : List Nat :=
  match s.route with
  | none => []
  | some r =>
    let mask := (r.forwards.find? fun f => f.1 == dst).elim 0 Prod.snd
    (List.range 24).filter fun k => bit mask k && ((s.link k).carries || (s.link k).st == .retrain)

/-- The link for a destination, spread by SPAN and TAG so that a stream keeps to one link (R431). -/
def State.routeTo (s : State) (dst span tag : Nat) : Option Nat :=
  let ks := s.routesTo dst
  ks[(span + tag) % ks.length]?

/-- One message cut into flits of 240 bytes, or 224 where the link encrypts (R422). -/
def cutFlits (size : Nat) (mk : Bool → Bool → Bytes → Flit) : Nat → Bool → Bytes → List Flit
  | 0, first, b => [mk first true (b.take size)]
  | n + 1, first, b => mk first false (b.take size) :: cutFlits size mk n false (b.drop size)

/-- A message sent to a member of the domain, or a part of one that does not begin or end it. Without a route it goes nowhere.
DESIGN CHOICE, unsafe (assumption 60). -/
def State.sendMsg (s : State) (dst cls span tag : Nat) (payload : Bytes) (opens : Bool := true) (ends : Bool := true) : State :=
  match s.routeTo dst span tag with
  | none => s
  | some k =>
    let size := if (s.link k).encrypted then 224 else 240
    let mk (first last : Bool) (b : Bytes) : Flit :=
      { cls := cls, dst := dst, src := s.self, span := span, tag := tag, first := first && opens, last := last && ends, payload := b }
    s.enqueue k (cutFlits size mk ((payload.length + size - 1) / size - 1) true payload)

/-- A message sent to every other member of a span. -/
def State.spanSend (s : State) (i cls tag : Nat) (payload : Bytes) : State :=
  s.each ((s.members i).filter fun m => m != s.self) fun s m => s.sendMsg m cls i tag payload

/-! ### Receiving (R422 to R426) -/

/-- The retry buffer after an acknowledgement: everything up to that number leaves it. -/
def afterAck (r : List (Nat × Flit)) (ack : Nat) : List (Nat × Flit) :=
  if r.any fun c => c.1 == ack then (r.dropWhile fun c => c.1 != ack).drop 1 else r

/-- Every flit of the retry buffer is sent again under its own number, and counted (R424, R437). -/
def State.resend (s : State) (k : Nat) : State :=
  let x := s.link k
  let s := s.each x.retry fun s c =>
    (s.emit (.link k ((s.link k).bytes k c.2 c.1 false))).modLink k fun y => { y with txCount := y.txCount + 1 }
  s.bump (ctrLink k 1) x.retry.length

/-- The acknowledgement and the credits of a header; one that is a NAK has what follows its number sent again.
DESIGN CHOICE, safe (assumption 59). -/
def State.takeAck (s : State) (k : Nat) (h : FlitHdr) : State :=
  let s := s.modLink k fun x =>
    { x with retry := afterAck x.retry h.ack, used := Tbl.set x.used h.credClass (Tbl.get 0 x.used h.credClass - h.credits) }
  let s := if h.nak then s.resend k else s
  State.pump (s.link k).waiting.length s k

/-- The flit is the next one expected on a link that carries traffic. -/
def State.inOrder (s : State) (k : Nat) (h : FlitHdr) : Bool := (s.link k).carries && h.seq == (s.link k).rxSeq

/-- A good flit received: its acknowledgement and credits are taken, and its own number is acknowledged. One for this module is consumed,
so its buffer's credit goes back at once; that of one to be forwarded goes back when it goes on (R426).
DESIGN CHOICE, safe (assumption 59); DEDUCED, unsafe (assumption 113). -/
def State.takeFlit (s : State) (k : Nat) (h : FlitHdr) (cls : Nat) : State :=
  let s := (s.takeAck k h).modLink k fun x => { x with rxSeq := (h.seq + 1) % 4096, rxCount := x.rxCount + 1 }
  let s := s.useLink k (s.flitJobs cls h.span h.tag)
  (if h.dst = s.self ∨ (s.routeTo h.dst h.span h.tag).isNone then s.owe k cls else s).sendIdle k false

/-- A bit of LINK_ERR, in each port's register (R437). -/
def State.linkErr (s : State) (k bit : Nat) : State :=
  s.onPorts fun s p => s.modPort p fun q => { q with linkErr := Tbl.set q.linkErr k (Tbl.get 0 q.linkErr k ||| BitVec.ofNat 16 (2 ^ bit)) }

/-- A bad flit is answered with a NAK that carries the last good number (R424). -/
def State.badFlit (s : State) (k : Nat) : State := s.sendIdle k true

/-- A flit forwarded to its destination by another link, where one leads there (R423, R431). -/
def State.forward (s : State) (h : FlitHdr) (cls : Nat) (payload : Bytes) (via : Option Nat := none) : State :=
  match s.routeTo h.dst h.span h.tag with
  | none => s
  | some k =>
    s.enqueue k [{ cls := cls, dst := h.dst, src := h.src, span := h.span, tag := h.tag, first := h.first, last := h.last, payload := payload,
                   via := via }]

/-- What makes a flit bad: the bits of LINK_ERR that it sets; none where it is good (R423, R430, R437). -/
def State.flitBad (s : State) (k cls want : Nat) (h : FlitHdr) (line : FlitLine) : Option (List Nat) :=
  if line = .codeword then some [0]
  else if line = .hchk ∨ cls ≠ want then some []
  else if line = .tag ∧ (s.link k).encrypted then some [3]
  else if !s.inOrder k h then some []
  else none

/-- A flit of a class received on a link that carries traffic: a bad one is refused, one for another module goes on, and the others have
their effect (R423, R431, R432).
DESIGN CHOICE, safe (assumption 59). -/
def State.takeIn (s : State) (k cls want : Nat) (h : FlitHdr) (line : FlitLine) (payload : Bytes) (act : State → State) : State :=
  match s.flitBad k cls want h line with
  | some bits => (s.each bits fun s b => s.linkErr k b).badFlit k
  | none =>
    let s := s.takeFlit k h want
    if h.dst = s.self then act s else s.forward h want payload (some k)

/-- A message received: by the flit that brings it, where the link layer is described.
DESIGN CHOICE, safe (assumption 59). -/
def State.receive (s : State) (arr : Option Arrival) (want : Nat) (payload : Bytes) (act : State → State) : State :=
  match arr with
  | none => act s
  | some a => if s.live ∧ (s.link a.k).carries then s.takeIn a.k a.cls want a.hdr a.line payload act else s

end Sys2Proof.Machine
end

