-- ==== Sys2Proof/Machine/Faults.lean ====
section
/-! DEFINITION. What a fault, a stop and a kill do to a job: the shared operations of R12, R107, R112,
R377 and the records of R415 and R416. -/

namespace Sys2Proof.Machine

/-! ### Contents of banks and units -/

/-- The first address of bank group `x` = 128m + g: its 4 MiB are contiguous (R290). -/
def groupBase (x : Nat) : Nat := x * 2 ^ 22

/-- A bank group's contents wiped (R299). -/
def State.wipeGroup (s : State) (x : Nat) : State := { s with sram := Mem.wipe s.sram (groupBase x) (2 ^ 22) }

/-- The key of a byte of HBM: the global pseudo-channel and the byte within it (R347). -/
def hbmKey (pc byte : Nat) : Nat := pc * 2 ^ 30 + byte

/-- A key of HBM lies in unit `x` = 1536m + k: slab k of the mill's three stacks (R348). -/
def inUnit (x a : Nat) : Bool := a / 2 ^ 30 / 192 == x / 1536 && a % 2 ^ 30 / 524288 == x % 1536

/-! ### The remap of retired pseudo-channels (R347, R357, R358) -/

/-- The bytes of a pseudo-channel below its part of the remap reserve, and their granules (R347, R350). -/
def pcBytes : Nat := 768 * 2 ^ 20
def pcGranules : Nat := 1536 * 2048

/-- Where granule (k, b) of a retired pseudo-channel of a stack is redirected (R357). -/
def redirectPc (c k b : Nat) : Nat := (c + 1 + (2048 * k + b) % 63) % 64

/-- How many granules of a retired pseudo-channel `c` are redirected to `d`: every 63rd, from the first one that is.
DESIGN CHOICE, unsafe (assumption 158). -/
def redirects (c d : Nat) : Nat :=
  let r := (d + 63 - c) % 64
  if r = 63 then 0 else (pcGranules - 1 - r) / 63 + 1

/-- The reserve granules of `d` taken by the pseudo-channels retired before `c`.
DESIGN CHOICE, unsafe (assumption 158). -/
def Stack.takenBefore (x : Stack) (c d : Nat) : Nat := ((x.retired.takeWhile (· != c)).map fun p => redirects p d).foldl (· + ·) 0

/-- A granule of a retired pseudo-channel lies at its redirect: its migration has ended, or it was written since (R358). -/
def Stack.redirected (x : Stack) (c n : Nat) : Bool :=
  x.retired.contains c && (!(x.migrating.any fun m => m.1 == c) || x.moved.contains (c * 2 ^ 22 + n))

/-- Where a byte of HBM stands: at its own place, or in the reserve granule of its redirect, which is the next free one there (R357).
DESIGN CHOICE, unsafe (assumption 158). -/
def State.phys (s : State) (key : Nat) : Nat :=
  let x := s.stack (key / 2 ^ 36)
  let c := key / 2 ^ 30 % 64
  let n := key % 2 ^ 30 / 256
  if x.redirected c n then
    let d := redirectPc c (n / 2048) (n % 2048)
    hbmKey (key / 2 ^ 36 * 64 + d) (pcBytes + (x.takenBefore c d + n / 63) * 256 + key % 256)
  else key

/-- The byte that stands at a place of HBM: of the retired pseudo-channel whose granule a reserve granule holds.
DESIGN CHOICE, unsafe (assumption 158). -/
def State.logical (s : State) (key : Nat) : Nat :=
  let x := s.stack (key / 2 ^ 36)
  let d := key / 2 ^ 30 % 64
  let byte := key % 2 ^ 30
  if byte < pcBytes then key
  else
    let q := (byte - pcBytes) / 256
    (x.retired.findSome? fun c =>
      let b := x.takenBefore c d
      if b ≤ q ∧ q < b + redirects c d then
        some (hbmKey (key / 2 ^ 36 * 64 + c) ((63 * (q - b) + (d + 63 - c) % 64) * 256 + byte % 256))
      else none).getD key

/-- Cells and tags of HBM carried from their places to others. -/
def State.carry (s : State) (moves : Nat → Bool) (dest : Nat → Nat) : State :=
  let cells := s.hbm.filter fun c => moves c.1
  let tags := s.hbmTag.filter fun c => moves (c.1 * 64)
  { s with hbm := cells.foldl (fun (m : Mem) c => m.set (dest c.1) c.2) (s.hbm.filter fun c => !moves c.1),
           hbmTag := tags.foldl (fun t c => Tbl.set t (dest (c.1 * 64) / 64) c.2) (s.hbmTag.filter fun c => !moves (c.1 * 64)) }

/-- A granule about to be written, of a pseudo-channel that migrates, goes to its redirect and is migrated (R358). -/
def State.moveGranule (s : State) (key : Nat) : State :=
  let x := s.stack (key / 2 ^ 36)
  let c := key / 2 ^ 30 % 64
  let n := key % 2 ^ 30 / 256
  if x.retired.contains c ∧ !x.redirected c n then
    let s := s.modStack (key / 2 ^ 36) fun x => { x with moved := (c * 2 ^ 22 + n) :: x.moved }
    s.carry (fun a => a / 256 == key / 256) s.phys
  else s

/-- Bytes within one granule of HBM written. -/
def State.hbmWrite (s : State) (key : Nat) (b : Bytes) : State :=
  let s := s.moveGranule key
  { s with hbm := s.hbm.write (s.phys key) b }

/-- The owner tag stored with a sector. -/
def State.storedTag (s : State) (key : Nat) : Nat := Tbl.get 0 s.hbmTag (s.phys key / 64)

/-- A unit filled with zeros and tag 0x00 (R360). -/
def State.fillUnit (s : State) (x : Nat) : State :=
  { s with hbm := s.hbm.filter fun c => !inUnit x (s.logical c.1),
           hbmTag := s.hbmTag.filter fun c => !inUnit x (s.logical (c.1 * 64)) }

/-- The bank groups, by number, that belong to a job. -/
def State.groupsOf (s : State) (j : Nat) : List Nat := (s.groups.filter fun c => c.2.owner == j).map Prod.fst

/-- The HBM units, by number, that belong to a job. -/
def State.unitsOf (s : State) (j : Nat) : List Nat := (s.units.filter fun c => c.2.owner == j).map Prod.fst

/-! ### Cores of a job -/

/-- A core that issues nothing more, with nothing in flight (R377, R112). -/
def CoreSt.quiet (c : CoreSt) (m : CoreMode) : CoreSt :=
  { c with mode := m, staged := [], scalarQ := [], vecQ := [], loadQ := [], storeQ := [], sigQ := [], drainQ := [],
           nttQ := [], ctQ := [], xq0 := [], xq1 := [] }

/-- Every core of a job changed by a function. -/
def State.jobCores (s : State) (j : Nat) (f : CoreSt → CoreSt) : State :=
  match s.job j with
  | none => s
  | some x => s.each x.cores fun s n => s.modCore n f

/-- The key streams of a job ended on every mill, and their staging blocks wiped (R377, R170). -/
def State.endKeyStreams (s : State) (j : Nat) : State :=
  let keep (h : Headbox) : Headbox :=
    { h with streams := h.streams.map fun t => (t.1, t.2.filter fun k => k.job != j), staging := h.staging.filter fun b => b.2.job != j,
             served := Tbl.erase h.served j }
  State.modJob { s with headboxes := s.headboxes.map (fun c => (c.1, keep c.2)), passes := s.passes.filter (fun x => x.job != j) } j
    fun x => { x with keysWait := [] }

/-- The entries of a job's key, or of all its keys, cleared from every key directory (R166, R377). -/
def State.clearDir (s : State) (j : Nat) (set : Option Bytes) : State :=
  { s with headboxes := s.headboxes.map fun (c : Nat × Headbox) =>
      (c.1, { c.2 with dir := c.2.dir.filter fun e => !(e.job == j && set.all (· == e.keyset)) }) }

/-- The BAR2 windows of a job closed (R371). -/
def State.closeWins (s : State) (j : Nat) : State :=
  s.onPorts fun s p => s.modPort p fun q =>
    { q with wins := q.wins.map fun c => (c.1, c.2.filter fun w => w.job != j) }

/-! ### Commands of a job that wait -/

/-- The command in execution on a ring names the job. -/
def Ring.names (g : Ring) (j : Nat) : Bool :=
  match g.current with
  | none => false
  | some c => field c 2 1 == j

/-- Every command in execution on the port's rings that names the job ends with ABORTED, but for that of
ring `keep` (R417). -/
def State.abortAll (s : State) (p : Port) (j : Nat) (keep : Option Nat) : State :=
  s.each (List.range 8) fun s r =>
    if keep ≠ some r ∧ (s.ring p r).names j then s.complete p r { status := cAborted } else s

/-- The commands of a job that wait for a couch end with ABORTED and nothing of them takes effect; a
power-down that has begun completes when its groups are dark (R417).
DEDUCED, unsafe (assumption 67). -/
def State.abortWaiting (s : State) (j : Nat) : State :=
  match s.job j with
  | none => s
  | some x =>
    let gone := x.power.filter fun w => !(w.begun && !w.up)
    let s := s.each x.maps fun s w => s.complete w.port w.ring { status := cAborted }
    let s := s.each gone fun s w => s.complete w.port w.ring { status := cAborted }
    let s := s.each x.sets fun s k =>
      match k.binding, k.unbinding with
      | some (_, p, r), some (p', r') => (s.complete p r { status := cAborted }).complete p' r' { status := cAborted }
      | some (_, p, r), none => s.complete p r { status := cAborted }
      | none, some (p, r) => s.complete p r { status := cAborted }
      | none, none => s
    let s := s.each (gone.flatMap PendPower.groups) fun s g => s.modGroup g fun y => { y with pend := none }
    s.modJob j fun x =>
      { x with maps := [], power := x.power.filter fun w => w.begun && !w.up, binds := [],
               sets := x.sets.map fun k => { k with binding := none, unbinding := none } }

/-! ### Records -/

/-- The code of a resource in a record (R415). -/
def resCode : Res → Nat
  | .none => 0
  | .core => 1
  | .bankGroup => 2
  | .pseudoChannel => 3
  | .linkLane => 4
  | .headbox => 5
  | .peer => 6

/-- What a stop record says (R415, R416). -/
structure StopInfo where
  /-- Cause (R110). -/
  code : Nat
  detail : Nat := 0
  core : Nat := 0xFF
  slot : Nat := 0xFF
  bundle : Nat := 0
  handle : Nat := 0xFFFF
  data : Bytes := []
  entries : List Bytes := []
  /-- The resource named by an error record. -/
  res : ResIx := {}
  /-- The stored tag of a tag mismatch, for its error record (R353, R478). -/
  tag : Nat := 0
  /-- The fault lies in the data of a release (R107). -/
  inRelease : Bool := false
  deriving DecidableEq, Repr

/-- The class of a stop: 3 PROGRAM, 4 UNRECOVERABLE (R110). -/
def stopClass (code : Nat) : Nat := if 0x0301 ≤ code ∧ code ≤ 0x030D then 3 else 4

/-- The body of a stop record (R415). -/
def stopBody (i : StopInfo) (lastCouch : Nat) : Bytes :=
  le 1 (stopClass i.code) ++ le 1 i.detail ++ le 1 i.core ++ le 1 i.slot ++ le 4 i.bundle ++ le 4 lastCouch ++ le 2 i.handle ++
    le 2 i.entries.length ++ fit 32 i.data ++ i.entries.flatten

/-- A stop record takes one unit, and one more for every four entries. -/
def stopUnits (i : StopInfo) : Nat := 1 + (i.entries.length + 3) / 4

/-! ### Page requests (R339 to R343) -/

/-- A job's stream, or its release engine, is halted on a page under a PASID. -/
def State.halted (s : State) (j : Nat) (pg : Nat × Nat) : Bool :=
  match s.job j with
  | none => false
  | some x => x.relHalt == some pg ||
      x.cores.any fun n => (s.core n).chans.any fun c => c.2.any fun h => h.halt == some pg

/-- Something of a port is halted on a page: a stream or release engine of one of its jobs, or a command. -/
def State.anyHalted (s : State) (p : Port) (pg : Nat × Nat) : Bool :=
  (s.jobNums.any fun j => (s.job j).any (fun x => x.owner == p) && s.halted j pg) || s.ringHalted p pg

/-- Requests of a port that nothing halted awaits any more are ended: their responses are discarded. -/
def State.endRequests (s : State) (p : Port) : State :=
  s.modPort p fun q => { q with pageReqs := q.pageReqs.filter (s.anyHalted p), pageWait := q.pageWait.filter (s.anyHalted p) }

/-! ### Stop (R12, R107, R371) -/

/-- What every end of a job's run does to its resources in use: its cores and engines stop, its windows
close, its page requests and key passes end. -/
def State.haltJob (s : State) (j : Nat) (m : CoreMode) : State :=
  let s := s.jobCores j fun c => { c.quiet m with chans := [], exc := none, excCount := 0 }
  let s := ((s.closeWins j).endKeyStreams j).modJob j fun x =>
    { x with couching := false, overrun := false, quiesce := none, replaying := false, begins := false,
             suspended := false, suspend := false, relHalt := none, inter := {} }
  s.onPorts State.endRequests

/-- The error record of an UNRECOVERABLE cause (R477). -/
def State.stopErr (s : State) (j : Nat) (i : StopInfo) : State :=
  if stopClass i.code = 4 then
    s.errRec { code := i.code, res := resCode i.res.res, cls := 4, job := j, detail := i.detail, index := i.res.index, info := i.tag }
  else s

/-- The records of a stop: the error record of an UNRECOVERABLE cause, and the stop record (R415, R477). -/
def State.stopRec (s : State) (j : Nat) (i : StopInfo) : State :=
  match s.job j with
  | none => s
  | some x => (s.stopErr j i).jobEvent j 3 i.code (stopUnits i) (stopBody i x.seq)

/-- The job stops: it is not replayed, its unreleased outputs are withheld, and a stop record is posted
(R12, R107). The other members of its span are told. -/
def State.stopNow (s : State) (j : Nat) (i : StopInfo) (tell : Bool) : State :=
  match s.job j with
  | none => s
  | some x =>
    let s := ((s.stopRec j i).abortWaiting j).haltJob j .idle
    let s := s.modJob j fun x =>
      { x with st := .stopped, rels := if i.inRelease then [] else x.rels.filter Release.begun }
    match x.span with
    | none => s
    | some sp => if !tell then s else s.spanSend sp clsControl kindStop (le 2 i.code)

/-- A fault of a run stops the job. A job that does not run is left alone. -/
def State.stopJob (s : State) (j : Nat) (i : StopInfo) (tell : Bool := true) : State :=
  match s.job j with
  | none => s
  | some x => if x.st ≠ .running then s else s.stopNow j i tell

/-- A stop of a job whether it was submitted or not: one that is done, stopped or wiped is left alone (R82, R474). -/
def State.stopAny (s : State) (j : Nat) (i : StopInfo) (tell : Bool := true) : State :=
  match s.job j with
  | none => s
  | some x => if x.st = .created ∨ x.st = .loaded ∨ x.st = .running then s.stopNow j i tell else s

/-- A PROGRAM fault of an operation of a core (R228, R110). -/
def State.program (s : State) (n code detail slot : Nat) (handle : Nat := 0xFFFF) (data : Bytes := []) : State :=
  s.stopJob (s.core n).job
    { code := code, detail := detail, core := n, slot := slot, bundle := (s.core n).bundle, handle := handle, data := data }

/-! ### Kill (R377) -/

/-- Bank groups and units of a job at its end: owned groups are wiped, dark and draining ones go OFF, units
are filled (R299, R360, R307). -/
def State.beginWipe (s : State) (j : Nat) : State :=
  let gs := s.groupsOf j
  let us := s.unitsOf j
  let s := s.each gs fun s x => s.modGroup x fun g =>
    match g.st with
    | .draining | .dark => { g with st := .off, owner := 0, mapped := false, pend := none }
    | _ => { g with st := .wiping, mapped := false, pend := none }
  let s := s.each us fun s x => s.modUnit x fun u => { u with filling := true }
  s.modJob j fun x => { x with wipeGroups := (gs.filter fun g => (s.group g).st == .wiping), wipeUnits := us }

/-- The job is stopped and wiped, with no stop record (R377, R107). A job in WIPING is left alone. -/
def State.killJob (s : State) (j : Nat) : State :=
  match s.job j with
  | none => s
  | some x =>
    if x.st = .wiping then s else
    let s := s.haltJob j .idle
    let s := s.each x.cores fun s n => s.setCore n {}
    let s := s.modJob j fun x =>
      { x with st := .wiping, rels := [], areas := [], handles := [], sems := [], bars := [], blks := [], undo := [],
               sets := [], maps := [], power := [], snap := {}, image := none, rxHidden := [], binds := [], tables := [] }
    let s := if s.ingest.any fun g => g.job == j then { s with ingest := none } else s
    (s.clearDir j none).beginWipe j

/-- The other members of a job's span are told that it has ended (R82, R379). -/
def State.tellStop (s : State) (j cause : Nat) : State :=
  match s.job j with
  | none => s
  | some x =>
    match x.span with
    | none => s
    | some i => if x.st = .wiping then s else s.spanSend i clsControl kindStop (le 2 cause)

/-- A job ended by a kill or a reset (R377, R379, R82): the other members of its span are told, commands for it
end with ABORTED, and it is stopped and wiped. -/
def State.endJob (s : State) (j cause : Nat) (keep : Option Nat) : State :=
  match s.job j with
  | none => s
  | some x => if x.st = .wiping then s else ((s.tellStop j cause).abortAll x.owner j keep).killJob j

/-! ### Replay (R112) -/

/-- The class code of a fault that replays (R415). -/
def Quiesce.cls (q : Quiesce) : Nat := if q.contained then 2 else 1

/-- A TRANSIENT or CONTAINED fault of a job: its cores stop issue, its streams halt, and the quiesce
begins. A second fault during a quiesce is absorbed into it (R113). In a job that spans modules the others roll back with it,
and a fault found after a READY vote waits for the decision (R116).
DEDUCED, unsafe (assumption 58). -/
def State.beginReplay (s : State) (j : Nat) (q : Quiesce) : State :=
  match s.job j with
  | none => s
  | some x =>
    let q := { q with tick := some (q.tick.getD s.now) }
    if x.st ≠ .running ∨ x.final then s
    else if (x.span.any fun i => (s.span i).mine == some .ready) then
      s.each x.span.toList fun s i => s.modSpan i fun y => { y with deferred := y.deferred.orElse fun _ => some q }
    else
      let s := s.errRec { code := q.code, res := resCode q.res.res, cls := q.cls, job := j, detail := q.detail,
                          index := q.res.index, info := q.tag }
      match x.quiesce with
      | some _ => if q.contained then s.modJob j fun x => { x with more := x.more ++ [q] } else s
      | none =>
        let s := s.jobCores j fun c => { c.quiet .out with chans := [] }
        let s := ((s.onPorts State.endRequests).endKeyStreams j).bump (ctrModule 21) 1
        let s := s.modJob j fun x => { x with quiesce := some q, replaying := true, couching := false, overrun := false, begins := false }
        if q.told then s
        else s.each x.span.toList fun s i => s.modSpan i fun y => { y with faulted := true, mine := none }

/-- The body of a replay record (R415). -/
def replayBody (q : Quiesce) (fromCouch : Nat) : Bytes :=
  le 1 q.cls ++ le 1 (resCode q.res.res) ++ le 2 q.res.index ++ le 1 q.detail ++ le 1 q.tag ++ le 2 0 ++ le 4 fromCouch

/-- The jobs that run. -/
def State.runningJobs (s : State) : List Nat :=
  s.jobNums.filter fun j => (s.job j).any fun x => x.st == .running

end Sys2Proof.Machine
end

