-- ==== Sys2Proof/Machine/Power.lean ====
section
/-! DEFINITION. Power, thermal limits and operating points (R50 to R62, R71, R72). -/

namespace Sys2Proof.Machine

/-- The module runs in limp exactly when the oscillator is the source (R65). -/
def State.limp (s : State) : Bool := s.clk.source == .oscillator

/-! ### What the sideband outputs drive (R28, R29, R35, R37) -/

/-- What a sideband output of the module does to its line. -/
inductive PinLevel where
  | low | high | released
  deriving DecidableEq, Repr

/-- The module's logic has power. -/
def State.supplied (s : State) : Bool := s.pins.power != .off && s.pins.power != .tripped

/-- PRESENT_N is a contact tied to GND (R28). -/
def presentN : PinLevel := .low

/-- PWR_GOOD is push-pull, and high impedance without power (R28). -/
def State.pwrGoodLevel (s : State) : PinLevel :=
  if !s.supplied then .released else if s.pins.pwrGood then .high else .low

/-- ALERT_N is an open drain, low while an event waits for the management controller (R28, R37). -/
def State.alertLevel (s : State) : PinLevel := if s.supplied && s.pins.alert then .low else .released

/-- THERMTRIP_N is an open drain that the input controller holds low after a trip, also without module power (R29, R35). -/
def State.thermtripLevel (s : State) : PinLevel := if s.pins.thermtrip then .low else .released

/-! ### Operating points (R51, R52) -/

/-- The rail in mV of a divider: that of the point with the next lower DIV_K (R51).
DEDUCED, unsafe (assumption 9). -/
def railFor (k : Nat) : Nat :=
  if k < 18 then 800 else if k < 20 then 770 else if k < 24 then 740 else if k < 32 then 700 else 650

/-- The ratio of the source in use: DIV_K 20 in limp, else 16 (R63). -/
def State.ratio (s : State) : Nat := if s.limp then 20 else 16

/-- The divider a mill ramps towards: the highest of its causes (R62), 32 before its SRAM is ready (R71). During a switch of
source it is half rate, and then the higher of the new ratio and the DIV_K before the switch (R52, R66). -/
def State.targetDiv (s : State) (m : Nat) : Nat :=
  let x := s.mill m
  let k := match s.clk.switching with
    | .ramping => max 32 x.before
    | .relocked => max s.ratio x.before
    | .none => max (max x.capK x.thermK) s.ratio
  if x.ramped then k else max 32 k

/-- The duty count applied: the lowest that a cause asks for (R54, R62, R75). -/
def Mill.duty (x : Mill) : Nat := min (min x.capDuty (if x.limiter then 8 else 16)) (if x.thermLimit then 4 else 16)

/-- The highest divider and the lowest duty applied now to the mills of a job, whatever the cause.
DESIGN CHOICE, unsafe (assumption 138). -/
def State.jobPoint (s : State) (x : Job) : Nat × Nat :=
  (s.jobMills x).foldl (fun a m => (max a.1 (s.mill m).divK, min a.2 (s.mill m).duty)) (16, 16)

/-- The mill runs below nominal. -/
def Mill.below (x : Mill) : Bool := 16 < x.divK || x.duty < 16

/-- Every running job notes the operating points of its mills for the D of its stride (R56), and every mill that it runs
below nominal (R479).
DESIGN CHOICE, unsafe (assumption 138). -/
def State.notePoints (s : State) : State :=
  let s := s.each (List.range 4) fun s m => s.modMill m fun x => { x with slow := x.slow || x.below }
  s.each s.runningJobs fun s j =>
    s.modJob j fun x => { x with kMax := max x.kMax (s.jobPoint x).1, dMin := min x.dMin (s.jobPoint x).2 }

/-- D, the last sheet of a stride in which the couch may fall (R56). -/
def sheetD (stride k d : Nat) : Nat := (stride * k + d - 1) / d + 1

/-- The pin rate of the stacks, in tenths of Gb/s (R63, R363). -/
def State.pinRate (s : State) : Nat := if s.limp then 64 else 80

/-! ### The cap (R53, R57, R62) -/

/-- The integrator cap as lowered by input voltage and regulators (R72). -/
def State.integrator (s : State) : Nat := min (min s.clk.integratorCap s.clk.vinCap) s.clk.regCap

/-- The effective cap is the lower of the two caps. -/
def State.cap (s : State) : Nat := min s.integrator s.clk.adminCap

/-- A cap is 600 W to 1000 W in steps of 10 W (R53). -/
def capOk (w : Nat) : Bool := 600 ≤ w && w ≤ 1000 && w % 10 == 0

/-! ### Loss of power (R58, R60) -/

/-- The security block at a loss of power: fuses, flash slots and journal stay (R60, R440, R456). -/
def secKept (x : Sec) : Sec := { fuses := x.fuses, slotA := x.slotA, slotB := x.slotB, entries := x.entries }

/-- The module without power: what R60 lists as kept, the pins, and the model's own fields remain. -/
def State.lost (s : State) (p : Power) : State :=
  { State.reset with
    pins := { s.pins with pwrGood := false, power := p, alert := false, mctp := [], perstA := false, perstB := false }
    clk := { source := .crystal, crystalStopped := s.clk.crystalStopped, sysrefStopped := s.clk.sysrefStopped }
    grade := s.grade, eeprom := s.eeprom, adminPort := s.adminPort
    sec := secKept s.sec
    freeCtr := s.freeCtr, out := s.out, pending := s.pending }

/-- POWER_FAIL to each host whose link is up, with vector 0, and over MCTP (R58, R400). -/
def State.powerFail (s : State) : State :=
  ((s.noteCause 0x0701).onPorts fun s p => if (s.port p).linkUp then (s.moduleEvent p 0x0701 0).raise p 0 else s).mctpEvent 0x0701

/-- The safe shutdown (R58): every job is stopped with its outputs withheld, and POWER_FAIL is posted. Until power is gone the
links may still carry it, and nothing else runs. During freeze nothing runs that could post.
DEDUCED, unsafe (assumption 108); DEDUCED, unsafe (assumption 140). -/
def State.safeShutdown (s : State) : State :=
  if s.pins.power ≠ .on then s
  else if s.boot.frozen then s.lost .off
  else
    let s := (s.each s.jobNums fun s j => s.killJob j).powerFail
    { s with pins := { s.pins with power := .shutdown } }

/-- A reading at its trip: power is removed and THERMTRIP_N asserted (R35). -/
def State.trip (s : State) : State :=
  let s := s.lost .tripped
  { s with pins := { s.pins with thermtrip := true } }

/-- COLD_RESET (R76): a rising edge of PWR_EN that starts the module when VIN is above the turn-on threshold
and PWR_EN was low long enough; an edge that does not is only a level of the pin, and releases nothing (R35).
DESIGN CHOICE, unsafe (assumption 130); DESIGN CHOICE, unsafe (assumption 169). -/
def execColdReset (vin : Nat) (low : Bool) (s : State) : Outcome :=
  let s := { s with pins := { s.pins with vin := vin } }
  if 42000 < vin ∧ low ∧ ¬(s.pins.power = .on ∨ s.pins.power = .starting) then
    let s := s.lost .starting
    .next { s with pins := { s.pins with pwrEn := true, thermtrip := false } }
  else .next { s with pins := { s.pins with pwrEn := true } }

/-- PWR_EN_DEASSERT (R58, R36). Before PWR_GOOD the start is given up. -/
def execPwrEnDeassert (s : State) : Outcome :=
  let s := match s.pins.power with
    | .on => s.safeShutdown
    | .starting => s.lost .off
    | _ => s
  .next { s with pins := { s.pins with pwrEn := false } }

/-- VIN_BELOW_SAFE_SHUTDOWN (R58); THERMTRIP_N is held only while VIN stays above 40 V (R35).
DESIGN CHOICE, unsafe (assumption 130). -/
def execVinBelowSafeShutdown (vin : Nat) (s : State) : Outcome :=
  if 40000 ≤ vin then .next s else
  let s := match s.pins.power with
    | .on => s.safeShutdown
    | .starting => s.lost .off
    | .tripped => { s with pins := { s.pins with power := .off, thermtrip := false } }
    | _ => s
  .next { s with pins := { s.pins with vin := vin } }

/-- VIN sampled by the telemetry block, which keeps running in freeze (R481). -/
def State.vinRead (s : State) (vin : Nat) : State :=
  if s.pins.power = .on then { s with clk := { s.clk with vinSample := vin } } else s

/-- VIN_LOW (R57). -/
def execVinLow (vin : Nat) (s : State) : Outcome :=
  if ¬(40000 ≤ vin ∧ vin < 44000) then .next s
  else if !s.live then .next (s.vinRead vin) else
  let was := s.clk.vinLow
  let s := { s with pins := { s.pins with vin := vin },
                    clk := { s.clk with vinLow := true, vinSample := vin, vinCap := 227 * vin / 10000 / 10 * 10 } }
  .next (if was then s else (s.moduleEvents 0x0706 0).mctpEvent 0x0706)

/-- VIN_IN_OPERATING_RANGE (R57). -/
def execVinInOperatingRange (vin : Nat) (s : State) : Outcome :=
  if vin < 44000 then .next s
  else .next (State.vinRead { s with pins := { s.pins with vin := vin }, clk := { s.clk with vinLow := false, vinCap := 1000 } } vin)

/-- Every stack that is not retired enters self-refresh, also one that trains or fills (R362, R364). -/
def State.restStacks (s : State) : State :=
  s.each (List.range 12) fun s k => s.modStack k fun x => { x with st := if x.st = 3 then 3 else 2 }

/-- Freeze (R481): the stacks enter self-refresh, every clock stops, the PCIe links go down. -/
def State.freezeNow (s : State) : State :=
  let s := State.restStacks { s with boot := { s.boot with frozen := true } }
  s.onPorts fun s p => s.modPort p fun q => { q with linkUp := false }

/-- FREEZE (R481, R37): a pulse under 50 ns is rejected, one of 100 ns or more takes effect, and one between
takes effect by a free choice.
DESIGN CHOICE, safe (assumption 14). -/
def execFreeze (ns : Nat) (s : State) : Outcome :=
  if !s.live ∨ ns < 50 then .next s
  else if 100 ≤ ns then .next s.freezeNow
  else .next (if Config.freeBit s.draw.1 then s.draw.2.freezeNow else s.draw.2)

/-- PWR_GOOD (R34): the strap is sampled, and a FREEZE_N already low freezes the module at once (R30, R36).
DEDUCED, safe (assumption 132). -/
def execPwrGood (moduleId : BitVec 3) (freezeN : Bool) (s : State) : Outcome :=
  if s.pins.power ≠ .starting then .next s else
  let s := { s with pins := { s.pins with pwrGood := true, power := .on, moduleId := moduleId, freezeN := freezeN },
                    clk := { s.clk with vinSample := s.pins.vin } }
  .next (if freezeN then s else s.freezeNow)

/-- MCTP_EVENT_READ (R30, R37): the oldest pending event is read; ALERT_N deasserts once none is pending.
DEDUCED, safe (assumption 132); DESIGN CHOICE, safe (assumption 157). -/
def execMctpEventRead (s : State) (dev : Nat := 0x58) : Outcome :=
  match s.pins.mctp with
  | [] => .next s
  | c :: cs =>
    if dev ≠ 0x58 + s.pins.moduleId.toNat then .next s
    else .next ({ s with pins := { s.pins with mctp := cs, alert := !cs.isEmpty } }.emit (.mctp c))

/-- EEPROM_WRITE (R30, R31): accepted while no job exists, else NACKed. An unpowered module, and one with another strap, does
not answer.
DESIGN CHOICE, unsafe (assumption 131); DEDUCED, safe (assumption 132); DESIGN CHOICE, safe (assumption 157). -/
def execEepromWrite (addr : Nat) (data : Byte) (s : State) (dev : Nat := 0x50) : Outcome :=
  if s.pins.power ≠ .on ∨ dev ≠ 0x50 + s.pins.moduleId.toNat then .next s
  else if s.jobNums = [] ∧ addr < 8192 then .next { s with eeprom := Mem.set s.eeprom addr data }
  else .next (s.emit .nack)

/-- INTEGRATOR_CAP_SET (R30, R53). -/
def execIntegratorCapSet (watts : Nat) (s : State) (dev : Nat := 0x58) : Outcome :=
  if !s.live ∨ dev ≠ 0x58 + s.pins.moduleId.toNat then .next s
  else if capOk watts then .next { s with clk := { s.clk with integratorCap := watts } }
  else .next (s.emit .nack)

/-! ### Thermal limits (R61, R62) -/

/-- The reading of a place in a list, 0 where the list is short. -/
def reading (xs : List Nat) (i : Nat) : Nat := xs.getD i 0

/-- Some sensor is at its trip temperature (R61). -/
def tripped (r : Readings) : Bool :=
  r.mills.any (110 ≤ ·) || 110 ≤ r.hub || r.hbm.any (100 ≤ ·) || 130 ≤ r.regs

/-- A mill's hottest stack. -/
def stackMax (r : Readings) (m : Nat) : Nat :=
  max (max (reading r.hbm (3 * m)) (reading r.hbm (3 * m + 1))) (reading r.hbm (3 * m + 2))

/-- A mill after a sample: at its limit the duty falls to 4/16 and the firmware ramps to 32; a stack at its
onset or limit throttles its mill as the die would (R62).
DESIGN CHOICE, unsafe (assumption 136). -/
def Mill.sample (x : Mill) (die hot : Nat) : Mill :=
  let limit := decide (105 ≤ die ∨ 95 ≤ hot)
  { x with temp := die, hot := decide (100 ≤ die ∨ 90 ≤ hot), thermLimit := limit,
           thermK := if limit then max x.thermK 32 else x.thermK }

/-- A stack after a sample (R62). -/
def Stack.sample (x : Stack) (t : Nat) : Stack :=
  { x with temp := t, refreshDoubled := decide (85 ≤ t), actTherm := if 95 ≤ t then 25 else if 90 ≤ t then 50 else 100 }

/-- The thermal actions that the readings held ask for (R62). -/
def State.thermal (s : State) : State :=
  let s := s.each (List.range 4) fun s m => s.modMill m fun x =>
    x.sample x.temp (max (max (s.stack (3 * m)).temp (s.stack (3 * m + 1)).temp) (s.stack (3 * m + 2)).temp)
  let s := s.each (List.range 12) fun s k => s.modStack k fun x => x.sample x.temp
  State.notePoints
    { s with clk := { s.clk with hubHot := decide (100 ≤ s.clk.hubTemp),
                                 hubTherm := if 105 ≤ s.clk.hubTemp then max s.clk.hubTherm 32 else s.clk.hubTherm } }

/-- Pseudo-channels of a stack are to be retrained.
DEDUCED, unsafe (assumption 159). -/
def Stack.retrainDue (x : Stack) (cs : List Nat) : Stack :=
  { x with due := x.due ++ cs.filter fun c => !x.due.contains c && x.retraining != some c }

/-- The next pseudo-channel that waits for its retraining begins it: one at a time, and none that is being migrated (R356, R364).
DEDUCED, unsafe (assumption 159). -/
def Stack.startDue (x : Stack) : Stack :=
  if x.st = 1 ∧ x.retraining = none then
    match x.due.find? fun c => !(x.migrating.any fun m => m.1 == c) with
    | none => x
    | some c => { x with retraining := some c, due := x.due.erase c }
  else x

/-- A reading of a stack held: a pseudo-channel whose stack has moved by 10 °C since its last training is retrained (R356).
DEDUCED, unsafe (assumption 159). -/
def Stack.warmed (x : Stack) (t : Nat) : Stack :=
  let x := { x with temp := t, trainedAt := x.trainedAt.orElse fun _ => some t }
  let was (c : Nat) : Nat := Tbl.get (x.trainedAt.getD t) x.trainTemp c
  (x.retrainDue ((List.range 64).filter fun c =>
    !(x.retired.contains c && !(x.migrating.any fun m => m.1 == c)) && decide (was c + 10 ≤ t ∨ t + 10 ≤ was c))).startDue

/-- The readings of a sampling held. -/
def State.sampled (s : State) (r : Readings) : State :=
  let s := s.each (List.range 4) fun s m => s.modMill m fun x => { x with temp := reading r.mills m }
  let s := s.each (List.range 12) fun s k => s.modStack k fun x => x.warmed (reading r.hbm k)
  { s with clk := { s.clk with hubTemp := r.hub, regHot := decide (115 ≤ r.regs) } }

/-- The temperatures that the telemetry block reads in freeze: no stack is trained for them (R481). -/
def State.frozenSample (s : State) (r : Readings) : State :=
  let s := s.each (List.range 4) fun s m => s.modMill m fun x => { x with temp := reading r.mills m }
  let s := s.each (List.range 12) fun s k => s.modStack k fun x => { x with temp := reading r.hbm k }
  { s with clk := { s.clk with hubTemp := r.hub } }

/-- SENSOR_SAMPLE (R62). The trip prevails in freeze (R481), during a switch of source and during a shutdown; thermal actions
during a switch wait for its end (R75).
DESIGN CHOICE, safe (assumption 126). -/
def execSensorSample (r : Readings) (s : State) : Outcome :=
  if s.pins.power ≠ .on ∧ s.pins.power ≠ .starting ∧ s.pins.power ≠ .shutdown then .next s
  else if tripped r then .next s.trip
  else if !s.live then .next (if s.pins.power = .on then s.frozenSample r else s)
  else .next (if s.clk.switching = .none then (s.sampled r).thermal else s.sampled r)

/-- THERMAL_THROTTLE_STEP (R62): of a mill, or of the hub and fabric for 4. Thermal actions during a switch of
source wait for its end (R75).
DESIGN CHOICE, unsafe (assumption 137). -/
def execThermalThrottleStep (m : Nat) (s : State) : Outcome :=
  if !s.live ∨ s.clk.switching ≠ .none then .next s
  else if m < 4 then
    .next (if (s.mill m).hot then s.modMill m fun x => { x with thermK := min 64 (max x.thermK x.divK + 1) } else s)
  else if m = 4 ∧ s.clk.hubHot then
    .next { s with clk := { s.clk with hubTherm := min 64 (max s.clk.hubTherm (max s.clk.hub s.clk.fabric) + 1) } }
  else .next s

/-- The readings of a mill are at or below onset less 3 °C. -/
def State.cooled (s : State) (m : Nat) : Bool :=
  (s.mill m).temp ≤ 97 && ((List.range 3).all fun i => (s.stack (3 * m + i)).temp ≤ 87)

/-- THERMAL_RECOVERY_STEP (R62). -/
def execThermalRecoveryStep (m : Nat) (s : State) : Outcome :=
  if !s.live ∨ s.clk.switching ≠ .none then .next s
  else if m < 4 then
    .next (if s.cooled m then s.modMill m fun x => { x with thermK := max 16 (x.thermK - 1) } else s)
  else if m = 4 ∧ s.clk.hubTemp ≤ 97 then .next { s with clk := { s.clk with hubTherm := max 16 (s.clk.hubTherm - 1) } }
  else .next s

/-- REGULATOR_CAP_STEP (R62): the effective cap falls by a tenth, down to 600 W. -/
def execRegulatorCapStep (s : State) : Outcome :=
  if s.live && s.clk.regHot && s.clk.switching == .none then .next { s with clk := { s.clk with regCap := max 600 (s.cap * 9 / 10) } } else .next s

/-- REGULATOR_CAP_RESTORE (R62). -/
def execRegulatorCapRestore (s : State) : Outcome :=
  if s.live && !s.clk.regHot then .next { s with clk := { s.clk with regCap := 1000 } } else .next s

/-- SENSOR_CALIBRATION (R476): no effect on anything but the sensors' own trim. -/
def execSensorCalibration (s : State) : Outcome := .next s

/-! ### Power loops (R54) -/

/-- HARDWARE_LIMITER (R54). -/
def execHardwareLimiter (watts : Nat) (s : State) : Outcome :=
  if s.live ∧ 1080 < watts then
    .next (s.each (List.range 4) fun s m => s.modMill m fun x => { x with limiter := true }).notePoints
  else .next s

/-- LIMITER_RELEASE (R54). -/
def execLimiterRelease (watts : Nat) (s : State) : Outcome :=
  if s.live ∧ watts < s.cap then
    .next (s.each (List.range 4) fun s m => s.modMill m fun x => { x with limiter := false })
  else .next s

/-- Mills, and those that a running job ties to one of them. -/
def State.tieOnce (s : State) (ms : List Nat) : List Nat :=
  (List.range 4).filter fun m => ms.contains m ||
    s.runningJobs.any fun j => (s.job j).any fun x => (s.jobMills x).contains m && (s.jobMills x).any ms.contains

/-- The mills lowered together with a mill: a job that spans several mills is lowered on all of them (R55).
DEDUCED, unsafe (assumption 135). -/
def State.tied (s : State) (m : Nat) : List Nat := s.tieOnce (s.tieOnce (s.tieOnce [m]))

/-- The newest guarantee that a mill, or one tied to it, runs: above every admission where it runs best-effort work only (R55).
DEDUCED, unsafe (assumption 135). -/
def State.capRank (s : State) (m : Nat) : Nat :=
  let adm := s.runningJobs.filterMap fun j =>
    (s.job j).bind fun x => if x.adm ≠ 0 ∧ (s.jobMills x).any (s.tied m).contains then some x.adm else none
  if adm.isEmpty then s.admissions + 1 else adm.foldl max 0

/-- The place of a mill in the order of R55, 0 for the mills lowered first.
DEDUCED, unsafe (assumption 135). -/
def State.capPlace (s : State) (m : Nat) : Nat :=
  (((List.range 4).map s.capRank).dedup.filter (s.capRank m < ·)).length

/-- The cap's own point of the mill is the lowest before the floor: DIV_K = 32 and duty 1/16 (R54). -/
def Mill.atEdge (x : Mill) : Bool := 32 ≤ x.capK && x.capDuty == 1 && x.goal == 1

/-- Every mill runs at DIV_K = 32 or above with duty 1/16: what remains are the steps to the floor (R53, R54). -/
def State.atFloorEdge (s : State) : Bool := (List.range 4).all fun m => (s.mill m).atEdge && 32 ≤ (s.mill m).divK

/-- A mill lowered to the lowest point before the floor. -/
def Mill.toEdge (x : Mill) : Mill := { x with capK := max 32 x.capK, capDuty := 1, goal := 1 }

/-- A mill lowered towards an operating point: the duty at once, by one step or more, then the divider, and at last the duty of
the point, whose throughput is not above that of the point before. A mill at duty 1/16 moves its divider by one unit or more
(R54, R55).
DESIGN CHOICE, safe (assumption 134). -/
def Mill.lower (x : Mill) (pt : CapPoint) : Mill :=
  let k := max x.capK (min 32 (if x.capDuty ≤ 1 then max pt.divK (x.capK + 1) else pt.divK))
  let d := max 1 (min (x.capDuty - 1) pt.now)
  { x with capK := k, capDuty := d, goal := if k = x.capK then d else max d (min pt.duty (min 16 (x.capDuty * k / x.capK))) }

/-- The place of R55 whose mills the firmware lowers to a point: the one named, and not one whose mills can all be lowered no
further, so that no mill is lowered while one of an earlier place could still be. -/
def State.lastPlace (s : State) (ranks : Nat) : Nat :=
  let free := (List.range 4).filter fun m => !(s.mill m).atEdge
  let top := (List.range 4).foldl (fun a m => max a (s.capPlace m)) 0
  min top (max (ranks - 1) (free.foldl (fun a m => min a (s.capPlace m)) 3))

/-- The firmware lowers the mills in the order of R55: those of every place before the last to the lowest point before the floor,
those of the last place to the point.
DESIGN CHOICE, safe (assumption 134). -/
def State.lowerMills (s : State) (ranks : Nat) (pt : CapPoint) : State :=
  let p := s.lastPlace ranks
  let low := (List.range 4).filter fun m => s.capPlace m < p
  let last := (List.range 4).filter fun m => s.capPlace m = p
  let s := s.each low fun s m => s.modMill m Mill.toEdge
  s.each last fun s m => s.modMill m fun x => x.lower pt

/-- A step of the floor: row activations to 50% and then 25%, and DIV_K towards 64, by one unit or more (R53, R54).
DESIGN CHOICE, safe (assumption 134). -/
def State.lowerFloor (s : State) (pt : CapPoint) : State :=
  let s := s.each (List.range 4) fun s m => s.modMill m fun x => { x with capK := min 64 (max (x.capK + 1) pt.divK) }
  s.each (List.range 12) fun s k => s.modStack k fun x => { x with actCap := if x.actCap = 100 then 50 else 25 }

/-- FIRMWARE_CAP_EVAL (R54): the requested administrative cap takes effect (R366), and above the effective
cap the firmware lowers the mills and, where they are as low as that goes, takes a step of the floor. -/
def execFirmwareCapEval (watts ranks : Nat) (pt : CapPoint) (s : State) : Outcome :=
  if !s.live ∨ !s.isReady bitControl ∨ s.clk.switching ≠ .none then .next s else
  let s := { s with clk := { s.clk with inputPower := watts, adminCap := s.clk.adminCapNext } }
  if watts ≤ s.cap then .next s
  else .next (if s.atFloorEdge then s.lowerFloor pt else s.lowerMills ranks pt).notePoints

/-- The cap lowers the mill. -/
def Mill.capped (x : Mill) : Bool := 16 < x.capK || x.capDuty < 16

/-- A mill that the firmware may raise: one that the cap lowers, while none after it in the order of R55 is lowered.
DEDUCED, unsafe (assumption 135). -/
def State.raisable (s : State) (m : Nat) : Bool :=
  m < 4 && (s.mill m).capped && (List.range 4).all fun k => !(s.mill k).capped || s.capPlace k ≤ s.capPlace m

/-- The row activations that the cap limited are free again.
DESIGN CHOICE, unsafe (assumption 133). -/
def State.freeActs (s : State) : State :=
  if (List.range 4).all fun m => (s.mill m).capK ≤ 32 then s.each (List.range 12) fun s k => s.modStack k fun x => { x with actCap := 100 }
  else s

/-- FIRMWARE_RESTORE (R54, R55): below the cap less 3%, one mill rises by a duty step or a divider unit. The
activation limit of the floor ends once every mill is back within DIV_K = 32.
DESIGN CHOICE, unsafe (assumption 133). -/
def execFirmwareRestore (watts m : Nat) (byDuty : Bool) (s : State) : Outcome :=
  if !s.live ∨ !s.isReady bitControl ∨ s.clk.switching ≠ .none then .next s else
  let s := { s with clk := { s.clk with inputPower := watts } }
  if 97 * s.cap ≤ 100 * watts ∨ !s.raisable m then .next s else
  .next (s.modMill m fun x =>
    if byDuty then { x with capDuty := min 16 (x.capDuty + 1), goal := max x.goal (min 16 (x.capDuty + 1)) }
    else { x with capK := max 16 (x.capK - 1) }).freeActs

/-- The row activations that a stack allows, in percent: the lower of the two limits (R54). -/
def Stack.activations (x : Stack) : Nat := min x.actCap x.actTherm

/-! ### Ramps (R52) -/

/-- One step of a domain's divider towards its target. -/
def stepTo (cur tgt : Nat) : Nat := if cur < tgt then cur + 1 else if tgt < cur then cur - 1 else cur

/-- A mill whose divider has reached the cap's point takes the duty of the point (R55).
DESIGN CHOICE, safe (assumption 134). -/
def Mill.arrived (x : Mill) : Mill := if x.capK ≤ x.divK then { x with capDuty := max x.capDuty x.goal } else x

/-- A mill's divider moves by one unit: a lowering clock falls first and the rail follows at the target; a rising
clock waits for its rail. During a switch of source the rail stays, and none has to rise (R52, R66). -/
def State.rampMill (s : State) (m : Nat) : State :=
  let x := s.mill m
  let t := s.targetDiv m
  let still := s.clk.switching = .none
  if x.divK < t then
    s.setMill m { x with divK := x.divK + 1, rail := if x.divK + 1 = t ∧ still then railFor t else x.rail }.arrived
  else if t < x.divK then
    if x.rail < railFor t ∧ still then s else s.setMill m { x with divK := x.divK - 1 }
  else s.setMill m { x with rail := if still then railFor t else x.rail }.arrived

/-- The divider that the hub, the fabric or a stack ramps to, in sixteenths of nominal (R63, R66).
DESIGN CHOICE, unsafe (assumption 137). -/
def State.targetOther (s : State) (therm : Nat) : Nat :=
  if s.clk.switching == .ramping then max 32 therm else max therm s.ratio

/-- Every divider stands at its target. -/
def State.atTargets (s : State) : Bool :=
  (List.range 4).all (fun m => (s.mill m).divK == s.targetDiv m) &&
    s.clk.hub == s.targetOther s.clk.hubTherm && s.clk.fabric == s.targetOther s.clk.hubTherm &&
    (List.range 12).all fun k => (s.stack k).div == s.targetOther 16

/-- DIVIDER_RAMP_STEP (R52). -/
def execDividerRampStep (d : Nat) (s : State) : Outcome :=
  if !s.live then .next s
  else if d < 4 then .next (s.rampMill d).notePoints
  else if d = 4 then .next { s with clk := { s.clk with hub := stepTo s.clk.hub (s.targetOther s.clk.hubTherm) } }
  else if d = 5 then .next { s with clk := { s.clk with fabric := stepTo s.clk.fabric (s.targetOther s.clk.hubTherm) } }
  else if d < 18 then .next (s.modStack (d - 6) fun x => { x with div := stepTo x.div (s.targetOther 16) })
  else .next s

/-- RAIL_RAISED (R52): a mill's rail has reached the value its target needs. During a switch of source the rail stays. -/
def execRailRaised (m : Nat) (s : State) : Outcome :=
  if s.live ∧ m < 4 ∧ s.clk.switching = .none then .next (s.modMill m fun x => { x with rail := max x.rail (railFor (s.targetDiv m)) })
  else .next s

/-! ### Clocks that a measurement may count (R73, R74) -/

/-- The port's REFCLK is driven (R32). -/
def State.refclk (s : State) : Port → Bool
  | .a => s.pins.refclkA
  | .b => s.pins.refclkB

/-- The clock of a code has stopped: a reference without edges, a REFCLK that is not driven, a stack, a quire link or a port
out of service (R74). The other clocks run whenever the module does.
DESIGN CHOICE, unsafe (assumption 171). -/
def State.clockStopped (s : State) (c : Nat) : Bool :=
  if c = 0 then s.clk.crystalStopped
  else if c = 2 then s.clk.sysrefStopped
  else if c = 3 then !s.refclk .a
  else if c = 4 then !s.refclk .b
  else if 0x10 ≤ c ∧ c ≤ 0x1B then (s.stack (c - 0x10)).st == 3
  else if 0x20 ≤ c ∧ c ≤ 0x37 then (s.link (c - 0x20)).st == .off || (s.link (c - 0x20)).st == .down
  else if c = 0x38 then !s.portA.linkUp
  else c = 0x39 && !s.portB.linkUp

/-- A measurement whose reference has stopped does not end by itself any more (R74). -/
def State.noteRefs (s : State) : State :=
  s.onPorts fun s p => if (s.port p).fmc.start && s.clockStopped (s.port p).fmc.refSel then
    s.modPort p fun q => { q with fmc := { q.fmc with hung := true } } else s

end Sys2Proof.Machine
end

