-- ==== Sys2Proof/Machine/Memory.lean ====
section
/-! DEFINITION. Memory behind handles: translation, wet and dry copies, owner tags and the address check
(R102, R213, R290 to R302, R347 to R355). -/

namespace Sys2Proof.Machine

/-! ### Handle entries (R293) -/

def Handle.durable (e : Handle) : Bool := bit e.attr 0
def Handle.readonly (e : Handle) : Bool := bit e.attr 1
def Handle.release (e : Handle) : Bool := bit e.attr 2
def Handle.receive (e : Handle) : Bool := bit e.attr 3
/-- A scratch handle: one that is not durable (R293). -/
def Handle.scratch (e : Handle) : Bool := !e.durable

def spEmpty : Nat := 0
def spSram : Nat := 1
def spHbm : Nat := 2
def spHost : Nat := 3

/-- The entry of a job's handle, empty for a number above 4,095. -/
def Job.handle (x : Job) (h : Nat) : Handle := if h ≤ 4095 then Tbl.get {} x.handles h else {}

/-! ### Translation -/

/-- An SRAM offset of a handle: CONTIGUOUS, or STRIPED over eight groups by 4 KiB blocks (R295). -/
def sramAddr (mode base x : Nat) : Nat :=
  if mode = 0 then base + x
  else base + x / 4096 % 8 * 2 ^ 22 + x / 4096 / 8 * 4096 + x % 4096

/-- The stacks of a mill that are not retired, in increasing number (R355). -/
def State.millStacks (s : State) (m : Nat) : List Nat :=
  [3 * m, 3 * m + 1, 3 * m + 2].filter fun k => (s.stack k).st != 3

def nearUnit : Nat := 96 * 2 ^ 20
def spreadFrame : Nat := 384 * 2 ^ 20

/-- The pseudo-channel and byte of an offset within unit or frame `k`, over the stacks that hold it (R350). -/
def granulePlace (ks : List Nat) (k o : Nat) : Nat :=
  let n := ks.length
  let g := o / 256
  let b := g / (64 * n)
  let r := g % (64 * n)
  let st := ks.getD ((r / 64 + b) % n) 0
  let pc := Nat.xor (Nat.xor (r % 64) (b % 64)) (b / 64)
  hbmKey (64 * st + pc) (k * 524288 + b * 256 + o % 256)

/-- The stacks that hold unit (m, k): for a job that owns it, those of its allotment. -/
def State.unitStacks (s : State) (m k : Nat) : List Nat :=
  let ks := (s.hunit (1536 * m + k)).onStacks
  if ks.isEmpty then s.millStacks m else ks

/-- The key of an HBM address under a mapping (R349, R350). -/
def State.hbmAddr (s : State) (mode a : Nat) : Nat :=
  if mode = 0x20 then granulePlace (List.range 12) (a / spreadFrame) (a % spreadFrame)
  else
    let a' := a % 2 ^ 38
    granulePlace (s.unitStacks (mode - 0x10) (a' / nearUnit)) (a' / nearUnit) (a' % nearUnit)

/-- The offset within its unit or frame of a byte of HBM, over the stacks that hold it: the other way of `granulePlace`. -/
def granuleOffset (ks : List Nat) (key : Nat) : Nat :=
  let n := ks.length
  let byte := key % 2 ^ 30
  let pc := key / 2 ^ 30
  let b := byte % 524288 / 256
  let i := ks.findIdx (· == pc / 64)
  let r := (i + n - b % n) % n * 64 + Nat.xor (Nat.xor (pc % 64) (b % 64)) (b / 64) % 64
  (b * (64 * n) + r) * 256 + byte % 256

/-- The unit in which a byte of HBM lies (R348). -/
def unitAt (key : Nat) : Nat := 1536 * (key / 2 ^ 30 / 192) + key % 2 ^ 30 / 524288

/-- The linear address of a byte of HBM under a mapping, from its key (R349). -/
def State.hbmLinear (s : State) (mode key : Nat) : Nat :=
  let k := key % 2 ^ 30 / 524288
  if mode = 0x20 then k * spreadFrame + granuleOffset (List.range 12) key
  else (mode - 0x10) * 2 ^ 38 + k * nearUnit + granuleOffset (s.unitStacks (mode - 0x10) k) key

/-! ### The key region and the image area of a job (R159, R226, R369, R408) -/

/-- The units that a job has for a use, by number. -/
def State.unitsFor (s : State) (j : Nat) (use : UnitUse → Bool) : List Nat :=
  (s.units.filter fun c => c.2.owner == j && use c.2.use).map Prod.fst

/-- The usable bytes of a unit (R348, R355). -/
def State.unitSize (s : State) (u : Nat) : Nat := (s.unitStacks (u / 1536) (u % 1536)).length * 2 ^ 25

/-- The bytes of units. -/
def State.unitsSize (s : State) (us : List Nat) : Nat := (us.map s.unitSize).foldl (· + ·) 0

/-- The key of a byte of an area of NEAR units, which follow one another. -/
def State.nearPlace (s : State) : List Nat → Nat → Nat
  | [], _ => 0
  | u :: us, o =>
    if o < s.unitSize u then granulePlace (s.unitStacks (u / 1536) (u % 1536)) (u % 1536) o else State.nearPlace s us (o - s.unitSize u)

/-- The units of a job's key region: of a SPREAD one, those of mill 0 name the frames. -/
def State.keyUnitsOf (s : State) (j : Nat) : List Nat := s.unitsFor j (· == .key)

/-- The key of a byte of a job's key region. -/
def State.regionKey (s : State) (j off : Nat) : Nat :=
  let us := s.keyUnitsOf j
  if (s.job j).any Job.keySpread then
    granulePlace (List.range 12) ((us.filter (· < 1536)).getD (off / spreadFrame) 0) (off % spreadFrame)
  else s.nearPlace us off

/-- The offset in a job's key region of a byte of HBM that lies there. -/
def State.regionOff (s : State) (j key : Nat) : Nat :=
  let us := s.keyUnitsOf j
  let u := unitAt key
  if (s.job j).any Job.keySpread then
    ((us.filter (· < 1536)).takeWhile (· != u % 1536)).length * spreadFrame + granuleOffset (List.range 12) key
  else s.unitsSize (us.takeWhile (· != u)) + granuleOffset (s.unitStacks (u / 1536) (u % 1536)) key

/-- A byte's place: SRAM, or HBM, by its key. -/
inductive Place where
  | sram (a : Nat) | hbm (a : Nat)
  deriving DecidableEq, Repr

/-- The place of offset `x` of a copy with a base. -/
def State.place (s : State) (e : Handle) (base x : Nat) : Place :=
  if e.space = spSram then .sram (sramAddr e.mode base x) else .hbm (s.hbmAddr e.mode (base + x))

def State.byteAt (s : State) : Place → Byte
  | .sram a => s.sram.get a
  | .hbm a => s.hbm.get (s.phys a)

def State.putByte (s : State) (p : Place) (v : Byte) : State :=
  match p with
  | .sram a => { s with sram := s.sram.set a v }
  | .hbm a => s.hbmWrite a [v]

/-! ### Wet and dry (R102) -/

/-- The key of block `b` of handle `h`. -/
def blkKey (h b : Nat) : Nat := h * 2 ^ 36 + b

def Job.blk (x : Job) (h b : Nat) : Blk := Tbl.get {} x.blks (blkKey h b)

/-- The bases of an entry's copies; of the dry and of the wet copy. -/
def Handle.bases (e : Handle) : List Nat := if e.durable then [e.baseA, e.baseB] else [e.baseA]
def Handle.dryBase (e : Handle) (k : Blk) : Nat := if k.roleB then e.baseB else e.baseA
def Handle.wetBase (e : Handle) (k : Blk) : Nat := if k.roleB then e.baseA else e.baseB

/-- The base that a read of offset `x` goes to: the dry copy of a block not written since the last couch. -/
def Job.readBase (x : Job) (h : Nat) (e : Handle) (off : Nat) : Nat :=
  if e.durable then
    let k := x.blk h (off / 4096)
    if k.written then e.wetBase k else e.dryBase k
  else e.baseA

/-- The base that a write goes to: the wet copy. -/
def Job.writeBase (x : Job) (h : Nat) (e : Handle) (off : Nat) : Nat :=
  if e.durable then e.wetBase (x.blk h (off / 4096)) else e.baseA

def Job.area (x : Job) (h : Nat) : Area := Tbl.get {} x.areas h

/-- An offset of a ring of `n` bytes lies in the running byte counts from `a` up to but not `b`. -/
def ringHolds (n a b off : Nat) : Bool := n != 0 && (off + n - a % n) % n < b - a

/-- Committed bytes of a release area that are not written out, or bytes of a receive area whose reading no couch has
recorded: couched state (R105, R107). -/
def Job.areaHolds (x : Job) (h : Nat) (e : Handle) (off : Nat) : Bool :=
  let a := x.area h
  (e.release && ringHolds e.bound a.flush a.commit off) || (e.receive && ringHolds e.bound a.commit a.flush off)

/-- The zone that a read of an offset meets (R110). -/
def Job.zone (x : Job) (h : Nat) (e : Handle) (off : Nat) : Zone :=
  if e.durable then (if (x.blk h (off / 4096)).written then .wet else .dry)
  else if x.areaHolds h e off then .dry else .wet

/-- What the release in hand has still to write. -/
def Job.leftOf (x : Job) : List RelEntry :=
  match x.rels with
  | [] => []
  | r :: _ => if r.begun then r.entries.drop r.done else []

/-- An offset lies in what the release in hand has still to write (R107). -/
def Job.inBegun (x : Job) (h off : Nat) : Bool :=
  x.leftOf.any fun e => e.h == h && ringHolds (x.handle h).bound e.off (e.off + e.len) off

/-- The zone of an offset of a job's handle as a read meets it now. -/
def State.zoneOf (s : State) (j h off : Nat) : Zone :=
  match s.job j with
  | none => .wet
  | some x => x.zone h (x.handle h) off

/-- The wet blocks of an access of `n` bytes, by their keys. -/
def State.wetBlocks (s : State) (j h off n : Nat) : List Nat :=
  ((fromTo (off / 4096) ((off + n + 4095) / 4096)).filter fun b => s.zoneOf j h (4096 * b) == .wet).map (blkKey h)

/-- What an operation touches that reads these bytes: handle, offset and number. -/
def State.touched (s : State) (j : Nat) (reads : List (Nat × Nat × Nat)) (old : List (Nat × Nat × Bytes) := []) : Touched :=
  { handles := (reads.map Prod.fst).dedup, wet := (reads.flatMap fun r => s.wetBlocks j r.1 r.2.1 r.2.2).dedup, old := old }

/-- `n` bytes read through a handle of a job, from an offset on. -/
def State.load (s : State) (j h off n : Nat) : Bytes :=
  match s.job j with
  | none => zeros n
  | some x =>
    let e := x.handle h
    (List.range n).map fun i => s.byteAt (s.place e (x.readBase h e (off + i)) (off + i))

/-! ### Writing -/

/-- A sector of HBM takes a writer's tag (R352). -/
def State.tagSector (s : State) (key tag : Nat) : State := { s with hbmTag := Tbl.set s.hbmTag (s.phys key / 64) tag }

/-- A sector is filled again, with tag 0x00. -/
def State.refill (s : State) (key : Nat) : State :=
  let s := s.moveGranule key
  let a := s.phys (key / 64 * 64)
  { s with hbm := s.hbm.wipe a 64, hbmTag := Tbl.erase s.hbmTag (a / 64) }

/-- Whole sectors written by the firmware, from an offset of an area on, with a tag (R352). -/
def State.writeSectors (s : State) (place : Nat → Nat) (off : Nat) (b : Bytes) (tag : Nat) : State :=
  s.each (List.range ((b.length + 63) / 64)) fun s i =>
    let a := place (off + 64 * i)
    (s.hbmWrite a ((b.drop (64 * i)).take 64)).tagSector a tag

/-- The content of a scratch sector of HBM at the last couch is kept where it has not been since (R103).
DESIGN CHOICE, safe (assumption 15). -/
def State.keepUndo (s : State) (j key : Nat) : State :=
  s.modJob j fun x =>
    if (x.undo.any fun c => c.1 == key / 64) then x
    else { x with undo := Tbl.set x.undo (key / 64) (s.hbm.read (s.phys (key / 64 * 64)) 64) }

/-- One byte written for a job at a place. -/
def State.writeByte (s : State) (j : Nat) (undo : Bool) (p : Place) (v : Byte) : State :=
  match p with
  | .sram _ => s.putByte p v
  | .hbm a => ((if undo then s.keepUndo j a else s).putByte p v).tagSector a j

/-- 4 KiB of a durable block copied from its dry to its wet copy, by granules of 256 bytes (R102). -/
def State.fillWet (s : State) (j b : Nat) (e : Handle) (k : Blk) : State :=
  s.each (List.range 4096) fun s i =>
    let off := b * 4096 + i
    s.writeByte j false (s.place e (e.wetBase k) off) (s.byteAt (s.place e (e.dryBase k) off))

/-- A durable block made ready for a write that covers bytes `lo` to `hi` of its handle: the first write since the
couch that does not cover the whole block fills the wet copy first. -/
def State.openBlock (s : State) (j h : Nat) (e : Handle) (b lo hi : Nat) : State :=
  match s.job j with
  | none => s
  | some x =>
    let k := x.blk h b
    if k.written then s else
    let s := if lo ≤ b * 4096 ∧ b * 4096 + 4096 ≤ hi then s else s.fillWet j b e k
    s.modJob j fun x => { x with blks := Tbl.set x.blks (blkKey h b) { k with written := true } }

/-- Bytes written through a handle of a job, from an offset on: to the wet copy of a durable block, with the
job's tag in HBM (R102, R352).
DESIGN CHOICE, unsafe (assumption 38). -/
def State.store (s : State) (j h off : Nat) (data : Bytes) : State :=
  match s.job j with
  | none => s
  | some x =>
    let e := x.handle h
    let n := data.length
    let s := if e.durable ∧ 0 < n then
        s.each (fromTo (off / 4096) ((off + n - 1) / 4096 + 1)) fun s b => s.openBlock j h e b off (off + n)
      else s
    match s.job j with
    | none => s
    | some x =>
      let undo := e.scratch && !e.release && !e.receive
      (data.foldl (fun (a : State × Nat) v => (a.1.writeByte j undo (a.1.place e (x.writeBase h e a.2) a.2) v, a.2 + 1)) (s, off)).1

/-! ### The address check (R213, R302) -/

/-- The bank groups that `n` bytes of a copy touch, by number. -/
def groupsTouched (mode base off n : Nat) : List Nat :=
  let group (x : Nat) : Nat := sramAddr mode base x / 2 ^ 22
  if n = 0 then []
  else if mode = 0 then fromTo (group off) (group (off + n - 1) + 1)
  else ((fromTo (off / 4096) ((off + n - 1) / 4096 + 1)).flatMap fun b =>
    [group (max off (b * 4096)), group (min (off + n) (b * 4096 + 4096) - 1)]).dedup

/-- The details of STALE_HANDLE. -/
def shUnmapped : Nat := 1
def shBound : Nat := 2
def shReadonly : Nat := 3
def shSpace : Nat := 4
def shBank : Nat := 5

/-- Every bank group that an access touches stands in the job's bank map (R299, R302): those of the copy that a read of each
durable block goes to, and of both copies for a write.
DEDUCED, unsafe (assumption 37). -/
def State.banksMapped (s : State) (j h : Nat) (x : Job) (e : Handle) (off n : Nat) (write : Bool) : Bool :=
  let ok (base off n : Nat) : Bool := (groupsTouched e.mode base off n).all fun g => (s.group g).mapped && (s.group g).owner == j
  e.space != spSram ||
    if e.durable && !write then
      (fromTo (off / 4096) ((off + n + 4095) / 4096)).all fun b =>
        let lo := max off (b * 4096)
        ok (x.readBase h e (b * 4096)) lo (min (off + n) (b * 4096 + 4096) - lo)
    else e.bases.all fun base => ok base off n

/-- The detail of the first check that an access of `n` bytes fails, in the order of R213. `spaces` are the
spaces that the access may use. -/
def State.accessFault (s : State) (j h off n : Nat) (write : Bool) (spaces : List Nat) : Option Nat :=
  match s.job j with
  | none => some shUnmapped
  | some x =>
    let e := x.handle h
    if e.space = spEmpty then some shUnmapped
    else if e.bound < off + n then some shBound
    else if write && e.readonly then some shReadonly
    else if !spaces.contains e.space then some shSpace
    else if !s.banksMapped j h x e off n write then some shBank
    else none

/-- The owner tag of a sector: the firmware's in the units of its tables, else that of its last writer (R352). -/
def State.sectorTag (s : State) (key : Nat) : Nat := if (s.hunit (unitAt key)).owner = 255 then 0xF0 else s.storedTag key

/-- The owner tag that refuses a read of `n` bytes, if some sector's does, and that sector's distance from the first byte
(R352, R353).
DESIGN CHOICE, safe (assumption 128). -/
def State.tagRefuses (s : State) (j h off n : Nat) : Option (Nat × Nat) :=
  match s.job j with
  | none => none
  | some x =>
    let e := x.handle h
    if e.space ≠ spHbm then none else
    ((fromTo (off / 64) ((off + n + 63) / 64)).filterMap fun i =>
      match s.place e (x.readBase h e (i * 64)) (i * 64) with
      | .sram _ => none
      | .hbm a =>
        let t := s.sectorTag a
        if t = j ∨ t = 0 then none else some (t, i * 64 - off)).head?

/-! ### Retirement of storage (R111, R353 to R358, R477) -/

/-- The INDEX of a core slot in a record: its logical core, and for the spare, which has none, its slot number in the module (R415, R478).
DEDUCED, unsafe (assumption 63). -/
def State.slotIndex (s : State) (m k : Nat) : Nat := if k = 16 then 17 * m + 16 else m * s.grade.coresPerMill + k

/-- A retirement: an error record, and the module is degraded (R395, R477). -/
def State.retireRec (s : State) (res index : Nat) : State :=
  State.errRec { s with boot := { s.boot with degraded := true } } { code := 0x0270, res := res, cls := 5, index := index }

/-- A retirement in operation: an error record of its own, and the module is degraded.
DEDUCED, unsafe (assumption 63). -/
def State.retired (s : State) (code res index : Nat) : State :=
  State.errRec { s with boot := { s.boot with degraded := true } } { code := code, res := res, cls := 5, index := index }

/-- A stack that is retired: nothing of it is trained or migrated any more. -/
def Stack.gone (x : Stack) : Stack := { x with st := 3, retraining := none, due := [], migrating := [], moved := [], filling := false }

/-- A stack retired (R354, R355).
DEDUCED, unsafe (assumption 79). -/
def State.retireStack (s : State) (k : Nat) : State :=
  (((s.retireRec 0x0B k).modStack k Stack.gone).setReady (bitHbm k) false).noteRefs

/-- Some stack is retired. -/
def State.stackGone (s : State) : Bool := (List.range 12).any fun k => (s.stack k).st == 3

/-- The releases of a job that has stopped are abandoned; a running one's with its stop (R107). -/
def State.dropReleases (s : State) (j : Nat) : State :=
  if (s.job j).any fun x => x.st == .running then s else s.modJob j fun x => { x with rels := [], relHalt := none }

/-- Some byte that the release in hand of a job has still to write lies in storage with a property (R107). -/
def State.begunIn (s : State) (j : Nat) (lost : Place → Bool) : Bool :=
  (s.job j).any fun x => x.leftOf.any fun e =>
    let h := x.handle e.h
    (fromTo (e.off / 64) ((e.off + e.len + 63) / 64)).any fun i => lost (s.place h h.baseA (64 * i % h.bound))

/-- Storage has failed for good: each job that has it stops, and loses its release in hand where that has bytes there (R107). -/
def State.stopLost (s : State) (js hit : List Nat) (i : StopInfo) : State :=
  s.each js fun s j => (if hit.contains j then s.dropReleases j else s).stopJob j { i with inRelease := hit.contains j }

/-- A place lies in a stack of HBM. -/
def Place.inStack (k : Nat) : Place → Bool
  | .sram _ => false
  | .hbm a => a / 2 ^ 36 == k

/-- The jobs that own a unit on a mill. -/
def State.unitJobs (s : State) (m : Nat) : List Nat := s.jobNums.filter fun j => (s.unitsOf j).any fun x => x / 1536 == m

/-- A pseudo-channel retired (R357, R358): its stack's redirect is loaded, the migration waits its turn, and every job whose
units touch it replays. A third one in a stack retires the stack, and those jobs stop. After a training failure the migration reads
at half the rate.
DEDUCED, unsafe (assumption 79). -/
def State.retirePc (s : State) (pc : Nat) (training : Bool := false) : State :=
  let k := pc / 64
  let c := pc % 64
  let x := s.stack k
  let js := s.unitJobs (k / 3)
  if x.st = 3 ∨ x.retired.contains c then s
  else if 2 ≤ x.retired.length then
    let hit := js.filter fun j => s.begunIn j (Place.inStack k)
    let s := (((s.retired 0x0603 0x0B k).modStack k Stack.gone).setReady (bitHbm k) false).noteRefs
    s.stopLost js hit { code := 0x0603, res := { res := .pseudoChannel, index := pc } }
  else
    let s := (s.retired 0x0513 3 pc).modStack k fun y =>
      { y with retired := y.retired ++ [c], migrating := y.migrating ++ [(c, 0)], retraining := none,
               slowCopy := if training then c :: y.slowCopy else y.slowCopy }
    s.each js fun s j => s.beginReplay j { contained := true, code := 0x0513, res := { res := .pseudoChannel, index := pc }, detail := 0, tag := 0 }

/-- Spare lanes of a pseudo-channel and of its channel switched in by `data` and `cmd` failures (R354, R356). -/
def Stack.spend (x : Stack) (c data cmd : Nat) : Stack :=
  { x with dataSpares := Tbl.set x.dataSpares c (Tbl.get 0 x.dataSpares c + data),
           cmdSpares := Tbl.set x.cmdSpares (c / 2) (Tbl.get 0 x.cmdSpares (c / 2) + cmd) }

/-- Spares are left for the failures: two data lanes of a pseudo-channel, one command/address lane of a channel (R347). -/
def Stack.repairs (x : Stack) (c data cmd : Nat) : Bool :=
  decide (Tbl.get 0 x.dataSpares c + data ≤ 2) && decide (Tbl.get 0 x.cmdSpares (c / 2) + cmd ≤ 1)

/-- SPARE_LANES_USED (R363). -/
def Stack.lanesUsed (x : Stack) : Nat := ((x.dataSpares ++ x.cmdSpares).map Prod.snd).foldl (· + ·) 0

/-- The pseudo-channel that holds a byte (R357, R358).
DEDUCED, unsafe (assumption 79). -/
def State.holdingPc (s : State) (key : Nat) : Nat := s.phys key / 2 ^ 30

/-- The stacks of a mill leave self-refresh at the next request (R362). -/
def State.wakeStacks (s : State) (m : Nat) : State :=
  if s.clk.switching ≠ .none then s
  else s.each (List.range 3) fun s i => s.modStack (3 * m + i) fun x => { x with st := if x.st = 2 then 1 else x.st }

/-- The last event of a kind lies within 16 sheets (R111). -/
def State.within16 (s : State) (t : Option Nat) : Bool := t.any fun t => s.now < t + 16

/-- A tag mismatch on a pseudo-channel; a second one within 16 sheets retires it (R353).
DEDUCED, unsafe (assumption 110). -/
def State.noteTag (s : State) (pc : Nat) : State :=
  if s.within16 (Tbl.get none s.pcTag pc) then State.retirePc { s with pcTag := Tbl.set s.pcTag pc none } pc
  else { s with pcTag := Tbl.set s.pcTag pc (some s.now) }

/-! ### Storage faults (R110, R111, R353) -/

/-- Where the read failed. -/
def readAt : ReadErr → Nat
  | .good => 0
  | .checkBits o => o
  | .tag _ o => o

/-- The check bits failed. -/
def uncorrectable : ReadErr → Bool
  | .checkBits _ => true
  | _ => false

/-- The record of an uncorrectable error met by a job: in dry state the job stops, else it replays. The
pseudo-channel is named where the error lies in HBM. One met in the release of a job that has stopped makes the error record only (R477). -/
def State.storageFault (s : State) (j : Nat) (z : Zone) (res : ResIx) (e : ReadErr) (core slot bundle handle : Nat)
    (inRelease : Bool := false) : State :=
  let (detail, tag) : Nat × Nat := match e with
    | .good => (0, 0)
    | .checkBits _ => (1, 0)
    | .tag t _ => (2, t)
  let s := if inRelease then s.dropReleases j else s
  let s := match z with
    | .wet => s.beginReplay j { contained := false, code := 0x0501, res := res, detail := detail, tag := tag }
    | .dry =>
      let data := le 1 (resCode res.res) ++ le 2 res.index ++ le 2 0 ++ le 1 tag
      let i : StopInfo := { code := 0x0601, detail := detail, core := core, slot := slot, bundle := bundle, handle := handle, data := data,
                            res := res, tag := tag, inRelease := inRelease }
      if inRelease ∧ !(s.job j).any (fun x => x.st == .running) then s.stopErr j i else s.stopJob j i
  match e, res.res with
  | .tag _ _, .pseudoChannel => s.noteTag res.index
  | _, _ => s

/-- The resource that holds an offset of a handle as a job reads it: its bank group, or its pseudo-channel. -/
def State.resOf (s : State) (j h off : Nat) : ResIx :=
  match s.job j with
  | none => {}
  | some x =>
    match s.place (x.handle h) (x.readBase h (x.handle h) off) off with
    | .sram a => { res := .bankGroup, index := a / 2 ^ 22 }
    | .hbm a => { res := .pseudoChannel, index := s.holdingPc a }

/-- How a read of `n` bytes comes out: as the storage answers, or refused by an owner tag.
DESIGN CHOICE, safe (assumption 128). -/
def State.readOutcome (s : State) (j h off n : Nat) (e : ReadErr) : ReadErr :=
  match s.tagRefuses j h off n with
  | some (t, o) => .tag t o
  | none => e

/-- The storage fault of a read through a handle that failed, by the state and place of the word or sector that failed. -/
def State.readFault (s : State) (j h off : Nat) (e : ReadErr) (core slot bundle : Nat) : State :=
  let o := off + readAt e
  s.storageFault j (s.zoneOf j h o) (s.resOf j h o) e core slot bundle h ((s.job j).any fun x => x.inBegun h o)

/-- A tag mismatch met by a read that is no job's: its error record, and the count of mismatches of the pseudo-channel (R353, R477).
DEDUCED, unsafe (assumption 110). -/
def State.tagRecord (s : State) (j h off t : Nat) : State :=
  let r := s.resOf j h off
  (s.errRec { code := 0x0501, res := resCode r.res, cls := 1, job := j, detail := 2, index := r.index, info := t }).noteTag r.index

/-- The storage fault of an access whose read was made at its issue: its block is wet where it was wet then and no couch
has come since (R110, R115). -/
def State.lateFault (s : State) (j h off : Nat) (wet : List Nat) (e : ReadErr) (core slot bundle : Nat) : State :=
  let o := off + readAt e
  let z : Zone := if (s.job j).any (fun x => (x.handle h).scratch) then s.zoneOf j h o else if wet.contains (blkKey h (o / 4096)) then .wet else .dry
  s.storageFault j z (s.resOf j h o) e core slot bundle h ((s.job j).any fun x => x.inBegun h o)

end Sys2Proof.Machine
end

