-- ==== Sys2Proof/Machine/Sequencer.lean ====
section
/-! DEFINITION. The sequencer, the scalar unit, scalar loads and stores, and synchronisation (R206 to R222, R228). -/

namespace Sys2Proof.Machine

/-! ### Slots, codes and details -/

def slotScalar : Nat := 0
def slotVector : Nat := 1
def slotMatrix : Nat := 2
def slotLoad : Nat := 3
def slotStore : Nat := 4
def slotSync : Nat := 5

def codeSequencer : Nat := 0x030B
def codeOperand : Nat := 0x030C
def codeStale : Nat := 0x0305
def codeEngine : Nat := 0x0307

def sqIllegal : Nat := 1
def sqBranch : Nat := 2
def sqReturn : Nat := 3
def sqLoop : Nat := 4
def sqSync : Nat := 5
def sqOverflow : Nat := 6
def sqMisaligned : Nat := 7
def sqParticipant : Nat := 8

def opFormat : Nat := 1
def opMismatch : Nat := 2
def opExtent : Nat := 3
def opPrime : Nat := 4
def opBuffer : Nat := 5
def opEpilogue : Nat := 6

/-- SEQUENCER_FAULT of a slot (R228). -/
def State.seqFault (s : State) (n slot detail : Nat) : State := s.program n codeSequencer detail slot

/-- OPERAND_INVALID of a slot, with the offset it concerns (R249, R416).
DEDUCED, unsafe (assumption 27). -/
def State.opFault (s : State) (n slot detail : Nat) (off : Nat := 0) : State :=
  s.program n codeOperand detail slot 0xFFFF (le 8 off)

/-- STALE_HANDLE of a slot, with its handle and offset (R213, R416).
DEDUCED, unsafe (assumption 27). -/
def State.staleFault (s : State) (n slot detail h off : Nat) : State :=
  s.program n codeStale detail slot (h % 65536) (le 8 off)

/-- ENGINE_ABSENT of a slot, with the absent mask bits (R227, R416).
DEDUCED, unsafe (assumption 27). -/
def State.absentFault (s : State) (n slot fmts engines : Nat) : State :=
  s.program n codeEngine 0 slot 0xFFFF (le 2 fmts ++ le 2 engines)

/-! ### Registers of a core (R206, R208) -/

/-- A scalar register. -/
def CoreSt.s (c : CoreSt) (r : SReg) : Word := Tbl.get 0 c.sreg r.toNat
def CoreSt.setS (c : CoreSt) (r : SReg) (v : Word) : CoreSt := { c with sreg := Tbl.set c.sreg r.toNat v }

/-- A tile register. -/
def CoreSt.t (c : CoreSt) (r : TReg) : Tile := Tbl.get [] c.treg r.toNat
def CoreSt.setT (c : CoreSt) (r : TReg) (v : Tile) : CoreSt := { c with treg := Tbl.set c.treg r.toNat v }

/-- The scoreboard's number of a register. -/
def rS (r : SReg) : Nat := r.toNat
def rT (r : TReg) : Nat := 32 + r.toNat
def rO (o : OBuf) : Nat := 40 + o.toNat

/-- The register that a load writes. -/
def LoadOp.reg : LoadOp → Nat
  | .scalar d _ => rS d
  | .tile t _ => rT t

/-- Registers whose write has not completed (R208). -/
def CoreSt.busy (c : CoreSt) : List Nat :=
  c.scalarQ.map (fun x => rS x.d) ++ c.loadQ.map (fun x => x.op.reg) ++
    c.vecQ.flatMap (fun x => rT x.d :: (x.status.map rS).toList) ++
    c.drainQ.flatMap (fun x => (x.tile.map fun y => rT y.1).toList ++ (x.status.map rS).toList)

/-- What an operation reads and writes, the handles of the memory that it accesses, and whether its slot can accept it. -/
structure Uses where
  reads : List Nat := []
  writes : List Nat := []
  mem : List Nat := []
  ready : Bool := true
  deriving DecidableEq, Repr

/-- The address ranges of an entry's copies; a STRIPED one lies in eight groups (R295). -/
def Handle.ranges (e : Handle) : List (Nat × Nat) :=
  e.bases.map fun b => (b, b + if e.space = spSram ∧ e.mode ≠ 0 then 2 ^ 25 else e.bound)

/-- Two entries may share memory. -/
def Handle.meets (a b : Handle) : Bool :=
  a.space == b.space && (a.space == spSram || a.mode == b.mode) && a.ranges.any fun p => b.ranges.any fun q => p.1 < q.2 && q.1 < p.2

/-- A ciphertext operation of the core has still to write memory that some of these handles may share (R208).
DESIGN CHOICE, safe (assumption 149). -/
def State.behind (s : State) (n : Nat) (hs : List Nat) : Bool :=
  (s.job (s.core n).job).any fun x =>
    (s.core n).ctQ.any fun q => q.foot.any fun h => hs.any fun g => (x.handle h).meets (x.handle g)

/-- The slot cannot accept the operation, a register of it is busy from an earlier bundle, or memory that it accesses is still to be
written by one (R208). -/
def State.blocked (s : State) (n : Nat) (u : Uses) : Bool :=
  !u.ready || (u.reads ++ u.writes).any (s.core n).busy.contains || s.behind n u.mem

/-- Some store, tile write, transform, ciphertext operation or copy issued before an operation is not acknowledged (R99, R215, R314). -/
def CoreSt.owes (c : CoreSt) (t : Nat) : Bool :=
  c.storeQ.any (·.stamp < t) || c.drainQ.any (fun q => q.store && q.stamp < t) || c.nttQ.any (·.stamp < t) ||
    c.ctQ.any (·.stamp < t) || c.xq0.any (·.stamp < t) || c.xq1.any (·.stamp < t)

/-- Nothing that the core issued is unacknowledged. -/
def CoreSt.settled (c : CoreSt) : Bool := !c.owes (c.stamp + 1)

/-- The core is at COUCH, or counts as such (R99, R220). -/
def CoreSt.atCouch (c : CoreSt) : Bool := (c.mode == .couch || c.mode == .ended) && c.settled

/-! ### Positions (R207, R212) -/

/-- The positions at which the bundles of a code section begin, from a position on: one after the other, each of 8 to 48 bytes; one
that is cut off by the end of the section is none.
DESIGN CHOICE, safe (assumption 18). -/
def bundleWalk (code : Bytes) : Nat → Nat → List Nat
  | 0, _ => []
  | fuel + 1, p =>
    let z := p + 8 * (Config.bundleWords code p % 6 + 1)
    if z ≤ code.length then p :: bundleWalk code fuel z else []

/-- The positions at which the bundles of a code section begin. -/
def bundleStarts (code : Bytes) : List Nat := bundleWalk code (code.length / 8) 0

/-- The position of the bundle after the one at `b`, or the end of the code. -/
def CoreSt.after (c : CoreSt) (b : Nat) : Nat :=
  c.starts.foldl (fun a x => if b < x ∧ x < a then x else a) c.code.length

/-- A position names a bundle of the code section. -/
def CoreSt.isBundle (c : CoreSt) (b : Nat) : Bool := b < c.code.length && c.starts.contains b

/-- The position after the bundle at `b`, and the loop levels: a level that ends there is repeated or left. -/
def CoreSt.flow (c : CoreSt) (b : Nat) : List LoopLvl → Nat × List LoopLvl
  | [] => (c.after b, [])
  | l :: ls =>
    if l.stop = b then
      if 0 < l.left then (l.start, { l with left := l.left - 1 } :: ls) else c.flow b ls
    else (c.after b, l :: ls)

/-- Where the sequencer goes after the bundle in issue. A branch, a call or a return that leaves a loop body leaves its levels open.
DESIGN CHOICE, unsafe (assumption 161). -/
def CoreSt.nextPos (c : CoreSt) (b : Branch) : Nat × List LoopLvl :=
  match b with
  | .none => c.flow c.bundle c.loops
  | .jump p => (p, c.loops)
  | .skip stop => c.flow stop c.loops
  | .enter stop left => (c.after c.bundle, { start := c.after c.bundle, stop := stop, left := left } :: c.loops)

/-- A core halts where it stands: a waiting one in its WAIT or BAR, an issuing one between two bundles (R199). -/
def CoreSt.halt (c : CoreSt) : CoreSt :=
  match c.mode with
  | .issuing => { c with mode := .halted, before := .issuing, resume := c.bundle, staged := [] }
  | .wait _ _ | .bar _ => { c with mode := .halted, before := c.mode }
  | _ => c

/-- The job of a core halts for an interlude. -/
def State.haltsAt (s : State) (n : Nat) : Bool := (s.job (s.core n).job).any fun x => x.inter.ph == .halting

/-- A core set to go on at a bundle. -/
def State.setAt (s : State) (n pos : Nat) : State :=
  let s := s.modCore n fun c => { c with bundle := pos, mode := .issuing, resume := pos, staged := [] }
  s.modJob (s.core n).job fun x => { x with stuck := false }

/-- A core goes on at a bundle, or halts there for an interlude; a position that names none is execution past the last bundle (R228).
DESIGN CHOICE, safe (assumption 18). -/
def State.enterAt (s : State) (n pos : Nat) : State :=
  let s := s.setAt n pos
  if !(s.core n).isBundle pos then s.program n codeSequencer sqBranch 0xFF
  else if s.haltsAt n then s.modCore n CoreSt.halt else s

/-- The entry of a stop record for a core whose fault is a secondary one: it was issuing (R229, R230, R415). -/
def faultEntry (n pos code : Nat) : Bytes := le 1 n ++ le 1 1 ++ le 2 code ++ le 4 pos ++ zeros 8

/-- Cores of a job go on in one cycle, each at a bundle, in increasing number. Where several are past their last bundle the lowest decides,
and the others are listed (R229). -/
def State.enterAll (s : State) (j : Nat) (xs : List (Nat × Nat)) : State :=
  let s := s.each xs fun s x => s.setAt x.1 x.2
  match xs.filter fun x => !(s.core x.1).isBundle x.2 with
  | [] => s.each xs fun s x => if s.haltsAt x.1 then s.modCore x.1 CoreSt.halt else s
  | f :: fs =>
    s.stopJob j { code := codeSequencer, detail := sqBranch, core := f.1, bundle := f.2,
                  entries := fs.map fun x => faultEntry x.1 x.2 codeSequencer }

/-! ### Barriers and semaphores (R215 to R218) -/

/-- Index of a core in its job. -/
def Job.mask (x : Job) (b : Nat) : Nat := match x.image with | none => 0 | some i => i.barMask.getD b 0
def Job.sem (x : Job) (k : Nat) : Nat := Tbl.get 0 x.sems k

/-- Cores that stand in BAR with their earlier writes acknowledged arrive (R215). -/
def State.arrive (s : State) (j : Nat) (x : Job) : State :=
  s.each x.cores fun s n =>
    let c := s.core n
    match c.mode with
    | .bar b =>
      if c.settled then
        s.modJob j fun x =>
          let l := Tbl.get [] x.bars b
          if l.contains c.index then x else { x with bars := Tbl.set x.bars b (l ++ [c.index]) }
      else s
    | _ => s

/-- A core waits in WAIT or BAR. -/
def CoreSt.waits (c : CoreSt) : Bool :=
  match c.mode with
  | .wait _ _ | .bar _ => true
  | _ => false

/-- Every participant of a barrier has arrived: all are released, and the barrier starts afresh (R215, R218). -/
def State.releaseBar (s : State) (j b : Nat) : State :=
  match s.job j with
  | none => s
  | some x =>
    let m := x.mask b
    let l := Tbl.get [] x.bars b
    if m ≠ 0 ∧ (List.range 64).all (fun i => !bit m i || l.contains i) then
      let s := s.modJob j fun x => { x with bars := Tbl.set x.bars b [] }
      s.each x.cores fun s n =>
        if (s.core n).mode = .bar b then s.setAt n (s.core n).resume
        else if (s.core n).mode = .halted ∧ (s.core n).before = .bar b then s.modCore n fun c => { c with before := .issuing }
        else s
    else s

/-- A core in WAIT whose count is reached takes it and goes on (R215). -/
def State.serveWait (s : State) (j n : Nat) : State :=
  match (s.core n).mode, s.job j with
  | .wait k v, some x =>
    if v ≤ x.sem k then
      (s.modJob j fun x => { x with sems := Tbl.set x.sems k (x.sem k - v) }).setAt n (s.core n).resume
    else s
  | _, _ => s

/-- Barriers and waits of a job looked at again, the lowest core first; the cores released go on in one cycle (R217, R229). -/
def State.settle (s : State) (j : Nat) : State :=
  match s.job j with
  | none => s
  | some x =>
    if x.st ≠ .running ∨ x.quiesce.isSome then s else
    let t := (s.arrive j x).each (List.range 32) fun s b => s.releaseBar j b
    let t := t.each x.cores fun s n => s.serveWait j n
    t.enterAll j ((x.cores.filter fun n => (s.core n).waits && (t.core n).mode == .issuing).map fun n => (n, (t.core n).bundle))

/-- A SIG reaches its semaphore (R215, R217): a count past 65,535 is not applied and stops the job. -/
def State.signal (s : State) (j sem k core slot bundle : Nat) : State :=
  match s.job j with
  | none => s
  | some x =>
    if x.st ≠ .running ∨ x.quiesce.isSome then s
    else if 65535 < x.sem sem + k then
      s.stopJob j { code := codeSequencer, detail := sqOverflow, core := core, slot := slot, bundle := bundle }
    else (s.modJob j fun x => { x with sems := Tbl.set x.sems sem (x.sem sem + k) }).settle j

/-- A SIG of a core or engine: to the semaphore here, or as a CONTROL message to the member that holds it (R216).
DESIGN CHOICE, safe (assumption 21). -/
def State.sendSig (s : State) (j sem k core slot bundle : Nat) : State :=
  match (s.job j).bind Job.span with
  | none => s.signal j sem k core slot bundle
  | some i =>
    let m := (s.members i).getD (Config.semHome i sem % (s.members i).length) s.self
    if m = s.self then s.signal j sem k core slot bundle else s.sendMsg m clsControl i kindSig (le 2 sem ++ le 2 k)

/-! ### Operations of a bundle (R207, R208, R228) -/

/-- What an operation does at issue: an effect, with where the sequencer goes and how its sync operation leaves the core; or the
stop of its first check that fails, with the place of that check in the order of R228. -/
inductive OpAct where
  | go (f : State → State) (b : Branch) (m : CoreMode)
  | stop (rank : Nat) (f : State → State)

/-- A slot operation, computed on the state before its bundle, so that it reads its registers before any operation of the bundle
writes one (R208). A drain shares the matrix slot's number, and may stand beside an MMA (R255).
DEDUCED, unsafe (assumption 27). -/
structure Op where
  slot : Nat
  uses : Uses := {}
  act : OpAct
  drain : Bool := false

/-- An effect after which the sequencer goes on at the next bundle. -/
def OpAct.effect (f : State → State) : OpAct := .go f .none .issuing

/-- SEQUENCER_FAULT: ILLEGAL_BUNDLE comes first, and the other details after ENGINE_ABSENT. -/
def seqStop (n slot detail : Nat) : OpAct := .stop (if detail = sqIllegal then 1 else 3) fun s => s.seqFault n slot detail

/-- OPERAND_INVALID. -/
def argStop (n slot detail : Nat) (off : Nat := 0) : OpAct := .stop 4 fun s => s.opFault n slot detail off

/-- STALE_HANDLE. -/
def staleStop (n slot detail h off : Nat) : OpAct := .stop 5 fun s => s.staleFault n slot detail h off

/-- An effect within the bundle: the change of one core. -/
def onCore (n : Nat) (f : CoreSt → CoreSt) : State → State := fun s => s.modCore n f

/-! ### Issue (R208, R228) -/

/-- The core may issue: its job runs, is not in a quiesce, and runs its program. While it halts for an interlude a core may still issue
the bundle at which it stands (R199).
DESIGN CHOICE, safe (assumption 3); DESIGN CHOICE, unsafe (assumption 73). -/
def State.canIssue (s : State) (n : Nat) : Bool :=
  let c := s.core n
  s.live && c.mode == .issuing &&
    match s.job c.job with
    | none => false
    | some x => x.st == .running && x.quiesce.isNone && (x.inter.ph == .none || x.inter.ph == .halting)

/-- Two operations of one bundle that cannot stand together: of one slot, or writing one register (R207, R228). -/
def Op.clash (a b : Op) : Bool := (a.slot == b.slot && a.drain == b.drain) || a.uses.writes.any b.uses.writes.contains

/-- The first operation that clashes with an earlier one, or writes one register twice. -/
def clashIn : List Op → List Op → Option Op
  | _, [] => none
  | seen, o :: os => if seen.any o.clash || !o.uses.writes.Nodup then some o else clashIn (o :: seen) os

/-- The rank and slot of an operation's stop. -/
def Op.rank (o : Op) : Nat := match o.act with
  | .stop r _ => 8 * r + o.slot
  | .go _ _ _ => 8 * 9

/-- The stop that decides a bundle: of the first check in the order of R228 that fails in one of its operations, the lowest slot's
among several.
DEDUCED, unsafe (assumption 27). -/
def bundleStop (os : List Op) : Option (Nat × (State → State)) :=
  match os.filter fun o => os.all fun p => o.rank ≤ p.rank with
  | ⟨_, _, .stop r f, _⟩ :: _ => some (r, f)
  | _ => none

/-- The order in which the operations of a bundle act: vector, drain, matrix, load, store, sync, scalar.
DESIGN CHOICE, unsafe (assumption 38). -/
def Op.place (o : Op) : Nat :=
  if o.slot = slotVector then 0 else if o.drain then 1 else if o.slot = slotScalar then 6 else o.slot

/-- The operations of a bundle in the order in which they act. -/
def opsInOrder (os : List Op) : List Op := (List.range 7).flatMap fun k => os.filter fun o => o.place == k

/-- The operations act one after the other, each with a stamp of its own, while the core is not stopped by one of them. -/
def State.runOps (s : State) (n : Nat) (os : List Op) : State :=
  s.each os fun s o => match o.act with
    | .go f _ _ => if (s.core n).mode = .issuing then f (s.modCore n fun c => { c with stamp := c.stamp + 1 }) else s
    | .stop _ _ => s

/-- The branch decision of a bundle's scalar operation. -/
def bundleBranch (os : List Op) : Branch :=
  (os.findSome? fun o => match o.act with
    | .go _ .none _ | .stop _ _ => none
    | .go _ b _ => some b).getD .none

/-- How the bundle leaves its core: as its sync operation says, or halted by a REPULP. -/
def bundleMode (os : List Op) : CoreMode :=
  os.foldl (fun m o => match o.act with
    | .go _ _ .issuing | .stop _ _ => m
    | .go _ _ k => k) .issuing

/-- The end of a bundle: the sequencer goes on, or waits where the bundle's sync operation says so. -/
def State.endBundle (s : State) (n : Nat) (b : Branch) (m : CoreMode) : State :=
  if (s.core n).mode ≠ .issuing then s else
  let s := s.bump (ctrCore n 0) 1
  let c := s.core n
  let p := c.nextPos b
  let c := { c with loops := p.2, staged := [], resume := p.1 }
  match m with
  | .issuing => (s.setCore n c).enterAt n p.1
  | m => (s.setCore n { c with mode := m }).settle c.job

/-- A bundle issues whole (R208, R228): it is decoded, waits in issue for its slots and registers, is checked, and then acts. While it
waits nothing happens, and its last operation comes again.
DESIGN CHOICE, safe (assumption 3); DEDUCED, unsafe (assumption 27). -/
def State.issueOps (s : State) (n : Nat) (os : List Op) : State :=
  match clashIn [] os, bundleStop os with
  | some o, _ => s.seqFault n o.slot sqIllegal
  | none, some (1, f) => f s
  | none, stop =>
    if os.any fun o => s.blocked n o.uses then s
    else match stop with
      | some (_, f) => f s
      | none => (s.runOps n (opsInOrder os)).endBundle n (bundleBranch (opsInOrder os)) (bundleMode (opsInOrder os))

/-! ### The scalar unit (R211) -/

/-- A scalar operation of one cycle. -/
def scalarOp (i : Issue) (reads : List Nat) (d : SReg) (v : Word) : Op :=
  { slot := slotScalar, uses := { reads := reads, writes := [rS d] }, act := .effect (onCore i.core fun c => c.setS d v) }

/-- A scalar operation of two registers and one cycle. -/
def State.alu (s : State) (i : Issue) (d a b : SReg) (f : Word → Word → Word) : Op :=
  scalarOp i [rS a, rS b] d (f ((s.core i.core).s a) ((s.core i.core).s b))

/-- A multiplication, whose result is written three cycles later. -/
def State.mulOp (s : State) (i : Issue) (d a b : SReg) (f : Word → Word → Word) : Op :=
  let c := s.core i.core
  { slot := slotScalar, uses := { reads := [rS a, rS b], writes := [rS d] },
    act := .effect (onCore i.core fun x => { x with scalarQ := x.scalarQ ++ [{ d := d, v := f (c.s a) (c.s b) }] }) }

/-- The shift count: the low 6 bits of the second operand. -/
def shiftCount (y : Word) : Nat := (y.extractLsb' 0 6).toNat

/-- A truth value as 1 or 0. -/
def flag (b : Bool) : Word := if b then 1 else 0

/-- The high 64 bits of the unsigned product. -/
def mulHighU (x y : Word) : Word := ((x.setWidth 128 * y.setWidth 128).extractLsb' 64 64)
/-- The high 64 bits of the signed product. -/
def mulHighS (x y : Word) : Word := ((x.signExtend 128 * y.signExtend 128).extractLsb' 64 64)

/-- ADD (R211). -/
def opAdd (i : Issue) (d a b : SReg) (s : State) : Op := s.alu i d a b fun x y => x + y
/-- SUB (R211). -/
def opSub (i : Issue) (d a b : SReg) (s : State) : Op := s.alu i d a b fun x y => x - y
/-- AND (R211). -/
def opAnd (i : Issue) (d a b : SReg) (s : State) : Op := s.alu i d a b fun x y => x &&& y
/-- OR (R211). -/
def opOr (i : Issue) (d a b : SReg) (s : State) : Op := s.alu i d a b fun x y => x ||| y
/-- XOR (R211). -/
def opXor (i : Issue) (d a b : SReg) (s : State) : Op := s.alu i d a b fun x y => x ^^^ y
/-- SHL (R211). -/
def opShl (i : Issue) (d a b : SReg) (s : State) : Op := s.alu i d a b fun x y => x <<< shiftCount y
/-- SHR (R211). -/
def opShr (i : Issue) (d a b : SReg) (s : State) : Op := s.alu i d a b fun x y => x >>> shiftCount y
/-- SAR (R211). -/
def opSar (i : Issue) (d a b : SReg) (s : State) : Op := s.alu i d a b fun x y => x.sshiftRight (shiftCount y)
/-- MIN (R211). -/
def opMin (i : Issue) (d a b : SReg) (s : State) : Op := s.alu i d a b fun x y => if x.slt y then x else y
/-- MAX (R211). -/
def opMax (i : Issue) (d a b : SReg) (s : State) : Op := s.alu i d a b fun x y => if x.slt y then y else x
/-- MINU (R211). -/
def opMinu (i : Issue) (d a b : SReg) (s : State) : Op := s.alu i d a b fun x y => if x.ult y then x else y
/-- MAXU (R211). -/
def opMaxu (i : Issue) (d a b : SReg) (s : State) : Op := s.alu i d a b fun x y => if x.ult y then y else x
/-- CMPEQ (R211). -/
def opCmpeq (i : Issue) (d a b : SReg) (s : State) : Op := s.alu i d a b fun x y => flag (x == y)
/-- CMPLT (R211). -/
def opCmplt (i : Issue) (d a b : SReg) (s : State) : Op := s.alu i d a b fun x y => flag (x.slt y)
/-- CMPLTU (R211). -/
def opCmpltu (i : Issue) (d a b : SReg) (s : State) : Op := s.alu i d a b fun x y => flag (x.ult y)

/-- SEL (R211): the second operand if the first is not zero, else the third. -/
def opSel (i : Issue) (d a b c : SReg) (s : State) : Op :=
  let x := s.core i.core
  scalarOp i [rS a, rS b, rS c] d (if x.s a = 0 then x.s c else x.s b)

/-- LI (R211): the immediate, sign-extended. -/
def opLi (i : Issue) (d : SReg) (imm : BitVec 32) (_s : State) : Op := scalarOp i [] d (imm.signExtend 64)

/-- LUI (R211): the immediate into bits [63:32], bits [31:0] kept. -/
def opLui (i : Issue) (d : SReg) (imm : BitVec 32) (s : State) : Op :=
  scalarOp i [rS d] d (imm ++ ((s.core i.core).s d).extractLsb' 0 32)

/-- MUL (R211). -/
def opMul (i : Issue) (d a b : SReg) (s : State) : Op := s.mulOp i d a b fun x y => x * y
/-- MULHU (R211). -/
def opMulhu (i : Issue) (d a b : SReg) (s : State) : Op := s.mulOp i d a b mulHighU
/-- MULHS (R211). -/
def opMulhs (i : Issue) (d a b : SReg) (s : State) : Op := s.mulOp i d a b mulHighS

/-- What GETID reads (R211): the core's index, the job's cores, the core's mill, else 0. -/
def State.getId (s : State) (n code : Nat) : Nat :=
  let c := s.core n
  if code = 0 then c.index
  else if code = 1 then (match s.job c.job with | none => 0 | some x => x.cores.length)
  else if code = 2 then s.millOf n
  else 0

/-- GETID (R211). -/
def opGetid (i : Issue) (d : SReg) (code : Nat) (s : State) : Op := scalarOp i [] d (BitVec.ofNat 64 (s.getId i.core code))

/-- SCALAR_RESULT_WRITTEN (R211, R208): the oldest result of three cycles reaches its register.
DESIGN CHOICE, safe (assumption 123). -/
def execScalarResultWritten (core : Nat) (s : State) : Outcome :=
  let c := s.core core
  match c.scalarQ with
  | [] => .next s
  | x :: xs => .next (if s.live then s.setCore core { c.setS x.d x.v with scalarQ := xs } else s)

/-! ### Control flow (R212) -/

/-- A control-flow operation. -/
def flowOp (reads : List Nat) (act : OpAct) : Op := { slot := slotScalar, uses := { reads := reads }, act := act }

/-- A branch to a position, taken or not; a target that names no bundle is refused whatever the condition (R228). -/
def State.branchOp (s : State) (i : Issue) (reads : List Nat) (dest : Nat) (taken : Bool) (f : CoreSt → CoreSt) : Op :=
  flowOp reads
    (if !(s.core i.core).isBundle dest then seqStop i.core slotScalar sqBranch
     else if taken then .go (onCore i.core f) (.jump dest) .issuing
     else .effect id)

/-- BR (R212). -/
def opBr (i : Issue) (dest : Nat) (s : State) : Op := s.branchOp i [] dest true id
/-- BRZ (R212). -/
def opBrz (i : Issue) (a : SReg) (dest : Nat) (s : State) : Op := s.branchOp i [rS a] dest ((s.core i.core).s a == 0) id
/-- BRNZ (R212). -/
def opBrnz (i : Issue) (a : SReg) (dest : Nat) (s : State) : Op := s.branchOp i [rS a] dest ((s.core i.core).s a != 0) id

/-- CALL (R212): pushes the position of the next bundle; a seventeenth entry is a fault (R228). -/
def opCall (i : Issue) (dest : Nat) (s : State) : Op :=
  if 16 ≤ (s.core i.core).stack.length ∧ (s.core i.core).isBundle dest then flowOp [] (seqStop i.core slotScalar sqReturn)
  else s.branchOp i [] dest true fun c => { c with stack := c.after c.bundle :: c.stack }

/-- RET (R212): pops the position; with no entry it is a fault (R228). -/
def opRet (i : Issue) (s : State) : Op :=
  flowOp [] (match (s.core i.core).stack with
    | [] => seqStop i.core slotScalar sqReturn
    | p :: ps => .go (onCore i.core fun c => { c with stack := ps }) (.jump p) .issuing)

/-- LOOP (R212, R228): the body runs from the next bundle to the one at `stopAt`, n times; a count of 0 skips it. The open levels are tested
before the count.
DESIGN CHOICE, unsafe (assumption 161). -/
def opLoop (i : Issue) (n : Nat) (reg : Option SReg) (stopAt : Nat) (s : State) : Op :=
  let c := s.core i.core
  let count := match reg with
    | none => n % 2 ^ 32
    | some r => ((c.s r).extractLsb' 0 32).toNat
  flowOp (reg.map rS).toList
    (if !c.isBundle stopAt ∨ stopAt ≤ c.bundle then seqStop i.core slotScalar sqBranch
     else if 4 ≤ c.loops.length ∨ c.loops.any (fun l => l.stop < stopAt) then seqStop i.core slotScalar sqLoop
     else .go id (if count = 0 then .skip stopAt else .enter stopAt (count - 1)) .issuing)

/-! ### Scalar loads and stores (R213, R214) -/

/-- The forms of access that the sequencer knows (R228). -/
def sizeOk (n : Nat) : Bool := n == 1 || n == 2 || n == 4 || n == 8

/-- The value of loaded bytes, zero-extended or sign-extended. -/
def loadValue (b : Bytes) (signed : Bool) : Word :=
  if signed then (BitVec.ofNat (8 * b.length) (leVal b)).signExtend 64 else BitVec.ofNat 64 (leVal b)

/-- The checks of a scalar access, and what it does where they pass. -/
def State.scalarAccess (s : State) (i : Issue) (slot : Nat) (l : Loc) (size : Nat) (write : Bool) (act : OpAct) : OpAct :=
  if !sizeOk size then seqStop i.core slot sqIllegal
  else if l.off % size ≠ 0 then seqStop i.core slot sqMisaligned
  else match s.accessFault (s.core i.core).job l.h l.off size write [spSram] with
    | some k => staleStop i.core slot k l.h l.off
    | none => act

/-- LD.S (R213): the bytes are those of bundle order; the register is written when they are delivered.
DESIGN CHOICE, unsafe (assumption 39). -/
def opLdS (i : Issue) (d : SReg) (l : Loc) (size : Nat) (signed : Bool) (s : State) : Op :=
  let j := (s.core i.core).job
  let v := loadValue (s.load j l.h l.off size) signed
  let w := s.wetBlocks j l.h l.off size
  { slot := slotLoad, uses := { writes := [rS d], mem := [l.h] },
    act := s.scalarAccess i slotLoad l size false (.effect (onCore i.core fun c =>
      { c with loadQ := c.loadQ ++ [{ op := .scalar d v, wet := w, bundle := c.bundle, handle := l.h, off := l.off }] })) }

/-- ST.S (R213): the bytes take effect in bundle order; the acknowledgement follows.
DESIGN CHOICE, unsafe (assumption 38). -/
def opStS (i : Issue) (a : SReg) (l : Loc) (size : Nat) (s : State) : Op :=
  let v := (s.core i.core).s a
  let j := (s.core i.core).job
  { slot := slotStore, uses := { reads := [rS a], mem := [l.h] },
    act := s.scalarAccess i slotStore l size true (.effect fun t =>
      let w := t.wetBlocks j l.h l.off size
      let old := [(l.off, t.load j l.h l.off size)]
      (t.store j l.h l.off (le size v.toNat)).modCore i.core fun c =>
        { c with storeQ := c.storeQ ++ [{ stamp := c.stamp, bundle := c.bundle, wet := w, handle := l.h, off := l.off, part := size != 8, old := old }] }) }

/-- LOAD_DATA_DELIVERED (R214): the oldest load writes its register, or its read met an uncorrectable error (R111).
DESIGN CHOICE, unsafe (assumption 39). -/
def execLoadDataDelivered (core : Nat) (e : ReadErr) (s : State) : Outcome :=
  let c := s.core core
  match c.loadQ with
  | [] => .next s
  | x :: xs =>
    if !s.live then .next s
    else if e = .good then
      .next (s.setCore core { (match x.op with | .scalar d v => c.setS d v | .tile t v => c.setT t v) with loadQ := xs })
    else
      .next ((s.setCore core { c with loadQ := xs }).lateFault c.job x.handle x.off x.wet e core slotLoad x.bundle)

/-- STORE_ACKNOWLEDGED (R214): the oldest store is acknowledged; a core that waits at BAR or COUCH may now stand there
(R99). A write of part of a word whose read met an uncorrectable error does not take place and is a storage fault; one of
whole words finds no error (R111).
DESIGN CHOICE, safe (assumption 2). -/
def execStoreAcknowledged (core : Nat) (e : ReadErr) (s : State) : Outcome :=
  let c := s.core core
  match c.storeQ with
  | [] => .next s
  | x :: xs =>
    if !s.live then .next s
    else
      let s := s.setCore core { c with storeQ := xs }
      .next (if e = .good ∨ !x.part then s.settle c.job
             else (s.each x.old fun s o => s.store c.job x.handle o.1 o.2).lateFault c.job x.handle x.off x.wet e core slotStore x.bundle)

/-! ### Synchronisation (R215 to R220) -/

/-- The number of semaphores and of barriers that the image uses. -/
def Job.semCount (x : Job) : Nat := match x.image with | none => 0 | some i => i.semaphores
def Job.barCount (x : Job) : Nat := match x.image with | none => 0 | some i => i.barriers

/-- A sync operation. -/
def syncOp (act : OpAct) : Op := { slot := slotSync, act := act }

/-- A sync operation that leaves its core waiting, or at COUCH or END. -/
def waitAs (m : CoreMode) : OpAct := .go id .none m

/-- A semaphore operation with its checks: a number beyond the image's count, or a k out of range (R228). -/
def State.semOp (s : State) (i : Issue) (sem k : Nat) (act : Job → OpAct) : Op :=
  syncOp (match s.job (s.core i.core).job with
    | none => .effect id
    | some x =>
      if x.semCount ≤ sem then seqStop i.core slotSync sqSync
      else if k = 0 ∨ 255 < k then argStop i.core slotSync opExtent
      else act x)

/-- SIG (R215). -/
def opSig (i : Issue) (sem k : Nat) (s : State) : Op :=
  s.semOp i sem k fun _ => .effect (onCore i.core fun c =>
    { c with sigQ := c.sigQ ++ [{ stamp := c.stamp, sem := sem, k := k, bundle := c.bundle }] })

/-- SIG_APPLIED (R215, R216): once every earlier write is acknowledged, the core's oldest SIG reaches its semaphore. -/
def execSigApplied (core : Nat) (s : State) : Outcome :=
  let c := s.core core
  match c.sigQ with
  | [] => .next s
  | x :: xs =>
    if !s.live ∨ c.owes x.stamp then .next s
    else .next ((s.setCore core { c with sigQ := xs }).sendSig c.job x.sem x.k core slotSync x.bundle)

/-- WAIT (R215): takes the count at once where it is reached, else the core waits. -/
def opWait (i : Issue) (sem k : Nat) (s : State) : Op :=
  s.semOp i sem k fun x =>
    if k ≤ x.sem sem then
      .effect fun s => s.modJob (s.core i.core).job fun x => { x with sems := Tbl.set x.sems sem (x.sem sem - k) }
    else waitAs (.wait sem k)

/-- A SIG of another member is applied here: an overflow names no core, slot or bundle, which its message does not carry.
DESIGN CHOICE, unsafe (assumption 162). -/
def State.sigNow (s : State) (span sem k : Nat) : State :=
  if !s.live then s else
  match s.spanJob span with
  | none => s
  | some j => s.signal j sem k 0xFF 0xFF 0

/-- SIG_MESSAGE (R216).
DESIGN CHOICE, unsafe (assumption 162). -/
def execSigMessage (span sem k : Nat) (s : State) (arr : Option Arrival := none) : Outcome :=
  .next (s.receive arr clsControl (le 2 sem ++ le 2 k) fun s => s.sigNow span sem k)

/-- BAR (R218, R228). -/
def opBar (i : Issue) (b : Nat) (s : State) : Op :=
  syncOp (match s.job (s.core i.core).job with
    | none => .effect id
    | some x =>
      if x.barCount ≤ b then seqStop i.core slotSync sqSync
      else if !bit (x.mask b) (s.core i.core).index then seqStop i.core slotSync sqParticipant
      else waitAs (.bar b))

/-- COUCH (R219). -/
def opCouch (_i : Issue) (_s : State) : Op := syncOp (waitAs .couch)

/-- END (R220). -/
def opEnd (_i : Issue) (_s : State) : Op := syncOp (waitAs .ended)

end Sys2Proof.Machine
end

