-- ==== Sys2Proof/Machine/Recover.lean ====
section
/-! DEFINITION. What a couch records, and the quiesce that restores it before a replay (R101, R103, R112, R113). -/

namespace Sys2Proof.Machine

/-! ### What a couch records (R101) -/

/-- Where a core goes on after the couch being made: a core at COUCH at the bundle after it, a core that an interlude
halted where it stood (R201, R229). -/
def CoreSt.goesOn (c : CoreSt) : CoreMode × Nat × Nat :=
  match c.mode with
  | .couch => (.issuing, c.resume, c.resume)
  | .halted => match c.before with
    | .issuing => (.issuing, c.resume, c.resume)
    | m => (m, c.bundle, c.resume)
  | .out => (c.before, c.bundle, c.resume)
  | m => (m, c.bundle, c.resume)

/-- The scalar registers with every result in flight written: what they hold for the bundle after the couch (R208, R209). -/
def CoreSt.landed (c : CoreSt) : Tbl Word :=
  let put (t : Tbl Word) (x : SReg × Word) : Tbl Word := Tbl.set t x.1.toNat x.2
  let loads := c.loadQ.filterMap fun q => match q.op with
    | .scalar d v => some (d, v)
    | .tile _ _ => none
  (c.scalarQ.map (fun q => (q.d, q.v)) ++ loads ++ c.vecQ.filterMap (fun q => q.status.map fun d => (d, q.word)) ++
    c.drainQ.filterMap (fun q => q.status.map fun d => (d, q.word))).foldl put c.sreg

/-- The sequencer, scalar and stream state of a core at a couch, with the SIGs that are on their way. -/
def CoreSt.snap (c : CoreSt) : CoreSnap :=
  { mode := c.goesOn.1, bundle := c.goesOn.2.1, resume := c.goesOn.2.2, sreg := c.landed, stack := c.stack, loops := c.loops,
    chans := c.chans.filterMap fun x => x.2.map fun y => (x.1, y), sigQ := c.sigQ.map fun q => { q with stamp := 0 } }

/-- The key streams of a job that run, by mill and number. -/
def State.keyStreams (s : State) (j : Nat) : List (Nat × Nat × KeyStream) :=
  (List.range 4).flatMap fun m => (List.range 8).filterMap fun q =>
    ((Tbl.get none (s.headbox m).streams q).filter fun t => t.job == j).map fun t => (m, q, t)

/-- The state of a job recorded. Blocks that a load in flight read wet are dry from here on (R115). -/
def State.takeSnap (s : State) (j : Nat) : State :=
  let s := s.modJob j fun x =>
    { x with snap := { cores := x.cores.map fun n => (n, (s.core n).snap), sems := x.sems, bars := x.bars, handles := x.handles, inter := x.inter,
                       keys := s.keyStreams j ++ x.keysWait },
             undo := [], txSpent := [] }
  s.jobCores j fun c => { c with loadQ := c.loadQ.map fun q => { q with wet := [] } }

/-! ### Scratch contents (R103) -/

/-- An SRAM address lies in the extent of a copy: it is where `sramAddr` places some offset below the bound (R295). -/
def inExtent (mode base bound a : Nat) : Bool :=
  let d := a - base
  base ≤ a && if mode = 0 then d < bound
    else (List.range 8).any fun i => i * 2 ^ 22 ≤ d && ((d - i * 2 ^ 22) / 4096 * 8 + i) * 4096 + d % 4096 < bound

/-- A handle whose contents a replay wipes: scratch in SRAM, but for release and receive areas. -/
def Handle.wiped (e : Handle) : Bool := e.space == spSram && e.scratch && !e.release && !e.receive

/-- The scratch handles of a table wiped. -/
def State.wipeScratch (s : State) (hs : Tbl Handle) : State :=
  let es := hs.filter fun c => c.2.wiped
  { s with sram := s.sram.filter fun c => !(es.any fun e => inExtent e.2.mode e.2.baseA e.2.bound c.1) }

/-- A sector of an HBM scratch handle that the abandoned stride wrote holds either what it wrote or what it held
at the last couch: a free choice for each.
DESIGN CHOICE, safe (assumption 15). -/
def State.restoreHbm (s : State) (undo : Tbl Bytes) : State :=
  s.each undo fun s c =>
    let n := s.draw.1
    let s := s.draw.2
    if Config.freeBit n then s.hbmWrite (c.1 * 64) c.2 else s

/-! ### The end of a quiesce (R112) -/

/-- A core set back to what the last couch recorded; it stays out of service until the replay begins. Its program store is
rewritten from the image copy (R210). -/
def CoreSt.restore (c : CoreSt) (code : Bytes) (k : CoreSnap) : CoreSt :=
  { job := c.job, index := c.index, mode := .out, before := k.mode, bundle := k.bundle, resume := k.resume, code := code,
    starts := bundleStarts code, sreg := k.sreg, stack := k.stack, loops := k.loops, chans := k.chans.map fun x => (x.1, some { x.2 with halt := none }),
    sigQ := k.sigQ, lastCheck := c.lastCheck }

/-- The image that an interlude saved of a core (R199, R201). -/
def CoreSt.load (c : CoreSt) (i : CoreImg) : CoreSt := { c with treg := i.treg, o0 := i.o0, o1 := i.o1 }

/-- The code section that a job's image gives a core. -/
def Job.codeOf (x : Job) (n : Nat) : Bytes :=
  match x.image with
  | none => []
  | some g => ((g.cores.find? fun c => c.1 == n).map fun c => c.2.1).getD []

/-- Release and receive pointers set back to the commit pointer (R105). -/
def Area.rewind (a : Area) : Area := { a with write := a.commit, staged := [] }

/-- Credits with those spent put back. -/
def putBack (have_ spent : Tbl Nat) : Tbl Nat := spent.foldl (fun t c => Tbl.set t c.1 (Tbl.get 0 t c.1 + c.2)) have_

/-- What a job is after the restore (R101): its stride begins again at the next tick. -/
def Job.rewind (x : Job) : Job :=
  { x with blks := x.blks.map fun c => (c.1, { c.2 with written := false }), areas := x.areas.map fun c => (c.1, c.2.rewind),
           sems := x.snap.sems, bars := x.snap.bars, handles := x.snap.handles, undo := [], excCount := 0, exc := none, stuck := false,
           txCredits := putBack x.txCredits x.txSpent, txSpent := [],
           couching := false, overrun := false, inter := if x.snap.inter.ph = .resuming then {} else x.snap.inter, quiesce := none, more := [], replaying := true, begins := true,
           sheet := 0, elapsed := 0, late := 0, paged := false }

/-- The quiesce ends: wet state is abandoned, the couched state restored, scratch and tile registers wiped, and
the replay record posted. The stride is replayed from the next tick.
DEDUCED, unsafe (assumption 58). -/
def State.quiesceDone (s : State) (j : Nat) : State :=
  match s.job j with
  | none => s
  | some x =>
    match x.quiesce with
    | none => s
    | some q =>
      let s := s.each x.snap.cores fun s c => s.modCore c.1 fun y => y.restore (x.codeOf c.1) c.2
      let s := if x.snap.inter.ph = .resuming then s.each x.snap.inter.images fun s c => s.modCore c.1 fun y => y.load c.2 else s
      let s := (s.wipeScratch x.snap.handles).restoreHbm x.undo
      (s.each (q :: x.more) fun s q => s.jobEvent j 2 q.code 1 (replayBody q x.seq) q.tick).modJob j Job.rewind

/-- REPLAY_QUIESCE_DONE (R113). During a clock-source switch the quiesce ends with the switch (R66), and an evacuation
of a group of the job belongs to it (R304). -/
def execReplayQuiesceDone (j : Nat) (s : State) : Outcome :=
  if s.live ∧ s.clk.switching = .none ∧ (s.groupsOf j).all (fun g => (s.group g).st != .evacuating) then .next (s.quiesceDone j) else .next s

end Sys2Proof.Machine
end

