-- ==== Sys2Proof/Machine/Security.lean ====
section
/-! DEFINITION. Identity, secure boot, tokens, attestation, SPDM, IDE and the public-key engine (R439 to R467). -/

namespace Sys2Proof

open Sys2Proof.Machine

/-! ### Firmware images (R448) -/

/-- Fields of an image's header (R448). -/
def FwImage.svn (i : FwImage) : Nat := field i.header 5 1
def FwImage.grades (i : FwImage) : Nat := field i.header 7 1
def FwImage.sequence (i : FwImage) : Nat := field i.header 8 4
def FwImage.digest (i : FwImage) : Bytes := (i.header.drop 0x10).take 48

/-- MAGIC, VERSION, SVN, TARGET_STEPPING and BODY_BYTES of an image are right (R448, R449).
DEDUCED, unsafe (assumption 173). -/
def FwImage.formed (i : FwImage) : Bool :=
  i.header.length == 4096 && field i.header 0 4 == 0x57464A46 && field i.header 4 1 == 1 && i.svn ≤ 64 && field i.header 6 1 == 0xB0 &&
    1 ≤ field i.header 0xC 4 && field i.header 0xC 4 ≤ 8384512 && i.body.length == field i.header 0xC 4

end Sys2Proof

namespace Sys2Proof.Machine

/-! ### Lifecycle (R440) and buffers -/

/-- The lifecycle code. -/
def Sec.lifecycle (x : Sec) : Nat :=
  if x.fuses.retired then 4 else if x.debug then 3 else if x.fuses.production then 2 else if x.fuses.provisioned then 1 else 0

/-- The administrative port of the fuses (R439). -/
def Fuses.admin (f : Fuses) : Port := if f.adminChanges % 2 = 0 then f.adminDefault else otherPort f.adminDefault

/-- Bytes written to the buffer of a command from an offset on. -/
def State.bufPut (s : State) (p : Port) (c : Bytes) (off : Nat) (data : Bytes) : State :=
  if data = [] then s
  else match bufPasid c with
    | none => s.emit (.host p none (field c 8 8 + off) data)
    | some k => s.hostWrite p k (field c 8 8 + off) data

/-- A written buffer (R406, R409, R417): its bytes reach the host from where the command left off up to the first page that is not
translated, which is asked for, and the completion follows the last byte. A refused page ends the command with HOST_BUFFER_FAULT and
VALUE0 0, and the `written` bytes before it stay.
DESIGN CHOICE, safe (assumption 126). -/
def State.writeBuffer (s : State) (p : Port) (r : Nat) (ok : Bool) (bytes : Bytes) (d : Done) (written : Nat := 0) : State :=
  match (s.ring p r).current with
  | none => s
  | some c =>
    let off := (s.ring p r).sent
    let rest := bytes.drop off
    if !ok then (s.bufPut p c off (rest.take written)).refuse p r cBufferFault
    else match s.bufStep p c off rest.length true with
      | .go => (s.bufPut p c off rest).complete p r d
      | .refused => s.refuse p r cBufferFault
      | .awaits pg =>
        let n := pg.2 * 4096 - (field c 8 8 + off)
        ((s.bufPut p c off (rest.take n)).setRing p r { s.ring p r with sent := off + n }).askPage p r pg true

/-! ### Secure boot (R449 to R451) -/

/-- Whether an image's header is well formed for this module: GRADES names the fused grade, and its bits [7:3] are zero (R448, R449).
DEDUCED, unsafe (assumption 173). -/
def State.imageFits (s : State) (i : FwImage) : Bool := i.formed && i.grades < 8 && s.sec.fuses.grade != 0 && i.grades / 2 ^ (s.sec.fuses.grade.toNat - 1) % 2 == 1

/-- The image is signed under the firmware keys whose hashes the fuses hold (R439, R449). -/
def State.keysFused (s : State) (i : FwImage) : Bool :=
  sha384 ((i.header.drop 0x40).take 97) ++ sha384 ((i.header.drop 0xA4).take 60) == s.sec.fuses.fwKeyHash

/-- The digest and both signatures are right (R449, R463).
DESIGN CHOICE, safe (assumption 19). -/
def imageVerifies (i : FwImage) : Bool := sha384 i.body == i.digest && i.checks.ecdsa && i.checks.hss

def Sec.slot (x : Sec) (b : Bool) : Slot := if b then x.slotB else x.slotA
def Sec.setSlot (x : Sec) (b : Bool) (y : Slot) : Sec := if b then { x with slotB := y } else { x with slotA := y }

/-- The slots the boot ROM tries, in decreasing SEQUENCE (R449). -/
def Sec.candidates (x : Sec) : List Bool :=
  let a := if x.slotA.valid then [false] else []
  let b := if x.slotB.valid then [true] else []
  if x.slotA.seq < x.slotB.seq then b ++ a else a ++ b

/-- A failure record of the bring-up log, with its MCTP event (R94, R412).
DEDUCED, unsafe (assumption 121). -/
def State.failRec (s : State) (code unit index : Nat) : State :=
  State.mctpEvent { s with boot := { s.boot with log := s.boot.log ++ [(code, unit, index, s.now, 0)] } } code

/-- CONTROL sets, which ends a warm reset for the hosts (R79, R389, R395). -/
def State.controlUp (s : State) : State := State.setReady { s with boot := { s.boot with warm := false } } bitControl true

/-! ### Identity (R453) -/

/-- The ASCII bytes of a label. -/
def label (t : String) : Bytes := t.toList.map fun c => BitVec.ofNat 8 c.toNat

/-- HMAC-SHA-384, with blocks of 128 bytes. -/
def hmac384 (key msg : Bytes) : Bytes :=
  let k := fit 128 (if 128 < key.length then sha384 key else key)
  sha384 (k.map (· ^^^ 0x5C) ++ sha384 (k.map (· ^^^ 0x36) ++ msg))

/-- The blocks of HKDF-SHA-384 from number `i` on, `n` of them, each over the one before. -/
def hkdfBlocks (prk info : Bytes) : Nat → Nat → Bytes → Bytes
  | 0, _, _ => []
  | n + 1, i, t => let t := hmac384 prk (t ++ info ++ le 1 i); t ++ hkdfBlocks prk info n (i + 1) t

/-- KDF(K, label): `n` bytes of HKDF-SHA-384 without a salt. -/
def kdf (k : Bytes) (t : String) (n : Nat) : Bytes := (hkdfBlocks (hmac384 (zeros 48) k) (label t) ((n + 47) / 48) 1 []).take n

/-- The order of P-384 (R460). -/
def p384n : Nat := 0xffffffffffffffffffffffffffffffffffffffffffffffffc7634d81f4372ddf581a0db248b0a77aecec196accc52973

/-- Keygen(K, label): a private scalar of P-384. -/
def keygen (k : Bytes) (t : String) : Nat := beVal (kdf k t 72) % (p384n - 1) + 1

/-- CDI_ROM, which the boot ROM wipes before firmware starts. -/
def Fuses.cdiRom (f : Fuses) : Bytes := hmac384 f.uds (label "FJ-ID" ++ fit 48 Config.romDigest)

/-- CDI_FW of an image under CDI_ROM. -/
def cdiFw (rom digest : Bytes) (svn : Nat) : Bytes := hmac384 rom (label "FJ-FW" ++ fit 48 digest ++ le 1 svn)

/-- The Alias key of a CDI_FW; DEBUG_UNLOCKED has its own. -/
def aliasKey (cdi : Bytes) (debug : Bool) : Nat := keygen cdi (if debug then "FJ-ALIAS-DBG" else "FJ-ALIAS")

/-- The key slots that the boot ROM fills for an image: none where the key path refuses to read UDS (R439, R466). -/
def Fuses.derive (f : Fuses) (i : FwImage) : Option KeySlots :=
  if f.udsKill then none
  else
    let c := cdiFw f.cdiRom i.digest i.svn
    some { deviceId := keygen f.cdiRom "FJ-DEVID", hss := kdf f.cdiRom "FJ-HSS" 48, cdiFw := c, alias_ := aliasKey c false }

/-- The key slots at the entry to DEBUG_UNLOCKED, which derives the debug alias key (R444). -/
def KeySlots.unlocked (k : KeySlots) : KeySlots := { k with alias_ := aliasKey k.cdiFw true }

/-- An image is started: the identity is derived, the UDS path locked, and CONTROL follows (R449). -/
def State.startImage (s : State) (b : Bool) (i : FwImage) (recovered : Bool) : State :=
  let run : Running := { slotB := b, svn := i.svn, digest := i.digest, recovered := recovered }
  State.controlUp { s with
    sec := { s.sec with running := some run, recovery := false, locked := true, keys := s.sec.fuses.derive i }, ticking := true }

/-- The boot loop over the candidate slots: the first image that passes is started; a rolled-back one loses its
VALID mark; with none left the boot ROM enters recovery (R449, R451).
DEDUCED, unsafe (assumption 121). -/
def State.bootSlots (s : State) : List Bool → State
  | [] => { s with sec := { s.sec with recovery := true } }
  | b :: bs =>
    match (s.sec.slot b).img with
    | none => State.bootSlots s bs
    | some i =>
      if !s.imageFits i then (s.failRec 0x0201 1 (b2n b 1)).bootSlots bs
      else if i.svn < s.sec.fuses.svn then
        (State.failRec { s with sec := s.sec.setSlot b { (s.sec.slot b) with valid := false } } 0x0802 1 (b2n b 1)).bootSlots bs
      else if !s.keysFused i || !imageVerifies i then (s.failRec 0x0801 1 (b2n b 1)).bootSlots bs
      else s.startImage b i false

/-- FIRMWARE_VERIFIED (R449): with no slot to try, that no image verifies is a failure record of its own (R94).
DEDUCED, unsafe (assumption 144). -/
def execFirmwareVerified (s : State) : Outcome :=
  if !s.live ∨ !s.boot.eepromRead ∨ s.sec.fuses.retired ∨ s.sec.running.isSome ∨ s.sec.recovery then .next s
  else if (s.sec.candidates.filter fun b => (s.sec.slot b).img.isSome).isEmpty then .next ((s.failRec 0x0201 1 0).bootSlots [])
  else .next (s.bootSlots s.sec.candidates)

/-- RECOVERY_IMAGE (R451).
DEDUCED, unsafe (assumption 122). -/
def execRecoveryImage (img : FwImage) (s : State) : Outcome :=
  if !s.live ∨ !s.sec.recovery then .next s else
  let b := if !s.sec.slotA.valid ∧ !s.sec.slotB.valid then false else decide (s.sec.slotB.seq < s.sec.slotA.seq)
  let ok := s.imageFits img && s.sec.fuses.svn ≤ img.svn && s.keysFused img && imageVerifies img
  let s := { s with sec := s.sec.setSlot b { img := some img, valid := ok, seq := if ok then img.sequence else 0 } }
  .next (if ok then State.startImage s b img true else s)

/-- SECURITY_READY (R88): the DRBG is seeded and the SPDM responder is ready. -/
def execSecurityReady (s : State) : Outcome :=
  if s.live ∧ s.isReady bitControl ∧ ¬s.sec.fuses.udsKill then .next (s.setReady bitSecurity true) else .next s

/-- SVN_ADVANCE (R450). -/
def execSvnAdvance (s : State) (blown : Nat := 64) : Outcome :=
  match s.sec.running with
  | none => .next s
  | some run =>
    if !s.live ∨ !s.isReady bitControl ∨ run.svn ≤ s.sec.fuses.svn ∨ 64 < run.svn then .next s
    else
      let c := min run.svn (s.sec.fuses.svn + blown)
      let drop (x : Slot) : Slot := if c = run.svn ∧ x.img.any (fun i => i.svn < run.svn) then { x with valid := false } else x
      .next { s with sec := { s.sec with fuses := { s.sec.fuses with svn := c }, slotA := drop s.sec.slotA, slotB := drop s.sec.slotB } }

/-! ### FW_UPDATE (R85, R452) -/

/-- The slot that does not run. -/
def Sec.inactive (x : Sec) : Bool := match x.running with | none => false | some r => !r.slotB

/-- FW_UPDATE (R452): the header checks; then the inactive slot's record is cleared and the slot is programmed. -/
def execFwUpdate (p : Port) (r : Nat) (img : Option FwImage) (s : State) : Outcome :=
  match s.command p r 0x51 with
  | none => .next (s.turnAway p r 0x51)
  | some _ =>
    if s.sec.update.isSome then .next (s.refuse p r 0x0805) else
    match img with
    | none => .next (s.refuse p r cBufferFault)
    | some i =>
      if !s.imageFits i ∨ !s.keysFused i then .next (s.refuse p r 0x0201)
      else if i.svn < s.sec.fuses.svn then .next (s.refuse p r 0x0802)
      else
        let sec := s.sec.setSlot s.sec.inactive { img := some i, valid := false }
        .next (State.hold { s with sec := { sec with update := some (p, r, i) } } p r)

/-- FW_UPDATE_DONE (R452): a digest that differs or a bad signature leaves the slot invalid; else its record is marked VALID with the image's
SEQUENCE. -/
def execFwUpdateDone (p : Port) (r : Nat) (s : State) : Outcome :=
  match s.sec.update with
  | none => .next s
  | some (p', r', i) =>
    if p' ≠ p ∨ r' ≠ r then .next s else
    let s := { s with sec := { s.sec with update := none } }
    if !imageVerifies i then .next (s.refuse p r 0x0801)
    else .next (State.complete { s with sec := s.sec.setSlot s.sec.inactive { img := some i, valid := true, seq := i.sequence } } p r {})

/-! ### Tokens (R442 to R446) -/

/-- Reserved bytes, MAGIC, VERSION and KIND of a token (R442, R443 step 1). -/
def tokenFormed (t : Bytes) : Bool :=
  t.length == 3584 && field t 0 4 == 0x4B544A46 && field t 4 1 == 1 && 1 ≤ field t 5 1 && field t 5 1 ≤ 3 && field t 7 1 == 0 &&
    field t 0x18 8 == 0 && field t 0x81 3 == 0 && field t 0xDF4 12 == 0

/-- The counter a token's COUNT must equal (R442). -/
def Sec.tokenCount (x : Sec) (kind : Nat) : Nat :=
  if kind = 1 then x.fuses.unlockCount else if kind = 2 then x.fuses.adminChanges else 0

/-- What the state allows of a kind (R443 step 5, R444 to R446). -/
def State.tokenAllowed (s : State) (t : Bytes) : Bool :=
  let kind := field t 5 1
  let f := s.sec.fuses
  if kind = 1 then s.sec.lifecycle == 2 && f.unlockCount < 32
  else if kind = 2 then field t 6 1 ≤ 1 && field t 6 1 != portNum s.adminPort && s.jobNums.isEmpty && f.adminChanges < 8
  else s.sec.lifecycle == 2 || s.sec.lifecycle == 3

/-- The SHA-384 hashes of a token's public keys, the ECDSA key first (R442, R443 step 2).
DESIGN CHOICE, safe (assumption 19). -/
def tokenKeys (t : Bytes) : Bytes := sha384 ((t.drop 0x20).take 97) ++ sha384 ((t.drop 0x84).take 60)

/-- The first failing check of a token in a buffer of BUF_BYTES `n`, in the order of R443.
DEDUCED, safe (assumption 115). -/
def State.tokenStatus (s : State) (n : Nat) (t : Bytes) (c : Checks) : Nat :=
  let kind := field t 5 1
  if n ≠ 3584 ∨ !tokenFormed t then 0x0804
  else if tokenKeys t ≠ s.sec.fuses.tokenKeyHash then 0x0801
  else if !(c.ecdsa && c.hss) then 0x0801
  else if (t.drop 8).take 12 ≠ s.sec.fuses.serial ∨ field t 0x14 4 ≠ s.sec.tokenCount kind then 0x0804
  else if !s.tokenAllowed t then 0x0803
  else cSuccess

/-- The IDE streams that were keyed in sessions that end with the entry to DEBUG_UNLOCKED end with them (R489).
DEDUCED, unsafe (assumption 155). -/
def Ide.unlocked (x : Ide) : Ide := if x.session.isSome then {} else x

def PortSt.ideUnlocked (q : PortSt) : PortSt :=
  { q with ideLink := q.ideLink.unlocked, ideSel0 := q.ideSel0.unlocked, ideSel1 := q.ideSel1.unlocked }

/-- The end of every job, in every module of its span (R489), and of the REPULP tables at an unlock or a retirement (R444 steps 2 and
3). -/
def State.purge (s : State) : State :=
  let s := s.each s.jobNums fun s j => s.endJob j 0x0704 none
  let s := s.each (List.range 7) fun s i => s.setReady (bitRepulp i) false
  let s := s.each (s.tableUnits.flatMap Prod.snd) fun s x => s.modUnit x fun _ => { filling := true }
  { s with building := [], tableUnits := [] }

/-- SPDM sessions of a port ended; the operand memory is wiped when one of them owns it (R444, R465). -/
def State.endSessions (s : State) (p : Port) : State :=
  let mine := match s.sec.owner with
    | .session q _ => decide (q = p)
    | _ => false
  let s := s.modPort p fun q => { q with sessions := [], agreed := 0 }
  if mine then { s with sec := { s.sec with owner := .none, opMem := [] } } else s

/-- The completion of an accepted token, unless its ring was reset meanwhile. -/
def State.tokenDone (s : State) (w : TokenWait) : State := if w.lost then s else s.complete w.port w.ring {}

/-- SPDM sessions of both ports end, with the IDE streams keyed in them (R444 step 4, R489). -/
def State.endAllSessions (s : State) : State := ((s.endSessions .a).endSessions .b).onPorts fun s q => s.modPort q PortSt.ideUnlocked

/-- What follows the wipe of the last job that an accepted token ended. An unlock enters DEBUG_UNLOCKED with the debug alias key, posts
its event and completes (R444 steps 4 to 6, R489). A retirement blows UDS_KILL, and then RETIRED with `State.retireNow` (R445).
DEDUCED, unsafe (assumption 174). -/
def State.finishToken (s : State) : State :=
  match s.sec.token with
  | none => s
  | some w =>
    if w.jobs ≠ [] then s
    else if w.retire then { s with sec := { s.sec with fuses := { s.sec.fuses with udsKill := true } } }
    else
      let s := s.endAllSessions
      let s := { s with sec := { s.sec with token := none, debug := true, keys := s.sec.keys.map KeySlots.unlocked } }
      (s.moduleEvents 0x0702 3).tokenDone w

/-- The job of a number is wiped, and an accepted token that waited for it may go on. -/
def State.tokenWiped (s : State) (j : Nat) : State :=
  State.finishToken { s with sec := { s.sec with token := s.sec.token.map fun (w : TokenWait) => { w with jobs := w.jobs.erase j } } }

/-- RETIRED is blown after UDS_KILL, the completion is posted, and the firmware stops (R445). A loss of power between the two fuses leaves
a module that boots and derives no identity (R466). -/
def State.retireNow (s : State) (w : TokenWait) : State :=
  let s := { s with sec := { s.sec with token := none, fuses := { s.sec.fuses with retired := true }, running := none } }
  ((s.tokenDone w).setReady bitSecurity false).setReady bitControl false

/-- What happens while no command waits: a safe shutdown ends in the loss of power (R58), and a retirement whose UDS_KILL fuse is blown
goes on (R445).
DEDUCED, unsafe (assumption 140); DEDUCED, unsafe (assumption 174). -/
def State.idle (s : State) : State :=
  if s.pins.power = .shutdown then s.lost .off
  else match s.sec.token with
    | some w => if w.retire ∧ s.sec.fuses.udsKill then s.retireNow w else s
    | none => s

/-- What an accepted token does (R444 to R446). -/
def State.useToken (s : State) (p : Port) (r : Nat) (t : Bytes) : State :=
  let kind := field t 5 1
  let f := s.sec.fuses
  if kind = 1 then
    let s := State.purge { s with sec := { s.sec with fuses := { f with unlockCount := f.unlockCount + 1 } } }
    (State.hold { s with sec := { s.sec with token := some { port := p, ring := r, retire := false, jobs := s.jobNums } } } p r).finishToken
  else if kind = 2 then
    let f' := { f with adminChanges := f.adminChanges + 1 }
    State.complete { s with sec := { s.sec with fuses := f' }, adminPort := f'.admin } p r {}
  else
    let s := s.purge
    (State.hold { s with sec := { s.sec with token := some { port := p, ring := r, retire := true, jobs := s.jobNums } } } p r).finishToken

/-- `DEBUG_UNLOCK` whose token has the kind the row stands for; a token of no known kind is refused by the row of
UNLOCK. It waits while another accepted token is not complete.
DEDUCED, safe (assumption 115); DEDUCED, unsafe (assumption 174). -/
def State.token (s : State) (kind : Nat) (p : Port) (r : Nat) (token : Option Bytes) (c : Checks) : State :=
  match s.command p r 0x70 with
  | none => s.turnAway p r 0x70
  | some cmd =>
    if s.sec.token.isSome then s
    else if s.sec.update.isSome then s.refuse p r 0x0805 else
    match token with
    | none => s.refuse p r cBufferFault
    | some t =>
      let k := field t 5 1
      if k = kind ∨ (kind = 1 ∧ ¬(k = 2 ∨ k = 3)) then
        let k := s.tokenStatus (field cmd 0x10 4) t c
        if k = cSuccess then s.useToken p r t else s.refuse p r k
      else s

/-- DEBUG_UNLOCK with an UNLOCK token (R444). -/
def execDebugUnlock (p : Port) (r : Nat) (t : Option Bytes) (c : Checks) (s : State) : Outcome := .next (s.token 1 p r t c)

/-- DEBUG_UNLOCK with an ADMIN_PORT token (R446). -/
def execAdminPortChange (p : Port) (r : Nat) (t : Option Bytes) (c : Checks) (s : State) : Outcome := .next (s.token 2 p r t c)

/-- DEBUG_UNLOCK with a RETIRE token (R445). -/
def execRetire (p : Port) (r : Nat) (t : Option Bytes) (c : Checks) (s : State) : Outcome := .next (s.token 3 p r t c)

/-! ### Attestation (R454 to R457) -/

/-- The entries of the journal that are not fully erased, torn ones too: the number of the next free block (R456). -/
def Sec.journal (x : Sec) : Nat := x.entries.length

/-- The journal entry that reserves a block (R456). -/
def journalEntry (b : Nat) : Bytes :=
  let e := le 4 0x4A484A46 ++ le 4 b ++ zeros 52
  e ++ le 4 (crc32 e)

/-- The next signature needs a block of its own: the block in use has no leaf left, or none is in use. -/
def Sec.needsBlock (x : Sec) : Bool := x.block.isNone || 1024 ≤ x.leaf

/-- A leaf of the HSS device key taken for a signature: a new block is reserved in the journal where the block in
use has none left (R455, R456). None when no block remains. -/
def Sec.takeLeaf (x : Sec) : Option (Nat × Sec) :=
  if x.needsBlock then
    if x.journal < 32768 then
      some (x.journal * 1024, { x with entries := x.entries ++ [journalEntry x.journal], block := some x.journal, leaf := 1 })
    else none
  else some (x.block.getD 0 * 1024 + x.leaf, { x with leaf := x.leaf + 1 })

/-- Power is lost while the entry of the next block is programmed: what was programmed of it stays, and the block is used up (R456). -/
def State.tearEntry (s : State) (e : Bytes) : State :=
  State.lost { s with sec := { s.sec with entries := s.sec.entries ++ [fit 64 e] } } .off

/-- The job of ATTEST's JOB_SEL with its image digest (R454); the digest of an image stands in its header. -/
def State.attestDigest (s : State) (j : Nat) : Bytes :=
  match s.job j with
  | none => zeros 48
  | some x => match x.image with
    | none => zeros 48
    | some i => i.digest

/-- The signed part of a report (R454). -/
def State.report (s : State) (nonce : Bytes) (j index : Nat) (digest : Bytes) : Bytes :=
  let f := s.sec.fuses
  let (svn, fw, rec) := match s.sec.running with
    | none => (0, zeros 48, false)
    | some x => (x.svn, x.digest, x.recovered)
  le 4 0x52414A46 ++ [1] ++ le 1 s.sec.fuses.grade.toNat ++ le 1 s.sec.lifecycle ++ le 1 (b2n s.boot.degraded 1 + b2n rec 2) ++ fit 12 f.serial ++
    [0xB0] ++ le 1 f.svn ++ le 1 svn ++ le 1 f.unlockCount ++ le 1 (portNum s.adminPort) ++ le 1 f.adminChanges ++ zeros 2 ++
    le 4 index ++ fit 32 nonce ++ fit 48 Config.romDigest ++ fit 48 fw ++ le 1 j ++ zeros 15 ++ fit 48 digest ++ le 8 s.now ++ zeros 24

/-- What the certificate chains rest on: the keys of the key slots (R453, R458).
DESIGN CHOICE, safe (assumption 19). -/
def State.identity (s : State) : Bytes :=
  match s.sec.keys with
  | none => []
  | some k => be 48 k.deviceId ++ k.hss ++ be 48 k.alias_

/-- The signature of the Alias key over a message (R453); the algorithm is an external standard's. -/
def State.aliasSign (s : State) (msg : Bytes) : Bytes :=
  match s.sec.keys with
  | none => []
  | some k => fit 96 (Config.aliasSign (be 48 k.alias_) msg)

/-- The signature of the HSS device key with an index over a message (R455). -/
def State.hssSign (s : State) (i : Nat) (msg : Bytes) : Bytes :=
  match s.sec.keys with
  | none => []
  | some k => fit 5236 (Config.hssSign k.hss i msg)

/-- The index and the state after it of the next signature of a report: none where no block remains, no identity is derived, or the module is
RETIRED (R440, R457, R466).
DEDUCED, unsafe (assumption 174). -/
def State.signer (s : State) : Option (Nat × Sec) := if s.sec.keys.isNone ∨ s.sec.fuses.retired then none else s.sec.takeLeaf

/-- The report signed by the Alias key and the HSS device key, written and completed (R454), with the digest of the job's image as it
stood at issue (R466). -/
def State.attestNow (s : State) (p : Port) (r : Nat) (ok : Bool) (digest c : Bytes) : State :=
  match s.signer with
  | none => s.refuse p r 0x0803
  | some (i, sec) =>
    let j := field c 0x38 1
    let body := s.report ((c.drop 0x18).take 32) j i digest
    let bytes := body ++ s.aliasSign body ++ s.hssSign i body ++ zeros 44
    State.writeBuffer { s with sec := { sec with bucket := sec.bucket - 1 } } p r ok bytes { v0 := 5632 }

/-- ATTEST (R454): waits while the bucket is empty (R457). Power may be lost while a block's journal entry is programmed (R456). -/
def execAttest (p : Port) (r : Nat) (ok : Bool) (s : State) (torn : Option Bytes := none) : Outcome :=
  match s.command p r 0x50 with
  | none => .next (s.turnAway p r 0x50)
  | some c =>
    let j := field c 0x38 1
    if j ≠ 0 ∧ ¬((s.job j).any fun x => x.owner = p) then .next (s.refuse p r 0x0101)
    else if s.signer.isNone then .next (s.refuse p r 0x0803)
    else if s.sec.bucket = 0 then
      .next (State.hold { s with sec := { s.sec with attestQ := s.sec.attestQ ++ [(p, r, ok, s.attestDigest j)] } } p r)
    else match torn with
      | some e => .next (if s.sec.needsBlock then s.tearEntry e else s)
      | none => .next (s.attestNow p r ok (s.attestDigest j) c)

/-- HSS_BUCKET_REFILL (R457): one signature more, taken at once by an ATTEST that waits. -/
def execHssBucketRefill (s : State) (torn : Option Bytes := none) : Outcome :=
  if !s.live ∨ s.sec.fuses.retired then .next s else
  let s := { s with sec := { s.sec with bucket := min 256 (s.sec.bucket + 1) } }
  match s.sec.attestQ with
  | [] => .next s
  | (p, r, ok, digest) :: q =>
    match (s.ring p r).current with
    | none => .next { s with sec := { s.sec with attestQ := q } }
    | some c =>
      match s.bufFirst p c, torn with
      | .awaits pg, _ => .next (s.askPage p r pg true)
      | _, some e => .next (if s.sec.needsBlock then s.tearEntry e else s)
      | _, none => .next (State.attestNow { s with sec := { s.sec with attestQ := q } } p r ok digest c)

/-! ### The public-key engine (R460 to R465) -/

/-- The prime and the coefficient b of P-384, the one curve the engine accepts (R460), as its standard gives them. -/
def p384p : Nat := 2 ^ 384 - 2 ^ 128 - 2 ^ 96 + 2 ^ 32 - 1
def p384b : Nat := 0xb3312fa7e23ee7e4988e056be3f82d19181d9c6efe8141120314088f5013875ac656398d8a2ed19d2a85c8edd3ec2aef

/-- A point that is none of the curve's: at infinity, with a coordinate at or above p, or off the curve (R462).
DEDUCED, safe (assumption 141). -/
def badPoint : PkePoint → Bool
  | .infinity => true
  | .xy x y => p384p ≤ x || p384p ≤ y || y * y % p384p != (x * x * x + (p384p - 3) * x + p384b) % p384p

/-- A scalar of zero, or at or above n. -/
def badScalar (d : Nat) : Bool := d == 0 || p384n ≤ d

/-- A set of LMS parameters that the engine accepts (R460). -/
def lmsKnown (x : LmsSet) : Bool :=
  (x.n == 24 || x.n == 32) && (x.w == 4 || x.w == 8) && (x.h == 10 || x.h == 15 || x.h == 20)

/-- What the engine finds of an operation's inputs (R462): the first row of the table that holds decides. An ECDH result is at
infinity where the scalar is a multiple of the curve's order.
DEDUCED, safe (assumption 141). -/
def Sec.pkeResult (x : Sec) : PkeOp → PkeResult
  | .ecdsaVerify sized pub r s m =>
    if !sized then .invalidInput else if badPoint pub then .invalidKey
    else if badScalar r || badScalar s || !m then .invalidSignature else .ok
  | .ecdsaSign sized d => if !sized then .invalidInput else if badScalar d then .invalidKey else .ok
  | .ecdh sized d peer =>
    if !sized || badPoint peer || d % p384n == 0 then .invalidInput else if badScalar d then .invalidKey else .ok
  | .keygen => .ok
  | .hssSign => if x.block.isNone then .invalidKey else .ok
  | .lmsVerify sized sig key leaf m =>
    if !sized || !lmsKnown sig then .invalidInput else if key ≠ sig then .invalidKey
    else if 2 ^ sig.h ≤ leaf || !m then .invalidSignature else .ok

/-- The 1 KiB of a dummy operation's operands, drawn from the DRBG (R464). -/
def dummyOperands (n : Nat) : Bytes := (List.range 128).flatMap fun i => le 8 (Config.freeWord (n + i)).toNat

/-- The dummy operations before a real one: a number from 0 to 3 drawn by the TRNG, each with fresh operands in the dummy store (R464).
DESIGN CHOICE, safe (assumption 20). -/
def State.runDummies (s : State) : State :=
  let k := (Config.freeWord s.freeCtr).toNat % 4
  let n := s.freeCtr + 1 + 128 * k
  { s with freeCtr := n, sec := { s.sec with dummies := k, dummyStore := if k = 0 then s.sec.dummyStore else dummyOperands (n - 128) } }

/-- An operation of the engine, after its dummies (R461 to R465): a new owner finds the 8 KiB operand memory wiped. -/
def State.runPke (s : State) (q : PkeReq) : State :=
  let s := s.runDummies
  let old := if s.sec.owner = q.owner then s.sec.opMem else []
  { s with sec := { s.sec with owner := q.owner, opMem := q.operands.take 8192 ++ old.drop q.operands.length,
                               result := s.sec.pkeResult q.op } }

/-- The requests of the engine after an operation that ends: requests start in arrival order, so it is the oldest one's, or that of a
request that found none waiting (R464). None where it can be neither.
DEDUCED, safe (assumption 141). -/
def Sec.pkeAfter (x : Sec) (q : PkeReq) (arrived : List PkeReq) : Option (List PkeReq) :=
  match x.pkeQ with
  | [] => some arrived
  | y :: ys => if y = q then some (ys ++ arrived) else none

/-- PKE_OPERATION_DONE (R461 to R465).
DEDUCED, safe (assumption 141). -/
def execPkeOperationDone (owner : PkeOwner) (op : PkeOp) (operands : List (BitVec 8)) (arrived : List PkeReq) (s : State) : Outcome :=
  let q : PkeReq := { owner := owner, op := op, operands := operands }
  match s.sec.pkeAfter q arrived with
  | some qs => if s.live then .next ({ s with sec := { s.sec with pkeQ := qs } }.runPke q) else .next s
  | none => .next s

/-! ### SPDM and IDE (R458, R459) -/

/-- A port answers SPDM once SECURITY is set, with its link up (R90). -/
def State.spdmReady (s : State) (p : Port) : Bool := s.live && s.isReady bitSecurity && (s.port p).linkUp

/-- The responder's answer: its request code and body.
PRESUMED, unsafe (assumption 117). -/
def State.spdm (s : State) (p : Port) (code : Nat) (body : Bytes) : State := s.emit (.spdm p (le 1 code ++ body))

/-- An SPDM request answered where the responder is ready, after the agreement level it needs.
DEDUCED, unsafe (assumption 116). -/
def State.spdmReq (s : State) (p : Port) (need code : Nat) (body : Bytes) (f : State → State) : Outcome :=
  if !s.spdmReady p then .next s
  else if (s.port p).agreed < need then .next (s.spdm p 0x7F [0x04, 0])
  else .next (f (s.spdm p code body))

/-- Latency of an ECDSA signature in µs (R461). -/
def signUs : Nat := 290

/-- A request whose answer the Alias key signs: while operations of the engine wait, it waits on the engine, and is answered
ResponseNotReady with the latency of the signature (R458).
DEDUCED, unsafe (assumption 116). -/
def State.spdmSigned (s : State) (p : Port) (code : Nat) (body : Bytes) (f : State → State) : Outcome :=
  if s.sec.pkeQ ≠ [] then s.spdmReq p 3 0x7F ([0x42, 0] ++ le 4 signUs) id else s.spdmReq p 3 code body f

/-- GET_VERSION (R458): version 1.2; it restarts the agreement.
PRESUMED, unsafe (assumption 117). -/
def execGetVersion (p : Port) (s : State) : Outcome :=
  s.spdmReq p 0 0x04 (le 2 0x1200) fun s => s.modPort p fun q => { q with agreed := 1 }

/-- The features of R458 as flags of CAPABILITIES: certificates, challenge, signed measurements, encrypted and authenticated sessions, key
exchange, heartbeat and key update. -/
def spdmFlags : Nat := 2 ^ 1 + 2 ^ 2 + 2 * 2 ^ 3 + 2 ^ 6 + 2 ^ 7 + 2 ^ 9 + 2 ^ 13 + 2 ^ 14

/-- The body of CAPABILITIES; its time exponent and its sizes are free values.
PRESUMED, unsafe (assumption 117). -/
def capabilities (n : Nat) : Bytes :=
  let v := (Config.freeWord n).toNat
  [0, 0, 0] ++ le 1 v ++ [0, 0] ++ le 4 spdmFlags ++ le 4 (v / 2 ^ 8) ++ le 4 (v / 2 ^ 32)

/-- The body of ALGORITHMS, a message of 44 bytes: measurements hashed by SHA-384, ECDSA P-384, SHA-384, secp384r1 and AES-256-GCM
(R458).
PRESUMED, unsafe (assumption 117). -/
def algorithms : Bytes :=
  [2, 0] ++ le 2 44 ++ [1, 0] ++ le 4 (2 ^ 2) ++ le 4 (2 ^ 7) ++ le 4 (2 ^ 1) ++ zeros 16 ++ [2, 0x20] ++ le 2 (2 ^ 4) ++ [3, 0x20] ++ le 2 (2 ^ 1)

/-- GET_CAPABILITIES (R458). -/
def execGetCapabilities (p : Port) (s : State) : Outcome :=
  s.draw.2.spdmReq p 1 0x61 (capabilities s.draw.1) fun s => s.modPort p fun q => { q with agreed := max 2 q.agreed }

/-- NEGOTIATE_ALGORITHMS (R458): ECDSA P-384 with SHA-384, secp384r1, AES-256-GCM, or ERROR. -/
def execNegotiateAlgorithms (p : Port) (offered : Bool) (s : State) : Outcome :=
  if offered then s.spdmReq p 2 0x63 algorithms fun s => s.modPort p fun q => { q with agreed := 3 }
  else s.spdmReq p 2 0x7F [0x01, 0] id

/-- GET_DIGESTS (R458): the digests of slots 0 and 1. -/
def execGetDigests (p : Port) (s : State) : Outcome :=
  s.spdmReq p 3 0x01 (fit 48 (Config.certDigest s.identity 0) ++ fit 48 (Config.certDigest s.identity 1)) id

/-- GET_CERTIFICATE (R458): slot 0 or 1, else ERROR. -/
def execGetCertificate (p : Port) (slot : Nat) (s : State) : Outcome :=
  if slot < 2 then s.spdmReq p 3 0x02 (Config.certificate s.identity slot) id else s.spdmReq p 3 0x7F [0x01, 0] id

/-- The measurement blocks (R458): 1 ROM_DIGEST, 2 FW_DIGEST and RUNNING_SVN, 3 the lifecycle values, 4 grade and stepping. -/
def State.measurement (s : State) (i : Nat) : Bytes :=
  let f := s.sec.fuses
  if i = 1 then fit 48 Config.romDigest
  else if i = 2 then match s.sec.running with
    | none => zeros 49
    | some x => fit 48 x.digest ++ le 1 x.svn
  else if i = 3 then le 1 s.sec.lifecycle ++ le 1 f.svn ++ le 1 f.unlockCount ++ le 1 f.adminChanges
  else le 1 s.sec.fuses.grade.toNat ++ [0xB0]

/-- All measurements, one after another. -/
def State.measurements (s : State) : Bytes := (List.range 4).flatMap fun i => s.measurement (i + 1)

/-- CHALLENGE (R458): the measurements and nonce signed with the Alias key. -/
def execChallenge (p : Port) (slot : Nat) (nonce : Bytes) (s : State) : Outcome :=
  let body := s.measurements ++ nonce
  if slot < 2 then s.spdmSigned p 0x03 (body ++ s.aliasSign body) id else s.spdmReq p 3 0x7F [0x01, 0] id

/-- GET_MEASUREMENTS (R458): index 0 the count, 255 all, 1 to 4 one of them.
PRESUMED, unsafe (assumption 117). -/
def execGetMeasurements (p : Port) (index : Nat) (nonce : Bytes) (s : State) : Outcome :=
  let body := if index = 0 then [4] else if index = 255 then s.measurements else s.measurement index
  if index ≤ 4 ∨ index = 255 then s.spdmSigned p 0x60 (body ++ nonce ++ s.aliasSign (body ++ nonce)) id
  else s.spdmReq p 3 0x7F [0x01, 0] id

/-- The lowest session number free on a port. -/
def PortSt.freeSession (q : PortSt) : Nat := ((List.range 4).find? fun i => !(q.sessions.any fun x => x.id == i)).getD 0

/-- KEY_EXCHANGE (R458): opens a session; a fifth gets ERROR Busy.
DEDUCED, unsafe (assumption 116). -/
def execKeyExchange (p : Port) (peer : Bytes) (s : State) : Outcome :=
  if 4 ≤ (s.port p).sessions.length then s.spdmReq p 3 0x7F [0x03, 0] id
  else
    let id := (s.port p).freeSession
    s.spdmSigned p 0x64 (le 2 id ++ s.aliasSign peer) fun s =>
      s.modPort p fun q => { q with sessions := q.sessions ++ [{ id := id }] }

/-- A request inside a session: ERROR where no such session is open, or where it is not established and must be.
DEDUCED, unsafe (assumption 116). -/
def State.inSession (s : State) (p : Port) (id : Nat) (established : Bool) (code : Nat) (f : State → State) : Outcome :=
  if (s.port p).sessions.any fun x => x.id == id && (x.finished || !established) then s.spdmReq p 3 code (le 2 id) f
  else s.spdmReq p 3 0x7F [0x0B, 0] (fun s => s)

/-- A session changed. -/
def PortSt.modSession (q : PortSt) (id : Nat) (f : Session → Session) : PortSt :=
  { q with sessions := q.sessions.map fun x => if x.id == id then f x else x }

/-- FINISH (R458): the session is established. -/
def execFinish (p : Port) (session : Nat) (s : State) : Outcome :=
  s.inSession p session false 0x65 fun s => s.modPort p fun q => q.modSession session fun x => { x with finished := true }

/-- SPDM HEARTBEAT (R458). -/
def execSpdmHeartbeat (p : Port) (session : Nat) (s : State) : Outcome := s.inSession p session true 0x68 fun s => s

/-- KEY_UPDATE (R458). -/
def execKeyUpdate (p : Port) (session : Nat) (s : State) : Outcome :=
  s.inSession p session true 0x69 fun s => s.modPort p fun q => q.modSession session fun x => { x with updates := x.updates + 1 }

/-- The stream outlasts the session in which it was keyed.
DEDUCED, unsafe (assumption 155). -/
def Ide.outlast (x : Ide) (id : Nat) : Ide := if x.session = some id then { x with session := none } else x

/-- A session ended. -/
def PortSt.closeSession (q : PortSt) (id : Nat) : PortSt :=
  { q with sessions := q.sessions.filter fun x => x.id != id, ideLink := q.ideLink.outlast id, ideSel0 := q.ideSel0.outlast id,
           ideSel1 := q.ideSel1.outlast id }

/-- END_SESSION (R458, R465): the operand memory is wiped when the session owns it. -/
def execEndSession (p : Port) (session : Nat) (s : State) : Outcome :=
  s.inSession p session true 0x6C fun s =>
    let s := s.modPort p fun q => q.closeSession session
    if s.sec.owner = .session p session then { s with sec := { s.sec with owner := .none, opMem := [] } } else s

/-- An IDE stream of a port changed: 0 the link stream, 1 and 2 the selective ones. -/
def PortSt.modIde (q : PortSt) (stream : Nat) (f : Ide → Ide) : PortSt :=
  if stream = 0 then { q with ideLink := f q.ideLink }
  else if stream = 1 then { q with ideSel0 := f q.ideSel0 }
  else if stream = 2 then { q with ideSel1 := f q.ideSel1 }
  else q

/-- IDE_KM KEY_PROG (R459): a key made by the DRBG and programmed into the port's engine, by the number of its draw.
DESIGN CHOICE, safe (assumption 20). -/
def execIdeKmKeyProg (p : Port) (session stream : Nat) (rx : Bool) (s : State) : Outcome :=
  if 3 ≤ stream then .next s else
  s.inSession p session true 0x02 fun s =>
    s.draw.2.modPort p fun q => q.modIde stream fun x =>
      if rx then { x with rx := some s.draw.1, session := some session } else { x with tx := some s.draw.1, session := some session }

/-- The programmed key set is in use, once both directions hold one. -/
def Ide.go (x : Ide) : Ide :=
  match x.rx, x.tx with
  | some a, some b => { x with rx := none, tx := none, live := some (a, b) }
  | _, _ => x

/-- IDE_KM K_SET_GO (R459): the stream is switched to the key set programmed last. -/
def execKSetGo (p : Port) (session stream : Nat) (s : State) : Outcome :=
  if 3 ≤ stream then .next s else
  s.inSession p session true 0x04 fun s =>
    s.modPort p fun q => q.modIde stream Ide.go

/-- PCIE_EQUALISATION (R476): port traffic pauses for the retraining; nothing else changes. -/
def execPcieEqualisation (_p : Port) (s : State) : Outcome := .next s

end Sys2Proof.Machine
end

