-- ==== Sys2Proof/Machine/Resets.lean ====
section
/-! DEFINITION. Port resets and links, what a reset does to the work and the tests of its port, and what a port answers (R80 to R87, R383). -/

namespace Sys2Proof.Machine

/-! ### Jobs of a port -/

/-- The jobs of a port.
DEDUCED, unsafe (assumption 86). -/
def State.portJobs (s : State) (p : Port) : List Nat := s.jobNums.filter fun j => (s.job j).any fun x => x.owner == p

/-! ### Port resets (R80 to R87, R383) -/

/-- The PORT bit sets once the link is up, the configuration space answers and no reset is under way (R80, R90). -/
def State.portCheck (s : State) (p : Port) : State :=
  let q := s.port p
  if q.linkUp ∧ q.cfgReady ∧ !q.inReset ∧ !q.d3 then s.setReady (bitPort p) true else s

/-- The rings, event ring, windows, vectors, translations and arm of a port at their defaults.
PRESUMED, unsafe (assumption 129). -/
def PortSt.cleared (q : PortSt) : PortSt :=
  { q with rings := [], ev := {}, wins := [], msixMask := BitVec.allOnes 64, msixPend := 0, msixAddr := [], ats := false, pri := false,
           pasidEn := false, priFailed := false, atc := [], atsReqs := [], pageReqs := [], pageWait := [], armed := 0, snapBusy := false,
           snapRing := none, inReset := true }

/-- The configuration space after a reset of the FLR form: BAR assignments and the sticky bits of AER are kept (R80). -/
def PciConf.flr (c : PciConf) : PciConf := { c with caFatal := false, aspmL1 := false }

/-- A port's firmware update is abandoned (R85), its ATTEST commands with it, and an accepted token has no completion there (R403).
DEDUCED, unsafe (assumption 174). -/
def State.dropWork (s : State) (p : Port) : State :=
  let up := s.sec.update.filter fun u => u.1 != p
  let tk := s.sec.token.map fun (t : TokenWait) => { t with lost := t.lost || t.port == p }
  { s with sec := { s.sec with update := up, token := tk, attestQ := s.sec.attestQ.filter fun a => a.1 != p } }

/-- A mill's online test abandoned by a reset of a port: the slot goes back without a finding, the port's requests are dropped, and a
request of the other port waits again (R86, R475).
DEDUCED, unsafe (assumption 143). -/
def STest.abandon (t : STest) (p : Port) : STest :=
  let rest := t.queue.filter fun x => x.2.2.1 != p
  let again := t.under.filterMap fun u => match u.asker, u.core with
    | some a, some c => if a.1 = p then none else some (c, false, a)
    | _, _ => none
  { t with under := t.under.map fun u => { u with asker := none, result := some true }, queue := again ++ rest }

/-- Online self-tests are abandoned (R86); a module-wide test, which only a warm or cold reset ends, goes on without its asker.
DEDUCED, unsafe (assumption 143). -/
def State.dropTests (s : State) (p : Port) : State :=
  let s := { s with modTest := s.modTest.map fun (t : ModTest) => { t with asker := t.asker.filter fun a => a.1 != p } }
  s.each (List.range 4) fun s m => s.modStest m fun t => t.abandon p

/-- What the three forms have in common: the port's jobs end, its bit clears, its rings are reset. Its host gets no completion
for a command in flight (R82, R403, R417). -/
def State.portReset (s : State) (p : Port) : State :=
  let s := s.each (s.portJobs p) fun s j => (s.tellStop j 0x0703).killJob j
  let s := ((s.modPort p PortSt.cleared).dropWork p).dropTests p
  s.setReady (bitPort p) false

/-- SPDM sessions and IDE streams of a port end (R80). -/
def State.endSecure (s : State) (p : Port) : State :=
  (s.endSessions p).modPort p fun q => { q with ideLink := {}, ideSel0 := {}, ideSel1 := {} }

/-- A port whose link is down: nothing trained. -/
def PortSt.unlinked (q : PortSt) : PortSt := { q with linkUp := false, gts := 0, width := 0, reversed := false, polarity := 0 }

/-- PERST_ASSERT (R80): link down, configuration space at its defaults. While PWR_GOOD is low the pin is ignored (R36), and in
freeze the reset is (R87). -/
def execPerstAssert (p : Port) (s : State) : Outcome :=
  if !s.pins.pwrGood then .next s else
  let s := match p with
    | .a => { s with pins := { s.pins with perstA := false } }
    | .b => { s with pins := { s.pins with perstB := false } }
  if !s.live then .next s
  else .next (((s.portReset p).endSecure p).modPort p fun q =>
    { q.unlinked with cfgReady := false, pci := none, conf := {}, d3 := false }).noteRefs

/-- PERST_DEASSERT (R80): the link may train, which PORT_LINK_UP ends. Its REFCLK is stable by then, or not driven (R34). While
PWR_GOOD is low the pin is ignored (R36). -/
def execPerstDeassert (p : Port) (s : State) (refclk : Bool := true) : Outcome :=
  if !s.pins.pwrGood then .next s else
  match p with
  | .a => .next { s with pins := { s.pins with perstA := true, refclkA := refclk } }
  | .b => .next { s with pins := { s.pins with perstB := true, refclkB := refclk } }

/-- HOT_RESET (R80): the link retrains. -/
def execHotReset (p : Port) (s : State) : Outcome :=
  if !s.live ∨ !(s.port p).linkUp then .next s
  else .next (((s.portReset p).endSecure p).modPort p fun q => { q.unlinked with conf := {}, d3 := false }).noteRefs

/-- A reset of the FLR form: the link stays up. During another reset of the port it is ignored (R87).
DEDUCED, safe (assumption 120); DESIGN CHOICE, safe (assumption 167). -/
def State.flrNow (s : State) (p : Port) : State :=
  if !s.live ∨ !(s.port p).linkUp ∨ (s.port p).inReset then s else (s.portReset p).modPort p fun q => { q with conf := q.conf.flr }

/-- FLR (R80). -/
def execFlr (p : Port) (s : State) : Outcome := .next (s.flrNow p)

/-- D3HOT_ENTRY (R383).
DESIGN CHOICE, safe (assumption 167). -/
def execD3hotEntry (p : Port) (s : State) : Outcome :=
  if !s.live ∨ !(s.port p).linkUp then .next s
  else .next ((s.flrNow p).modPort p fun q => { q with d3 := true })

/-- PERST_x_N is high. -/
def State.perst (s : State) : Port → Bool
  | .a => s.pins.perstA
  | .b => s.pins.perstB

/-- A link trains at x16, x8, x4, x2 or x1 (R25). -/
def widthOk (w : Nat) : Bool := w == 16 || w == 8 || w == 4 || w == 2 || w == 1

/-- The module's lanes that a link uses: the lowest-numbered ones, or the highest-numbered ones when reversed (R25). -/
def PortSt.lanes (q : PortSt) : List Nat := (List.range q.width).map fun n => if q.reversed then 16 - q.width + n else n

/-- PORT_LINK_UP (R80, R90): the link is up and the port's rings and translations are reset. A port without a driven REFCLK has no
clock in limp (R32, R63). -/
def execPortLinkUp (p : Port) (gts width : Nat) (s : State) (reversed : Bool := false) (polarity : BitVec 16 := 0) : Outcome :=
  if !s.live ∨ !s.perst p ∨ !widthOk width ∨ (s.limp ∧ !s.refclk p) then .next s
  else .next ((s.modPort p fun q =>
    { q with linkUp := true, gts := gts, width := width, reversed := reversed, polarity := polarity, inReset := false, d3 := false }).portCheck p)

/-! ### Which writes the ports take -/

/-- The page answers a write of a port. -/
def State.essOk (s : State) (p : Port) : Bool := s.live && (s.port p).linkUp && (s.port p).cfgReady

/-- What a port answers to a request for its configuration space: nothing without a link, Request Retry Status until the space
is ready (R89), and then its identification (R48). -/
inductive CfgAnswer where
  | silent | retry | id (x : PciId)
  deriving DecidableEq, Repr

def State.configAnswer (s : State) (p : Port) : CfgAnswer :=
  if !s.live ∨ !(s.port p).linkUp then .silent
  else match (s.port p).pci with
    | none => .retry
    | some x => if (s.port p).cfgReady then .id x else .retry

/-- A BAR register: the low half of a 64-bit memory BAR holds its type, 64-bit in bit 2 and prefetchable in bit 3, below the address. -/
def barLow (base : Nat) (prefetchable : Bool) : Nat := base % 2 ^ 32 + b2n prefetchable 8 + 4

/-- The sizes of BAR0 and BAR2: 32 MiB and 64 GiB (R384). -/
def bar0Bytes : Nat := 2 ^ 25
def bar2Bytes : Nat := 2 ^ 36

/-- BAR0 to BAR5 as configuration space reads them (R384): BAR0 with BAR1 is not prefetchable, BAR2 with BAR3 is, and BAR4 and BAR5 read as
zero. -/
def PciConf.bar (c : PciConf) (k : Nat) : Nat :=
  match k with
  | 0 => barLow c.bar0 false
  | 1 => c.bar0 / 2 ^ 32
  | 2 => barLow c.bar2 true
  | 3 => c.bar2 / 2 ^ 32
  | _ => 0

/-- What a port supports, the same at all times (R382): one function, payload and read request sizes in bytes, tag and PASID bits,
outstanding non-posted requests, IDE streams of both kinds, DOE mailboxes and MSI-X vectors. -/
structure PortCaps where
  functions : Nat := 1
  payload : Nat := 512
  readRequest : Nat := 4096
  tagBits : Nat := 14
  outstanding : Nat := 768
  pasidBits : Nat := 20
  linkIde : Nat := 1
  selectiveIde : Nat := 2
  doe : Nat := 1
  vectors : Nat := 64
  deriving DecidableEq, Repr

/-- The power state and No_Soft_Reset as power management reads them: 0 for D0 or 3 for D3hot in bits [1:0], and No_Soft_Reset, bit 3,
reads 0 (R383). -/
def PortSt.pmState (q : PortSt) : Nat := if q.d3 then 3 else 0

/-- What a port's configuration space holds while it answers: its BARs, its AER bits, its ASPM enable and its power state. -/
structure CfgSpace where
  bars : List Nat
  caStatus : Bool
  caFatal : Bool
  aspmL1 : Bool
  pm : Nat
  caps : PortCaps
  deriving DecidableEq, Repr

/-- The configuration space of a port beside its identification, while it answers (R80, R89, R382 to R384). -/
def State.configSpace (s : State) (p : Port) : Option CfgSpace :=
  let q := s.port p
  match s.configAnswer p with
  | .id _ => some { bars := (List.range 6).map q.conf.bar, caStatus := q.conf.caStatus, caFatal := q.conf.caFatal, aspmL1 := q.conf.aspmL1,
                    pm := q.pmState, caps := {} }
  | _ => none

/-- A warm reset was commanded, also one that waits for the end of a switch of source, and CONTROL has not set since (R389). -/
def State.warmGated (s : State) : Bool := s.boot.warm || s.clk.warmWaits

/-- A port's registers outside the essentials page, the port block and the MSI-X structures answer: not from the command of a warm reset
until CONTROL sets (R389). -/
def State.regOk (s : State) (p : Port) : Bool := s.essOk p && !s.warmGated

end Sys2Proof.Machine
end

