-- ==== Sys2Proof/Machine/Clocks.lean ====
section
/-! DEFINITION. Reference selection, limp, SYSREF and the frequency-measuring counter (R65 to R75). -/

namespace Sys2Proof.Machine

/-! ### Switching the source (R65 to R67) -/

/-- Sticky bits of CLK_STATUS set on both ports (R70): 1 SOURCE_SWITCHED, 2 CRYSTAL_FAILED, 4 SYSREF_LOST. -/
def State.stick (s : State) (b : BitVec 3) : State := s.onPorts fun s p => s.modPort p fun q => { q with clkSticky := q.clkSticky ||| b }

/-- A module event to both hosts and over MCTP. -/
def State.announce (s : State) (code : Nat) : State :=
  (s.moduleEvents code 0).mctpEvent code

/-- A quire link is taken down: what waits on it is lost, and its bit clears. -/
def Link.down (x : Link) : Link := { x with st := .down, encrypted := false, retry := [], waiting := [], used := [], owed := [] }

/-- A DOWN link is removed from every forward entry that names it (R425). -/
def State.unroute (s : State) (k : Nat) : State :=
  { s with route := s.route.map fun r =>
      { r with forwards := r.forwards.map fun f => (f.1, if bit f.2 k then f.2 - 2 ^ k else f.2) } }

/-- What limp does besides the replays (R67): quire links down, spanning jobs stopped with LINK_LOST, and a port
running SRIS from the crystal loses its link. -/
def State.enterLimp (s : State) : State :=
  let up := (List.range 24).filter fun k => match (s.link k).st with
    | .off => false
    | _ => true
  let s := s.each up fun s k => ((s.modLink k Link.down).unroute k).setReady (bitLink k) false
  let s := s.each s.runningJobs fun s j =>
    if ((s.job j).bind Job.span).isSome then s.stopJob j { code := 0x0602, res := { res := .linkLane } } else s
  State.noteRefs (s.onPorts fun s p =>
    if s.refclk p ∨ !(s.port p).linkUp then s
    else ((s.portReset p).endSecure p).modPort p PortSt.unlinked)

/-- Links that limp took down train again once it ends (R419).
DEDUCED, unsafe (assumption 95). -/
def State.trainLinks (s : State) : State :=
  { s with links := s.links.map fun (c : Nat × Link) => (c.1, if c.2.st == .down then { c.2 with st := .training } else c.2) }

/-- A switch of source (R65, R66): every running job takes a TRANSIENT fault, the dividers ramp, and the stacks
enter self-refresh. -/
def State.switchTo (s : State) (src : Source) : State :=
  let s := if s.limp then s.trainLinks else s
  let s := if s.clk.switching = .none then s.each (List.range 4) fun s m => s.modMill m fun x => { x with before := x.divK } else s
  let s := State.restStacks { s with clk := { s.clk with source := src, switching := .ramping } }
  let s := (s.stick 1).announce 0x0504
  let s := if src = .oscillator then (s.announce 0x0705).enterLimp else s
  s.each s.runningJobs fun s j => s.beginReplay j { contained := false, code := 0x0504, res := {}, detail := 0, tag := 0 }

/-- The monitor declares a reference failed (R65): where it is the active one, the next source is selected in the order SYSREF if
qualified and used, crystal, oscillator; a SYSREF that is not the source is disqualified (R69). The oscillator is the last source,
and a failed reference does not fail again (R75). A crystal that fails while SYSREF is the source leaves the links of SRIS ports as they are
(R32, R63, R67).
DESIGN CHOICE, unsafe (assumption 168). -/
def State.refFail (s : State) (ref : Source) : State :=
  match ref with
  | .oscillator => s
  | .crystal =>
    if !s.clk.crystalOk then s else
    let s := State.stick { s with clk := { s.clk with crystalOk := false } } 2
    if s.clk.source = .crystal then s.switchTo (if s.clk.sysrefQualified ∧ s.clk.sysrefUse then .sysref else .oscillator) else s
  | .sysref =>
    if !s.clk.sysrefQualified then s else
    let s := State.stick { s with clk := { s.clk with sysrefQualified := false } } 4
    if s.clk.source = .sysref then s.switchTo (if s.clk.crystalOk then .crystal else .oscillator) else s

/-- CLOCK_MONITOR_WINDOW (R65, R69). -/
def execClockMonitorWindow (count : Nat) (s : State) (ref : Source := .crystal) : Outcome :=
  if s.live ∧ ¬(940 ≤ count ∧ count ≤ 1060) then .next (s.refFail ref) else .next s

/-- A reference has stopped. -/
def State.refStops (s : State) (ref : Source) : State :=
  let s := match ref with
    | .crystal => { s with clk := { s.clk with crystalStopped := true } }
    | .sysref => { s with clk := { s.clk with sysrefStopped := true } }
    | .oscillator => s
  (s.refFail ref).noteRefs

/-- REFERENCE_EDGE_TIMEOUT (R65, R69). -/
def execReferenceEdgeTimeout (s : State) (ref : Source := .crystal) : Outcome := if s.live then .next (s.refStops ref) else .next s

/-- The source that the module would move to (R65, R68): none where it already uses the best one. -/
def State.better (s : State) : Option Source :=
  let best : Source := if s.clk.sysrefQualified ∧ s.clk.sysrefUse then .sysref else if s.clk.crystalOk then .crystal else .oscillator
  if best = s.clk.source then none else some best

/-- The move to a better source (R68), not while a switch is under way. -/
def State.reselect (s : State) : State :=
  match s.better with
  | none => s
  | some src => if s.clk.switching = .none then s.switchTo src else s

/-- The move at a moment when no job exists (R68). -/
def State.reselectIdle (s : State) : State := if s.jobNums.isEmpty ∧ s.live then s.reselect else s

/-- PLL_RELOCK (R66): once the dividers stand at half rate the PLLs relock; the dividers then ramp to their ratios on the new source,
and the stacks leave self-refresh. -/
def execPllRelock (s : State) : Outcome :=
  if s.live ∧ s.clk.switching = .ramping ∧ s.atTargets then
    .next { s with clk := { s.clk with switching := .relocked },
                   hbms := s.hbms.map (fun (c : Nat × Stack) => (c.1, if c.2.st == 2 then { c.2 with st := 0 } else c.2)) }
  else .next s

/-- SYSREF_QUALIFIED (R69): with no job it becomes the source at once (R68).
DESIGN CHOICE, safe (assumption 157). -/
def execSysrefQualified (s : State) : Outcome :=
  if s.live ∧ s.boot.fusesSensed then .next (State.reselectIdle { s with clk := { s.clk with sysrefQualified := true, sysrefStopped := false } }) else .next s

/-- CRYSTAL_RECOVERED (R68). -/
def execCrystalRecovered (s : State) : Outcome :=
  if s.live then .next (State.reselectIdle { s with clk := { s.clk with crystalOk := true, crystalStopped := false } }) else .next s

/-! ### The frequency-measuring counter (R73, R74) -/

/-- A clock code is assigned (R74). -/
def clockCode (c : Nat) : Bool :=
  c ≤ 4 || (8 ≤ c && c ≤ 0x0D) || (0x10 ≤ c && c ≤ 0x1B) || (0x20 ≤ c && c ≤ 0x39)

/-- The low 16 bits of FMC_CTRL. -/
def Fmc.ctrl (f : Fmc) : Nat := b2n f.start 32768 + f.windowExp * 4096 + f.targetSel * 64 + f.refSel

/-- The measurement of a port waits for a reference that has stopped, now or before, so only a new START ends it (R74). -/
def State.fmcHangs (s : State) (p : Port) : Bool := (s.port p).fmc.hung || s.clockStopped (s.port p).fmc.refSel

/-- A write of FMC_CTRL (R73): START begins a measurement, which an unassigned code prevents; during a measurement
a START is ignored, but for one whose reference has stopped (R74). The block is gated while a warm reset runs (R389).
DESIGN CHOICE, unsafe (assumption 139). -/
def State.fmcWrite (s : State) (p : Port) (v : Reg) : State :=
  let free := !(s.port p).fmc.start || s.fmcHangs p
  s.modPort p fun q =>
    let f := q.fmc
    let w := masked f.ctrl v
    let f' := { f with windowExp := bits w 14 12, targetSel := bits w 11 6, refSel := bits w 5 0 }
    if bit v.toNat 31 ∧ bit v.toNat 15 ∧ free then
      if clockCode f'.targetSel ∧ clockCode f'.refSel then
        { q with fmc := { f' with start := true, hung := false, valid := false, targetStopped := false, selInvalid := false, count := 0 } }
      else { q with fmc := { f' with start := false, hung := false, valid := false, targetStopped := false, selInvalid := true, count := 0 } }
    else { q with fmc := f' }

/-- FMC_START (R73). -/
def execFmcStart (p : Port) (v : Reg) (s : State) : Outcome :=
  if s.regOk p then .next (s.fmcWrite p v) else .next s

/-- FMC_DONE (R73): the result of the window, or of a stopped target. A window whose reference has stopped does not end (R74). -/
def execFmcDone (p : Port) (count : Nat) (stopped : Bool) (s : State) : Outcome :=
  if s.live ∧ (s.port p).fmc.start ∧ !s.fmcHangs p then
    .next (s.modPort p fun q =>
      { q with fmc := { q.fmc with start := false, valid := true, targetStopped := stopped, count := if stopped then 0 else count % 2 ^ 29 } })
  else .next s

end Sys2Proof.Machine
end

