-- ==== Sys2Proof/Machine/Bringup.lean ====
section
/-! DEFINITION. The warm module reset, the essentials writes and bring-up (R76 to R79, R88 to R94, R394 to R397). -/

namespace Sys2Proof.Machine

/-! ### The warm module reset (R77, R79) -/

/-- Bits that a warm reset keeps. -/
def keptBits : BitVec 64 := 0xE

/-- A mill's test state after a warm reset: a test under way is abandoned (R86), and a spare that stood in is free. -/
def STest.warm (t : STest) : STest :=
  { t with spare := if t.spare = 1 then 0 else t.spare, under := [], queue := [] }

/-- Links retrain on their kept routes (R79, R419). -/
def Link.warm (x : Link) : Link :=
  match x.st with
  | .up | .recal => { x with st := .retrain }
  | _ => x

/-- A former master rejoins as a follower of the backup (R434). -/
def State.warmRole (s : State) : TickGroup :=
  match s.route with
  | none => {}
  | some r => if s.tickGroup.role = 1 ∧ r.backup ≠ 0xFF then { role := 2, master := r.backup } else s.tickGroup

/-- A stack that a warm reset fills (R79, R360). -/
def Stack.refilled (x : Stack) : Stack :=
  if x.st = 3 then x else { x with st := 0, migrating := [], moved := [], slowCopy := [], retraining := none, due := [], filling := true }

/-- The warm module reset: jobs and memory go, the ready bitmap falls to the ports and SECURITY, vector 0 of
each port fires, the firmware restarts, the ream restarts with the length that waited (R117), and the reference is selected again, since no job exists.
DEDUCED, unsafe (assumption 85); DESIGN CHOICE, unsafe (assumption 172). -/
def State.warmReset (s : State) : State :=
  let s := s.each s.jobNums fun s j =>
    match (s.job j).bind Job.span with
    | none => s
    | some i => s.spanSend i clsControl kindStop (le 2 0x0703)
  let reset (q : PortSt) : PortSt :=
    { q with rings := [], ev := {}, wins := [], armed := 0, snapBusy := false, snapRing := none, atsReqs := [], pageReqs := [], pageWait := [],
             xcRace := 0 }
  let s := { s with
    jobs := [], cores := [], sram := [], hbm := [], hbmTag := [], units := [], headboxes := s.headboxes.map (fun (c : Nat × Headbox) => (c.1, { c.2 with streams := [], staging := [], served := [], dir := [] }))
    groups := s.groups.map (fun (c : Nat × Group) =>
      (c.1, if c.2.st == GroupSt.retired then c.2 else { st := .off, spare := c.2.spare }))
    mills := s.mills.map (fun (c : Nat × Mill) => (c.1, { c.2 with ramped := false }))
    hbms := (List.range 12).map fun k => (k, (s.stack k).refilled)
    ctr := [], ream := [], sheetInReam := 0, boundary := none, reamLen := s.reamNext, pcStorm := [], pcTag := [], ingest := none, ingestQ := [], passes := [], building := [], tableUnits := []
    spans := [], links := s.links.map (fun (c : Nat × Link) => (c.1, c.2.warm)), tickGroup := s.warmRole
    stests := s.stests.map (fun (c : Nat × STest) => (c.1, c.2.warm)), modTest := none
    sec := { s.sec with update := none, token := none, attestQ := [] }
    boot := { s.boot with warm := true }
    portA := reset s.portA, portB := reset s.portB
    ready := s.ready &&& keptBits }
  (((s.readyChanged.noteCause 0x0702).raise .a 0).raise .b 0).reselectIdle

/-- The warm reset, or its wait for the end of a switch of source (R87). -/
def State.startWarm (s : State) : State :=
  if s.clk.switching = .none then s.warmReset else { s with clk := { s.clk with warmWaits := true } }

/-! ### The essentials page (R394 to R397) -/

/-- A write of ESS_ARM (R396). -/
def State.essArm (s : State) (p : Port) (v : Reg) : State :=
  if !s.essOk p then s
  else if p ≠ s.adminPort then s.logErr p 0x030 0 true 6
  else
    let nn := v.toNat % 256
    if v.toNat / 256 = 0xA55A00 ∧ 1 ≤ nn ∧ nn ≤ 3 then s.modPort p fun q => { q with armed := nn }
    else s.logErr p 0x030 0 true 7

/-- A write of ESS_GO (R396): it disarms, and performs the armed action or is logged. -/
def State.essGo (s : State) (p : Port) (v : Reg) : State :=
  if !s.essOk p then s
  else if p ≠ s.adminPort then s.logErr p 0x034 0 true 6
  else
    let nn := v.toNat % 256
    let a := (s.port p).armed
    let s := s.modPort p fun q => { q with armed := 0 }
    if v.toNat / 256 ≠ 0x5AA500 ∨ a = 0 ∨ a ≠ nn then s.logErr p 0x034 0 true 7
    else if nn = 1 then s.startWarm
    else if nn = 2 then s.freezeNow
    else s.safeShutdown

/-- WARM_RESET (R79, R396). -/
def execWarmReset (p : Port) (v : Reg) (s : State) : Outcome := .next (s.essGo p v)
/-- ESS_FREEZE (R396, R481). -/
def execEssFreeze (p : Port) (v : Reg) (s : State) : Outcome := .next (s.essGo p v)
/-- ESS_POWER_DOWN (R396, R58). -/
def execEssPowerDown (p : Port) (v : Reg) (s : State) : Outcome := .next (s.essGo p v)
/-- ESS_ARM (R396). -/
def execEssArm (p : Port) (v : Reg) (s : State) : Outcome := .next (s.essArm p v)

/-- ESS_ARM_LAPSE (R396): nothing is armed any more, so a later GO is logged. -/
def execEssArmLapse (p : Port) (s : State) : Outcome :=
  .next (if s.live then s.modPort p fun q => { q with armed := 0 } else s)

/-- A write of ESS_KILL (R394, R397). -/
def State.essKill (s : State) (p : Port) (v : Reg) : State :=
  if !s.essOk p then s
  else if v = 0x4B4C then s.each (s.portJobs p) fun s j => s.endJob j 0x0704 none
  else s.logErr p 0x020 0 true 7

/-- ESS_KILL (R397). -/
def execEssKill (p : Port) (v : Reg) (s : State) : Outcome := .next (s.essKill p v)

/-- A write of ESS_FLR (R394, R397). -/
def State.essFlr (s : State) (p : Port) (v : Reg) : State :=
  if !s.essOk p then s else if v = 0x464C then s.flrNow p else s.logErr p 0x024 0 true 7

/-- ESS_FLR (R397). -/
def execEssFlr (p : Port) (v : Reg) (s : State) : Outcome := .next (s.essFlr p v)

/-- HEARTBEAT (R394). -/
def execHeartbeat (s : State) : Outcome :=
  if s.live ∧ s.isReady bitControl then .next { s with boot := { s.boot with heartbeat := s.boot.heartbeat + 1, hbAge := 0 } }
  else .next s

/-- HB_STALE (R395): HB_AGE has reached `us`, and saturates. -/
def execHbStale (us : Nat) (s : State) : Outcome :=
  if s.live then .next { s with boot := { s.boot with hbAge := BitVec.ofNat 32 (min 0xFFFFFFFF us) } } else .next s

/-! ### Bring-up (R88, R94) -/

/-- FUSES_SENSED (R88): the grade and the administrative port are known. -/
def execFusesSensed (s : State) : Outcome :=
  if s.live then .next { s with boot := { s.boot with fusesSensed := true }, adminPort := s.sec.fuses.admin } else .next s

/-- An invalid EEPROM field is logged (R69, R94, R477).
DEDUCED, unsafe (assumption 121). -/
def State.fieldInvalid (s : State) (off : Nat) : State :=
  (s.failRec 0x0708 5 off).errRec { code := 0x0708, res := 0x0C, cls := 7, index := off }

/-- EEPROM_FIELDS_READ (R69, R88, R94): an invalid or unreadable field takes its default, and a SYSREF qualified before becomes
the source. A SYSREF_CFG with a reserved bit set is an invalid field, and SYSREF is then ignored.
DESIGN CHOICE, unsafe (assumption 170). -/
def execEepromFieldsRead (readable : Bool) (s : State) : Outcome :=
  if !s.live ∨ !s.boot.fusesSensed ∨ s.boot.eepromRead then .next s else
  let cfg := (s.eeprom.get 0x40).toNat
  let dly := (s.eeprom.get 0x41).toNat
  let cap := leVal (s.eeprom.read 0x42 2)
  let okCfg := readable && cfg < 2
  let okDly := readable && dly ≤ 0x80
  let okCap := readable && (cap == 0 || capOk cap)
  let s := { s with
    boot := { s.boot with eepromRead := true }
    clk := { s.clk with sysrefUse := okCfg && cfg == 1, sysrefDelay := if okDly && dly != 0 then dly else 20,
                        integratorCap := if okCap && cap != 0 then cap else 1000 } }
  let s := if okCfg then s else s.fieldInvalid 0x40
  let s := if okDly then s else s.fieldInvalid 0x41
  .next (if okCap then s else s.fieldInvalid 0x42).reselectIdle

/-- CONFIG_SPACE_READY (R88, R89): the port presents its identification (R48). -/
def execConfigSpaceReady (p : Port) (s : State) : Outcome :=
  if !s.live ∨ !s.perst p then .next s
  else .next ((s.modPort p fun q => { q with cfgReady := true, pci := some s.grade.pciId }).portCheck p)

/-- A bank group that fails its built-in self-test: a spare takes its number, or it is RETIRED (R303). -/
def State.badGroup (s : State) (m g : Nat) : State :=
  let x := 128 * m + g
  let used := Tbl.get 0 s.sparesUsed m
  let s := (s.failRec 0x0270 4 x).retireRec 2 x
  if used < 2 then
    State.modGroup { s with sparesUsed := Tbl.set s.sparesUsed m (used + 1) } x fun y => { y with spare := true }
  else s.modGroup x fun y => { y with st := .retired, owner := 0 }

/-- MILL_SRAM_READY (R88, R303): groups tested and wiped are FREE, and the mill may ramp. -/
def execMillSramReady (m : Nat) (badGroups : List Nat) (s : State) : Outcome :=
  if !s.live ∨ !s.boot.fusesSensed ∨ 4 ≤ m ∨ s.isReady (bitSram m) then .next s else
  let s := s.each (badGroups.filter fun g => g < 128 && (s.group (128 * m + g)).st != .retired) fun s g => s.badGroup m g
  let s := s.each (List.range 128) fun s g => s.modGroup (128 * m + g) fun y => if y.st = .retired then y else { y with st := .free, owner := 0 }
  .next ((s.modMill m fun y => { y with ramped := true }).setReady (bitSram m) true)

/-- The logical place `i` of a mill has a core: its slot, or the spare that replaced it (R3, R91). -/
def State.hasCore (s : State) (m i : Nat) : Bool :=
  i < s.grade.coresPerMill && (!(s.stest m).retiredSlots.contains i || (s.stest m).spareFor == some i)

/-- The logical cores of a mill in service. -/
def State.usableCores (s : State) (m : Nat) : List Nat :=
  ((List.range s.grade.coresPerMill).filter (s.hasCore m)).map fun i => m * s.grade.coresPerMill + i

/-- A slot retired: slot 16 is the spare itself; another slot's logical core is taken by a spare that is free or
stands in for a test (R471, R475). -/
def STest.retire (t : STest) (slot : Nat) : STest :=
  if t.retiredSlots.contains slot then t
  else if slot = 16 then { t with spare := 3, retiredSlots := 16 :: t.retiredSlots }
  else if t.spare < 2 then { t with spare := 2, spareFor := some slot, retiredSlots := slot :: t.retiredSlots }
  else { t with retiredSlots := slot :: t.retiredSlots }

/-- MILL_CORES_READY (R88, R91, R94): failed slots are retired, the spare is mapped, and the bit sets when a core is usable. -/
def execMillCoresReady (m : Nat) (badSlots : List Nat) (s : State) : Outcome :=
  if !s.live ∨ !s.isReady bitControl ∨ 4 ≤ m ∨ s.isReady (bitCores m) ∨ s.boot.safe then .next s else
  let bad := badSlots.filter fun k => (k < s.grade.coresPerMill || k == 16) && !(s.stest m).retiredSlots.contains k
  let bad := bad.filter (· == 16) ++ bad.filter (· != 16)
  let s := s.each bad fun s k => ((s.failRec 0x0270 3 (17 * m + k)).retireRec 1 (s.slotIndex m k)).modStest m fun t => t.retire k
  .next (if (s.usableCores m).isEmpty then s else s.setReady (bitCores m) true)

/-- The pseudo-channels that training cannot repair: more than two failed data lanes, or a channel with more than one failed
command/address lane (R354). -/
def unrepaired (data cmd : List (Nat × Nat)) : List Nat :=
  (List.range 64).filter fun c => decide (2 < Tbl.get 0 data c) || decide (1 < Tbl.get 0 cmd (c / 2))

/-- The spare lanes that training switches in: of the pseudo-channels and of the channels that it repairs. -/
def Stack.trained (x : Stack) (bad : List Nat) (data cmd : List (Nat × Nat)) : Stack :=
  { x with dataSpares := ((List.range 64).filter fun c => !bad.contains c && Tbl.get 0 data c != 0).map fun c => (c, Tbl.get 0 data c),
           cmdSpares := ((List.range 32).filter fun h => Tbl.get 0 cmd h == 1).map fun h => (h, 1) }

/-- HBM_READY (R88, R354): failed lanes are replaced by spares and what they cannot repair is retired; a stack with more than two
pseudo-channels to retire, or that does not train, is retired. -/
def execHbmReady (st : Nat) (trained : Bool) (data cmd : List (Nat × Nat)) (s : State) : Outcome :=
  if !s.live ∨ 12 ≤ st ∨ (s.stack st).st ≠ 0 then .next s else
  let bad := ((s.stack st).retired ++ unrepaired data cmd).dedup
  if !trained ∨ 2 < bad.length then .next ((s.failRec 0x0270 2 st).retireStack st)
  else
    let s := s.each (bad.filter fun c => !(s.stack st).retired.contains c) fun s c => s.retireRec 3 (64 * st + c)
    .next ((s.modStack st fun x =>
      { x.trained bad data cmd with st := 1, retired := bad, rate := s.pinRate, filling := false, trainedAt := none, trainTemp := [] }).setReady
      (bitHbm st) true)

/-- LIMP_QUIESCE_COMPLETE (R66): the switch ends; the stacks run at the new rate, paused releases resume, thermal actions that
waited are taken (R75), every job replays from the next tick, a warm reset that waited takes effect (R87), and with no job the
source is looked at again. -/
def execLimpQuiesceComplete (s : State) : Outcome :=
  if !s.live ∨ s.clk.switching ≠ .relocked ∨ !s.atTargets then .next s else
  let s := State.thermal { s with clk := { s.clk with switching := .none } }
  let s := { s with hbms := s.hbms.map (fun (c : Nat × Stack) =>
    (c.1, if c.2.st == 0 && s.isReady (bitHbm c.1) then
      { c.2 with st := 1, rate := s.pinRate, trainedAt := some c.2.temp, trainTemp := [], due := [], retraining := none } else c.2)) }
  let s := s.each s.runningJobs fun s j =>
    match (s.job j).bind Job.quiesce with
    | none => s
    | some q => if q.code = 0x0504 then s.quiesceDone j else s
  let s := s.reselectIdle
  .next (if s.clk.warmWaits ∧ s.clk.switching = .none then State.warmReset { s with clk := { s.clk with warmWaits := false } } else s)

/-- FIRMWARE_RESTARTED (R79): the verified firmware runs again from its SRAM. -/
def execFirmwareRestarted (s : State) : Outcome :=
  if s.live ∧ s.boot.warm ∧ s.sec.running.isSome then .next s.controlUp
  else .next s

end Sys2Proof.Machine
end

