-- ==== Sys2Proof/Machine/Retire.lean ====
section
/-! DEFINITION. Engine checks and the retirement of cores in operation (R111, R471, R475). -/

namespace Sys2Proof.Machine

/-- The place of a logical core in its mill (R3). -/
def State.placeOf (s : State) (n : Nat) : Nat := n % s.grade.coresPerMill

/-- The physical slot that serves a logical core: its own, or the spare that replaced it, or what stands in for it in a test (R3, R470,
R472). -/
def State.slotOf (s : State) (n : Nat) : Nat :=
  let t := s.stest (s.millOf n)
  let i := s.placeOf n
  if t.spareFor = some i then 16
  else match t.under.find? fun u => u.scanning && u.core == some n with
    | none => i
    | some u => if u.spare then 16 else (u.standIn.map s.placeOf).getD i

/-- A fault of a core's job that names the core (R110). -/
def State.coreFault (s : State) (n : Nat) (contained : Bool) (code : Nat) : State :=
  s.beginReplay (s.core n).job { contained := contained, code := code, res := { res := .core, index := n }, detail := 0, tag := 0 }

/-- An online test of a mill is cut short by the retirement of core `n` (R475): the tested slot takes its logical
number back, and that core's job replays. A test asked for by a command waits again.
DESIGN CHOICE, unsafe (assumption 42). -/
def State.cutTest (s : State) (m n : Nat) : State :=
  match (s.stest m).under.find? SlotTest.spare with
  | none => s
  | some u =>
    let s := s.modStest m fun t =>
      { t with under := t.under.erase u, spare := if t.spare = 1 then 0 else t.spare,
               queue := (match u.asker, u.core with | some (p, r), some c => [(c, false, p, r)] | _, _ => []) ++ t.queue }
    match u.core with
    | none => s
    | some c => if u.scanning ∧ c ≠ n then s.coreFault c true 0x0511 else s

/-- A mill without a usable core is not ready (R91). -/
def State.millCheck (s : State) (m : Nat) : State :=
  if (s.usableCores m).isEmpty then s.setReady (bitCores m) false else s

/-- A core retired in operation (R111, R304): the spare takes its number and its job replays, or no spare is left and
the job stops.
DEDUCED, unsafe (assumption 41). -/
def State.retireCore (s : State) (n : Nat) : State :=
  let m := s.millOf n
  let i := s.placeOf n
  let s := s.cutTest m n
  let t := s.stest m
  if t.spareFor = some i then
    ((((s.retired 0x0603 1 n).modStest m fun t => { t.retire 16 with spareFor := none }).millCheck m).stopJob (s.core n).job
      { code := 0x0603, core := n, res := { res := .core, index := n } })
  else if t.spare < 2 then ((s.retired 0x0511 1 n).modStest m fun t => t.retire i).coreFault n true 0x0511
  else (((s.retired 0x0603 1 n).modStest m fun t => t.retire i).millCheck m).stopJob (s.core n).job
      { code := 0x0603, core := n, res := { res := .core, index := n } }

/-- A failed check of an engine of a core (R251): the job replays; the same check twice within 16 sheets retires the
core (R111).
DEDUCED, unsafe (assumption 41). -/
def State.datapathCheck (s : State) (n : Nat) : State :=
  match (s.core n).lastCheck with
  | some t => if s.now < t + 16 then s.retireCore n else (s.modCore n fun c => { c with lastCheck := some s.now }).coreFault n false 0x0505
  | none => (s.modCore n fun c => { c with lastCheck := some s.now }).coreFault n false 0x0505

/-- The resource of a record that a place of storage names (R415). -/
def stormRes : StormRes → ResIx
  | .group m g => { res := .bankGroup, index := 128 * m + g }
  | .pc p => { res := .pseudoChannel, index := p }

/-- An engine's check of an operation that touches this memory: a read of other memory is none of it. -/
def checkOf (e : EngCheck) (m : Touched) : EngCheck :=
  match e with
  | .read h _ y => if y = .good ∨ !m.handles.contains h then .good else e
  | e => e

/-- What an engine's check asks for: nothing, or a fault of the core's job, classed by the state of the data whose read failed
(R110, R251, R288). -/
def State.engineCheck (s : State) (n slot bundle : Nat) (m : Touched) (e : EngCheck) : State :=
  match checkOf e m with
  | .good => s
  | .datapath => s.datapathCheck n
  | .storage => s.coreFault n false 0x0501
  | .read h off y => s.lateFault (s.core n).job h off m.wet y n slot bundle

/-- A write of part of a word or sector whose read of the rest failed does not take place (R111). -/
def State.unwrite (s : State) (j : Nat) (m : Touched) (e : EngCheck) : State :=
  match checkOf e m with
  | .read h off y =>
    let z := if (s.job j).any (fun x => (x.handle h).space == spHbm) then 64 else 8
    let u := (off + readAt y) / z
    if m.old.any fun c => c.1 == h && c.2.1 / z ≤ u && u ≤ (c.2.1 + c.2.2.length - 1) / z then
      s.each m.old fun s c => s.store j c.1 c.2.1 c.2.2
    else s
  | _ => s

end Sys2Proof.Machine
end

