-- ==== Sys2Proof/Machine/Flags.lean ====
section
/-! DEFINITION. Exception status: the history of an element, the status word and the sticky register (R240, R245 to
R248, R285, R286). -/

namespace Sys2Proof.Machine

/-! ### The history of an element -/

/-- An event: the first one is the element's cause, and an overflow is remembered (R245, R246). -/
def Hist.add (h : Hist) (cause k : Nat) (epi : Bool) : Hist :=
  let h := if h.cause = 0 then { h with cause := cause, k := k, epi := epi } else h
  { h with ovf := h.ovf || cause == evOverflow }

/-- A value that the history produced: infinities and NaN are remembered. -/
def Hist.see (h : Hist) (v : FVal) : Hist := { h with inf := h.inf || v.isInf, nan := h.nan || v.isNan }

/-- One history after another. -/
def Hist.then (a b : Hist) : Hist :=
  let h := if a.cause = 0 then b else a
  { h with ovf := a.ovf || b.ovf, inf := a.inf || b.inf, nan := a.nan || b.nan }

/-- The element is affected (R246). -/
def Hist.affected (h : Hist) : Bool := h.cause != 0

/-- The events of an operation of the vector engine, in their order (R285): inputs and results. -/
def Hist.ofEvents (es : List Nat) : Hist := es.foldl (fun h e => h.add e 0xFFFFFF false) {}

/-! ### The status word (R245) -/

/-- The word of an operation that affected no element. -/
def emptyStatus : Word := 0xFFFFFF0000000000

/-- The status word of the histories of a tile, in row-major order. -/
def statusWord (traced : Bool) (hs : List Hist) : Word :=
  match hs.findIdx? Hist.affected with
  | none => emptyStatus
  | some i =>
    let h := hs.getD i {}
    let a := hs.filter Hist.affected
    let k := if traced && !h.epi then min h.k 0xFFFFFE else 0xFFFFFF
    BitVec.ofNat 64
      (k * 2 ^ 40 + b2n traced (2 ^ 39) + b2n h.epi (2 ^ 38) + h.cause * 2 ^ 35 + a.length * 2 ^ 24 +
        b2n (a.any Hist.ovf) (2 ^ 18) + b2n (a.any Hist.inf) (2 ^ 17) + b2n (a.any Hist.nan) (2 ^ 16) + i)

/-- The elements affected that a word names. -/
def affectedOf (w : Word) : Nat := (w.extractLsb' 24 11).toNat

/-! ### The sticky exception register (R247, R286) -/

/-- A drain or vector operation ends with a status word: the first affected one of the sheet in program order keeps
the register. -/
def CoreSt.noteStatus (c : CoreSt) (stamp unit bundle : Nat) (w : Word) : CoreSt :=
  if affectedOf w = 0 then c
  else
    let e : ExcReg := { stamp := stamp, unit := unit, bundle := bundle, word := w }
    { c with excCount := c.excCount + 1,
             exc := match c.exc with
               | none => some e
               | some x => if stamp < x.stamp then some e else some x }

/-- A status word written to the register that an operation names. -/
def CoreSt.writeStatus (c : CoreSt) (r : Option SReg) (w : Word) : CoreSt :=
  match r with
  | none => c
  | some x => c.setS x w

/-! ### Events of float arithmetic (R240) -/

/-- The event of a product: an input NaN, zero times infinity, an infinity. -/
def mulEvent (x y : FVal) : Nat :=
  if x.isNan ∨ y.isNan then evNan
  else if x.isInf ∧ y.isZero ∨ x.isZero ∧ y.isInf then evZeroInf
  else if x.isInf ∨ y.isInf then evInf
  else 0

/-- The event of a sum of opposite infinities. -/
def addEvent : FVal → FVal → Nat
  | .inf a, .inf b => if a = b then 0 else evInfInf
  | _, _ => 0

/-- An event added, where it is one. -/
def Hist.note (h : Hist) (cause k : Nat) (epi : Bool) : Hist := if cause = 0 then h else h.add cause k epi

/-- A value rounded to a format, with its OVERFLOW event and what it produced. -/
def roundNote (p : FSpec) (k : Nat) (epi : Bool) (v : FVal) (h : Hist) : FVal × Hist :=
  let r := p.round v
  (r.1, (if r.2 then h.add evOverflow k epi else h).see r.1)

end Sys2Proof.Machine
end

