-- ==== Sys2Proof/Machine/Operands.lean ====
section
/-! DEFINITION. Operand forms: tile elements, broadcasts, prime selectors, the scale, masks and the parameters of
activations (R227, R233, R242, R243, R276 to R278, R284). -/

namespace Sys2Proof.Machine

/-! ### Elements -/

/-- The field of an element in a container (R257). -/
def fieldOf (f : Fmt) (c : BitVec 36) : Nat := c.toNat % 2 ^ fmtWidth f

/-- The row and the column of an element. -/
def rowOf (i : Nat) : Nat := i / 32
def colOf (i : Nat) : Nat := i % 32

/-- The field that a data operand gives to element `i` (R276). -/
def CoreSt.elem (c : CoreSt) (f : Fmt) (x : VSrc) (i : Nat) : Nat :=
  match x with
  | .tile t => fieldOf f (tileAt (c.t t) i)
  | .rowBcast t => fieldOf f (tileAt (c.t t) (32 * rowOf i))
  | .colBcast t => fieldOf f (tileAt (c.t t) (colOf i))
  | .scalar r => (c.s r).toNat % 2 ^ fmtWidth f

/-- The register that a data operand reads. -/
def srcRegs : VSrc → List Nat
  | .tile t | .rowBcast t | .colBcast t => [rT t]
  | .scalar r => [rS r]

def srcIsTile : VSrc → Bool
  | .tile _ => true
  | _ => false

/-! ### Prime selectors (R277) -/

/-- The prime index of element `i`. -/
def CoreSt.primeIx (c : CoreSt) (q : PSel) (i : Nat) : Nat :=
  match q with
  | .uniform r => (c.s r).toNat % 256
  | .perCol t => (tileAt (c.t t) (colOf i)).toNat % 256
  | .perRow t => (tileAt (c.t t) (32 * rowOf i)).toNat % 256

def selRegs : PSel → List Nat
  | .uniform r => [rS r]
  | .perCol t | .perRow t => [rT t]

/-- Every index that a selector names lies within the family, masked lines too. -/
def CoreSt.primesOk (c : CoreSt) (f : Family) (q : PSel) : Bool :=
  (List.range 32).all fun i => c.primeIx q (33 * i) < famCount f

/-- The prime of element `i` for a residue format; 1 for another format. -/
def CoreSt.primeAt (c : CoreSt) (f : Fmt) (q : Option PSel) (i : Nat) : Nat :=
  match fmtFamily f, q with
  | some fam, some x => primeOf fam (c.primeIx x i)
  | _, _ => 1

/-! ### The scale σ (R278) -/

/-- The significand and the exponent of a scale, none where it is invalid. -/
def scaleOf (w : Word) : Option (Nat × Int) :=
  let v := w.toNat
  let m : Nat := v % 2 ^ 24
  let u : Nat := v / 2 ^ 32 % 2 ^ 16
  let x : Int := if u < 2 ^ 15 then u else (u : Int) - 2 ^ 16
  if m = 0 ∨ v / 2 ^ 24 % 256 ≠ 0 ∨ v / 2 ^ 48 ≠ 0 ∨ x < -1100 ∨ 1100 < x then none else some (m, x)

/-! ### Masks (R241, R284) -/

/-- The 32 mask bits of a named register; all set where none is named. -/
def CoreSt.maskBits (c : CoreSt) (r : Option SReg) : BitVec 32 :=
  match r with
  | none => BitVec.allOnes 32
  | some x => (c.s x).extractLsb' 0 32

/-- Element `i` is enabled by a row and a column mask. -/
def enabled (row col : BitVec 32) (i : Nat) : Bool := row.getLsbD (rowOf i) && col.getLsbD (colOf i)

/-- Element `i` is enabled by the masks of a vector operation. -/
def CoreSt.on (c : CoreSt) (m : VMask) (i : Nat) : Bool := enabled (c.maskBits m.row) (c.maskBits m.col) i

/-- The operation names no mask, so KEEP applies (R284). -/
def maskZeroes (m : VMask) : Bool := m.zero && (m.row.isSome || m.col.isSome)

def maskRegs (m : VMask) : List Nat := (m.row.map rS).toList ++ (m.col.map rS).toList

/-! ### Activations (R243) -/

/-- The parameters of an activation, as floats or as integers. -/
structure ActPar where
  slope : FVal := .fin false 0 0
  lo : FVal := .fin false 0 0
  hi : FVal := .fin false 0 0
  ilo : Int := 0
  ihi : Int := 0
  deriving DecidableEq, Repr

/-- The value of a scalar register's low half as F32E8 and as S32. -/
def CoreSt.f32 (c : CoreSt) (r : SReg) : FVal := (fSpec .f32e8).decode ((c.s r).toNat % 2 ^ 32)
def CoreSt.i32 (c : CoreSt) (r : SReg) : Int := intRead .s32 ((c.s r).toNat % 2 ^ 32)

def CoreSt.actPar (c : CoreSt) (a : Act) : ActPar :=
  match a with
  | .leaky r => { slope := c.f32 r }
  | .clamp l h => { lo := c.f32 l, hi := c.f32 h, ilo := c.i32 l, ihi := c.i32 h }
  | _ => {}

def actRegs : Act → List Nat
  | .leaky r => [rS r]
  | .clamp l h => [rS l, rS h]
  | _ => []

/-- A CLAMP whose bounds are in the wrong order. -/
def badClamp (a : Act) (p : ActPar) (float : Bool) : Bool :=
  match a with
  | .clamp _ _ => if float then p.hi.less false p.lo else p.ihi < p.ilo
  | _ => false

/-- An activation of a float value: its exact result, and the event that its parameters bring.
DEDUCED, unsafe (assumption 34). -/
def applyAct (a : Act) (p : ActPar) (x : FVal) : FVal × Nat :=
  if x.isNan then (.nan, 0)
  else match a with
  | .none => (x, 0)
  | .relu => (if x.neg? then .fin false 0 0 else x, 0)
  | .leaky _ =>
    if !x.neg? || x.isZero then (x, 0)
    else if p.slope.isNan then (.nan, evNan)
    else if p.slope.isInf then (p.slope.mul x, if x.isInf then 0 else evInf)
    else (p.slope.mul x, if p.slope.isZero ∧ x.isInf then evZeroInf else 0)
  | .clamp _ _ =>
    if p.lo.isNan ∨ p.hi.isNan then (.nan, evNan)
    else
      let y := if x.less true p.lo then p.lo else x
      (if p.hi.less true y then p.hi else y, 0)
  | .gelu => (fnGelu x, 0)
  | .sigmoid => (fnSigmoid x, 0)
  | .tanh => (fnTanh x, 0)
  | .unknown => (x, 0)

/-- An activation of an integer: RELU and CLAMP only. -/
def applyActInt (a : Act) (p : ActPar) (x : Int) : Int :=
  match a with
  | .relu => max x 0
  | .clamp _ _ => min (max x p.ilo) p.ihi
  | _ => x

/-! ### Features of the grade (R225, R227) -/

/-- The FORMAT_MASK bits of the formats, of those named, that the grade lacks. -/
def State.absentFmts (s : State) (fs : List Fmt) : Nat :=
  (fs.map fmtCode).dedup.foldl (fun a c => if bit s.grade.formatMask c then a else a + 2 ^ c) 0

/-- The ENGINE_MASK bits, of those named, that the grade lacks. -/
def State.absentEngines (s : State) (es : List Nat) : Nat :=
  es.dedup.foldl (fun a c => if bit s.grade.engineMask c then a else a + 2 ^ c) 0

/-- An operation that uses formats and engines: it traps where the grade lacks one of them. -/
def State.needs (s : State) (n slot : Nat) (fs : List Fmt) (es : List Nat) (f : OpAct) : OpAct :=
  if s.absentFmts fs = 0 ∧ s.absentEngines es = 0 then f
  else .stop 2 fun t => t.absentFault n slot (s.absentFmts fs) (s.absentEngines es)

def engArray : Nat := 0
def engNtt : Nat := 1
def engVector : Nat := 2
def engKey : Nat := 3
def engLink : Nat := 4
def engTrace : Nat := 5
def engCt : Nat := 6

end Sys2Proof.Machine
end

