-- ==== Sys2Proof/Machine/Tiles.lean ====
section
/-! DEFINITION. Places of elements in leaves, blocked matrices and strided rows, and the tile loads and stores (R308 to
R313). -/

namespace Sys2Proof.Machine

/-! ### Elements by their bit address

Packed formats place elements at bits, so an element's place is a bit address within its handle. -/

/-- The bytes that `w` bits at a bit address lie in: the first, and how many. -/
def bitSpan (b w : Nat) : Nat × Nat := (b / 8, (b + w - 1) / 8 + 1 - b / 8)

/-- `w` bits at a bit address of a handle. -/
def State.loadBits (s : State) (j h b w : Nat) : Nat :=
  let p := bitSpan b w
  leVal (s.load j h p.1 p.2) / 2 ^ (b % 8) % 2 ^ w

/-- `w` bits written at a bit address of a handle, the rest of their bytes kept. -/
def State.storeBits (s : State) (j h b w v : Nat) : State :=
  let p := bitSpan b w
  let old := leVal (s.load j h p.1 p.2)
  let lo := 2 ^ (b % 8)
  let new := old % lo + v % 2 ^ w * lo + old / (lo * 2 ^ w) * (lo * 2 ^ w)
  s.store j h p.1 (le p.2 new)

/-- What stands now where bit runs of a handle cover only part of a 64-bit word, or of a 64-byte sector of HBM: the bytes of those runs (R111). -/
def State.partOld (s : State) (j h : Nat) (runs : List (Nat × Nat)) : List (Nat × Nat × Bytes) :=
  let z := if (s.job j).any (fun x => (x.handle h).space == spHbm) then 512 else 64
  let units (p : Nat × Nat) : List Nat := fromTo (p.1 / z) ((p.1 + p.2 - 1) / z + 1)
  let part := (runs.flatMap units).dedup.filter fun u =>
    let rs := runs.filter fun p => p.1 < z * (u + 1) && z * u < p.1 + p.2
    !((List.range z).all fun b => rs.any fun p => p.1 ≤ z * u + b && z * u + b < p.1 + p.2)
  if part.isEmpty then []
  else (runs.filter fun p => (units p).any part.contains).map fun p =>
    let b := bitSpan p.1 p.2
    (h, b.1, s.load j h b.1 b.2)

/-! ### Layouts (R308 to R312) -/

/-- How the elements of a descriptor lie: one leaf, posts of 2^lpr × 2^lpc leaves, or rows with strides. -/
inductive Layout where
  | leaf | blocked (lpr lpc : Nat) | rows (rs : Int) (cs : Nat)
  deriving DecidableEq, Repr

/-- The unit that offsets and row strides are multiples of (R311): the group of a packed format, else the element. -/
def strideUnit (f : Fmt) : Nat := (fmtGroup f).getD (fmtWidth f / 8)

/-- A quotient rounded up. -/
def ceilDiv (a b : Nat) : Nat := (a + b - 1) / b

/-- The leaf that holds element (r, c) of a blocked matrix of `cols` columns, counted from its origin (R309). -/
def leafIndex (lpr lpc cols r c : Nat) : Nat :=
  let pr := 2 ^ lpr
  let pc := 2 ^ lpc
  let npc := ceilDiv (ceilDiv cols 32) pc
  let i := r / 32
  let j := c / 32
  (i / pr * npc + j / pc) * (pr * pc) + i % pr * pc + j % pc

/-- The bit address of element (r, c), of a matrix of `cols` columns at a byte offset. -/
def elemBit (f : Fmt) (y : Layout) (off cols r c : Nat) : Int :=
  let w := fmtWidth f
  match y with
  | .leaf => 8 * off + w * (32 * r + c)
  | .blocked a b => 8 * (off + leafIndex a b cols r c * leafBytes f) + w * (32 * (r % 32) + c % 32)
  | .rows rs cs => 8 * (off + r * rs) + w * (c * cs)

/-- The least and the greatest row offset of `rows` rows. -/
def rowRange (rs : Int) (rows : Nat) : Int × Int :=
  let z := (rows - 1 : Nat) * rs
  (min 0 z, max 0 z)

/-- The bytes of a matrix, from the lowest element to the end of the highest (R309, R311).
DEDUCED, unsafe (assumption 37). -/
def extentOf (f : Fmt) (y : Layout) (off rows cols : Nat) : Int × Int :=
  match y with
  | .leaf => (off, off + leafBytes f)
  | .blocked a b =>
    let npr := ceilDiv (ceilDiv rows 32) (2 ^ a)
    let npc := ceilDiv (ceilDiv cols 32) (2 ^ b)
    (off, off + npr * npc * (2 ^ a * 2 ^ b) * leafBytes f)
  | .rows rs cs =>
    let r := rowRange rs rows
    (off + r.1, off + r.2 + (fmtWidth f * ((cols - 1) * cs + 1) + 7 : Nat) / 8)

/-- The check of R213 over an extent that may begin below the handle.
DEDUCED, unsafe (assumption 37). -/
def State.extentFault (s : State) (j h : Nat) (x : Int × Int) (write : Bool) (spaces : List Nat) : Option Nat :=
  match s.accessFault j h 0 x.2.toNat write spaces with
  | some 1 => some shUnmapped
  | e => if x.1 < 0 then some shBound else
    match e with
    | some 5 => s.accessFault j h x.1.toNat (x.2 - x.1).toNat write spaces
    | e => e

/-- A descriptor misaligned for its form (R311, R313). -/
def misaligned (f : Fmt) (y : Layout) (off : Nat) : Bool :=
  match y with
  | .leaf | .blocked _ _ => off % 64 != 0
  | .rows rs _ => off % strideUnit f != 0 || rs % (strideUnit f : Int) != 0

/-- Strides outside their ranges, or a write that would broadcast (R311, R312). -/
def badStrides (f : Fmt) (y : Layout) (write : Bool) : Bool :=
  match y with
  | .rows rs cs =>
    65535 < cs || ((fmtGroup f).isSome && 1 < cs) || rs < -(2 : Int) ^ 31 || (2 : Int) ^ 31 ≤ rs ||
      (write && (rs == 0 || cs == 0))
  | .blocked a b => 5 < a || 5 < b
  | .leaf => false

/-- What the LAYOUT byte of a handle says (R308): none where it is UNSTRUCTURED. -/
def Handle.layoutOf (e : Handle) (rs : Int) (cs : Nat) : Option Layout :=
  match e.layout / 64 with
  | 1 => some (.blocked (e.layout / 8 % 8) (e.layout % 8))
  | 2 => some (.rows rs cs)
  | _ => none

/-! ### LD.T and ST.T (R313) -/

/-- The layout of a tile descriptor: none for FROM_HANDLE on an unstructured handle. A blocked handle gives the leaf
at the offset, and an empty entry fails the address check whatever the layout. -/
def State.tileLayout (s : State) (j : Nat) (l : Loc) : TileForm → Option Layout
  | .leaf => some .leaf
  | .rowMajor rs cs => some (.rows rs cs)
  | .fromHandle rs cs =>
    match s.job j with
    | none => some .leaf
    | some x =>
      let e := x.handle l.h
      if e.space = spEmpty then some .leaf
      else match e.layoutOf rs cs with
        | some (.blocked _ _) => some .leaf
        | y => y

/-- The tile that a descriptor reads. -/
def State.loadTile (s : State) (j : Nat) (f : Fmt) (l : Loc) (y : Layout) : Tile :=
  match y with
  | .leaf => unpackLeaf f (s.load j l.h l.off (leafBytes f))
  | y => (List.range 1024).map fun i => BitVec.ofNat 36 (s.loadBits j l.h (elemBit f y l.off 32 (rowOf i) (colOf i)).toNat (fmtWidth f))

/-- A tile written where a descriptor says, elements in row-major order. -/
def State.storeTile (s : State) (j : Nat) (f : Fmt) (l : Loc) (y : Layout) (t : Tile) : State :=
  match y with
  | .leaf => s.store j l.h l.off (packLeaf f t)
  | y => s.each (List.range 1024) fun s i =>
      s.storeBits j l.h (elemBit f y l.off 32 (rowOf i) (colOf i)).toNat (fmtWidth f) (fieldOf f (tileAt t i))

/-- The bytes that a tile store writes, from first to last. -/
def tileSpans (f : Fmt) (l : Loc) (y : Layout) : List (Nat × Nat) :=
  match y with
  | .leaf => [(l.off, leafBytes f)]
  | y => (List.range 1024).map fun i => bitSpan (elemBit f y l.off 32 (rowOf i) (colOf i)).toNat (fmtWidth f)

/-- A tile store covers only part of some 64-bit word (R111): rows that are not whole words. -/
def tilePart (f : Fmt) (l : Loc) : Layout → Bool
  | .rows rs cs => !(cs == 1 && l.off % 8 == 0 && rs % 8 == 0 && fmtWidth f % 2 == 0)
  | _ => false

/-- The first byte of a tile, and the wet blocks that it touches. -/
def State.tileWet (s : State) (j : Nat) (f : Fmt) (l : Loc) (y : Layout) : Nat × List Nat :=
  let x := extentOf f y l.off 32 32
  (x.1.toNat, s.wetBlocks j l.h x.1.toNat (x.2 - x.1).toNat)

/-- The checks of a tile load or store, and what it does where they pass. -/
def State.tileAccess (s : State) (i : Issue) (slot : Nat) (f : Fmt) (l : Loc) (form : TileForm) (write : Bool)
    (act : Layout → OpAct) : OpAct :=
  let j := (s.core i.core).job
  s.needs i.core slot [f] [] (
    match s.tileLayout j l form with
    | none => argStop i.core slot opExtent l.off
    | some y =>
      if misaligned f y l.off then seqStop i.core slot sqMisaligned
      else if badStrides f y write then argStop i.core slot opExtent l.off
      else match s.extentFault j l.h (extentOf f y l.off 32 32) write [spSram] with
        | some k => staleStop i.core slot k l.h l.off
        | none => act y)

/-- LD.T (R313): the register is written when the data is delivered.
DESIGN CHOICE, unsafe (assumption 39). -/
def opLdT (i : Issue) (t : TReg) (f : Fmt) (l : Loc) (form : TileForm) (s : State) : Op :=
  let j := (s.core i.core).job
  { slot := slotLoad, uses := { writes := [rT t], mem := [l.h] },
    act := s.tileAccess i slotLoad f l form false fun y =>
      let v := s.loadTile j f l y
      let w := s.tileWet j f l y
      .effect (onCore i.core fun c =>
        { c with loadQ := c.loadQ ++ [{ op := .tile t v, wet := w.2, bundle := c.bundle, handle := l.h, off := w.1 }] }) }

/-- ST.T (R313): the elements take effect in bundle order; the acknowledgement follows.
DESIGN CHOICE, unsafe (assumption 38). -/
def opStT (i : Issue) (t : TReg) (f : Fmt) (l : Loc) (form : TileForm) (s : State) : Op :=
  let v := (s.core i.core).t t
  let j := (s.core i.core).job
  { slot := slotStore, uses := { reads := [rT t], mem := [l.h] },
    act := s.tileAccess i slotStore f l form true fun y => .effect fun s =>
      let w := s.tileWet j f l y
      let part := tilePart f l y
      let old := if part then (tileSpans f l y).map fun p => (p.1, s.load j l.h p.1 p.2) else []
      (s.storeTile j f l y v).modCore i.core fun c =>
        { c with storeQ := c.storeQ ++ [{ stamp := c.stamp, bundle := c.bundle, wet := w.2, handle := l.h, off := w.1, part := part, old := old }] } }

end Sys2Proof.Machine
end

