-- ==== Sys2Proof/Machine/Array.lean ====
section
/-! DEFINITION. The matrix array, its drain and the NTT engine (R231 to R255). -/

namespace Sys2Proof.Machine

/-! ### Buffers -/

def CoreSt.obuf (c : CoreSt) (o : OBuf) : OBufSt := if o = 0 then c.o0 else c.o1
def CoreSt.setObuf (c : CoreSt) (o : OBuf) (b : OBufSt) : CoreSt := if o = 0 then { c with o0 := b } else { c with o1 := b }

/-- A drain of the buffer runs. -/
def CoreSt.drains (c : CoreSt) (o : OBuf) : Bool := (c.obuf o).draining

/-! ### Operands of a product (R232, R233) -/

def isF8 (f : Fmt) : Bool := f == .f8e4 || f == .f8e4s || f == .f8e5
def isB8 (f : Fmt) : Bool := f == .s8 || f == .u8

/-- The formats that may meet in a product (R232). -/
def pairOk (a b : Fmt) : Bool := a == b || (isF8 a && isF8 b) || (isB8 a && isB8 b)

def opndRegs : MSrc → List Nat
  | .tile t => [rT t]
  | .panel _ _ => []

/-- The handle that an operand reads memory through. -/
def opndMem : MSrc → List Nat
  | .tile _ => []
  | .panel l _ => [l.h]

def opndIsTile : MSrc → Bool
  | .tile _ => true
  | .panel _ _ => false

def opndMisaligned : MSrc → Bool
  | .tile _ => false
  | .panel l _ => l.off % 64 != 0

/-- The address check of a panel of `n` leaves, with its handle and offset. -/
def State.panelFault (s : State) (j n : Nat) (f : Fmt) : MSrc → Option (Nat × Loc)
  | .tile _ => none
  | .panel l _ => (s.accessFault j l.h l.off (n * leafBytes f) false [spSram]).map fun k => (k, l)

/-- The bytes that an operand of `n` leaves reads: handle, offset and number. -/
def opndReads (n : Nat) (f : Fmt) : MSrc → List (Nat × Nat × Nat)
  | .tile _ => []
  | .panel l _ => [(l.h, l.off, n * leafBytes f)]

/-- The leaves of an operand, and whether each is read as its transpose. -/
def State.leavesOf (s : State) (n : Nat) (f : Fmt) (k : Nat) : MSrc → List Tile × Bool
  | .tile t => ([(s.core n).t t], false)
  | .panel l tr =>
    ((List.range (k / 32)).map fun i => unpackLeaf f (s.load (s.core n).job l.h (l.off + i * leafBytes f) (leafBytes f)), tr)

/-- The field at row `r` and column `c` of a leaf, or of its transpose. -/
def leafField (f : Fmt) (tr : Bool) (t : Tile) (r c : Nat) : Nat :=
  fieldOf f (tileAt t (if tr then 32 * c + r else 32 * r + c))

/-! ### Accumulation (R237 to R240) -/

/-- One product in the partial format, with its events. -/
def mulPartial (k : Nat) (x y : FVal) (h : Hist) : FVal × Hist :=
  roundNote partialSpec k false (x.mul y) (h.note (mulEvent x y) k false)

/-- One sum of a format, with its events. -/
def addNote (p : FSpec) (k : Nat) (x y : FVal) (h : Hist) : FVal × Hist :=
  roundNote p k false (x.add y) (h.note (addEvent x y) k false)

/-- Neighbouring values summed: one level of the tree. -/
def treeLevel (p : FSpec) (k : Nat) : List FVal → Hist → List FVal × Hist
  | x :: y :: r, h =>
    let a := addNote p k x y h
    let b := treeLevel p k r a.2
    (a.1 :: b.1, b.2)
  | r, h => (r, h)

/-- The balanced tree of `n` levels. Its events come level by level, and from left to right within a level (R246).
DESIGN CHOICE, unsafe (assumption 166). -/
def treeSum (p : FSpec) (k : Nat) : Nat → List FVal → Hist → FVal × Hist
  | 0, xs, h => (xs.headD (.fin false 0 0), h)
  | n + 1, xs, h =>
    let a := treeLevel p k xs h
    treeSum p k n a.1 a.2

/-- The products of a chunk, in increasing k. -/
def chunkProducts (k : Nat) : List (FVal × FVal) → Hist → List FVal × Hist
  | [], h => ([], h)
  | x :: r, h =>
    let a := mulPartial k x.1 x.2 h
    let b := chunkProducts (k + 1) r a.2
    (a.1 :: b.1, b.2)

/-- A chunk of 32 products added to a float total: the tree in the partial format, the sum in the total format. -/
def Acc.addFloat (a : Acc) (k : Nat) (ps : List (FVal × FVal)) : Acc :=
  let p := chunkProducts k ps a.h
  let c := treeSum partialSpec k 5 p.1 p.2
  let t := addNote totalSpec k a.f c.1 a.t
  { a with f := t.1, h := c.2, t := t.2 }

/-- A chunk of products added to a saturating integer, which keeps its bound once it has saturated (R238). -/
def Acc.addInt (a : Acc) (k : Nat) (ps : List (Int × Int)) : Acc :=
  if a.h.ovf then a
  else
    let r := intSat .s32 (a.i + (ps.map fun p => p.1 * p.2).foldl (· + ·) 0)
    { a with i := r.1, h := if r.2 then a.h.add evOverflow k false else a.h }

/-- Products added modulo a prime. -/
def Acc.addMod (a : Acc) (q : Nat) (ps : List (Nat × Nat)) : Acc :=
  { a with i := (ps.foldl (fun v p => (v + p.1 % q * (p.2 % q)) % q) a.i.toNat : Nat) }

/-- The prime of a column of a group. -/
def OBufSt.prime (b : OBufSt) (c : Nat) : Nat :=
  match fmtFamily b.fa with
  | none => 1
  | some f => primeOf f (b.primes.getD c 0)

/-- An element enabled by the group's masks (R241). -/
def OBufSt.on (b : OBufSt) (i : Nat) : Bool := enabled b.row b.col i

/-- One leaf of each operand added to a group. -/
def OBufSt.addLeaf (b : OBufSt) (x y : Tile) (tx ty : Bool) : OBufSt :=
  let pair (i n : Nat) : Nat × Nat := (leafField b.fa tx x (rowOf i) n, leafField b.fb ty y n (colOf i))
  let step (i : Nat) (a : Acc) : Acc :=
    if !b.on i then a
    else match fmtClass b.fa with
      | .float => a.addFloat b.k ((List.range 32).map fun n => ((fSpec b.fa).decode (pair i n).1, (fSpec b.fb).decode (pair i n).2))
      | .int => a.addInt b.k ((List.range 32).map fun n => (intRead b.fa (pair i n).1, intRead b.fb (pair i n).2))
      | .residue => a.addMod (b.prime (colOf i)) ((List.range 32).map (pair i))
  { b with acc := (List.range 1024).map fun i => step i (b.acc.getD i {}), k := b.k + 32 }

/-- The leaves of a product added in order. -/
def OBufSt.addLeaves (b : OBufSt) (tx ty : Bool) : List Tile → List Tile → OBufSt
  | x :: xs, y :: ys => (b.addLeaf x y tx ty).addLeaves tx ty xs ys
  | _, _ => b

/-! ### MMA (R233 to R241, R248, R249) -/

/-- The TRACE flag in effect (R248). -/
def State.traceOn (s : State) (j : Nat) (m : Mma) : Bool :=
  m.trace || (fmtClass m.fa == .float && (s.job j).any Job.nanTrace)

/-- The first detail of R249 that a product fails. `g` is the open group that CONT adds to. -/
def mmaDetail (m : Mma) (start trace primes : Bool) (g : OBufSt) : Option Nat :=
  if m.fa = .s32 ∨ m.fb = .s32 then some opFormat
  else if !pairOk m.fa m.fb then some opMismatch
  else if !start && g.isOpen && (m.fa != g.fa || m.fb != g.fb || trace != g.trace) then some opMismatch
  else if m.k % 32 ≠ 0 ∨ m.k < 32 ∨ 65536 < m.k ∨ ((opndIsTile m.a ∨ opndIsTile m.b) ∧ m.k ≠ 32) then some opExtent
  else if start && !primes then some opPrime
  else if !start && !g.isOpen then some opBuffer
  else none

/-- The group that START opens: every accumulator at its zero (R235). -/
def newGroup (c : CoreSt) (m : Mma) (trace : Bool) (row col : Option SReg) (prime : Option PSel) : OBufSt :=
  { isOpen := true, fa := m.fa, fb := m.fb, trace := trace, row := c.maskBits row, col := c.maskBits col,
    primes := match prime with
      | none => []
      | some q => (List.range 32).map fun x => c.primeIx q x
    inFlight := (c.obuf m.o).inFlight }

/-- A product checked and run on the group that `group` gives. -/
def State.mmaOp (s : State) (i : Issue) (m : Mma) (start primes : Bool) (group : OBufSt) : OpAct :=
  let n := i.core
  let j := (s.core n).job
  let tr := s.traceOn j m
  s.needs n slotMatrix [m.fa, m.fb] (engArray :: if tr then [engTrace] else []) (
    if opndMisaligned m.a || opndMisaligned m.b then seqStop n slotMatrix sqMisaligned
    else match mmaDetail m start tr primes ((s.core n).obuf m.o) with
      | some d => argStop n slotMatrix d
      | none =>
        match (s.panelFault j (m.k / 32) m.fa m.a).or (s.panelFault j (m.k / 32) m.fb m.b) with
        | some (d, l) => staleStop n slotMatrix d l.h l.off
        | none =>
          let a := s.leavesOf n m.fa m.k m.a
          let b := s.leavesOf n m.fb m.k m.b
          let g := group.addLeaves a.2 b.2 a.1 b.1
          let r := s.touched j (opndReads (m.k / 32) m.fa m.a ++ opndReads (m.k / 32) m.fb m.b)
          .effect fun s =>
            (s.work n (match fmtClass m.fa with | .residue => 8 | .float => 11 | .int => 12) (1024 * m.k)).modCore n fun c =>
              c.setObuf m.o { g with inFlight := group.inFlight ++ [{ bundle := c.bundle, mem := r }], draining := c.drains m.o })

/-- MMA with START (R235): it opens a group, with its masks and, in residue mode, its primes. -/
def opMmaStart (i : Issue) (m : Mma) (row col : Option SReg) (prime : Option PSel) (s : State) : Op :=
  let c := s.core i.core
  let res := fmtFamily m.fa
  let sel := if res.isSome then prime else none
  let rowSel : Bool := match sel with
    | some (.perRow _) => true
    | _ => false
  let ok := match res, sel with
    | some f, some q => c.primesOk f q
    | _, _ => true
  { slot := slotMatrix,
    uses := { reads := opndRegs m.a ++ opndRegs m.b ++ (row.map rS).toList ++ (col.map rS).toList ++ (sel.map selRegs).getD [],
              mem := opndMem m.a ++ opndMem m.b, ready := !c.drains m.o },
    act := if (res.isSome ∧ prime = none) ∨ rowSel then seqStop i.core slotMatrix sqIllegal
      else s.mmaOp i m true ok (newGroup c m (s.traceOn c.job m) row col sel) }

/-- MMA with CONT (R235): it adds to the open group and reads no selector. -/
def opMmaCont (i : Issue) (m : Mma) (s : State) : Op :=
  let c := s.core i.core
  { slot := slotMatrix, uses := { reads := opndRegs m.a ++ opndRegs m.b, mem := opndMem m.a ++ opndMem m.b, ready := !c.drains m.o },
    act := s.mmaOp i m false true (c.obuf m.o) }

/-- MMA_LAST_RESULT (R234): the last result of the oldest product reaches its buffer; an MMA that waits for a drain delivers
none before the drain is complete (R255). -/
def execMmaLastResult (core : Nat) (o : OBuf) (e : EngCheck) (s : State) : Outcome :=
  let c := s.core core
  let b := c.obuf o
  match b.inFlight with
  | [] => .next s
  | q :: qs =>
    if !s.live ∨ b.draining then .next s
    else .next ((s.setCore core (c.setObuf o { b with inFlight := qs })).engineCheck core slotMatrix q.bundle q.mem e)

/-! ### The epilogue (R242, R243) -/

/-- The field of an epilogue constant for element `i`, its low `w` bits.
DEDUCED, unsafe (assumption 35). -/
def CoreSt.epiField (c : CoreSt) (w : Nat) (x : EpiSrc) (i : Nat) : Nat :=
  match x with
  | .uniform r => (c.s r).toNat % 2 ^ w
  | .perCol t => (tileAt (c.t t) (colOf i)).toNat % 2 ^ w
  | .perRow t => (tileAt (c.t t) (32 * rowOf i)).toNat % 2 ^ w

def epiRegs : EpiSrc → List Nat
  | .uniform r => [rS r]
  | .perCol t | .perRow t => [rT t]

/-- The event of a bias added to a value: a NaN bias, opposite infinities, an infinite bias on a finite value. -/
def biasEvent (v b : FVal) : Nat :=
  if b.isNan then evNan
  else if addEvent v b ≠ 0 then evInfInf
  else if b.isInf ∧ !v.isInf ∧ !v.isNan then evInf
  else 0

/-- The event of a scale on a value that may be an infinity or NaN of the total. -/
def scaleEvent (v c : FVal) : Nat :=
  if c.isNan then evNan
  else if v.isNan then 0
  else if v.isInf ∧ c.isZero ∨ v.isZero ∧ c.isInf then evZeroInf
  else if c.isInf then evInf
  else 0

/-- One value of stages 2 to 4 rounded to the total format. -/
def stage (v : FVal) (ev : Nat) (h : Hist) : FVal × Hist := roundNote totalSpec 0xFFFFFF true v (h.note ev 0xFFFFFF true)

/-- Stages 2 to 5 of a float value: the field written and the history. -/
def epiFloat (d : Drain) (p : ActPar) (scale bias : Option FVal) (v : FVal) (h : Hist) : Nat × Hist :=
  let a := match scale with
    | none => (v, h)
    | some c => stage (v.mul c) (scaleEvent v c) h
  let b := match bias with
    | none => a
    | some c => stage (a.1.add c) (biasEvent a.1 c) a.2
  let x := applyAct d.act p b.1
  let y := if d.act = .none then b else stage x.1 x.2 b.2
  match fmtClass d.fmt with
  | .float =>
    let r := (fSpec d.fmt).round y.1
    ((fSpec d.fmt).encode r.1, (if r.2 then y.2.add evOverflow 0xFFFFFF true else y.2).see (if r.2 then r.1 else .fin false 0 0))
  | _ =>
    match y.1 with
    | .nan => (0, y.2)
    | .inf n => (intCode d.fmt (if n then (intRange d.fmt).1 else (intRange d.fmt).2), y.2.add evOverflow 0xFFFFFF true)
    | .fin n m e =>
      let r := intWrite d.fmt (roundInt n m e)
      (r.1, if r.2 then y.2.add evOverflow 0xFFFFFF true else y.2)

/-- Stages 3 to 5 of an unscaled integer. -/
def epiInt (d : Drain) (p : ActPar) (bias : Option Int) (x : Int) (h : Hist) : Nat × Hist :=
  let a := match bias with
    | none => (x, h)
    | some b => let r := intSat .s32 (x + b); (r.1, if r.2 then h.add evOverflow 0xFFFFFF true else h)
  let r := intWrite d.fmt (applyActInt d.act p a.1)
  (r.1, if r.2 then a.2.add evOverflow 0xFFFFFF true else a.2)

/-- Stages 2 and 3 of a residue. -/
def epiMod (q : Nat) (scale bias : Option Nat) (x : Nat) : Nat :=
  let a := match scale with
    | none => x
    | some c => x * (c % q) % q
  match bias with
  | none => a
  | some c => (a + c % q) % q

/-- What a drain writes for an element, with its history (R242, R246). -/
def CoreSt.drainElem (c : CoreSt) (d : Drain) (b : OBufSt) (i : Nat) : Nat × Hist :=
  let a := b.acc.getD i {}
  let h := a.h.then a.t
  let f32 (x : EpiSrc) : FVal := (fSpec .f32e8).decode (c.epiField 32 x i)
  match fmtClass b.fa with
  | .float => epiFloat d (c.actPar d.act) (d.scale.map f32) (d.bias.map f32) a.f h
  | .int =>
    match d.scale with
    | some _ => epiFloat d (c.actPar d.act) (d.scale.map f32) (d.bias.map f32) (FVal.fin (a.i < 0) a.i.natAbs 0).canon h
    | none => epiInt d (c.actPar d.act) (d.bias.map fun x => intRead .s32 (c.epiField 32 x i)) a.i h
  | .residue =>
    let w := fmtWidth b.fa
    (epiMod (b.prime (colOf i)) (d.scale.map fun x => c.epiField w x i) (d.bias.map fun x => c.epiField w x i) a.i.toNat, {})

/-- The stages and the output format that R242 does not allow for a group, or a CLAMP in the wrong order (R243). -/
def CoreSt.epiBad (c : CoreSt) (d : Drain) (b : OBufSt) : Bool :=
  let p := c.actPar d.act
  d.act == .unknown || match fmtClass b.fa with
  | .residue => d.act != .none || d.fmt != b.fa
  | .float => fmtClass d.fmt == .residue || badClamp d.act p true
  | .int =>
    if d.scale.isSome then fmtClass d.fmt == .residue || badClamp d.act p true
    else fmtClass d.fmt != .int || badClamp d.act p false ||
      (match d.act with
       | .none | .relu | .clamp _ _ => false
       | _ => true)

/-- The formats that a drain uses: F32E8 where it scales integers (R227, R242).
DEDUCED, unsafe (assumption 36). -/
def drainFmts (d : Drain) (b : OBufSt) : List Fmt :=
  if b.isOpen && fmtClass b.fa == .int && d.scale.isSome then [d.fmt, .f32e8] else [d.fmt]

/-- The tile that a drain writes over a former one: masked elements are kept or zero (R241). -/
def drainTile (d : Drain) (b : OBufSt) (out : List (Nat × Hist)) (old : Tile) : Tile :=
  (List.range 1024).map fun i =>
    if b.on i then BitVec.ofNat 36 (out.getD i (0, {})).1
    else if d.zero then 0 else tileAt old i

def drainWrites (d : Drain) : List Nat :=
  (match d.dst with | .tile t => [rT t] | .leaf _ => []) ++ (d.status.map rS).toList

/-- What a drain does: a leaf is written in bundle order, a tile at the completion. The group is gone from its buffer, which no MMA of a
later bundle enters before the drain is complete (R235).
DESIGN CHOICE, unsafe (assumption 38). -/
def CoreSt.drainRun (c : CoreSt) (n : Nat) (d : Drain) (b : OBufSt) (s : State) : State :=
  let out := (List.range 1024).map fun i => if b.on i then c.drainElem d b i else (0, {})
  let w := if fmtClass b.fa = .residue then emptyStatus
    else statusWord (b.trace && fmtClass b.fa == .float) (out.map Prod.snd)
  let mem : Touched := match d.dst with
    | .tile _ => {}
    | .leaf l =>
      let kept := if d.zero then [] else
        s.partOld c.job l.h (((List.range 1024).filter b.on).map fun i => (8 * l.off + fmtWidth d.fmt * i, fmtWidth d.fmt))
      s.touched c.job (if kept.isEmpty then [] else [(l.h, l.off, leafBytes d.fmt)]) kept
  let s := match d.dst with
    | .tile _ => s
    | .leaf l => s.store c.job l.h l.off (packLeaf d.fmt (drainTile d b out (unpackLeaf d.fmt (s.load c.job l.h l.off (leafBytes d.fmt)))))
  let tile := match d.dst with
    | .tile t => some (t, drainTile d b out (c.t t))
    | .leaf _ => none
  s.modCore n fun x =>
    let y := x.setObuf d.o { draining := true }
    { y with drainQ := y.drainQ ++ [{ o := d.o, tile := tile, status := d.status, word := w, stamp := x.stamp, bundle := x.bundle,
                                      store := tile.isNone, mem := mem }] }

/-- DRAIN (R241 to R244): the epilogue of a whole group, which waits until every MMA into its buffer has delivered its last result. -/
def opDrain (i : Issue) (d : Drain) (s : State) : Op :=
  let n := i.core
  let c := s.core n
  let b := c.obuf d.o
  let stale : Option (Nat × Loc) := match d.dst with
    | .tile _ => none
    | .leaf l => (s.accessFault c.job l.h l.off (leafBytes d.fmt) true [spSram]).map fun k => (k, l)
  let misplaced : Bool := match d.dst with
    | .tile _ => false
    | .leaf l => l.off % 64 != 0
  { slot := slotMatrix, drain := true,
    uses := { reads := (d.scale.map epiRegs).getD [] ++ (d.bias.map epiRegs).getD [] ++ actRegs d.act, writes := drainWrites d,
              mem := (match d.dst with | .tile _ => [] | .leaf l => [l.h]),
              ready := b.inFlight.isEmpty && !b.draining },
    act := s.needs n slotMatrix (drainFmts d b) [engArray] (
      if misplaced then seqStop n slotMatrix sqMisaligned
      else if !b.isOpen then argStop n slotMatrix opBuffer
      else if c.epiBad d b then argStop n slotMatrix opEpilogue
      else match stale with
        | some (k, l) => staleStop n slotMatrix k l.h l.off
        | none => .effect (c.drainRun n d b)) }

/-- A core's buffers as the drains of its bundle leave them, for an MMA of the same bundle (R255). -/
def CoreSt.drained (c : CoreSt) (o : OBuf) : CoreSt := c.setObuf o {}

/-- DRAIN_COMPLETE (R244, R247): the tile and the status word are written, and the buffer may be entered again. -/
def execDrainComplete (core : Nat) (o : OBuf) (e : EngCheck) (s : State) : Outcome :=
  let c := s.core core
  match c.drainQ.find? fun x => x.o == o with
  | none => .next s
  | some x =>
    if !s.live then .next s
    else
      let d := match x.tile with
        | none => c
        | some (t, v) => c.setT t v
      let d := ((d.writeStatus x.status x.word).noteStatus x.stamp x.o.toNat x.bundle x.word).setObuf o { d.obuf o with draining := false }
      let s := ((s.setCore core { d with drainQ := d.drainQ.erase x }).work core 7 (b2n (affectedOf x.word != 0) 1)).settle c.job
      .next ((s.unwrite c.job x.mem e).engineCheck core slotMatrix x.bundle x.mem e)

/-! ### The NTT engine (R252 to R254) -/

/-- The family and index of limb `i` of an NTT operation: none for a place beyond its chain or family. -/
def nttPrimeAt (p : NttPrime) (i : Nat) : Option (Family × Nat) :=
  match p with
  | .fixed f ix => if ix < famCount f then some (f, ix) else none
  | .chain set pc first =>
    match paramSet set with
    | none => none
    | some x =>
      if first + i < (if pc then x.k else x.l) then some (x.fam, if pc then x.pIx (first + i) else x.qIx (first + i)) else none

/-- log2 of a power of two, for the sizes that the engine takes. -/
def sizeLog (n : Nat) : Option Nat := (List.range 6).map (· + 12) |>.find? fun k => 2 ^ k == n

/-- The first detail of R249 that an NTT operation fails. -/
def nttDetail (x : Ntt) : Option Nat :=
  if x.fmt ≠ .z36 ∧ x.fmt ≠ .z28 then some opFormat
  else if (sizeLog x.n).isNone ∨ x.limbs = 0 ∨ 64 < x.limbs ∨ x.stride % 64 ≠ 0 then some opExtent
  else if x.fmt = .z28 ∧ x.n = 2 ^ 17 then some opPrime
  else if (List.range x.limbs).all (fun i => (nttPrimeAt x.prime i).any fun p => famFmt p.1 == x.fmt) then none
  else some opPrime

/-- The bytes from the first to the last limb. -/
def nttSpan (x : Ntt) : Nat := (x.limbs - 1) * x.stride + x.n / 8 * fmtWidth x.fmt

/-- One limb transformed (R254: read whole, then written). -/
def State.nttLimb (s : State) (j : Nat) (x : Ntt) (fwd : Bool) (i : Nat) : State :=
  match nttPrimeAt x.prime i, sizeLog x.n with
  | some (f, ix), some k =>
    let a := unpackLimb x.fmt x.n (s.load j x.src.h (x.src.off + i * x.stride) (x.n / 8 * fmtWidth x.fmt))
    s.store j x.dst.h (x.dst.off + i * x.stride) (packLimb x.fmt x.n (if fwd then nttForward f ix k a else nttInverse f ix k a))
  | _, _ => s

/-- An NTT operation checked and run, limb after limb.
DESIGN CHOICE, unsafe (assumption 38). -/
def State.nttOp (s : State) (i : Issue) (x : Ntt) (fwd : Bool) : Op :=
  let n := i.core
  let j := (s.core n).job
  { slot := slotMatrix, uses := { mem := [x.src.h, x.dst.h] },
    act := s.needs n slotMatrix [x.fmt] [engNtt] (
      if x.src.off % 64 ≠ 0 ∨ x.dst.off % 64 ≠ 0 then seqStop n slotMatrix sqMisaligned
      else match nttDetail x with
        | some d => argStop n slotMatrix d
        | none =>
          match s.accessFault j x.src.h x.src.off (nttSpan x) false [spSram] with
          | some k => staleStop n slotMatrix k x.src.h x.src.off
          | none =>
            match s.accessFault j x.dst.h x.dst.off (nttSpan x) true [spSram] with
            | some k => staleStop n slotMatrix k x.dst.h x.dst.off
            | none => .effect fun s =>
              let r := s.touched j [(x.src.h, x.src.off, nttSpan x)]
              let s := s.each (List.range x.limbs) fun s l => s.nttLimb j x fwd l
              let s := s.work n 9 (x.limbs * (x.n / 2 * Nat.log2 x.n))
              s.modCore n fun c => { c with nttQ := c.nttQ ++ [{ stamp := c.stamp, left := x.limbs, bundle := c.bundle, mem := r }] }) }

/-- NTT.F (R252). -/
def opNttF (i : Issue) (n : Ntt) (s : State) : Op := s.nttOp i n true
/-- NTT.I (R252). -/
def opNttI (i : Issue) (n : Ntt) (s : State) : Op := s.nttOp i n false

/-- NTT_LIMB_WRITTEN (R253): a limb of the oldest operation is acknowledged; the last one ends it. -/
def execNttLimbWritten (core : Nat) (e : EngCheck) (s : State) : Outcome :=
  let c := s.core core
  match c.nttQ with
  | [] => .next s
  | x :: xs =>
    if !s.live then .next s
    else
      let q := if x.left ≤ 1 then xs else { x with left := x.left - 1 } :: xs
      let s := (s.setCore core { c with nttQ := q }).settle c.job
      .next (s.engineCheck core slotMatrix x.bundle x.mem e)

end Sys2Proof.Machine
end

