-- ==== Sys2Proof/Machine/Vector.lean ====
section
/-! DEFINITION. The vector engine: element-wise, modular, conversion and reduction operations (R274 to R288). -/

namespace Sys2Proof.Machine

/-! ### One element -/

/-- The events of a float element in the order of R285: a NaN operand, an invalid operation, an infinite operand where
neither arose, an overflow. -/
def floatEvents (xs : List FVal) (invalid : Nat) (overflow : Bool) : List Nat :=
  (if xs.any FVal.isNan then [evNan] else []) ++ (if invalid ≠ 0 then [invalid] else []) ++
    (if xs.any FVal.isInf && !xs.any FVal.isNan && invalid == 0 then [evInf] else []) ++ (if overflow then [evOverflow] else [])

/-- An exact result written once in a format, with the element's history. -/
def floatElem (f : Fmt) (xs : List FVal) (r : FVal) (invalid : Nat) (ovf : Bool) : Nat × Hist :=
  let p := fSpec f
  let w := p.round r
  (p.encode w.1, ((Hist.ofEvents (floatEvents xs invalid (ovf || w.2))).see r).see w.1)

/-- An integer result saturated (R260): only OVERFLOW is recorded. -/
def intElem (f : Fmt) (x : Int) : Nat × Hist :=
  let w := intWrite f x
  (w.1, Hist.ofEvents (if w.2 then [evOverflow] else []))

/-- A float result and the invalid event and overflow that come with it. -/
structure FRes where
  v : FVal
  invalid : Nat := 0
  ovf : Bool := false

/-! ### Issue -/

/-- The registers that a vector operation writes. -/
def vdstWrites (v : VDst) : List Nat := rT v.d :: (v.status.map rS).toList

/-- A vector result put in flight: the tile, its status word. -/
def State.vecResult (s : State) (n : Nat) (v : VDst) (t : Tile) (w : Word) : State :=
  s.modCore n fun c => { c with vecQ := c.vecQ ++ [{ stamp := c.stamp, d := v.d, v := t, status := v.status, word := w, bundle := c.bundle }] }

/-- A whole tile computed element by element, under the masks that the core held when the bundle issued. -/
def State.vecTile (s : State) (n : Nat) (c : CoreSt) (v : VDst) (f : Nat → Nat × Hist) : State :=
  let out := (List.range 1024).map fun i => if c.on v.mask i then f i else (0, {})
  let t := (List.range 1024).map fun i =>
    if c.on v.mask i then BitVec.ofNat 36 (out.getD i (0, {})).1
    else if maskZeroes v.mask then 0 else tileAt (c.t v.d) i
  s.vecResult n v t (statusWord false (out.map Prod.snd))

/-- The detail of R287 that an operation fails: one of its own, with operands of two formats after FORMAT_UNSUPPORTED. -/
def vecDetail (v : VDst) (own : Option Nat) : Option Nat :=
  if v.alt.all (· == v.fmt) || own == some opFormat then own else some opMismatch

/-- A vector operation: the first operand is a tile, its formats are in the grade, and no detail of R287 applies. -/
def State.vecOp (s : State) (i : Issue) (v : VDst) (xs : List VSrc) (more : List Nat) (fmts : List Fmt) (illegal : Bool)
    (detail : Option Nat) (go : State → State) : Op :=
  { slot := slotVector, uses := { reads := xs.flatMap srcRegs ++ maskRegs v.mask ++ more, writes := vdstWrites v },
    act := if illegal || !(xs.head?.any srcIsTile) then seqStop i.core slotVector sqIllegal
      else s.needs i.core slotVector (fmts ++ v.alt.toList) [engVector] (
        match vecDetail v detail with
        | some d => argStop i.core slotVector d
        | none => .effect go) }

/-- An element-wise operation on float or integer formats, in those that `ok` allows. -/
def State.vecArith (s : State) (i : Issue) (v : VDst) (xs : List VSrc) (ok : Fmt → Bool) (ff : List FVal → FRes)
    (fi : List Nat → Nat × Hist) : Op :=
  let c := s.core i.core
  s.vecOp i v xs [] [v.fmt] false (if ok v.fmt then none else some opFormat) fun s =>
    s.vecTile i.core c v fun e =>
      let cs := xs.map fun x => c.elem v.fmt x e
      if fmtClass v.fmt = .float then
        let ys := cs.map (fSpec v.fmt).decode
        let r := ff ys
        floatElem v.fmt ys r.v r.invalid r.ovf
      else fi cs

def isFloat (f : Fmt) : Bool := fmtClass f == .float
def isInt (f : Fmt) : Bool := fmtClass f == .int
def isArith (f : Fmt) : Bool := isFloat f || isInt f
def isSigned (f : Fmt) : Bool := isInt f && f != .u8

/-- Operand `k` of a list. -/
def fArg (xs : List FVal) (k : Nat) : FVal := xs.getD k .nan
def iArg (f : Fmt) (xs : List Nat) (k : Nat) : Int := intRead f (xs.getD k 0)

/-- An operation on numbers: a float function of the operands, an integer function of their values. -/
def State.vecNum (s : State) (i : Issue) (v : VDst) (xs : List VSrc) (ok : Fmt → Bool) (ff : List FVal → FRes) (fi : List Int → Int) : Op :=
  s.vecArith i v xs ok ff fun cs => intElem v.fmt (fi (cs.map (intRead v.fmt)))

/-- An operation on the fields of integers: bitwise operations and shifts, which record nothing. -/
def State.vecBits (s : State) (i : Issue) (v : VDst) (xs : List VSrc) (f : Nat → Nat → Nat → Nat) : Op :=
  s.vecArith i v xs isInt (fun _ => { v := .nan }) fun cs =>
    (f (fmtWidth v.fmt) (cs.getD 0 0) (cs.getD 1 0) % 2 ^ fmtWidth v.fmt, {})

def intArg (xs : List Int) (k : Nat) : Int := xs.getD k 0

/-! ### Float and integer operations (R279, R280) -/

/-- Sum of two values, invalid for opposite infinities. -/
def fSum (x y : FVal) : FRes := { v := x.add y, invalid := addEvent x y }

/-- The event of a product that is invalid. -/
def zeroInf (x y : FVal) : Nat := if mulEvent x y = evZeroInf then evZeroInf else 0

/-- ADD of tiles (R279). -/
def opVectorAdd (i : Issue) (v : VDst) (a b : VSrc) (s : State) : Op :=
  s.vecNum i v [a, b] isArith (fun ys => fSum (fArg ys 0) (fArg ys 1)) fun xs => intArg xs 0 + intArg xs 1

/-- SUB of tiles (R279). -/
def opVectorSub (i : Issue) (v : VDst) (a b : VSrc) (s : State) : Op :=
  s.vecNum i v [a, b] isArith (fun ys => fSum (fArg ys 0) (fArg ys 1).negate) fun xs => intArg xs 0 - intArg xs 1

/-- MUL of tiles (R279). -/
def opVectorMul (i : Issue) (v : VDst) (a b : VSrc) (s : State) : Op :=
  s.vecNum i v [a, b] isArith (fun ys => { v := (fArg ys 0).mul (fArg ys 1), invalid := zeroInf (fArg ys 0) (fArg ys 1) })
    fun xs => intArg xs 0 * intArg xs 1

/-- a × b + c, exact. -/
def fFma (x y z : FVal) : FRes :=
  let p := x.mul y
  { v := p.add z, invalid := if zeroInf x y ≠ 0 then evZeroInf else addEvent p z }

/-- FMA (R279). -/
def opFma (i : Issue) (v : VDst) (a b c : VSrc) (s : State) : Op :=
  s.vecNum i v [a, b, c] isArith (fun ys => fFma (fArg ys 0) (fArg ys 1) (fArg ys 2))
    fun xs => intArg xs 0 * intArg xs 1 + intArg xs 2

/-- NEG (R279): float and signed integer formats. -/
def opNeg (i : Issue) (v : VDst) (a : VSrc) (s : State) : Op :=
  s.vecNum i v [a] (fun f => isFloat f || isSigned f) (fun ys => { v := (fArg ys 0).negate }) fun xs => -intArg xs 0

/-- The magnitude of a value. -/
def fAbs : FVal → FVal
  | .nan => .nan
  | .inf _ => .inf false
  | .fin _ m e => .fin false m e

/-- ABS (R279): float and signed integer formats. -/
def opAbs (i : Issue) (v : VDst) (a : VSrc) (s : State) : Op :=
  s.vecNum i v [a] (fun f => isFloat f || isSigned f) (fun ys => { v := fAbs (fArg ys 0) }) fun xs => (intArg xs 0).natAbs

/-- The smaller and the larger of two values, −0 below +0; NaN where either is NaN.
DEDUCED, unsafe (assumption 34). -/
def fMin (x y : FVal) : FVal := if x.isNan ∨ y.isNan then .nan else if y.less true x then y else x
def fMax (x y : FVal) : FVal := if x.isNan ∨ y.isNan then .nan else if x.less true y then y else x

/-- MIN of tiles (R279). -/
def opVectorMin (i : Issue) (v : VDst) (a b : VSrc) (s : State) : Op :=
  s.vecNum i v [a, b] isArith (fun ys => { v := fMin (fArg ys 0) (fArg ys 1) }) fun xs => min (intArg xs 0) (intArg xs 1)

/-- MAX of tiles (R279). -/
def opVectorMax (i : Issue) (v : VDst) (a b : VSrc) (s : State) : Op :=
  s.vecNum i v [a, b] isArith (fun ys => { v := fMax (fArg ys 0) (fArg ys 1) }) fun xs => max (intArg xs 0) (intArg xs 1)

/-- 1 or 0 as a value. -/
def fTruth (b : Bool) : FVal := if b then .fin false 1 0 else .fin false 0 0

/-- Comparisons, false where either is NaN (R280). -/
def fLt (x y : FVal) : Bool := x.less false y
def fLe (x y : FVal) : Bool := !x.isNan && !y.isNan && !y.less false x
def fEq (x y : FVal) : Bool := fLe x y && fLe y x

/-- CMPEQ of tiles (R279). -/
def opVectorCmpeq (i : Issue) (v : VDst) (a b : VSrc) (s : State) : Op :=
  s.vecNum i v [a, b] isArith (fun ys => { v := fTruth (fEq (fArg ys 0) (fArg ys 1)) })
    fun xs => if intArg xs 0 = intArg xs 1 then 1 else 0

/-- CMPLT of tiles (R279). -/
def opVectorCmplt (i : Issue) (v : VDst) (a b : VSrc) (s : State) : Op :=
  s.vecNum i v [a, b] isArith (fun ys => { v := fTruth (fLt (fArg ys 0) (fArg ys 1)) })
    fun xs => if intArg xs 0 < intArg xs 1 then 1 else 0

/-- CMPLE (R279). -/
def opCmple (i : Issue) (v : VDst) (a b : VSrc) (s : State) : Op :=
  s.vecNum i v [a, b] isArith (fun ys => { v := fTruth (fLe (fArg ys 0) (fArg ys 1)) })
    fun xs => if intArg xs 0 ≤ intArg xs 1 then 1 else 0

/-- SEL of tiles (R279): a NaN predicate counts as not zero. -/
def opVectorSel (i : Issue) (v : VDst) (a b c : VSrc) (s : State) : Op :=
  s.vecNum i v [a, b, c] isArith (fun ys => { v := if (fArg ys 0).isZero then fArg ys 2 else fArg ys 1 })
    fun xs => if intArg xs 0 = 0 then intArg xs 2 else intArg xs 1

/-- AND of tiles (R279). -/
def opVectorAnd (i : Issue) (v : VDst) (a b : VSrc) (s : State) : Op := s.vecBits i v [a, b] fun _ x y => Nat.land x y
/-- OR of tiles (R279). -/
def opVectorOr (i : Issue) (v : VDst) (a b : VSrc) (s : State) : Op := s.vecBits i v [a, b] fun _ x y => Nat.lor x y
/-- XOR of tiles (R279). -/
def opVectorXor (i : Issue) (v : VDst) (a b : VSrc) (s : State) : Op := s.vecBits i v [a, b] fun _ x y => Nat.xor x y
/-- NOT (R279). -/
def opNot (i : Issue) (v : VDst) (a : VSrc) (s : State) : Op := s.vecBits i v [a] fun w x _ => 2 ^ w - 1 - x
/-- SHL of tiles (R279): a count at or above the width gives 0. -/
def opVectorShl (i : Issue) (v : VDst) (a b : VSrc) (s : State) : Op := s.vecBits i v [a, b] fun _ x y => x * 2 ^ (y % 32)
/-- SHR of tiles (R279). -/
def opVectorShr (i : Issue) (v : VDst) (a b : VSrc) (s : State) : Op := s.vecBits i v [a, b] fun _ x y => x / 2 ^ (y % 32)
/-- SAR of tiles (R279): the sign of a signed format fills.
DEDUCED, unsafe (assumption 33). -/
def opVectorSar (i : Issue) (v : VDst) (a b : VSrc) (s : State) : Op :=
  s.vecBits i v [a, b] fun w x y => (intRead v.fmt x / (2 : Int) ^ (y % 32) % 2 ^ w).toNat

/-- EXP2 (R280).
DESIGN CHOICE, unsafe (assumption 24). -/
def opExp2 (i : Issue) (v : VDst) (a : VSrc) (s : State) : Op :=
  s.vecNum i v [a] isFloat (fun ys => { v := fnExp2 (fArg ys 0) }) fun _ => 0

/-- RCP (R280): of a zero it is an infinity, with OVERFLOW.
DESIGN CHOICE, unsafe (assumption 24). -/
def opRcp (i : Issue) (v : VDst) (a : VSrc) (s : State) : Op :=
  s.vecNum i v [a] isFloat (fun ys => { v := fnRcp (fArg ys 0), ovf := (fArg ys 0).isZero }) fun _ => 0

/-- 1/√x with its special cases. -/
def fRsqrt (x : FVal) : FRes :=
  if x.isZero then { v := .inf x.neg?, ovf := true }
  else if x.neg? then { v := .nan, invalid := evDomain }
  else { v := fnRsqrt x }

/-- RSQRT (R280): of a negative number it is NaN, with INVALID_DOMAIN.
DESIGN CHOICE, unsafe (assumption 24). -/
def opRsqrt (i : Issue) (v : VDst) (a : VSrc) (s : State) : Op :=
  s.vecNum i v [a] isFloat (fun ys => fRsqrt (fArg ys 0)) fun _ => 0

/-- The parameters of an activation that an element reads, for the events of R285. -/
def actOperands (f : Act) (p : ActPar) (x : FVal) : List FVal :=
  match f with
  | .leaky _ => if x.neg? && !x.isZero then [p.slope] else []
  | .clamp _ _ => [p.lo, p.hi].filter FVal.isNan
  | _ => []

/-- ACT (R243, R279): an invalid operation is none of its causes (R285). -/
def opAct (i : Issue) (v : VDst) (a : VSrc) (f : Act) (s : State) : Op :=
  let c := s.core i.core
  let p := c.actPar f
  s.vecOp i v [a] (actRegs f) [v.fmt] false
    (if !isFloat v.fmt then some opFormat else if f == .unknown || badClamp f p true then some opEpilogue else none) fun s =>
    s.vecTile i.core c v fun e =>
      let x := (fSpec v.fmt).decode (c.elem v.fmt a e)
      floatElem v.fmt (x :: actOperands f p x) (applyAct f p x).1 0 false

/-! ### Modular operations (R281) -/

/-- A residue operation of prime selectors, which counts as `ops` vector modular operations for each element. -/
def State.vecMod (s : State) (i : Issue) (v : VDst) (xs : List VSrc) (qs : List PSel) (ops : Nat) (f : List Nat → List Nat → Nat) : Op :=
  let c := s.core i.core
  s.vecOp i v xs (qs.flatMap selRegs) [v.fmt] false
    (match fmtFamily v.fmt with
      | none => some opFormat
      | some fam => if qs.all (c.primesOk fam) then none else some opPrime) fun s =>
    (s.work i.core 10 (1024 * ops)).vecTile i.core c v fun e =>
      let ps := qs.map fun q => c.primeAt v.fmt (some q) e
      (f ps (xs.map fun x => c.elem v.fmt x e % ps.headD 1), {})

def nArg (xs : List Nat) (k : Nat) : Nat := xs.getD k 0
/-- The difference of two residues. -/
def subMod (q a b : Nat) : Nat := (a + (q - b)) % q

/-- MADD (R281). -/
def opMadd (i : Issue) (v : VDst) (a b : VSrc) (q : PSel) (s : State) : Op :=
  s.vecMod i v [a, b] [q] 1 fun ps xs => (nArg xs 0 + nArg xs 1) % nArg ps 0
/-- MSUB (R281). -/
def opMsub (i : Issue) (v : VDst) (a b : VSrc) (q : PSel) (s : State) : Op :=
  s.vecMod i v [a, b] [q] 1 fun ps xs => subMod (nArg ps 0) (nArg xs 0) (nArg xs 1)
/-- MNEG (R281). -/
def opMneg (i : Issue) (v : VDst) (a : VSrc) (q : PSel) (s : State) : Op :=
  s.vecMod i v [a] [q] 1 fun ps xs => subMod (nArg ps 0) 0 (nArg xs 0)
/-- MMUL (R281). -/
def opMmul (i : Issue) (v : VDst) (a b : VSrc) (q : PSel) (s : State) : Op :=
  s.vecMod i v [a, b] [q] 1 fun ps xs => nArg xs 0 * nArg xs 1 % nArg ps 0
/-- MFMA (R281). -/
def opMfma (i : Issue) (v : VDst) (a b c : VSrc) (q : PSel) (s : State) : Op :=
  s.vecMod i v [a, b, c] [q] 2 fun ps xs => (nArg xs 0 * nArg xs 1 + nArg xs 2) % nArg ps 0
/-- MSUBMUL (R281). -/
def opMsubmul (i : Issue) (v : VDst) (a b c : VSrc) (q : PSel) (s : State) : Op :=
  s.vecMod i v [a, b, c] [q] 2 fun ps xs => subMod (nArg ps 0) (nArg xs 0) (nArg xs 1) * nArg xs 2 % nArg ps 0
/-- MCENTRE (R281): the centred representative modulo the source prime, reduced modulo the destination prime. -/
def opMcentre (i : Issue) (v : VDst) (a : VSrc) (q q2 : PSel) (s : State) : Op :=
  s.vecMod i v [a] [q, q2] 1 fun ps xs => intMod (centred (nArg ps 0) (nArg xs 0)) (nArg ps 1)

/-! ### Conversions (R282) -/

/-- A selector that a residue format must have, and whose indices lie within its family. -/
def CoreSt.selOk (c : CoreSt) (f : Fmt) (q : Option PSel) : Bool :=
  match fmtFamily f, q with
  | some fam, some x => c.primesOk fam x
  | _, _ => true

def selMissing (f : Fmt) (q : Option PSel) : Bool := (fmtFamily f).isSome && q.isNone

/-- The conversion takes a scale: between a residue and a float format. -/
def scaled (f d : Fmt) : Bool := (fmtClass f == .residue && isFloat d) || (isFloat f && fmtClass d == .residue)

/-- The registers that an operand reads where its format needs it. -/
def selRegsFor (f : Fmt) (q : Option PSel) : List Nat := if (fmtFamily f).isSome then (q.map selRegs).getD [] else []

/-- VCVT (R282). -/
def opVcvt (i : Issue) (v : VDst) (a : VSrc) (df : Fmt) (q q2 : Option PSel) (sigma : Option SReg) (s : State) : Op :=
  let c := s.core i.core
  let sc : Option (Nat × Int) := sigma.bind fun r => scaleOf (c.s r)
  s.vecOp i v [a] (selRegsFor v.fmt q ++ selRegsFor df q2 ++ (if scaled v.fmt df then (sigma.map rS).toList else [])) [v.fmt, df]
    (selMissing v.fmt q || selMissing df q2 || (scaled v.fmt df && sigma.isNone))
    (if v.fmt = df then some opMismatch
     else if !c.selOk v.fmt q || !c.selOk df q2 then some opPrime
     else if scaled v.fmt df && sc.isNone then some 7
     else none) fun s =>
    let x := sc.getD (1, 0)
    s.vecTile i.core c { v with fmt := df } fun e =>
      let r := convert v.fmt df (c.primeAt v.fmt q e) (c.primeAt df q2 e) x.1 x.2 (c.elem v.fmt a e)
      let h := Hist.ofEvents r.2
      (r.1, if isFloat df && r.2 == [evOverflow] then h.see ((fSpec df).decode r.1) else h)

/-- VMOV (R282): the containers, unchanged; nothing is recorded. -/
def opVmov (i : Issue) (d a : TReg) (s : State) : Op :=
  let t := (s.core i.core).t a
  { slot := slotVector, uses := { reads := [rT a], writes := [rT d] },
    act := s.needs i.core slotVector [] [engVector] (.effect fun s =>
      s.vecResult i.core { fmt := .z36, alt := none, d := d, mask := { row := none, col := none, zero := false }, status := none } t emptyStatus) }

/-! ### Reductions (R283) -/

def redSum : Nat := 0
def redMsum : Nat := 1
def redMax : Nat := 2
def redMin : Nat := 3

/-- The elements of line `l`, by position. -/
def lineElem (col : Bool) (l p : Nat) : Nat := if col then 32 * p + l else 32 * l + p

/-- The events of a float line: those of its inputs, of the tree and of the result. -/
def lineEvents (xs : List FVal) (tree : Nat) (ovf : Bool) : Hist := Hist.ofEvents (floatEvents xs tree ovf)

/-- A float line reduced: the field in the destination format, and its history. A NaN that the tree produced without a NaN among
its inputs is that of opposite infinities. -/
def redFloat (df : Fmt) (kind : Nat) (xs : List (Option FVal)) : Nat × Hist :=
  let on := xs.filterMap id
  let p := fSpec df
  if kind = redSum then
    let t := treeSum totalSpec 0 5 (xs.map fun x => x.getD (.fin true 0 0)) {}
    let w := p.round t.1
    let h := lineEvents on (if t.2.nan && !on.any FVal.isNan then evInfInf else 0) (w.2 || t.2.ovf)
    (p.encode w.1, ({ h with inf := t.2.inf, nan := t.2.nan }).see w.1)
  else
    let r := on.foldl (fun a x => match a with
      | none => some x
      | some y => some (if kind = redMax then fMax y x else fMin y x)) (none : Option FVal)
    let v := r.getD (.fin false 0 0)
    let w := p.round v
    (p.encode w.1, ((lineEvents on 0 w.2).see v).see w.1)

/-- An integer line reduced. -/
def redInt (df : Fmt) (kind : Nat) (xs : List (Option Int)) : Nat × Hist :=
  let on := xs.filterMap id
  let r := if kind = redSum then on.foldl (· + ·) 0
    else (on.foldl (fun a x => match a with
      | none => some x
      | some y => some (if kind = redMax then max y x else min y x)) (none : Option Int)).getD 0
  intElem df r

/-- The selector of an MSUM has the axis of its reduction. -/
def msumAxis (col : Bool) : PSel → Bool
  | .uniform _ => true
  | .perCol _ => col
  | .perRow _ => !col

/-- The first detail of R287 that a reduction fails. -/
def redDetail (c : CoreSt) (v : VDst) (df : Fmt) (kind : Nat) (col : Bool) (q : Option PSel) : Option Nat :=
  if (if kind = redMsum then fmtClass v.fmt != .residue else !isArith v.fmt) then some opFormat
  else if (if kind = redMsum then df != v.fmt else fmtClass df != fmtClass v.fmt) then some opMismatch
  else if kind = redMsum && !(c.selOk v.fmt q && q.all (msumAxis col)) then some opPrime
  else none

/-- VRED (R283, R284): a line is written where it has an unmasked element; the rest follows the mask mode. -/
def opVred (i : Issue) (v : VDst) (a : VSrc) (df : Fmt) (kind : Nat) (col : Bool) (q : Option PSel) (s : State) : Op :=
  let c := s.core i.core
  s.vecOp i v [a] (if kind = redMsum then (q.map selRegs).getD [] else []) [v.fmt, df] (3 < kind || (kind == redMsum && q.isNone))
    (redDetail c v df kind col q) fun s =>
    let line (l : Nat) : Nat × Hist :=
      let xs := (List.range 32).map fun p =>
        let e := lineElem col l p
        if c.on v.mask e then some (c.elem v.fmt a e) else none
      match fmtClass v.fmt with
      | .float => redFloat df kind (xs.map fun x => x.map (fSpec v.fmt).decode)
      | .int => redInt df kind (xs.map fun x => x.map (intRead v.fmt))
      | .residue =>
        let p := c.primeAt v.fmt q (lineElem col l 0)
        (xs.foldl (fun t x => (t + x.getD 0) % p) 0, {})
    let written (e : Nat) : Bool :=
      (if col then rowOf e == 0 else colOf e == 0) &&
        (List.range 32).any fun p => c.on v.mask (lineElem col (if col then colOf e else rowOf e) p)
    let out := (List.range 1024).map fun e => if written e then line (if col then colOf e else rowOf e) else (0, {})
    let t := (List.range 1024).map fun e =>
      if written e then BitVec.ofNat 36 (out.getD e (0, {})).1
      else if maskZeroes v.mask then 0 else tileAt (c.t v.d) e
    s.vecResult i.core v t (statusWord false (out.map Prod.snd))

/-- VECTOR_RESULT_WRITTEN (R274, R286): the oldest result reaches its tile, with its status word. -/
def execVectorResultWritten (core : Nat) (e : EngCheck) (s : State) : Outcome :=
  let c := s.core core
  match c.vecQ with
  | [] => .next s
  | x :: xs =>
    if !s.live then .next s
    else
      let d := ((c.setT x.d x.v).writeStatus x.status x.word).noteStatus x.stamp 2 x.bundle x.word
      .next (((s.setCore core { d with vecQ := xs }).work core 7 (b2n (affectedOf x.word != 0) 1)).engineCheck core slotVector x.bundle {} e)

end Sys2Proof.Machine
end

