-- ==== Sys2Proof/Machine/Copies.lean ====
section
/-! DEFINITION. The transforming-copy engines: MOVE, TRANSPOSE, GALOIS and GATHER, the deckle, staging and races (R314 to
R325). -/

namespace Sys2Proof.Machine

/-! ### Elements of a matrix -/

/-- One element read or written: row and column. -/
abbrev Cell := Nat × Nat

/-- The layout of a matrix: none for FROM_HANDLE on an unstructured handle; an empty entry fails the address check. -/
def State.matLayout (s : State) (j : Nat) (m : Mat) : Option Layout :=
  match m.form with
  | .blocked a b => some (.blocked a b)
  | .rowMajor rs cs => some (.rows rs cs)
  | .fromHandle rs cs =>
    match s.job j with
    | none => some .leaf
    | some x => if (x.handle m.loc.h).space = spEmpty then some .leaf else (x.handle m.loc.h).layoutOf rs cs

/-- The bit address of a cell. -/
def cellBit (f : Fmt) (y : Layout) (m : Mat) (c : Cell) : Int := elemBit f y m.loc.off m.cols c.1 c.2

/-- The bytes from the lowest to the highest cell of a list (R311). -/
def cellExtent (f : Fmt) (y : Layout) (m : Mat) (cs : List Cell) : Int × Int :=
  match cs.map (cellBit f y m) with
  | [] => (m.loc.off, m.loc.off)
  | b :: bs =>
    (bs.foldl min b / 8, (bs.foldl max b + fmtWidth f + 7) / 8)

/-- The cells of a rectangle, in row-major order. -/
def rect (r c h w : Nat) : List Cell := (List.range h).flatMap fun i => (List.range w).map fun k => (r + i, c + k)

/-! ### Slices and the deckle (R310, R320) -/

/-- The height and the width of a slice at its destination. -/
def sliceDst (tr : Bool) (x : Slice) : Nat × Nat := if tr then (x.w, x.h) else (x.h, x.w)

/-- The source and destination cells of a slice's data. -/
def sliceData (tr : Bool) (x : Slice) : List (Cell × Cell) :=
  (rect 0 0 x.h x.w).map fun p => ((x.rs + p.1, x.cs + p.2), if tr then (x.rd + p.2, x.cd + p.1) else (x.rd + p.1, x.cd + p.2))

/-- The destination rectangle of a slice with its margins, clipped to the matrix: first row, first column, rows, columns.
DEDUCED, unsafe (assumption 32). -/
def sliceFrame (tr : Bool) (m : Mat) (x : Slice) : Nat × Nat × Nat × Nat :=
  let d := sliceDst tr x
  let r0 := x.rd - x.t
  let c0 := x.cd - x.l
  let r1 := min m.rows (x.rd + d.1 + x.b)
  let c1 := min m.cols (x.cd + d.2 + x.r)
  (r0, c0, r1 - r0, c1 - c0)

/-- The edge elements that a write of a frame fills: those of its leaves, and the leaves of only edge elements in
its posts. -/
def edgeCells (a b : Nat) (m : Mat) (fr : Nat × Nat × Nat × Nat) : List Cell :=
  let ph := 32 * 2 ^ a
  let pw := 32 * 2 ^ b
  let leaves := (rect fr.1 fr.2.1 fr.2.2.1 fr.2.2.2).map (fun c => (c.1 / 32, c.2 / 32)) |>.dedup
  let posts := (rect fr.1 fr.2.1 fr.2.2.1 fr.2.2.2).map (fun c => (c.1 / ph, c.2 / pw)) |>.dedup
  let isEdge (c : Cell) : Bool := m.rows ≤ c.1 || m.cols ≤ c.2
  let inLeaf := leaves.flatMap fun l => (rect (32 * l.1) (32 * l.2) 32 32).filter isEdge
  let only := posts.flatMap fun p =>
    ((rect (2 ^ a * p.1) (2 ^ b * p.2) (2 ^ a) (2 ^ b)).filter fun l => m.rows ≤ 32 * l.1 || m.cols ≤ 32 * l.2).flatMap fun l =>
      rect (32 * l.1) (32 * l.2) 32 32
  inLeaf ++ only

/-- The cells of a slice's deckle: its frame, and the edge elements of the leaves it writes.
DEDUCED, unsafe (assumption 32). -/
def sliceDeckle (tr : Bool) (y : Layout) (m : Mat) (x : Slice) : List Cell :=
  let fr := sliceFrame tr m x
  rect fr.1 fr.2.1 fr.2.2.1 fr.2.2.2 ++ (match y with
    | .blocked a b => edgeCells a b m fr
    | _ => [])

/-- A slice outside its matrices or its limits (R320). -/
def sliceBad (tr : Bool) (src dst : Mat) (x : Slice) : Bool :=
  let d := sliceDst tr x
  src.rows < x.rs + x.h || src.cols < x.cs + x.w || dst.rows < x.rd + d.1 || dst.cols < x.cd + d.2 ||
    32 < x.t || 32 < x.b || 32 < x.l || 32 < x.r

/-! ### Footprints (R318, R322) -/

/-- The sectors, by place, that bit addresses of a handle lie in. The two copies of a block count as one. -/
def State.sectors (s : State) (j h : Nat) (bits : List (Nat × Nat)) : List Nat :=
  match s.job j with
  | none => []
  | some x =>
    let e := x.handle h
    let offs := (bits.flatMap fun p => fromTo (p.1 / 512) ((p.1 + p.2 - 1) / 512 + 1)).dedup
    offs.map fun o =>
      match s.place e e.baseA (o * 64) with
      | .sram a => a / 64
      | .hbm a => 2 ^ 40 + a / 64

/-- The bit runs of cells. -/
def cellRuns (f : Fmt) (y : Layout) (m : Mat) (cs : List Cell) : List (Nat × Nat) :=
  cs.map fun c => ((cellBit f y m c).toNat, fmtWidth f)

def maxStaging : Nat := 4 * 2 ^ 20

/-- The bytes in sectors that two footprints share. -/
def overlapOf (a b : List Nat) : Nat := 64 * (a.filter b.contains).length

/-! ### The queues (R314, R319, R322) -/

def CoreSt.xq (c : CoreSt) (q : BitVec 1) : List XcQ := if q = 0 then c.xq0 else c.xq1
def CoreSt.setXq (c : CoreSt) (q : BitVec 1) (x : List XcQ) : CoreSt := if q = 0 then { c with xq0 := x } else { c with xq1 := x }

/-- The commands in flight of the other queues of a job. -/
def State.otherCopies (s : State) (j n : Nat) (q : BitVec 1) : List XcQ :=
  match s.job j with
  | none => []
  | some x => x.cores.flatMap fun m =>
      (if m = n ∧ q = 0 then [] else (s.core m).xq0) ++ (if m = n ∧ q = 1 then [] else (s.core m).xq1)

/-- Races of a command with those in flight (R322): counted once per shared sector, with the first sector's place in
the command's destination handle. -/
def State.noteRaces (s : State) (j : Nat) (others : List XcQ) (foot : List Nat) (h : Nat) (offs : List Nat) : State :=
  let hits := others.flatMap fun x => foot.filter x.foot.contains
  match hits.head? with
  | none => s
  | some first =>
    match s.job j with
    | none => s
    | some x =>
      let off := 64 * offs.getD (foot.idxOf first) 0
      let seen := (s.port x.owner).xcRace.getLsbD (j - 1)
      let s := s.modPort x.owner fun p => { p with xcRace := p.xcRace ||| (1 <<< (j - 1) : BitVec 16) }
      s.modJob j fun x =>
        { x with races := satAdd 0xFFFFFFFF x.races hits.length,
                 firstRace := if seen then x.firstRace else h % 4096 * 2 ^ 52 + off % 2 ^ 40 }

/-- A command put in its queue, its destination written; without overlap it needs no staging.
DESIGN CHOICE, unsafe (assumption 38). -/
def State.queueCopy (s : State) (n : Nat) (hd : CopyHead) (staging h : Nat) (runs : List (Nat × Nat)) (mem : Touched) : State :=
  let j := (s.core n).job
  let foot := s.sectors j h runs
  let offs := (runs.flatMap fun p => fromTo (p.1 / 512) ((p.1 + p.2 - 1) / 512 + 1)).dedup
  let s := s.noteRaces j (s.otherCopies j n hd.queue) foot h offs
  let s := s.modCore n fun c =>
    c.setXq hd.queue (c.xq hd.queue ++
      [{ stamp := c.stamp, order := s.xcOrder, staging := staging, granted := staging == 0, sem := hd.sem, bundle := c.bundle, foot := foot,
         mem := mem }])
  { s with xcOrder := s.xcOrder + 1 }

/-- A command: it waits while its queue is full. -/
def State.copyOp (s : State) (i : Issue) (hd : CopyHead) (reads mem : List Nat) (act : OpAct) : Op :=
  { slot := slotStore, uses := { reads := reads, mem := mem, ready := decide (((s.core i.core).xq hd.queue).length < 8) },
    act := s.needs i.core slotStore [hd.fmt] [] (
      match hd.sem, s.job (s.core i.core).job with
      | some k, some x => if x.semCount ≤ k then seqStop i.core slotStore sqSync else act
      | _, _ => act) }

/-! ### The checks at issue (R311, R315, R319, R323) -/

def matBad (m : Mat) : Bool := m.rows == 0 || 2 ^ 20 < m.rows || m.cols == 0 || 2 ^ 20 < m.cols

/-- The bytes of a bit run. -/
def runBytes (p : Nat × Nat) : Nat × Nat := bitSpan p.1 p.2

/-- What a copy touches: the bit runs that it reads, by handle, and those of its destination, of whose words or sectors it reads the rest
where it covers only part (R111). -/
def State.copyTouched (s : State) (j : Nat) (reads : List (Nat × List (Nat × Nat))) (h : Nat) (runs : List (Nat × Nat)) : Touched :=
  let old := s.partOld j h runs
  s.touched j ((reads.flatMap fun r => r.2.map fun p => (r.1, runBytes p)) ++ old.map fun c => (c.1, c.2.1, c.2.2.length)) old

/-- A stale or misplaced end of a copy: its detail, handle and offset. Rows are checked from their lowest to their highest byte
(R311); a blocked matrix meets a bank outside the job's map only where its footprint touches it (R325). -/
def State.matFault (s : State) (j : Nat) (f : Fmt) (y : Layout) (m : Mat) (cs : List Cell) (write : Bool) : Option (Nat × Loc) :=
  let spaces := [spSram, spHbm]
  let dark : Bool := match y with
    | .rows _ _ => true
    | _ => (cellRuns f y m cs).any fun p => s.accessFault j m.loc.h (runBytes p).1 (runBytes p).2 write spaces == some shBank
  match s.extentFault j m.loc.h (cellExtent f y m cs) write spaces with
  | none => none
  | some k => if k = shBank ∧ !dark then none else some (k, m.loc)

/-- The checks of a copy's two descriptors: the alignment of either end, then a format that the command does not take, an extent out
of range, or what else `own` names. `loose` says that a limb does not begin on 64 bytes. -/
def State.copyEnds (s : State) (n : Nat) (f : Fmt) (src dst : Mat) (loose : Bool) (own : Option Nat) (act : Layout → Layout → OpAct) : OpAct :=
  let j := (s.core n).job
  let ys := s.matLayout j src
  let yd := s.matLayout j dst
  if loose || ys.any (misaligned f · src.loc.off) || yd.any (misaligned f · dst.loc.off) then seqStop n slotStore sqMisaligned
  else if own = some opFormat then argStop n slotStore opFormat
  else match ys, yd with
    | some ys, some yd =>
      if matBad src || matBad dst || badStrides f ys false || badStrides f yd true then argStop n slotStore opExtent
      else match own with
        | some d => argStop n slotStore d
        | none => act ys yd
    | _, _ => argStop n slotStore opExtent

/-- OVERLAP_TOO_LARGE, where the overlap does not fit in the staging buffer (R319). -/
def overlapStop (n v : Nat) (dst : Loc) (act : OpAct) : OpAct :=
  if maxStaging < v then .stop 6 fun s => s.program n 0x030D 0 slotStore dst.h (le 8 dst.off ++ le 8 v) else act

/-- An owner tag that refuses a read of the source (R353): the storage fault of the sector that it marks (R110, R323). -/
def State.copyTag (s : State) (n h : Nat) (runs : List (Nat × Nat)) (go : State) : State :=
  let j := (s.core n).job
  match runs.findSome? fun p => (s.tagRefuses j h (runBytes p).1 (runBytes p).2).map fun t => ((runBytes p).1, t) with
  | none => go
  | some (off, t, o) => s.readFault j h off (.tag t o) n slotStore (s.core n).bundle

/-! ### MOVE and TRANSPOSE -/

/-- The values of cells read whole, then written in order, each where it goes. -/
def State.writeCells (s : State) (j : Nat) (f : Fmt) (y : Layout) (m : Mat) (ws : List (Cell × Nat)) : State :=
  s.each ws fun s w => s.storeBits j m.loc.h (cellBit f y m w.1).toNat (fmtWidth f) w.2

def State.readCell (s : State) (j : Nat) (f : Fmt) (y : Layout) (m : Mat) (c : Cell) : Nat :=
  s.loadBits j m.loc.h (cellBit f y m c).toNat (fmtWidth f)

/-- A copy of cells checked and run: `data` pairs source and destination cells, `deckle` gives the fixed values, which
the data prevails on (R320). -/
def State.copyCells (s : State) (n : Nat) (hd : CopyHead) (src dst : Mat) (bad : Bool) (data : List (Cell × Cell))
    (deckle : Layout → List (Cell × Nat)) : OpAct :=
  let j := (s.core n).job
  let f := hd.fmt
  s.copyEnds n f src dst false (if bad then some opExtent else none) fun ys yd =>
    let dk := deckle yd
    let rs := data.map Prod.fst
    let ws := dk.map Prod.fst ++ data.map Prod.snd
    match (s.matFault j f ys src rs false).or (s.matFault j f yd dst ws true) with
    | some (k, l) => staleStop n slotStore k l.h l.off
    | none =>
      let runs := cellRuns f yd dst ws
      let v := overlapOf (s.sectors j src.loc.h (cellRuns f ys src rs)) (s.sectors j dst.loc.h runs)
      let vals := data.map fun p => (p.2, s.readCell j f ys src p.1)
      overlapStop n v dst.loc (.effect fun s =>
        let mem := s.copyTouched j [(src.loc.h, cellRuns f ys src rs)] dst.loc.h runs
        s.copyTag n src.loc.h (cellRuns f ys src rs) ((s.writeCells j f yd dst (dk ++ vals)).queueCopy n hd v dst.loc.h runs mem))

/-- A MOVE or TRANSPOSE of slices. -/
def State.sliceCopy (s : State) (i : Issue) (tr : Bool) (hd : CopyHead) (src dst : Mat) (xs : List Slice) : Op :=
  let c := s.core i.core
  let value (x : Slice) : Nat := match x.value with
    | none => 0
    | some r => (c.s r).toNat % 2 ^ fmtWidth hd.fmt
  s.copyOp i hd (xs.flatMap fun x => (x.value.map rS).toList) [src.loc.h, dst.loc.h]
    (s.copyCells i.core hd src dst (xs.isEmpty || 8 < xs.length || xs.any (sliceBad tr src dst)) (xs.flatMap (sliceData tr)) fun y =>
      xs.flatMap fun x => (sliceDeckle tr y dst x).map fun p => (p, value x))

/-- XCOPY MOVE (R316). -/
def opXcopyMove (i : Issue) (h : CopyHead) (src dst : Mat) (slices : List Slice) (s : State) : Op :=
  s.sliceCopy i false h src dst slices

/-- XCOPY TRANSPOSE (R316). -/
def opXcopyTranspose (i : Issue) (h : CopyHead) (src dst : Mat) (slices : List Slice) (s : State) : Op :=
  s.sliceCopy i true h src dst slices

/-! ### GALOIS (R187, R316, R323) -/

/-- The place that the automorphism X → X^g takes position `k` from (R187). -/
def galoisFrom (logN g k : Nat) : Nat := bitRev logN (((g * (2 * bitRev logN k + 1)) % 2 ^ (logN + 1) - 1) / 2)

/-- The automorphism of a limb in evaluation form. -/
def galoisLimb (logN g : Nat) (a : List Nat) : List Nat := (List.range (2 ^ logN)).map fun k => a.getD (galoisFrom logN g k) 0

/-- The detail that a GALOIS command fails. -/
def galoisDetail (f : Fmt) (n g limbs stride : Nat) : Option Nat :=
  if f ≠ .z36 ∧ f ≠ .z28 then some opFormat
  else if (sizeLog n).isNone ∨ limbs = 0 ∨ 64 < limbs ∨ stride % 64 ≠ 0 ∨ g % 2 = 0 ∨ 2 * n ≤ g then some opExtent
  else if f = .z28 ∧ n = 2 ^ 17 then some opPrime
  else none

/-- A stale end of a GALOIS command: the first limb whose bytes fail the address check. -/
def State.limbFault (s : State) (j : Nat) (l : Loc) (limbs stride b : Nat) (write : Bool) : Option (Nat × Loc) :=
  ((List.range limbs).filterMap fun x => s.accessFault j l.h (l.off + x * stride) b write [spSram, spHbm]).min?.map fun k => (k, l)

/-- XCOPY GALOIS (R316): limb by limb, each limb one copy for the overlap (R318). Its descriptors are checked as those of every copy;
its limbs lie where R138 places them, a stride apart from the offset on.
DEDUCED, unsafe (assumption 147). -/
def opXcopyGalois (i : Issue) (h : CopyHead) (src dst : Mat) (n g limbs stride : Nat) (s : State) : Op :=
  let c := i.core
  let j := (s.core c).job
  let b := n / 8 * fmtWidth h.fmt
  let run (l : Loc) (x : Nat) : List (Nat × Nat) := [(8 * (l.off + x * stride), 8 * b)]
  s.copyOp i h [] [src.loc.h, dst.loc.h] (
    s.copyEnds c h.fmt src dst (src.loc.off % 64 != 0 || dst.loc.off % 64 != 0) (galoisDetail h.fmt n g limbs stride) fun _ _ =>
      match (s.limbFault j src.loc limbs stride b false).or (s.limbFault j dst.loc limbs stride b true) with
      | some (k, l) => staleStop c slotStore k l.h l.off
      | none =>
        let v := ((List.range limbs).map fun x =>
          overlapOf (s.sectors j src.loc.h (run src.loc x)) (s.sectors j dst.loc.h (run dst.loc x))).foldl max 0
        overlapStop c v dst.loc (.effect fun s =>
          let mem := s.copyTouched j [(src.loc.h, (List.range limbs).flatMap (run src.loc))] dst.loc.h []
          s.copyTag c src.loc.h ((List.range limbs).flatMap (run src.loc)) (
            let s' := s.each (List.range limbs) fun s x =>
              let a := unpackLimb h.fmt n (s.load j src.loc.h (src.loc.off + x * stride) b)
              s.store j dst.loc.h (dst.loc.off + x * stride) (packLimb h.fmt n (galoisLimb ((sizeLog n).getD 0) g a))
            s'.queueCopy c h v dst.loc.h ((List.range limbs).flatMap (run dst.loc)) mem)))

/-! ### GATHER (R316, R323) -/

/-- The cells that a GATHER writes as deckle: the edge elements of its destination's leaves, with the zero code (R310).
DEDUCED, unsafe (assumption 32). -/
def gatherDeckle (y : Layout) (m : Mat) : List (Cell × Nat) :=
  match y with
  | .blocked a b => (edgeCells a b m (0, 0, m.rows, m.cols)).map fun c => (c, 0)
  | _ => []

/-- XCOPY GATHER (R316): the engine reads the whole index table first; an index beyond the source writes nothing and stops the job,
naming the first bad position.
DESIGN CHOICE, unsafe (assumption 40). -/
def opXcopyGather (i : Issue) (h : CopyHead) (src dst : Mat) (index : Loc) (s : State) : Op :=
  let c := i.core
  let f := h.fmt
  let j := (s.core c).job
  let n := dst.rows * dst.cols
  let at_ (e : Nat) : Nat := leVal (s.load j index.h (index.off + 4 * e) 4)
  let table : List (Nat × Nat) := [(8 * index.off, 32 * n)]
  s.copyOp i h [] [src.loc.h, dst.loc.h, index.h] (s.copyEnds c f src dst false (if 2 ^ 20 < n then some opExtent else none) fun ys yd =>
    let rs := rect 0 0 src.rows src.cols
    let dk := gatherDeckle yd dst
    let ws := dk.map Prod.fst ++ rect 0 0 dst.rows dst.cols
    let ix := (s.accessFault j index.h index.off (4 * n) false [spSram, spHbm]).map fun k => (k, index)
    match ((s.matFault j f ys src rs false).or ix).or (s.matFault j f yd dst ws true) with
    | some (k, l) => staleStop c slotStore k l.h l.off
    | none =>
      let runs := cellRuns f yd dst ws
      let sf := s.sectors j src.loc.h (cellRuns f ys src rs) ++ s.sectors j index.h table
      let v := overlapOf sf.dedup (s.sectors j dst.loc.h runs)
      let vals := (List.range n).map fun e =>
        ((e / dst.cols, e % dst.cols), s.readCell j f ys src (at_ e / src.cols, at_ e % src.cols))
      let bad := (List.range n).find? fun e => src.rows * src.cols ≤ at_ e
      overlapStop c v dst.loc (.effect fun s =>
        let mem := s.copyTouched j [(index.h, table), (src.loc.h, cellRuns f ys src rs)] dst.loc.h runs
        s.copyTag c index.h table (match bad with
          | some e => s.opFault c slotStore opExtent e
          | none => s.copyTag c src.loc.h (cellRuns f ys src rs) ((s.writeCells j f yd dst (dk ++ vals)).queueCopy c h v dst.loc.h runs mem))))

/-! ### Staging and completion (R317, R319, R323) -/

/-- The copies in flight of the cores of a mill, of those of existing jobs. -/
def State.millCopies (s : State) (m : Nat) : List XcQ := (s.coresOf m).flatMap fun n => (s.core n).xq0 ++ (s.core n).xq1

/-- A copy moves elements: the sheet is not one without progress (R221, R314). -/
def State.copyMoves (s : State) (j : Nat) : State := s.modJob j fun x => { x with stuck := false }

/-- XCOPY_STAGING_GRANTED (R319): the oldest waiting command of the engine starts once its staging is free. -/
def execXcopyStagingGranted (core : Nat) (queue : BitVec 1) (s : State) : Outcome :=
  let c := s.core core
  let all := s.millCopies (s.millOf core)
  match (c.xq queue).find? fun x => !x.granted with
  | none => .next s
  | some x =>
    let taken := ((all.filter XcQ.granted).map XcQ.staging).foldl (· + ·) 0
    if s.live ∧ all.all (fun y => y.granted || x.order ≤ y.order) ∧ taken + x.staging ≤ maxStaging then
      .next ((s.setCore core (c.setXq queue ((c.xq queue).map fun y => if y.order = x.order then { y with granted := true } else y))).copyMoves c.job)
    else .next s

/-- The jobs with cores on a mill. -/
def State.jobsOnMill (s : State) (m : Nat) : List Nat :=
  s.runningJobs.filter fun j => (s.job j).any fun x => x.cores.any fun n => s.millOf n == m

/-- XCOPY_COMPLETE (R317): the oldest command of a queue completes and sends its SIG. A failed check of the engine
reaches every job on the mill, an error in the staging buffer every job with a command in it (R323).
DESIGN CHOICE, unsafe (assumption 38). -/
def execXcopyComplete (core : Nat) (queue : BitVec 1) (e : EngCheck) (s : State) : Outcome :=
  let c := s.core core
  let m := s.millOf core
  match c.xq queue with
  | [] => .next s
  | x :: xs =>
    if !s.live ∨ !x.granted then .next s
    else match checkOf e x.mem with
      | .good =>
        let s := ((s.setCore core (c.setXq queue xs)).copyMoves c.job).settle c.job
        .next (match x.sem with
          | none => s
          | some k => s.sendSig c.job k 1 core slotStore x.bundle)
      | .datapath =>
        .next (s.each (s.jobsOnMill m) fun s j =>
          s.beginReplay j { contained := false, code := 0x0505, res := { res := .core, index := core }, detail := 0, tag := 0 })
      | .storage =>
        let js := (s.jobsOnMill m).filter fun j => (s.coresOf m).any fun n =>
          (s.core n).job == j && !((s.core n).xq0.isEmpty && (s.core n).xq1.isEmpty)
        .next (s.each js fun s j => s.beginReplay j { contained := false, code := 0x0501, res := {}, detail := 0, tag := 0 })
      | .read _ _ _ =>
        .next (((s.setCore core (c.setXq queue xs)).unwrite c.job x.mem e).engineCheck core slotStore x.bundle x.mem e)

/-- A write of XC_RACE_SEEN (R324): a flag of a job of the other port is left alone; a cleared one zeroes the job's
count and first race. -/
def State.xcRaceWrite (s : State) (p : Port) (v : Reg) : State :=
  let clear := w1c v
  s.each (List.range 16) fun s i =>
    match s.job (i + 1) with
    | some x =>
      if bit clear i ∧ x.owner = p then
        (s.modPort p fun q => { q with xcRace := q.xcRace &&& ~~~(1 <<< i : BitVec 16) }).modJob (i + 1) fun x =>
          { x with races := 0, firstRace := 0 }
      else s
    | none => s

/-- A write of XC_RACE_SEEN (R324). -/
def execXcRaceSeenWrite (p : Port) (v : Reg) (s : State) : Outcome := .next (if s.regOk p then s.xcRaceWrite p v else s)

end Sys2Proof.Machine
end

