-- ==== Sys2Proof/Machine/Streams.lean ====
section
/-! DEFINITION. Stream channels, run-ahead, release and receive areas as streams use them, and the translation of host
pages (R105, R326 to R346). -/

namespace Sys2Proof.Machine

/-! ### The descriptor (R327, R328, R330) -/

/-- Elements of the stream. -/
def strmCount (f : Strm) : Nat := f.dims.foldl (fun a d => a * d.2) 1

/-- CREDIT mode: a ring above 1 MiB, or a stream to a quire link. -/
def strmCredit (f : Strm) : Bool := f.link || 2 ^ 20 < f.depth

/-- Elements in one unit of FULL and EMPTY. -/
def strmBlock (f : Strm) : Nat := if strmCredit f then 65536 / f.e else 1

/-- The strided part of element `n`'s offset, i0 varying fastest. -/
def strideSum : List (Int × Nat) → Nat → Int
  | [], _ => 0
  | (st, c) :: ds, n => (n % c : Nat) * st + strideSum ds (n / c)

/-- The far side's offset of element `n`. -/
def farOff (f : Strm) (n : Nat) : Nat := (f.far.off + strideSum f.dims n).toNat

/-- The buffer side's offset of element `n`. -/
def ringOff (f : Strm) (n : Nat) : Nat :=
  f.buf.off + (if strmCredit f then n / strmBlock f * 65536 + n % strmBlock f * f.e else n * f.e) % f.depth

/-- The far-side footprint. -/
def farExtent (f : Strm) : Int × Int :=
  let z (d : Int × Nat) : Int := d.1 * ((d.2 - 1 : Nat) : Int)
  ((f.dims.map z).foldl (fun a x => a + min 0 x) (f.far.off : Int), (f.dims.map z).foldl (fun a x => a + max 0 x) (f.far.off + f.e : Int))

/-- Pairs in increasing order of absolute stride. -/
def insertDim (d : Int × Nat) : List (Int × Nat) → List (Int × Nat)
  | [] => [d]
  | x :: xs => if d.1.natAbs ≤ x.1.natAbs then d :: x :: xs else x :: insertDim d xs

/-- The non-overlap test of a written far side, given the bytes that the pairs before take. -/
def spread : Nat → List (Int × Nat) → Bool
  | _, [] => true
  | w, d :: ds => w ≤ d.1.natAbs && spread (w + d.1.natAbs * (d.2 - 1)) ds

/-- The elements of a written far side overlap by the test. -/
def farOverlaps (f : Strm) : Bool := !spread f.e ((f.dims.filter fun d => 1 < d.2).foldr insertDim [])

/-- A field outside its range (R327, R328). -/
def strmBad (f : Strm) : Bool :=
  7 < f.channel || f.e < 64 || 65536 < f.e || f.e % 64 != 0 || f.depth == 0 || 256 * 2 ^ 20 < f.depth ||
    f.depth % (if f.depth ≤ 2 ^ 20 then f.e else 65536) != 0 || 5 < f.dims.length ||
    f.dims.any (fun d => d.2 == 0 || 2 ^ 24 < d.2 || d.1 % 64 != 0 || 2 ^ 40 ≤ d.1.natAbs) || 2 ^ 40 < strmCount f ||
    (f.outbound && farOverlaps f)

/-- The stream stages in a release area: outbound to a quire link or to host memory (R335). -/
def Job.staged (x : Job) (f : Strm) : Bool := f.outbound && (f.link || (x.handle f.far.h).space == spHost)

/-- The RELEASE field is none where it is needed, names a handle without the attribute, or is given where it is not
needed. An empty far side of an outbound stream fails the address check instead. -/
def Job.badRelease (x : Job) (f : Strm) : Bool :=
  if x.staged f then f.release == 0xFFFF || ((x.handle f.release).space != spEmpty && !(x.handle f.release).release)
  else f.release != 0xFFFF && (!f.outbound || f.link || (x.handle f.far.h).space != spEmpty)

/-- The first stale side of the stream: its detail, handle and offset (R329). -/
def State.strmStale (s : State) (j : Nat) (x : Job) (f : Strm) : Option (Nat × Loc) :=
  match (if f.link then none else s.extentFault j f.far.h (farExtent f) f.outbound [spSram, spHbm, spHost]) with
  | some k => some (k, f.far)
  | none =>
    match s.accessFault j f.buf.h f.buf.off f.depth (!f.outbound) [spSram, spHbm] with
    | some k => some (k, f.buf)
    | none => if x.staged f ∧ (x.handle f.release).space = spEmpty then some (shUnmapped, ⟨f.release, 0⟩) else none

/-! ### STRM and STRM.MARK (R326 to R331) -/

def CoreSt.chan (c : CoreSt) (k : Nat) : Option Chan := Tbl.get none c.chans k
def CoreSt.setChan (c : CoreSt) (k : Nat) (x : Option Chan) : CoreSt := { c with chans := Tbl.set c.chans k x }

def strmSlot (outbound : Bool) : Nat := if outbound then slotStore else slotLoad

/-- A side of the stream does not begin on 64 bytes, the unit that streams move (R228, R333).
DEDUCED, unsafe (assumption 43). -/
def strmMisaligned (f : Strm) : Bool := f.buf.off % 64 != 0 || (!f.link && f.far.off % 64 != 0)

/-- STRM (R327): waits in issue while the channel's stream has not completed; the engine takes the command at once.
DESIGN CHOICE, safe (assumption 3); DEDUCED, unsafe (assumption 43). -/
def opStrm (i : Issue) (f : Strm) (s : State) : Op :=
  let slot := strmSlot f.outbound
  let j := (s.core i.core).job
  { slot := slot, uses := { mem := [f.buf.h] ++ (if f.link then [] else [f.far.h]), ready := ((s.core i.core).chan f.channel).isNone },
    act := match s.job j with
      | none => .effect id
      | some x =>
        s.needs i.core slot [] (if f.link then [engLink] else []) (
          if x.semCount ≤ f.full ∨ x.semCount ≤ f.empty ∨ f.done.any (fun k => x.semCount ≤ k) then seqStop i.core slot sqSync
          else if strmMisaligned f then seqStop i.core slot sqMisaligned
          else if strmBad f || x.badRelease f then argStop i.core slot opExtent f.far.off
          else match s.strmStale j x f with
            | some (k, l) => staleStop i.core slot k l.h l.off
            | none => .effect (onCore i.core fun c =>
                c.setChan f.channel (some { f := f, bundle := c.bundle, pos := 0, sub := 0, mark := f.mark0, halt := none }))) }

/-- STRM.MARK (R331): raises the mark of a MARK stream of the same slot; anything else is ignored. -/
def opStrmMark (i : Issue) (channel mark : Nat) (outbound : Bool) (_s : State) : Op :=
  { slot := strmSlot outbound,
    act := if 7 < channel then argStop i.core (strmSlot outbound) opExtent
      else .effect (onCore i.core fun c =>
        match c.chan channel with
        | none => c
        | some h =>
          if strmCredit h.f || h.f.outbound != outbound then c
          else c.setChan channel (some { h with mark := max h.mark mark })) }

/-! ### Host pages (R337 to R341) -/

def Handle.pasid (e : Handle) : Nat := e.context % 2 ^ 20

/-- The job stops for a page (R339, R340): the channel, element and address are named; 0xFF for the release engine,
whose release is abandoned, of a job already stopped too (R336).
DEDUCED, unsafe (assumption 48). -/
def State.pageStop (s : State) (j code : Nat) (core slot bundle h channel element va : Nat) (inRelease : Bool) : State :=
  let s := if inRelease then s.dropReleases j else s
  s.stopJob j { code := code, core := core, slot := slot, bundle := bundle, handle := h,
                data := le 1 channel ++ le 8 element ++ le 8 va, inRelease := inRelease }

/-- The bytes of the next element that a stream has moved already (R333). -/
def Chan.moved (c : Chan) : Nat := 64 * c.sub

/-- The virtual address at which a stream goes on at its host far side. -/
def Job.strmVa (x : Job) (c : Chan) : Nat := (x.handle c.f.far.h).baseA + farOff c.f c.pos + c.moved

/-- The stream reads host memory itself: inbound with a host far side. -/
def Job.readsHost (x : Job) (f : Strm) : Bool := !f.outbound && !f.link && (x.handle f.far.h).space == spHost

/-! ### When an element may move (R331, R332) -/

/-- The engines of a job run: not in a quiesce, at a couch in hand, before its stride or in a macro sheet. -/
def State.enginesRun (s : State) (j : Nat) : Bool :=
  s.live && match s.job j with
    | none => false
    | some x => x.st == .running && x.quiesce.isNone && !x.couching && !x.begins && !x.suspended &&
        (x.inter.ph == .none || x.inter.ph == .halting)


/-- The bytes that a stream moves to reach a boundary of its next element. -/
def Chan.part (c : Chan) (upTo : Nat) : Nat := 64 * min upTo (c.f.e / 64) - c.moved

/-- A release area has room for `n` bytes more (R105). -/
def Job.room (x : Job) (h n : Nat) : Bool := (x.area h).write + n ≤ (x.area h).flush + (x.handle h).bound

/-- The stream reads a receive area, whose visible bytes bound it (R428). -/
def Job.readsArea (x : Job) (f : Strm) : Bool := !f.outbound && (x.handle f.far.h).receive

/-- The semaphore that the engine consumes for a unit, and the one that it signals. -/
def strmTakes (f : Strm) : Nat := if f.outbound then f.full else f.empty
def strmGives (f : Strm) : Nat := if f.outbound then f.empty else f.full

/-- The stream begins its unit; its next element is the last of its unit or of the stream. -/
def Chan.opens (c : Chan) : Bool := c.pos % strmBlock c.f == 0 && c.sub == 0
def Chan.ends (c : Chan) : Bool := (c.pos + 1) % strmBlock c.f == 0 || c.pos + 1 == strmCount c.f

/-- Marks, credits and the areas let the engine move the next `n` bytes. -/
def Job.strmReady (x : Job) (c : Chan) (n : Nat) : Bool :=
  (strmCredit c.f || c.pos < c.mark) && (!c.opens || 0 < x.sem (strmTakes c.f)) &&
    (!(c.f.link && c.opens) || 0 < Tbl.get 0 x.txCredits c.f.far.h) && (!x.staged c.f || x.room c.f.release n) &&
    (!x.readsArea c.f || (x.area c.f.far.h).write + n ≤ (x.area c.f.far.h).flush)

/-- The page that the next element of a stream awaits. -/
def State.strmAwaits (s : State) (x : Job) (c : Chan) : Option (Nat × Nat) :=
  if x.readsHost c.f && x.strmReady c (c.f.e - c.moved) then
    ((s.port x.owner).uncovered (x.handle c.f.far.h).pasid (x.strmVa c) (c.f.e - c.moved) false).map fun pg => ((x.handle c.f.far.h).pasid, pg)
  else none

/-! ### One element, or part of it -/

/-- Where a stream goes on at its buffer side and at its far side. -/
def Chan.bufLoc (c : Chan) : Loc := ⟨c.f.buf.h, ringOff c.f c.pos + c.moved⟩
def Chan.farLoc (c : Chan) : Loc := ⟨c.f.far.h, farOff c.f c.pos + c.moved⟩

/-- The next `n` bytes: of the buffer side for an outbound stream, else of the far side. -/
def State.strmData (s : State) (j : Nat) (x : Job) (c : Chan) (n : Nat) (host : Bytes) : Bytes :=
  if c.f.outbound then s.load j c.bufLoc.h c.bufLoc.off n
  else if x.readsHost c.f then fit n host
  else s.load j c.farLoc.h c.farLoc.off n

/-- Bytes written to a ring from a running byte count on. -/
def State.storeRing (s : State) (j h at_ : Nat) (data : Bytes) : State :=
  match s.job j with
  | none => s
  | some x =>
    let b := (x.handle h).bound
    let o := at_ % b
    (s.store j h o (data.take (b - o))).store j h 0 (data.drop (b - o))

/-- Bytes of a ring from an offset on. -/
def State.loadRing (s : State) (j h off n : Nat) : Bytes :=
  match s.job j with
  | none => zeros n
  | some x =>
    let b := (x.handle h).bound
    let a := min n (b - off)
    s.load j h off a ++ s.load j h 0 (n - a)

/-- Where a staged element goes (R105, R335). -/
def Job.relDst (x : Job) (c : Chan) : RelDst :=
  if c.f.link then .link (x.span.getD 0) c.f.far.h else .host x.owner (x.handle c.f.far.h).pasid (x.strmVa c)

/-- The stream has moved the whole of its next element once it has moved `n` bytes more. -/
def Chan.completes (c : Chan) (n : Nat) : Bool := c.moved + n == c.f.e

/-- Bytes staged in a release area with their destination (R335). -/
def State.stageElement (s : State) (j : Nat) (x : Job) (c : Chan) (data : Bytes) : State :=
  let a := x.area c.f.release
  let n := data.length
  let e : RelEntry := { h := c.f.release, off := a.write % (x.handle c.f.release).bound, len := n, dst := x.relDst c,
                        opens := c.opens, ends := c.completes n && c.ends }
  (s.storeRing j c.f.release a.write data).modJob j fun x =>
    { x with areas := Tbl.set x.areas c.f.release { a with write := a.write + n, staged := a.staged ++ [e] } }

/-- Bytes written at their destination. -/
def State.strmWrite (s : State) (j : Nat) (x : Job) (c : Chan) (data : Bytes) : State :=
  if !c.f.outbound then s.store j c.bufLoc.h c.bufLoc.off data
  else if x.staged c.f then s.stageElement j x c data
  else s.store j c.farLoc.h c.farLoc.off data

/-- What the job gives for `n` bytes: a unit of its semaphore and a receiver credit where its unit begins, and the
bytes of a receive area that it reads. -/
def Job.strmPay (x : Job) (c : Chan) (n : Nat) : Job :=
  let k := strmTakes c.f
  let x := if c.opens then { x with sems := Tbl.set x.sems k (x.sem k - 1) } else x
  let x := if c.opens && c.f.link then
      { x with txCredits := Tbl.set x.txCredits c.f.far.h (Tbl.get 0 x.txCredits c.f.far.h - 1),
               txSpent := Tbl.set x.txSpent c.f.far.h (Tbl.get 0 x.txSpent c.f.far.h + 1) } else x
  let a := x.area c.f.far.h
  let a := { a with write := a.write + n }
  let x := if x.readsArea c.f then { x with areas := Tbl.set x.areas c.f.far.h a } else x
  { x with stuck := false }

/-- The signals of an element: one for its unit, and SEM_DONE after the last element (R217, R327, R331). -/
def State.strmSignal (s : State) (j n : Nat) (c : Chan) : State :=
  let slot := strmSlot c.f.outbound
  let s := if c.ends then s.sendSig j (strmGives c.f) 1 n slot c.bundle else s
  match c.f.done with
  | some k => if c.pos + 1 = strmCount c.f then s.sendSig j k 1 n slot c.bundle else s
  | none => s

/-- Where the next bytes are read, for the outcome of the read (R353). -/
def Chan.reads (c : Chan) : Loc := if c.f.outbound then c.bufLoc else c.farLoc

/-- The next bytes moved: up to a boundary within the element, or to its end. -/
def State.moveElement (s : State) (j n k : Nat) (x : Job) (c : Chan) (data : Bytes) : State :=
  let m := data.length
  let s := (s.strmWrite j x c data).modJob j fun x => x.strmPay c m
  let s := s.work n 15 (if x.readsHost c.f then m else 0)
  if c.completes m then
    (s.modCore n fun y => y.setChan k (if c.pos + 1 = strmCount c.f then none else some { c with pos := c.pos + 1, sub := 0 })).strmSignal j n c
  else s.modCore n fun y => y.setChan k (some { c with sub := c.sub + m / 64 })

/-- The detail of the first check of R213 that an access to `n` bytes of a ring from an offset on fails. -/
def State.ringFault (s : State) (j h off n : Nat) (write : Bool) : Option Nat :=
  let a := min n (((s.job j).map fun x => (x.handle h).bound).getD 0 - off)
  (s.accessFault j h off a write [spSram, spHbm]).or (if a < n then s.accessFault j h 0 (n - a) write [spSram, spHbm] else none)

/-- The address check of the release area of a staged element (R297, R302). One that is no release area any more is not mapped as one.
DESIGN CHOICE, unsafe (assumption 165). -/
def State.stageFault (s : State) (j : Nat) (x : Job) (c : Chan) (n : Nat) : Option (Nat × Loc) :=
  let e := x.handle c.f.release
  let off := (x.area c.f.release).write % max 1 e.bound
  if !x.staged c.f then none
  else if !e.release then some (shUnmapped, ⟨c.f.release, off⟩)
  else (s.ringFault j c.f.release off n true).map fun k => (k, ⟨c.f.release, off⟩)

/-- The address check of the next bytes on both sides, and in the release area: a handle change or a power-down that has taken effect since
STRM refuses them (R297, R302). -/
def State.elementStale (s : State) (j : Nat) (x : Job) (c : Chan) (n : Nat) : Option (Nat × Loc) :=
  let far := if c.f.link then none else s.accessFault j c.farLoc.h c.farLoc.off n c.f.outbound [spSram, spHbm, spHost]
  match far, s.accessFault j c.bufLoc.h c.bufLoc.off n (!c.f.outbound) [spSram, spHbm] with
  | some k, _ => some (k, c.farLoc)
  | none, some k => some (k, c.bufLoc)
  | none, none => s.stageFault j x c n

/-- STREAM_ELEMENT_COMPLETE (R333): a stream moves its next element, or part of it, unless it must wait. A translation that
is not cached is asked for (R338), a port that serves no host handle refuses the page, and a read that fails is a storage
fault.
DESIGN CHOICE, safe (assumption 3); DEDUCED, unsafe (assumption 45); DESIGN CHOICE, safe (assumption 145). -/
def execStreamElementComplete (core channel : Nat) (host : Bytes) (e : ReadErr) (s : State) (upTo : Nat := 1024) : Outcome :=
  let j := (s.core core).job
  match (s.core core).chan channel, s.job j with
  | some c, some x =>
    let n := c.part upTo
    if !s.enginesRun j || c.halt.isSome || n = 0 || !x.strmReady c n then .next s
    else
      let slot := strmSlot c.f.outbound
      match s.elementStale j x c n with
      | some (k, l) =>
        .next (s.stopJob j { code := codeStale, detail := k, core := core, slot := slot, bundle := c.bundle, handle := l.h % 65536, data := le 8 l.off })
      | none =>
        if x.readsHost c.f && !(s.port x.owner).servesHost then
          .next (s.pageStop j 0x0308 core slot c.bundle c.f.far.h channel c.pos (x.strmVa c) false)
        else match s.strmAwaits x c with
          | some pg => .next (s.askXlat x.owner pg)
          | none =>
            let l := c.reads
            let r := if x.readsHost c.f then .good else s.readOutcome j l.h l.off n e
            .next (if r = .good then s.moveElement j core channel x c (s.strmData j x c n host)
                   else s.readFault j l.h l.off r core slot c.bundle)
  | _, _ => .next s

/-! ### Release engines as they meet pages (R336) -/

/-- The next entry of the release in hand. -/
def Job.relNext (x : Job) : Option RelEntry :=
  match x.rels with
  | [] => none
  | r :: _ => if r.begun then r.entries[r.done]? else none

/-- The host page that the next entry of a release awaits. -/
def State.entryAwaits (s : State) (e : RelEntry) : Option (Port × Nat × Nat) :=
  match e.dst with
  | .host p pasid a => ((s.port p).uncovered pasid a e.len true).map fun pg => (p, pasid, pg)
  | .link _ _ => none

/-- The host page that the release in hand of a job awaits. -/
def State.relAwaits (s : State) (x : Job) : Option (Nat × Nat) := (x.relNext.bind s.entryAwaits).map Prod.snd

/-! ### Halts and page requests (R339 to R343) -/

/-- A page fault: the page joins those that wait for a request, once. -/
def State.wantPage (s : State) (p : Port) (pg : Nat × Nat) : State :=
  s.modPort p fun q => if q.pageReqs.contains pg || q.pageWait.contains pg then q else { q with pageWait := q.pageWait ++ [pg] }

/-- Every stream channel of the cores of a job, changed by a function. -/
def State.mapChans (s : State) (j : Nat) (f : Chan → Chan) : State :=
  s.jobCores j fun c => { c with chans := c.chans.map fun y => (y.1, y.2.map f) }

/-- The engines of a job look at a page again after a translation of it: those that it serves go on, those that it does not
serve halt, and one that waits for a response to its page request waits on. A halt shares the request of its page (R341), and
counts as progress (R342).
DEDUCED, unsafe (assumption 146). -/
def State.retryPage (s : State) (p : Port) (pg : Nat × Nat) (j : Nat) : State :=
  match s.job j with
  | none => s
  | some x =>
    if x.owner ≠ p then s else
    let runs := s.enginesRun j
    let out := (s.port p).pageReqs.contains pg
    let held := out || (s.port p).pageWait.contains pg
    let after (c : Chan) : Chan :=
      if c.halt == some pg then { c with halt := if held || s.strmAwaits x c == some pg then some pg else none }
      else if c.halt.isNone && runs && s.strmAwaits x c == some pg then { c with halt := some pg } else c
    let rel : Option (Nat × Nat) :=
      if s.relAwaits x = some pg then some pg else if x.relHalt = some pg ∧ !held then none else x.relHalt
    let s := (s.mapChans j after).modJob j fun x => { x with relHalt := rel }
    if s.halted j pg then (s.modJob j fun x => { x with stuck := false, paged := x.paged || out }).wantPage p pg else s

/-- A cached entry of the same PASID that a range of pages meets. -/
def atsMeets (pasid page len : Nat) (e : AtsEntry) : Bool :=
  e.pasid == pasid && e.page * 4096 < page * 4096 + len && page * 4096 < e.page * 4096 + e.len

/-- The cache entry of a completion: its range is as long as the completion says, aligned to its length. -/
def atsEntry (pasid page : Nat) (x : Xlat) : AtsEntry :=
  let len := max 4096 x.len
  { pasid := pasid, page := page * 4096 / len * len / 4096, bus := x.bus, len := len, read := x.read, write := x.write }

/-- A translation put in the cache of 8,192 entries, in place of those that it meets.
DESIGN CHOICE, unsafe (assumption 47). -/
def PortSt.cache (q : PortSt) (e : AtsEntry) : PortSt :=
  { q with atc := (e :: q.atc.filter fun y => !atsMeets e.pasid e.page e.len y).take 8192 }

/-- The first stream of a job halted on a page: core, channel and stream. -/
def State.haltedChan (s : State) (x : Job) (pg : Nat × Nat) : Option (Nat × Nat × Chan) :=
  x.cores.findSome? fun n => (s.core n).chans.findSome? fun c =>
    match c.2 with
    | some h => if h.halt = some pg then some (n, c.1, h) else none
    | none => none

/-- A job with an engine halted on a page stops (R339, R340); a release halted on it is abandoned (R336). -/
def State.refusePage (s : State) (code : Nat) (p : Port) (pg : Nat × Nat) (j : Nat) : State :=
  match s.job j with
  | none => s
  | some x =>
    let rel := x.relHalt == some pg
    if x.owner ≠ p then s
    else match s.haltedChan x pg with
      | some (n, k, c) => s.pageStop j code n (strmSlot c.f.outbound) c.bundle c.f.far.h k c.pos (pg.2 * 4096) rel
      | none => if rel then s.pageStop j code 0xFF 0xFF 0 0xFFFF 0xFF 0 (pg.2 * 4096) true else s

/-- The command of a ring looks at a page of its buffer again after a translation of it: it goes on, or it halts (R339, R406). -/
def State.retryRing (s : State) (p : Port) (pg : Nat × Nat) (r : Nat) : State :=
  match (s.ring p r).page with
  | none => s
  | some y =>
    if (y.pasid, y.page) ≠ pg then s
    else if ((s.port p).xlat y.pasid (y.page * 4096) y.write).isSome then s.setRing p r { s.ring p r with page := none }
    else (s.setRing p r { s.ring p r with page := some { y with halted := true } }).wantPage p pg

/-- The command of a ring that awaits a page ends, since the page is refused (R409). -/
def State.refuseRing (s : State) (p : Port) (pg : Nat × Nat) (r : Nat) : State :=
  if (s.ring p r).page.any fun y => (y.pasid, y.page) == pg then s.refuse p r (((s.ring p r).current.map bufFault).getD cBufferFault) else s

/-- The jobs with an engine halted on a page stop (R339, R340), and the commands that await it end (R409). -/
def State.refuseAll (s : State) (code : Nat) (p : Port) (pg : Nat × Nat) : State :=
  State.each (s.each s.jobNums fun s j => s.refusePage code p pg j) (List.range 8) fun s r => s.refuseRing p pg r

/-- ATS_TRANSLATION_COMPLETION (R338, R339): of a Translation Request that is outstanding. A port that has ceased to serve host handles
refuses the page to what is halted on it (R346). -/
def execAtsTranslationCompletion (p : Port) (pasid page : Nat) (x : Option Xlat) (s : State) : Outcome :=
  if !s.live || !(s.port p).atsReqs.contains (pasid, page) then .next s
  else
    let s := s.modPort p fun q => { q with atsReqs := q.atsReqs.erase (pasid, page) }
    if !(s.port p).servesHost then .next (s.refuseAll 0x0308 p (pasid, page))
    else
      let s := match x with
        | some y => if y.read || y.write then s.modPort p fun q => q.cache (atsEntry pasid page y) else s
        | none => s
      .next (State.each (s.each s.jobNums fun s j => s.retryPage p (pasid, page) j) (List.range 8) fun s r => s.retryRing p (pasid, page) r)

/-- PAGE_REQUEST (R341): a page that a halted engine waits for obtains one of the 512 requests, or of the fewer that the host
allots. A port that serves no host handle refuses the page instead (R338, R346). -/
def execPageRequest (p : Port) (pasid page : Nat) (s : State) : Outcome :=
  let q := s.port p
  if !s.live || !q.pageWait.contains (pasid, page) then .next s
  else if !q.servesHost then
    .next ((s.setPort p { q with pageWait := q.pageWait.erase (pasid, page) }).refuseAll 0x0308 p (pasid, page))
  else if q.priFailed || min 512 q.pageAlloc ≤ q.pageReqs.length then .next s
  else
    let s := s.setPort p { q with pageWait := q.pageWait.erase (pasid, page), pageReqs := q.pageReqs ++ [(pasid, page)] }
    let s := s.each s.jobNums fun s j => if s.halted j (pasid, page) then s.modJob j fun x => { x with paged := true } else s
    .next ((s.bump (ctrPages p) 1).emit (.page p pasid page))

/-- PAGE_RESPONSE (R339): success retries the translation; a refusal stops the jobs that wait for the page, as does a retry on a port that
has ceased to serve host handles (R346). A response to no outstanding request is discarded (R343). -/
def execPageResponse (p : Port) (pasid page : Nat) (r : PageResp) (s : State) : Outcome :=
  let q := s.port p
  if !s.live || !q.pageReqs.contains (pasid, page) then .next s
  else
    let s := s.setPort p { q with pageReqs := q.pageReqs.erase (pasid, page), priFailed := q.priFailed || r == .failure }
    .next (if r = .success ∧ (s.port p).servesHost then
        (if s.anyHalted p (pasid, page) then s.askXlat p (pasid, page) else s)
      else s.refuseAll 0x0308 p (pasid, page))

/-- PAGE_TIMEOUT (R340): of a halted stream, of a halted release engine, or of a command halted on a page of its buffer (R409). -/
def execPageTimeout (j : Nat) (stream : Option (Nat × Nat)) (s : State) (ring : Option (Port × Nat) := none) : Outcome :=
  match s.job j, ring with
  | _, some (p, r) =>
    match (s.ring p r).page with
    | none => .next s
    | some y => .next (if s.live && y.halted then s.refuseRing p (y.pasid, y.page) r else s)
  | none, none => .next s
  | some x, none =>
    if !s.live then .next s
    else match stream with
      | none =>
        match x.relHalt with
        | none => .next s
        | some pg => .next (s.pageStop j 0x0309 0xFF 0xFF 0 0xFFFF 0xFF 0 (pg.2 * 4096) true)
      | some (n, k) =>
        match (s.core n).chan k with
        | none => .next s
        | some c =>
          match c.halt with
          | some pg => if (s.core n).job = j then
              .next (s.pageStop j 0x0309 n (strmSlot c.f.outbound) c.bundle c.f.far.h k c.pos (pg.2 * 4096) false) else .next s
          | none => .next s

/-- ATS_INVALIDATION (R338): the entries it meets are gone, and it completes, since no request uses one across commands; the
next element of a page translates again. -/
def execAtsInvalidation (p : Port) (pasid page len : Nat) (s : State) : Outcome :=
  if s.live then
    .next ((s.modPort p fun q => { q with atc := q.atc.filter fun e => !atsMeets pasid page len e }).emit (.invalidated p pasid page))
  else .next s

/-- PRI_RESET (R339): the host writes the port's enables and its allocation; page requests may be issued again. -/
def execPriReset (p : Port) (ats pri pasid : Bool) (s : State) (alloc : Nat := 512) : Outcome :=
  if s.live then .next (s.modPort p fun q => { q with ats := ats, pri := pri, pasidEn := pasid, priFailed := false, pageAlloc := alloc })
  else .next s

end Sys2Proof.Machine
end

