-- ==== Sys2Proof/Machine/KeySwitch.lean ====
section
/-! DEFINITION. Evaluation keys as a key switch reads them, the seeded expansion, the binding check, and the arithmetic of
the fused key switch (R151 to R164, R171 to R188). -/

namespace Sys2Proof.Machine

/-! ### Residue lists -/

/-- An element-wise operation on two limbs. -/
def limbMap2 (f : Nat → Nat → Nat) (a b : List Nat) : List Nat := (a.zip b).map fun p => f p.1 p.2

def addMod (q a b : Nat) : Nat := (a + b) % q
def mulMod (q a b : Nat) : Nat := a * b % q

/-! ### The raised chain (R128, R140) -/

/-- Prime index in the family of limb `i` of the raised chain at LIMBS ℓ: the Q primes present, then the P chain. -/
def ParamSet.raisedIx (p : ParamSet) (l i : Nat) : Nat :=
  if i < l then p.qIx i else p.pIx (i - l)

/-- The place of that limb in a key, which holds every prime of the set (R151). -/
def ParamSet.keyLimb (p : ParamSet) (l i : Nat) : Nat := if i < l then i else p.l + (i - l)

/-- The prime of limb `i` of the raised chain. -/
def ParamSet.raised (p : ParamSet) (l i : Nat) : Nat := primeOf p.fam (p.raisedIx l i)

/-- Digits that a key switch at LIMBS ℓ uses (R179). -/
def ParamSet.digits (p : ParamSet) (l : Nat) : Nat := ceilDiv l p.alpha

/-- The Q limbs of digit `d` that are present. -/
def ParamSet.digit (p : ParamSet) (l d : Nat) : List Nat := fromTo (p.alpha * d) (min (p.alpha * (d + 1)) l)

/-! ### Base conversion (R182 step 3) -/

/-- The product of numbers. -/
def prod (xs : List Nat) : Nat := xs.foldl (· * ·) 1

/-- The conversion of residues `xs`, given modulo the primes `qs`, to a prime `r`, for one coefficient: a sum of products
without correction. -/
def convert1 (qs : List Nat) (r : Nat) (xs : List Nat) : Nat :=
  let q := prod qs
  ((qs.zip xs).map fun c => c.2 * invMod c.1 (q / c.1) % c.1 * (q / c.1)).foldl (fun a y => (a + y) % r) 0

/-- Limbs in coefficient form converted to a prime, position by position. -/
def convertLimbs (n : Nat) (qs : List Nat) (r : Nat) (limbs : List (List Nat)) : List Nat :=
  (List.range n).map fun k => convert1 qs r (limbs.map fun a => a.getD k 0)

/-! ### The key switch (R182, R183) -/

/-- Steps 1 to 4: the raised digits of a polynomial in evaluation form, by digit and limb of the raised chain. -/
def ParamSet.raise (p : ParamSet) (l : Nat) (x : List (List Nat)) : List (List (List Nat)) :=
  let xc := (List.range l).map fun i => nttInverse p.fam (p.raisedIx l i) p.logN (x.getD i [])
  (List.range (p.digits l)).map fun d =>
    let js := p.digit l d
    let qs := js.map (p.raised l)
    (List.range (l + p.k)).map fun i =>
      if js.contains i then x.getD i []
      else nttForward p.fam (p.raisedIx l i) p.logN (convertLimbs p.n qs (p.raised l i) (js.map fun j => xc.getD j []))

/-- Step 5, for one half of a key: the sum over the digits of raised digit times key limb. -/
def ParamSet.accumulate (p : ParamSet) (l : Nat) (ds : List (List (List Nat))) (key : Nat → Nat → List Nat) : List (List Nat) :=
  (List.range (l + p.k)).map fun i =>
    let q := p.raised l i
    (ds.zipIdx).foldl (fun a d => limbMap2 (addMod q) a (limbMap2 (mulMod q) (d.1.getD i []) (key d.2 (p.keyLimb l i))))
      (List.replicate p.n 0)

/-- Steps 6 to 9 without the added part: division by P; `t` is the plaintext modulus for BGV, else 1. -/
def ParamSet.modDown (p : ParamSet) (l t : Nat) (u : List (List Nat)) : List (List Nat) :=
  let ps := p.ps
  let uc := (List.range p.k).map fun k =>
    let r := p.raised l (l + k)
    (nttInverse p.fam (p.raisedIx l (l + k)) p.logN (u.getD (l + k) [])).map fun y => y * invMod r t % r
  (List.range l).map fun i =>
    let q := p.raised l i
    let c := nttForward p.fam (p.raisedIx l i) p.logN ((convertLimbs p.n ps q uc).map fun y => y * t % q)
    limbMap2 (fun a b => subMod q a b * invMod q (prod ps % q) % q) (u.getD i []) c

/-- Steps 5 to 9: the pair (u0, u1) of raised digits under a key, given by its two halves. -/
def ParamSet.switch (p : ParamSet) (l t : Nat) (ds : List (List (List Nat))) (b a : Nat → Nat → List Nat) : List (List (List Nat)) :=
  [p.modDown l t (p.accumulate l ds b), p.modDown l t (p.accumulate l ds a)]

/-! ### Seeded expansion (R164) -/

/-- Words of the stream, taken by chunks of five bytes; the chunks read are counted with them. -/
def expandFrom : Nat → Nat → Nat → Nat → Bytes → List Nat × Nat
  | 0, _, _, _, _ => ([], 0)
  | fuel + 1, q, b, n, xs =>
    if n = 0 then ([], 0) else
    let v := leVal (xs.take 5) % 2 ^ b
    let (ws, k) := expandFrom fuel q b (if v < q then n - 1 else n) (xs.drop 5)
    (if v < q then v :: ws else ws, k + 1)

/-- The input of the expansion of one limb. -/
def expandMsg (seed : Bytes) (keyIndex d primeIx : Nat) : Bytes :=
  [0x46, 0x4A, 0x4B, 0x45, 0x59, 0x2D, 0x41] ++ fit 32 seed ++ le 2 keyIndex ++ le 1 d ++ le 1 primeIx

/-- The first `n` words of a stream, and the chunks read for them, from a prefix of the stream that is doubled until it
holds them; the family's width is 36 or 28 bits. -/
def expandWords : Nat → Bytes → Nat → Nat → Nat → Nat → List Nat × Nat
  | 0, _, _, _, n, _ => (List.replicate n 0, 0)
  | fuel + 1, msg, q, b, n, len =>
    let r := expandFrom len q b n (shake128 msg (5 * len))
    if r.1.length = n then r else expandWords fuel msg q b n (2 * len)

/-- A limb of the regenerated half of a key (R164). -/
def expandLimb (f : Family) (seed : Bytes) (keyIndex d primeIx n : Nat) : List Nat :=
  (expandWords 64 (expandMsg seed keyIndex d primeIx) (primeOf f primeIx) (fmtWidth (famFmt f)) n (2 * n)).1

/-! ### Keys of a job (R160, R166, R175) -/

/-- A set by its identifier. -/
def Job.keySet (x : Job) (id : Bytes) : Option KeySet := x.sets.find? fun k => k.id == id

/-- The set bound to a slot. -/
def Job.boundSet (x : Job) (slot : Nat) : Option KeySet := x.sets.find? fun k => k.slot == some slot

/-- The key belongs to another member of the set's ring (R171). -/
def KeySet.remote (k : KeySet) (ix : Nat) : Bool := k.ring.any fun r => ix % r.members.length != r.pos

/-- The bytes of a key's limb: digit and limb of the whole chain (R157). -/
def ParamSet.keyBytes (p : ParamSet) (body : Bytes) (d i : Nat) : Bytes :=
  (body.drop ((d * (p.l + p.k) + i) * p.limbBytes)).take p.limbBytes

/-- A limb of the stored half. -/
def ParamSet.keyB (p : ParamSet) (body : Bytes) (d i : Nat) : List Nat := unpackLimb (famFmt p.fam) p.n (p.keyBytes body d i)

/-- A limb of the regenerated half, of the key with a container header. -/
def ParamSet.keyA (p : ParamSet) (header : Bytes) (d i : Nat) : List Nat :=
  expandLimb p.fam ((header.drop 0x10).take 32) (field header 8 2) d (p.raisedIx p.l i) p.n

/-- The pass of a remote key for a job (R172). -/
def State.passOf (s : State) (j : Nat) (k : KeySet) (ix : Nat) : Option Pass :=
  s.passes.find? fun y => y.job == j && y.set == k.id && y.index == ix

def KeySet.entry (k : KeySet) (ix : Nat) : Option KeyEntry := k.entries[ix]?

/-- The container of a key: placed here, or what a pass has brought of it.
DESIGN CHOICE, safe (assumption 82). -/
def State.container (s : State) (j : Nat) (k : KeySet) (ix : Nat) : Bytes :=
  if k.remote ix then ((s.passOf j k ix).map Pass.got).getD []
  else ((k.placed.find? fun c => c.1 == ix).map fun c => c.2.header ++ c.2.body).getD []

/-- The key is DAMAGED (R178). -/
def KeySet.damagedKey (k : KeySet) (ix : Nat) : Bool := k.placed.any fun c => c.1 == ix && c.2.damaged

def kindRelin : Nat := 1
def kindGalois : Nat := 2

/-- How a binding check comes out (R175, R177, R178). -/
inductive KeyCheck where
  | ok | mismatch (detail found : Nat) | damaged
  deriving DecidableEq, Repr


/-- A power of 5 modulo 2N. -/
def pow5 (logN r : Nat) : Nat := powMod (2 ^ (logN + 1)) 64 5 r

/-- The REPULP key family of a set, in the order of R195: kind and Galois element. -/
def repFamily (logN : Nat) : List (Nat × Nat) :=
  [(kindRelin, 0), (kindGalois, 2 ^ (logN + 1) - 1)] ++ (List.range (logN - 1)).map fun j => (kindGalois, pow5 logN (2 ^ j))


end Sys2Proof.Machine
end

