-- ==== Sys2Proof/Machine/Headbox.lean ====
section
/-! DEFINITION. The headbox: the key directory and the binding check, key streams with their credits and staging blocks, and the key
passes that feed remote ones (R166 to R178). -/

namespace Sys2Proof.Machine

/-! ### The key directory (R166, R175) -/

def dirValid : Nat := 1
def dirDamaged : Nat := 2
def dirRemote : Nat := 3

/-- The entry of a job's key. -/
def Headbox.entry (h : Headbox) (j slot ix : Nat) : Option DirEntry := h.dir.find? fun e => e.job == j && e.slot == slot && e.index == ix

/-- The entries that a set fills when its bind takes effect. -/
def KeySet.dirEntries (k : KeySet) (j slot : Nat) : List DirEntry :=
  k.entries.zipIdx.map fun c =>
    { job := j, keyset := k.id, scheme := k.scheme, set := k.set, plainMod := k.plainMod, kind := c.1.kind, galois := c.1.galois,
      state := if k.remote c.2 then dirRemote else if k.damagedKey c.2 then dirDamaged else dirValid, slot := slot, index := c.2,
      block := (((k.placed.find? fun p => p.1 == c.2).bind fun p => p.2.runs.head?).map Prod.fst).getD 0 }

/-- The entries of a set filled in every mill that runs cores of the job. -/
def State.fillDir (s : State) (j slot : Nat) (k : KeySet) : State :=
  match s.job j with
  | none => s
  | some x => s.each (s.jobMills x) fun s m => s.modHeadbox m fun h => { h with dir := h.dir ++ k.dirEntries j slot }

/-- The STATE of a job's key changed in every directory that holds it. -/
def State.markDir (s : State) (j : Nat) (set : Bytes) (ix st : Nat) : State :=
  { s with headboxes := s.headboxes.map fun (c : Nat × Headbox) =>
      (c.1, { c.2 with dir := c.2.dir.map fun e => if e.job = j ∧ e.keyset = set ∧ e.index = ix then { e with state := st } else e }) }

/-- The binding check of one key, by its entry in a mill's directory, against a ciphertext's scheme, set, plaintext modulus and key-set
identifier. -/
def State.bindingCheck (s : State) (m j slot ix kind galois scheme set plain : Nat) (keyset : Bytes) : KeyCheck :=
  match (s.headbox m).entry j slot ix with
  | none => .mismatch 1 0
  | some e =>
    if e.state = dirDamaged then .damaged
    else if e.scheme ≠ scheme ∨ e.set ≠ set ∨ e.plainMod ≠ plain then .mismatch 3 e.galois
    else if e.keyset ≠ keyset then .mismatch 4 e.galois
    else if e.kind ≠ kind then .mismatch 5 e.galois
    else if e.galois ≠ galois then .mismatch 6 e.galois
    else .ok

/-- The first key of the REPULP family that a slot lacks, fails on, or holds damaged: its index, 0 where absent, its Galois
element and the outcome (R195). -/
def State.familyCheck (s : State) (m j : Nat) (x : Job) (slot logN scheme set plain : Nat) (keyset : Bytes) : Option (Nat × Nat × KeyCheck) :=
  (repFamily logN).findSome? fun f =>
    match (x.boundSet slot).bind fun k => k.entries.findIdx? fun e => e.kind == f.1 && e.galois == f.2 && bit e.flags 0 with
    | none => some (0, f.2, .mismatch 1 0)
    | some ix =>
      match s.bindingCheck m j slot ix f.1 f.2 scheme set plain keyset with
      | .ok => none
      | c => some (ix, f.2, c)

/-! ### Blocks of a key stream (R166, R167, R184) -/

/-- The set of a stream's key with its parameters. -/
def State.streamSet (s : State) (t : KeyStream) : Option (KeySet × ParamSet) :=
  ((s.job t.job).bind fun x => x.boundSet t.slot).bind fun k => (paramSet k.set).map fun p => (k, p)

/-- Leaf pairs of a staging block. -/
def blockLeaves (p : ParamSet) : Nat := if p.fam = .z36 then 7 else 9

/-- Leaf pairs of a stream over digits and limbs, and its staging blocks. -/
def streamLeaves (p : ParamSet) (d0 d1 limbs : Nat) : Nat := (d1 + 1 - d0) * limbs * (p.n / 1024)
def streamBlocks (p : ParamSet) (d0 d1 limbs : Nat) : Nat := ceilDiv (streamLeaves p d0 d1 limbs) (blockLeaves p)

/-- Where the stored half of a stream's leaf begins in its container, leaves in the order of delivery. -/
def KeyStream.leafAt (t : KeyStream) (p : ParamSet) (g : Nat) : Nat :=
  let per := p.n / 1024
  let d := t.d0 + g / per / t.limbs.length
  let l := t.limbs.getD (g / per % t.limbs.length) 0
  128 + ((d * (p.l + p.k) + l) * per + g % per) * leafBytes (famFmt p.fam)

/-- The first leaf of a block, and the one after its last. -/
def KeyStream.leafRange (t : KeyStream) (p : ParamSet) (b : Nat) : Nat × Nat :=
  (b * blockLeaves p, min ((b + 1) * blockLeaves p) (streamLeaves p t.d0 t.d1 t.limbs.length))

/-- The stored bytes that a block takes. -/
def KeyStream.blockBytes (t : KeyStream) (p : ParamSet) (b : Nat) : Nat :=
  ((t.leafRange p b).2 - (t.leafRange p b).1) * leafBytes (famFmt p.fam)

/-- The blocks that every core of the group has acknowledged: their credits are back. -/
def KeyStream.returned (t : KeyStream) : Nat := t.group.foldl (fun a n => min a (Tbl.get 0 t.acked n)) t.blocks

/-- The credits of a stream's pool. -/
def keyPool : Nat := 1 + Config.keyCredits % 1024

/-- The container bytes that a stream's next block needs have arrived, where its key is remote (R172). -/
def State.blockHere (s : State) (t : KeyStream) : Bool :=
  !t.remote || (s.streamSet t).any fun c =>
    (s.passOf t.job c.1 t.index).any fun y =>
      t.leafAt c.2 ((t.leafRange c.2 t.staged).2 - 1) + leafBytes (famFmt c.2.fam) ≤ y.got.length

/-- A stream can take a staging block: it runs ahead by its credits. -/
def State.wantsBlock (s : State) (t : KeyStream) : Bool :=
  decide (t.staged < t.blocks) && decide (t.staged - t.returned < keyPool) && s.blockHere t

/-! ### The weighted rotation (R170) -/

/-- The running streams of a headbox, by number. -/
def Headbox.running (h : Headbox) : List (Nat × KeyStream) :=
  (List.range 8).filterMap fun q => (Tbl.get none h.streams q).map fun t => (q, t)

/-- A job's admitted key-stream share on a mill. -/
def State.keyShareOf (s : State) (m j : Nat) : Nat := ((s.job j).map fun x => x.keyShare.getD m 0).getD 0

/-- The weight of a job among those that stream: its admitted share, or its part of the remainder of sixteen.
DESIGN CHOICE, safe (assumption 148). -/
def State.keyWeight (s : State) (m : Nat) (js : List Nat) (j : Nat) : Nat :=
  let free := js.filter fun i => s.keyShareOf m i == 0
  if s.keyShareOf m j = 0 then 16 - (js.map (s.keyShareOf m)).foldl (· + ·) 0 else s.keyShareOf m j * max 1 free.length

/-- The jobs that stream through a headbox, and the streams that want a block. -/
def Headbox.sharers (h : Headbox) : List Nat := (h.running.map fun c => c.2.job).dedup
def State.wanting (s : State) (m : Nat) : List (Nat × KeyStream) := (s.headbox m).running.filter fun c => s.wantsBlock c.2

/-- The blocks granted in the round of the rotation in hand: a new one begins where every job that wants a block has had its weight in it,
or streams alone. -/
def State.round (s : State) (m : Nat) : Tbl Nat :=
  let h := s.headbox m
  if h.sharers.length ≤ 1 then []
  else if (s.wanting m).any fun c => Tbl.get 0 h.served c.2.job < s.keyWeight m h.sharers c.2.job then h.served
  else []

/-- Job `i` is served before job `j`: it has had fewer blocks for its weight in the round.
DESIGN CHOICE, safe (assumption 148). -/
def State.servedLess (s : State) (m : Nat) (i j : Nat) : Bool :=
  let js := (s.headbox m).sharers
  let wi := s.keyWeight m js i
  let wj := s.keyWeight m js j
  wi != 0 && (wj == 0 || decide (Tbl.get 0 (s.round m) i * wj < Tbl.get 0 (s.round m) j * wi))

/-- The stream that gets the next staging block: of the job whose turn it is, its lowest. -/
def State.nextStream (s : State) (m : Nat) : Option (Nat × KeyStream) :=
  let want := s.wanting m
  let first : Option Nat := ((List.range 17).filter fun j => want.any fun c => c.2.job == j).foldl (fun a j => match a with
    | none => some j
    | some i => if s.servedLess m j i then some j else a) none
  first.bind fun j => want.find? fun c => c.2.job == j

/-- A staging block that is free, of the 1024. -/
def Headbox.freeBlock (h : Headbox) : Option Nat := (List.range 1024).find? fun i => !(h.staging.any fun c => c.1 == i && c.2.busy)

/-- The bytes of a pass that no stream and no waiting operation needs any more, whose room is free again (R172). -/
def State.passRead (s : State) (y : Pass) : Nat :=
  let ts := (List.range 4).flatMap fun m => (s.headbox m).running.map Prod.snd
  let mine := ts.filter fun t => t.remote && t.job == y.job && t.index == y.index && (s.streamSet t).any fun c => c.1.id == y.set
  let slot := (s.job y.job).bind fun x => (x.keySet y.set).bind KeySet.slot
  let waits := s.cores.any fun c => c.2.job == y.job && c.2.ctQ.any fun q =>
    slot == some q.op.slot && q.keys.contains y.index && !(mine.any fun t => t.ops.contains (c.1, q.stamp))
  if waits then y.freed
  else mine.foldl (fun a t => min a (match s.streamSet t with
    | some (_, p) => if t.staged < t.blocks then t.leafAt p (t.leafRange p t.staged).1 else y.got.length
    | none => 0)) (if mine.isEmpty then y.freed else y.got.length)

/-- The passes of a job with what their streams have read. -/
def State.notePasses (s : State) : State := { s with passes := s.passes.map fun y => { y with freed := max y.freed (s.passRead y) } }

/-- A staging block granted: the headbox reads the stored half and expands the rest (R168), the block is wiped where another job held
it, and the bytes read are counted (R479). -/
def State.stageBlock (s : State) (m q b : Nat) (t : KeyStream) : State :=
  let round := s.round m
  let s := s.modHeadbox m fun h =>
    { h with streams := Tbl.set h.streams q (some { t with staged := t.staged + 1 }),
             staging := Tbl.set h.staging b { job := t.job, stream := q, block := t.staged, busy := true },
             served := Tbl.set round t.job (Tbl.get 0 round t.job + 1) }
  let n := ((s.streamSet t).map fun c => t.blockBytes c.2 t.staged).getD 0
  (s.bump (ctrJob t.job 13) n).notePasses

/-- Staging blocks granted while a stream wants one and one is free. -/
def State.grantKeys : Nat → State → Nat → State
  | 0, s, _ => s
  | n + 1, s, m =>
    match s.nextStream m, (s.headbox m).freeBlock with
    | some (q, t), some b => State.grantKeys n (s.stageBlock m q b t) m
    | _, _ => s

/-- The grants of a headbox: it has 1024 blocks. -/
def State.grant (s : State) (m : Nat) : State := State.grantKeys 1024 s m

/-! ### Key passes (R171 to R174, R429) -/

/-- The members that a pass of a key goes through before this one, its holder first (R172). -/
def KeyRing.path (r : KeyRing) (ix : Nat) : List Nat :=
  let n := r.members.length
  (List.range ((r.pos + n - ix % n) % n)).map fun i => r.members.getD ((ix % n + i) % n) 0

/-- The holder of a key. -/
def KeyRing.holder (r : KeyRing) (ix : Nat) : Nat := r.members.getD (ix % r.members.length) 0

/-- A pass of a key cannot arrive: its holder, or a member on its way, is lost to the ring, or the holder, or a member on its way that the
route table names, has no route left (R174).
DEDUCED, unsafe (assumption 97). -/
def State.shardLost (s : State) (r : KeyRing) (ix : Nat) : Bool :=
  (r.path ix).any fun m => r.lost.contains m ||
    ((s.routesTo m).isEmpty && (m == r.holder ix || s.route.any fun t => t.forwards.any fun f => f.1 == m))

/-- KEY_SHARD_LOST (R174), with the holder and the key (R416). -/
def State.lostShard (s : State) (j : Nat) (r : KeyRing) (ix : Nat) : State :=
  s.stopJob j { code := 0x0604, res := { res := .peer, index := r.holder ix },
                data := le 1 (resCode .peer) ++ le 2 (r.holder ix) ++ le 2 ix }

/-- The payload of PASS_REQUEST (R427). -/
def passPayload (ix d0 d1 : Nat) : Bytes := le 2 ix ++ le 1 d0 ++ le 1 d1

/-- A pass of a remote key requested from its holder, unless one that has not begun is on its way (R172, R429); a lost shard stops the
job.
DEDUCED, safe (assumption 50). -/
def State.requestPass (s : State) (j : Nat) (k : KeySet) (ix : Nat) : State :=
  match k.ring with
  | none => s
  | some r =>
    if !k.remote ix || (k.entry ix).isNone || (s.passOf j k ix).isSome then s
    else if s.shardLost r ix then s.lostShard j r ix
    else
      let asked := s.passes.any fun y => y.set == k.id && y.index == ix && y.got.isEmpty
      let s := { s with passes := s.passes ++ [({ job := j, set := k.id, index := ix, got := [] } : Pass)] }
      if asked then s
      else
        let sp := ((s.job j).bind Job.span).getD 0
        let s := s.sendMsg (r.holder ix) clsControl sp kindPassRequest (passPayload ix 0 (((paramSet k.set).map ParamSet.dnum).getD 1 - 1))
        match s.routeTo (r.holder ix) sp kindPassRequest with
        | none => s
        | some i => s.useLink i [j]

/-! ### Streams begin and end (R167, R184) -/

/-- A free stream of a headbox, of its eight. -/
def Headbox.freeStream (h : Headbox) : Option Nat := (List.range 8).find? fun i => (Tbl.get none h.streams i).isNone

/-- A new stream may read its key from the start: no pass of it is partly freed. -/
def State.passFresh (s : State) (j : Nat) (k : KeySet) (ix : Nat) : Bool := (s.passOf j k ix).all fun y => y.freed == 0

/-- A stream begins. -/
def State.beginStream (s : State) (m q : Nat) (t : KeyStream) (k : KeySet) : State :=
  let s := s.modHeadbox m fun h => { h with streams := Tbl.set h.streams q (some t) }
  (s.requestPass t.job k t.index).grant m

/-- A running stream that delivers a key from its first block on to a core, over at least these digits and limbs. -/
def Headbox.serving (h : Headbox) (j slot ix n digits : Nat) (limbs : List Nat) : Option Nat :=
  (h.running.find? fun c =>
    let t := c.2
    t.job == j && t.slot == slot && t.index == ix && t.group.contains n && t.d0 == 0 && decide (digits ≤ t.d1 + 1) &&
      limbs.all t.limbs.contains && Tbl.get 0 t.acked n == 0).map Prod.fst

/-- A pass that no stream of its job needs any more is over. -/
def State.dropPass (s : State) (j slot ix : Nat) : State :=
  match (s.job j).bind fun x => x.boundSet slot with
  | none => s
  | some k =>
    let needed := (List.range 4).any fun m => (s.headbox m).running.any fun c => c.2.job == j && c.2.slot == slot && c.2.index == ix
    let waits := s.cores.any fun c => c.2.job == j && c.2.ctQ.any fun q => q.op.slot == slot && q.keys.contains ix
    if needed || waits then s else { s with passes := s.passes.filter fun y => !(y.job == j && y.set == k.id && y.index == ix) }

/-- A key stream recorded by a couch, as the replay resumes it: what was staged and not acknowledged by all is streamed again (R101). -/
def KeyStream.couched (t : KeyStream) : KeyStream :=
  { t with staged := t.returned, acked := t.group.map fun n => (n, t.returned), ops := [] }

/-- The couched key streams of a job that wait begin where their headbox has a stream free, in order; one of a remote key requests its
pass again (R172). -/
def State.retryKeys (s : State) (j : Nat) : State :=
  match s.job j with
  | none => s
  | some x => s.each x.keysWait fun s c =>
      match (s.job j).bind (fun x => if x.keysWait.contains c then some x else none), (s.headbox c.1).freeStream with
      | some x, some q =>
        let s := s.modJob j fun x => { x with keysWait := x.keysWait.erase c }
        match x.boundSet c.2.2.slot with
        | none => s
        | some k => s.beginStream c.1 (if (Tbl.get none (s.headbox c.1).streams c.2.1).isNone then c.2.1 else q) c.2.2 k
      | _, _ => s

/-- The key streams of a replayed stride resume from their recorded positions (R101, R112), as their headboxes have streams free. -/
def State.resumeKeys (s : State) (j : Nat) : State :=
  (s.modJob j fun x => { x with keysWait := x.snap.keys.map fun c => (c.1, c.2.1, c.2.2.couched) }).retryKeys j

end Sys2Proof.Machine
end

