-- ==== Sys2Proof/Machine/Ciphertexts.lean ====
section
/-! DEFINITION. Ciphertext operations: the header, the checks at issue, the prediction of the output's header, exhaustion, and
the limb arithmetic (R120, R132 to R150, R175 to R192, R493 to R495). -/

namespace Sys2Proof.Machine

/-! ### The header (R132) -/

/-- The fields of a header that an operation reads. -/
structure CtHdr where
  scheme : Nat
  set : Nat
  limbs : Nat
  form : Nat
  comps : Nat
  scale : Nat
  head : Nat
  slots : Nat
  plain : Nat
  keyset : Bytes
  gen : Nat
  deriving DecidableEq, Repr

def ckks : Nat := 1
def bgv : Nat := 2
def bfv : Nat := 3

/-- The header that 64 bytes hold. -/
def readHdr (b : Bytes) : CtHdr :=
  { scheme := field b 5 1, set := field b 6 1, limbs := field b 7 1, form := field b 8 1, comps := field b 9 1, scale := field b 0xA 2,
    head := field b 0xC 2, slots := field b 0xE 1, plain := field b 0xF 1, keyset := (b.drop 0x10).take 16, gen := field b 0x20 4 }

/-- The bytes of a body (R140). -/
def ParamSet.bodyBytes (p : ParamSet) (comps limbs : Nat) : Nat := comps * limbs * p.limbBytes

/-- The 64 bytes of a header, with its CRC (R132, R133). -/
def CtHdr.bytes (h : CtHdr) (p : ParamSet) : Bytes :=
  let b := le 4 0x54434A46 ++ le 1 1 ++ le 1 h.scheme ++ le 1 h.set ++ le 1 h.limbs ++ le 1 h.form ++ le 1 h.comps ++ le 2 h.scale ++
    le 2 h.head ++ le 1 h.slots ++ le 1 h.plain ++ fit 16 h.keyset ++ le 4 h.gen ++ le 4 (p.bodyBytes h.comps h.limbs) ++ zeros 20
  b ++ le 4 (crc32 b)

/-- PLAIN_MOD names a prime of the Z18 or Z28 table. -/
def plainNames (m : Nat) : Bool := !bit m 6 && (if bit m 7 then m % 64 < famCount .z28 else m % 64 < famCount .z18)

/-- The plaintext modulus that a PLAIN_MOD names. -/
def plainMod (m : Nat) : Nat := if bit m 7 then primeOf .z28 (m % 64) else primeOf .z18 (m % 64)

/-- PLAIN_MOD is allowed for a scheme (R132, R134). -/
def plainOk (scheme m : Nat) : Bool := if scheme = ckks then m == 0 else plainNames m

/-- A scheme is served by a set (R120, R127). -/
def ParamSet.serves (p : ParamSet) (scheme : Nat) : Bool := 1 ≤ scheme && scheme ≤ 3 && bit p.schemes (scheme - 1)

/-- A plaintext modulus that allows slot batching (R130). -/
def ParamSet.batches (p : ParamSet) (m : Nat) : Bool := p.logN + 1 ≤ twoAdicity (plainMod m) 36

/-- SLOTS_LOG2 is allowed (R134). -/
def ParamSet.slotsOk (p : ParamSet) (h : CtHdr) : Bool :=
  if h.scheme = ckks then h.slots < p.logN else h.slots == 0xFF || (h.slots == p.logN && p.batches h.plain)

/-! ### Operations (R493) -/

/-- Operand `i`, with a count of components, is a plaintext: the second one of a plaintext sum or product, and of a subtraction
where it has one component (R143).
DEDUCED, unsafe (assumption 150). -/
def CtKind.plaintext (k : CtKind) (i comps : Nat) : Bool :=
  i == 1 && match k with
    | .addPt | .mulPt => true
    | .sub => comps == 1
    | _ => false

/-- Operations on two ciphertexts. -/
def CtKind.binary : CtKind → Bool
  | .add | .sub | .tensor | .mulRelin => true
  | _ => false

/-- Operations that switch keys (R181). -/
def CtKind.switches : CtKind → Bool
  | .relin | .mulRelin | .rotate _ | .hoisted _ | .conjugate => true
  | _ => false

/-- The operation is defined for the scheme (R493). -/
def CtKind.defined (k : CtKind) (scheme : Nat) : Bool :=
  match k with
  | .repulp => scheme == ckks
  | .levelDrop _ => scheme != bfv
  | _ => true

/-! ### Step 2: each header (R133, R134, R142) -/

/-- COMPONENTS is allowed for the operand's role. -/
def compsOk (k : CtKind) (plaintext : Bool) (c : Nat) : Bool :=
  if plaintext then c == 1
  else match k with
    | .relin => c == 3
    | _ => c == 2 || c == 3

/-- FORM is one that the operation accepts. -/
def formOk (k : CtKind) (f : Nat) : Bool :=
  match k with
  | .form _ => f ≤ 1
  | _ => f == 1

/-- The first detail of step 2 that the 64 bytes of operand `i` fail; `room` is what its handle holds from its offset on. A plaintext's
HEADROOM is ignored (R135).
DEDUCED, unsafe (assumption 153). -/
def hdrDetail (k : CtKind) (i room : Nat) (b : Bytes) : Option Nat :=
  let h := readHdr b
  if field b 0 4 ≠ 0x54434A46 ∨ field b 4 1 ≠ 1 then some 0x01
  else if field b 0x3C 4 ≠ crc32 (b.take 0x3C) then some 0x02
  else match paramSet h.set with
    | none => some 0x03
    | some p =>
      if !p.serves h.scheme || !plainOk h.scheme h.plain || !k.defined h.scheme then some 0x03
      else if h.limbs = 0 ∨ p.l < h.limbs then some 0x04
      else if !compsOk k (k.plaintext i h.comps) h.comps then some 0x05
      else if !formOk k h.form then some 0x06
      else if field b 0x24 4 ≠ p.bodyBytes h.comps h.limbs ∨ room < 64 + p.bodyBytes h.comps h.limbs then some 0x07
      else if (b.drop 0x28).take 20 ≠ zeros 20 then some 0x08
      else if !p.slotsOk h ∨ (h.scheme ≠ ckks ∧ h.scale ≠ 0) ∨ (h.comps = 1 ∧ h.keyset ≠ zeros 16) then some 0x0D
      else none

/-! ### Step 3: compatibility (R143) -/

/-- A subtraction of a plaintext is checked and predicted as the sum with one (R143, R147). -/
def CtKind.asPt (k : CtKind) (b : CtHdr) : CtKind := if k.plaintext 1 b.comps && k == .sub then .addPt else k

/-- Two operands differ where R143 requires equality. -/
def pairMismatch (k : CtKind) (a b : CtHdr) : Bool :=
  a.set != b.set || a.scheme != b.scheme || a.slots != b.slots || a.plain != b.plain ||
    match k.asPt b with
    | .add | .sub => if a.scheme = ckks then a.scale != b.scale else a.limbs != b.limbs
    | .tensor | .mulRelin => a.scheme != ckks && a.limbs != b.limbs
    | .addPt => b.limbs < a.limbs || (a.scheme == ckks && a.scale != b.scale)
    | .mulPt => b.limbs < a.limbs
    | _ => false

/-- The operation needs two components in each ciphertext operand. -/
def CtKind.needsTwo : CtKind → Bool
  | .tensor | .mulRelin | .rotate _ | .hoisted _ | .conjugate | .repulp => true
  | _ => false

/-- The first detail of step 3 that the operands' headers fail. -/
def compatDetail (k : CtKind) (hs : List CtHdr) : Option Nat :=
  match hs with
  | [] => none
  | a :: rest =>
    if rest.any (pairMismatch k a) then some 0x09
    else if (match k with
        | .rescale => a.scheme != ckks && a.limbs == 1
        | .levelDrop n => decide (a.limbs ≤ n)
        | _ => false) then some 0x0A
    else if k.needsTwo && hs.any (fun h => h.comps == 3) then some 0x0B
    else none

/-- Operands of two ciphertexts name different key sets (R143, R177).
DEDUCED, unsafe (assumption 29). -/
def keysetsDiffer (k : CtKind) (hs : List CtHdr) : Bool :=
  k.binary && match hs with
    | a :: b :: _ => !k.plaintext 1 b.comps && a.keyset != b.keyset
    | _ => false

/-! ### Step 4: the keys (R175, R176) -/

/-- The Galois element of a rotation (R176). -/
def galoisOf (p : ParamSet) (h : CtHdr) (r : Int) : Nat :=
  if h.slots = 0xFF then r.toNat
  else pow5 p.logN (r % (2 ^ (if h.scheme = ckks then h.slots else p.logN - 1) : Int)).toNat

/-- Kind and Galois element of each key that an operation needs, in the order of its key indices. -/
def CtOp.needs (o : CtOp) (p : ParamSet) (h : CtHdr) : List (Nat × Nat) :=
  match o.kind with
  | .relin | .mulRelin => [(kindRelin, 0)]
  | .rotate r => [(kindGalois, galoisOf p h r)]
  | .hoisted rs => rs.map fun r => (kindGalois, galoisOf p h r)
  | .conjugate => [(kindGalois, 2 ^ (p.logN + 1) - 1)]
  | _ => []

/-- The first key of an operation that fails its check: its index, the Galois element required, and the outcome. -/
def State.keyFault (s : State) (m j : Nat) (x : Job) (o : CtOp) (p : ParamSet) (h : CtHdr) : Option (Nat × Nat × KeyCheck) :=
  match o.kind with
  | .repulp => s.familyCheck m j x o.slot p.logN h.scheme h.set h.plain h.keyset
  | _ =>
    ((o.needs p h).zip o.keys).findSome? fun c =>
      match s.bindingCheck m j o.slot c.2 c.1.1 c.1.2 h.scheme h.set h.plain h.keyset with
      | .ok => none
      | r => some (c.2, c.1.2, r)

/-! ### Step 5: the prediction (R145 to R150) -/

/-- One bit, as a logarithm. -/
def oneBit : Int := 2 ^ 64

/-- What step 5 predicts: LIMBS, SCALE before and after rounding, HEADROOM, and the detail of an exhaustion, 0 for none.
DEDUCED, unsafe (assumption 31). -/
structure Pred where
  limbs : Nat
  scale : Int
  head : Nat
  exhaust : Nat
  deriving DecidableEq, Repr

/-- log2 of the modulus at LIMBS ℓ. -/
def ParamSet.logQ (p : ParamSet) (l : Nat) : Int := log2Sum (p.qs l)

/-- log2 t of a header's plaintext modulus. -/
def CtHdr.logT (h : CtHdr) : Int := log2Fix (plainMod h.plain)

/-- The noise bound e of a header (R145). -/
def CtHdr.noise (p : ParamSet) (h : CtHdr) : Int :=
  if h.scheme = ckks then ofCode h.scale - ofCode h.head
  else if h.scheme = bgv then p.logQ h.limbs - oneBit - ofCode h.head
  else p.logQ h.limbs - h.logT - oneBit - ofCode h.head

/-- The output's LIMBS (R147). -/
def outLimbs (p : ParamSet) (k : CtKind) (a b : CtHdr) : Nat :=
  match k.asPt b with
  | .add | .sub | .tensor | .mulRelin => min a.limbs b.limbs
  | .rescale => a.limbs - 1
  | .levelDrop n => a.limbs - n
  | .repulp => p.repLimbs
  | _ => a.limbs

/-- log2 abs(c) where that is positive, else 0. -/
def logAbs (c : Int) : Int := max 0 (log2Fix c.natAbs)

/-- The centred representative of an integer modulo t (R259). -/
def centredInt (t : Nat) (c : Int) : Int :=
  let r := intMod c t
  if t < 2 * r then (r : Int) - t else r

/-- The output's noise bound for CKKS (R147). -/
def noiseCkks (p : ParamSet) (k : CtKind) (a b : CtHdr) : Int :=
  let e1 := a.noise p
  let e2 := b.noise p
  let s1 := ofCode a.scale
  let s2 := ofCode b.scale
  let ept := ofCode p.ePt
  let eks := ofCode p.eKs
  match k.asPt b with
  | .add | .sub => oplus e1 e2
  | .neg | .form _ | .levelDrop _ => e1
  | .addPt => oplus e1 ept
  | .mulPt => oplus (oplus (s2 + e1) (s1 + ept)) (e1 + ept)
  | .mulConst c => e1 + logAbs c
  | .tensor => oplus (oplus (s1 + e2) (s2 + e1)) (e1 + e2)
  | .mulRelin => oplus (oplus (oplus (s1 + e2) (s2 + e1)) (e1 + e2)) eks
  | .relin | .rotate _ | .hoisted _ | .conjugate => oplus e1 eks
  | .rescale => oplus (e1 - log2Fix (p.q (a.limbs - 1))) (ofCode p.eRs)
  | .repulp => s1 + oplus (-ofCode a.head) (-ofCode p.hRep)

/-- The output's noise bound for BGV and BFV (R148). -/
def noiseExact (p : ParamSet) (k : CtKind) (a b : CtHdr) : Int :=
  let e1 := a.noise p
  let e2 := b.noise p
  let t := a.logT
  let n := p.logN * oneBit
  let eks := ofCode p.eKs
  let ks := if a.scheme = bgv then t + eks else eks
  let prod := if a.scheme = bgv then e1 + e2 else t + 2 * n + oneBit + oplus e1 e2
  match k.asPt b with
  | .add | .sub => if a.scheme = bgv then oplus e1 e2 else oplus (oplus e1 e2) t
  | .neg | .form _ | .levelDrop _ | .repulp => e1
  | .addPt => oplus e1 (t + n - oneBit)
  | .mulPt => e1 + t + n - oneBit
  | .mulConst c => e1 + logAbs (centredInt (plainMod a.plain) c)
  | .tensor => prod
  | .mulRelin => oplus prod ks
  | .relin | .rotate _ | .hoisted _ | .conjugate => oplus e1 ks
  | .rescale => oplus (e1 - log2Fix (p.q (a.limbs - 1))) (if a.scheme = bgv then t + ofCode p.eRs else ofCode p.eRs)

/-- A logarithm rounded to the nearest 1/256, ties to the even code.
DESIGN CHOICE, safe (assumption 25). -/
def roundCode (v : Int) : Int :=
  let f := v / 2 ^ 56
  let r := v % 2 ^ 56
  if 2 ^ 55 < r ∨ (r = 2 ^ 55 ∧ f % 2 = 1) then f + 1 else f

/-- A headroom rounded down to 1/256, within a field; one below 0 is recorded as 0.
DESIGN CHOICE, unsafe (assumption 151). -/
def floorCode (v : Int) : Nat := min 0xFFFF (v / 2 ^ 56).toNat

/-- The output's SCALE as a code, before its range test. -/
def outScale (p : ParamSet) (k : CtKind) (a b : CtHdr) : Int :=
  if a.scheme ≠ ckks then 0
  else match k with
    | .mulPt | .tensor | .mulRelin => (a.scale : Int) + b.scale
    | .rescale =>
      let v := ofCode a.scale - log2Fix (p.q (a.limbs - 1))
      roundCode (v + unitErr v)
    | _ => a.scale

/-- The output's HEADROOM exactly, against the rounded scale or the output modulus. -/
def outHead (p : ParamSet) (k : CtKind) (a b : CtHdr) : Int :=
  let l := outLimbs p k a b
  if a.scheme = ckks then outScale p k a b * 2 ^ 56 - noiseCkks p k a b
  else if a.scheme = bgv then p.logQ l - oneBit - noiseExact p k a b
  else p.logQ l - a.logT - oneBit - noiseExact p k a b

/-- HEADROOM comes from no logarithm that must be approximated: a negation, a form conversion, a CKKS level drop, or a
product with 0 or a power of two.
DESIGN CHOICE, safe (assumption 25). -/
def exactHead (k : CtKind) (a : CtHdr) : Bool :=
  match k with
  | .neg | .form _ => true
  | .levelDrop _ => a.scheme == ckks
  | .mulConst c =>
    let m := (if a.scheme = ckks then c else centredInt (plainMod a.plain) c).natAbs
    m == 0 || m == 2 ^ Nat.log2 m
  | _ => false

/-- The prediction of step 5, for the headers of the operands. -/
def predict (p : ParamSet) (k : CtKind) (hs : List CtHdr) : Pred :=
  let a := hs.getD 0 (readHdr [])
  let b := hs.getD 1 a
  let one : Bool := k == .rescale && a.scheme == ckks && a.limbs == 1
  let h := outHead p k a b
  let head := floorCode (if exactHead k a then h else h + unitErr h)
  { limbs := outLimbs p k a b, scale := outScale p k a b, head := if one then 0 else head,
    exhaust := if one then 1 else if head < p.floor then 2 else 0 }

/-- The predicted SCALE cannot be written (R149). -/
def Pred.badScale (d : Pred) : Bool := d.scale < 0 || 0xFFFF < d.scale

/-! ### Exhaustion (R189 to R192) -/

/-- An operand as its REPULP leaves it (R190). -/
def CtHdr.refreshed (h : CtHdr) (p : ParamSet) : CtHdr :=
  { h with limbs := p.repLimbs, head := (predict p .repulp [h]).head }

/-- What an exhaustion leads to: a stop with a cause and a detail, or a refresh of every ciphertext operand.
DEDUCED, unsafe (assumption 31). -/
inductive Exhaust where
  | stop (code detail : Nat) | refresh
  deriving DecidableEq, Repr

/-- A slot that holds the operands' key set with its REPULP family (R190). -/
def Job.repSlot (x : Job) (keyset : Bytes) : Option Nat :=
  (x.sets.find? fun k => k.slot.isSome && bit k.flags 0 && k.id == keyset).bind KeySet.slot

/-- Ciphertext operands with their headers. -/
def CtOp.cts (o : CtOp) (hs : List CtHdr) : List (Loc × CtHdr) :=
  ((o.srcs.zip hs).zipIdx.filter fun c => !o.kind.plaintext c.2 c.1.2.comps).map Prod.fst

/-- An operand cannot be refreshed in place. -/
def Job.notRefreshable (x : Job) (p : ParamSet) (c : Loc × CtHdr) : Bool :=
  let e := x.handle c.1.h
  e.readonly || e.bound < c.1.off + 64 + p.bodyBytes 2 p.repLimbs || c.2.comps == 3

/-- The outcome of an exhaustion under the job's policy. -/
def Job.exhaustion (x : Job) (p : ParamSet) (o : CtOp) (hs : List CtHdr) (d : Pred) : Exhaust :=
  let a := hs.getD 0 (readHdr [])
  if a.scheme ≠ ckks then (if x.auto then .stop 0x0303 2 else .stop 0x0302 d.exhaust)
  else if !x.auto ∨ o.kind = .repulp then .stop 0x0302 d.exhaust
  else if (x.repSlot a.keyset).isNone then .stop 0x0302 3
  else if (o.cts hs).any (x.notRefreshable p) then .stop 0x0302 4
  else
    let hs' := (hs.zipIdx).map fun c => if o.kind.plaintext c.2 c.1.comps then c.1 else c.1.refreshed p
    let d' := predict p o.kind hs'
    if (compatDetail o.kind hs').isSome || d'.badScale || d'.exhaust != 0 then .stop 0x0302 5 else .refresh

/-! ### The checks of R141 in order -/

/-- How the checks of an operation come out. -/
inductive CtVerdict where
  /-- It is performed, with its headers and prediction. -/
  | go (p : ParamSet) (hs : List CtHdr) (d : Pred)
  /-- A PROGRAM fault: cause, detail, handle and CAUSE_DATA. -/
  | stop (code detail h : Nat) (data : Bytes)
  | stale (detail : Nat) (l : Loc)
  /-- A header read that failed. -/
  | header (l : Loc) (e : ReadErr)
  | damaged (ix : Nat)
  /-- AUTO refreshes the operands first. -/
  | refresh (slot : Nat) (cts : List Loc)
  deriving DecidableEq, Repr

def ctSpaces : List Nat := [spSram, spHbm]

/-- The scratch of an operation: that which a key switch names (R185), and the work and save areas of a REPULP (R198). -/
def Job.ctScratch (x : Job) (o : CtOp) : List Loc :=
  o.scratch.toList ++ match o.kind with
    | .repulp => [⟨x.work.getD 0xFFFF, 0⟩, ⟨x.save.getD 0xFFFF, 0⟩]
    | _ => []

/-- The handle numbers, spaces and first 64 bytes of operands and outputs, and the numbers and spaces of the scratch handles (R228,
R494). -/
def State.ctStale (s : State) (j : Nat) (x : Job) (o : CtOp) : Option (Nat × Loc) :=
  let heads := (o.srcs ++ o.dsts).findSome? fun l => (s.accessFault j l.h l.off 64 false ctSpaces).map fun k => (k, l)
  heads.or ((x.ctScratch o).findSome? fun l => match s.accessFault j l.h 0 0 false ctSpaces with
    | some k => if k = shUnmapped ∨ k = shSpace then some (k, l) else none
    | none => none)

/-- The components of the output. -/
def outComps (k : CtKind) (hs : List CtHdr) : Nat :=
  match k.asPt (hs.getD 1 (readHdr [])) with
  | .add | .sub => (hs.map CtHdr.comps).foldl max 0
  | .tensor => 3
  | k => if k.switches then 2 else (hs.getD 0 (readHdr [])).comps

/-- The extents of step 6: outputs at their predicted size, and the scratch of one raised body. -/
def State.ctExtents (s : State) (j : Nat) (o : CtOp) (p : ParamSet) (hs : List CtHdr) (d : Pred) : Option (Nat × Loc) :=
  let out := o.dsts.findSome? fun l => (s.accessFault j l.h l.off (64 + p.bodyBytes (outComps o.kind hs) d.limbs) true ctSpaces).map fun k => (k, l)
  let scr := o.scratch.bind fun l => (s.accessFault j l.h l.off (p.bodyBytes 2 (d.limbs + p.k)) true ctSpaces).map fun k => (k, l)
  let work : Option (Nat × Loc) := match o.kind, s.job j with
    | .repulp, some x =>
      [(x.work, 4 * p.bodyBytes 2 (p.l + p.k)), (x.save, 65536 * x.cores.length)].findSome? fun w =>
        let h := w.1.getD 0xFFFF
        (s.accessFault j h 0 w.2 true ctSpaces).map fun k => (k, ⟨h, 0⟩)
    | _, _ => none
  (out.or scr).or work

/-- How the read of the header of operand `i` comes out, where the headers of all operands are read one after the other. -/
def headerErr (e : ReadErr) (i : Nat) : ReadErr :=
  if readAt e / 64 = i then (match e with
    | .good => .good
    | .checkBits o => .checkBits (o % 64)
    | .tag t o => .tag t (o % 64)) else .good

/-- The operand that a failure of step 3 names: the second one of two that differ, the first one that has three components.
DEDUCED, unsafe (assumption 30). -/
def compatOperand (hs : List CtHdr) (k : Nat) : Nat :=
  if k = 9 then 1 else if k = 0x0B then (hs.findIdx? fun h => h.comps == 3).getD 0 else 0

/-- The key reference of a KEY_MISMATCH: the slot, the index, and the Galois elements required and found. -/
def keyRef (slot ix required found : Nat) : Bytes := le 1 slot ++ le 2 ix ++ le 4 required ++ le 4 found

/-- The checks of an operation from step 1 of R141 on, on mill `m`; `e` is how the header reads came out. A SCALE_RANGE names operand 0.
DEDUCED, unsafe (assumption 27); DEDUCED, unsafe (assumption 28); DEDUCED, unsafe (assumption 29); DEDUCED, unsafe (assumption 30). -/
def State.ctVerdict (s : State) (m j : Nat) (x : Job) (o : CtOp) (e : ReadErr) : CtVerdict :=
  let raw := o.srcs.map fun l => s.load j l.h l.off 64
  match (o.srcs.zipIdx.map fun c => (c.1, s.readOutcome j c.1.h c.1.off 64 (headerErr e c.2))).find? fun c => c.2 != .good with
  | some (l, r) => .header l r
  | none =>
    let bad := ((o.srcs.zip raw).zipIdx).findSome? fun c =>
      (hdrDetail o.kind c.2 ((x.handle c.1.1.h).bound - c.1.1.off) c.1.2).map fun k => (k, c.1.1.h, c.2)
    match bad with
    | some (k, h, i) => .stop 0x030A k h (le 1 i)
    | none =>
      let hs := raw.map readHdr
      let a := hs.getD 0 (readHdr [])
      let at_ (i : Nat) : Nat := (o.srcs.getD i ⟨0, 0⟩).h
      match compatDetail o.kind hs, paramSet a.set with
      | some k, _ => .stop 0x030A k (at_ (compatOperand hs k)) (le 1 (compatOperand hs k))
      | none, none => .stop 0x030A 3 (at_ 0) (le 1 0)
      | none, some p =>
        let ix := o.keys.getD 0 0
        let found := (((s.headbox m).entry j o.slot ix).map DirEntry.galois).getD 0
        if keysetsDiffer o.kind hs then
          .stop 0x0301 2 (at_ 0) (if o.kind.switches then keyRef o.slot ix (((o.needs p a).map Prod.snd).getD 0 0) found else zeros 11)
        else match s.keyFault m j x o p a with
          | some (ix, _, .damaged) => .damaged ix
          | some (ix, g, .mismatch k found) => .stop 0x0301 k (at_ 0) (keyRef o.slot ix g found)
          | some (_, _, .ok) => .stop 0x0301 1 (at_ 0) (zeros 11)
          | none =>
            let d := predict p o.kind hs
            if d.badScale then .stop 0x030A 0x0C (at_ 0) (le 1 0)
            else if d.exhaust ≠ 0 then
              match x.exhaustion p o hs d with
              | .stop code k => .stop code k (at_ 0) (le 2 d.head ++ le 2 p.floor ++ le 1 d.exhaust)
              | .refresh => .refresh ((x.repSlot a.keyset).getD 0) ((o.cts hs).map Prod.fst)
            else match s.ctExtents j o p hs d with
              | some (k, l) => .stale k l
              | none => .go p hs d

/-! ### Limb arithmetic -/

/-- A limb of an operand's bytes, its residues reduced (R125, R138).
DESIGN CHOICE, unsafe (assumption 152). -/
def ctLimb (p : ParamSet) (b : Bytes) (h : CtHdr) (c i : Nat) : List Nat :=
  (unpackLimb (famFmt p.fam) p.n ((b.drop (64 + (c * h.limbs + i) * p.limbBytes)).take p.limbBytes)).map (· % p.q i)

/-- The bytes of an operand, header and body. -/
def State.ctBytes (s : State) (j : Nat) (p : ParamSet) (l : Loc) (h : CtHdr) : Bytes :=
  s.load j l.h l.off (64 + p.bodyBytes h.comps h.limbs)

/-- Limbs of `comps` components and ℓ limbs, from a function of both.
DESIGN CHOICE, safe (assumption 22). -/
def limbTable (comps l : Nat) (f : Nat → Nat → List Nat) : List (List (List Nat)) :=
  (List.range comps).map fun c => (List.range l).map fun i => f c i

/-- A limb of residues that the spec does not state. -/
def freeLimb (p : ParamSet) (kind : Nat) (seed : Bytes) (c i : Nat) : List Nat :=
  (List.range p.n).map fun n => Config.ctValue kind seed ((c * 256 + i) * p.n + n) % p.q i

/-- The limbs of a rescaled component: the removed limb's coefficients, rounded down or up, are subtracted and the rest
divided by the removed prime; BGV keeps the message modulo t.
DESIGN CHOICE, safe (assumption 23). -/
def ParamSet.rescaleLimb (p : ParamSet) (l t i : Nat) (last x : List Nat) : List Nat :=
  let r := p.q (l - 1)
  let q := p.q i
  let d := (nttInverse p.fam (p.raisedIx l (l - 1)) p.logN last).map fun y =>
    let y := y * invMod r t % r
    let z : Int := if Config.rescaleUp r y then (y : Int) - r else y
    intMod (t * z) q
  limbMap2 (fun a b => subMod q a b * invMod q (r % q) % q) x (nttForward p.fam (p.raisedIx l i) p.logN d)

/-- The stored and the regenerated half of a key, by digit and limb, from its container as it has streamed.
DEDUCED, unsafe (assumption 49). -/
def keyHalves (p : ParamSet) (got : List (Nat × Bytes)) (ix : Nat) : (Nat → Nat → List Nat) × (Nat → Nat → List Nat) :=
  let b := ((got.find? fun c => c.1 == ix).map Prod.snd).getD []
  (p.keyB (b.drop 128), p.keyA (b.take 128))

/-- An added part and a key switch, summed (R181). -/
def addSwitched (p : ParamSet) (l : Nat) (d0 : List (List Nat)) (d1 : List (List Nat)) (u : List (List (List Nat))) : List (List (List Nat)) :=
  let sum (a b : List (List Nat)) := (List.range l).map fun i => limbMap2 (addMod (p.q i)) (a.getD i []) (b.getD i [])
  [sum d0 (u.getD 0 []), sum d1 (u.getD 1 [])]

/-- The operands of an operation as it runs: parameters, headers, bytes, and the output's LIMBS. -/
structure CtArgs where
  p : ParamSet
  a : CtHdr
  b : CtHdr
  da : Bytes
  db : Bytes
  l : Nat
  deriving DecidableEq, Repr

/-- Limb `i` of a component of an operand; a component that it lacks counts as zero (R143). -/
def ctPart (p : ParamSet) (b : Bytes) (h : CtHdr) (c i : Nat) : List Nat := if c < h.comps then ctLimb p b h c i else List.replicate p.n 0
def CtArgs.ca (y : CtArgs) (c i : Nat) : List Nat := ctPart y.p y.da y.a c i
def CtArgs.cb (y : CtArgs) (c i : Nat) : List Nat := ctPart y.p y.db y.b c i

/-- A component of the first operand, the limbs that the output keeps. -/
def CtArgs.comp (y : CtArgs) (c : Nat) : List (List Nat) := (List.range y.l).map (y.ca c)

/-- Limb `i` of a component of the tensor product (R147); the spec does not state BFV's. -/
def CtArgs.product (y : CtArgs) (c i : Nat) : List Nat :=
  let q := y.p.q i
  if y.a.scheme = bfv then freeLimb y.p 1 (y.da ++ y.db) c i
  else match c with
    | 0 => limbMap2 (mulMod q) (y.ca 0 i) (y.cb 0 i)
    | 1 => limbMap2 (addMod q) (limbMap2 (mulMod q) (y.ca 0 i) (y.cb 1 i)) (limbMap2 (mulMod q) (y.ca 1 i) (y.cb 0 i))
    | _ => limbMap2 (mulMod q) (y.ca 1 i) (y.cb 1 i)

/-- The automorphism of limbs in evaluation form (R187). -/
def ParamSet.permute (p : ParamSet) (g : Nat) (xs : List (List Nat)) : List (List Nat) := xs.map (galoisLimb p.logN g)

/-- The polynomial that an operation switches, in evaluation form (R181, R188). -/
def CtArgs.switched (y : CtArgs) (o : CtOp) : List (List Nat) :=
  match o.kind with
  | .relin => y.comp 2
  | .mulRelin => (List.range y.l).map (y.product 2)
  | .rotate r => y.p.permute (galoisOf y.p y.a r) (y.comp 1)
  | .conjugate => y.p.permute (2 ^ (y.p.logN + 1) - 1) (y.comp 1)
  | .hoisted _ => y.comp 1
  | _ => []

/-- The outputs of an operation that passes its checks, from its operands and its keys' containers: for each output its components, limb
by limb. Component 0 of a BFV plaintext addition or subtraction is a free value: the spec does not state its residues.
DESIGN CHOICE, safe (assumption 22); DESIGN CHOICE, unsafe (assumption 152). -/
def ctResult (o : CtOp) (y : CtArgs) (got : List (Nat × Bytes)) (n : Nat) : List (List (List (List Nat))) :=
  let p := y.p
  let a := y.a
  let l := y.l
  let q := p.q
  let ca := y.ca
  let cb := y.cb
  let t := if a.scheme = bgv then plainMod a.plain else 1
  let none2 : List (List Nat) := (List.range l).map fun _ => List.replicate p.n 0
  let key (ix : Nat) := keyHalves p got ix
  let ksw (xs : List (List (List Nat))) (ix : Nat) := p.switch l t xs (key ix).1 (key ix).2
  let one := ksw (p.raise l (y.switched o)) (o.keys.getD 0 0)
  match o.kind with
  | .add => [limbTable n l fun c i => limbMap2 (addMod (q i)) (ca c i) (cb c i)]
  | .sub => [limbTable n l fun c i =>
      if c = 0 ∧ y.b.comps = 1 ∧ a.scheme = bfv then freeLimb p 5 (y.da ++ y.db) c i
      else limbMap2 (subMod (q i)) (ca c i) (cb c i)]
  | .neg => [limbTable n l fun c i => (ca c i).map fun v => subMod (q i) 0 v % q i]
  | .addPt => [limbTable n l fun c i =>
      if c ≠ 0 then ca c i
      else if a.scheme = bfv then freeLimb p 2 (y.da ++ y.db) c i
      else limbMap2 (addMod (q i)) (ca 0 i) (cb 0 i)]
  | .mulPt => [limbTable n l fun c i => limbMap2 (mulMod (q i)) (ca c i) (cb 0 i)]
  | .mulConst k =>
    let k := if a.scheme = ckks then k else centredInt (plainMod a.plain) k
    [limbTable n l fun c i => (ca c i).map (mulMod (q i) (intMod k (q i)))]
  | .tensor => [limbTable 3 l y.product]
  | .relin => [addSwitched p l (y.comp 0) (y.comp 1) one]
  | .mulRelin => [addSwitched p l ((List.range l).map (y.product 0)) ((List.range l).map (y.product 1)) one]
  | .rotate r => [addSwitched p l (p.permute (galoisOf p a r) (y.comp 0)) none2 one]
  | .hoisted rs =>
    let ds := p.raise l (y.switched o)
    (rs.zip o.keys).map fun c =>
      let g := galoisOf p a c.1
      addSwitched p l (p.permute g (y.comp 0)) none2 (ksw (ds.map (p.permute g)) c.2)
  | .conjugate => [addSwitched p l (p.permute (2 ^ (p.logN + 1) - 1) (y.comp 0)) none2 one]
  | .rescale => [limbTable n l fun c i => p.rescaleLimb a.limbs t i (ca c (a.limbs - 1)) (ca c i)]
  | .levelDrop _ => [limbTable n l ca]
  | .form toEval =>
    [limbTable n l fun c i =>
      if (a.form = 1) = (toEval = true) then ca c i
      else if toEval then nttForward p.fam (p.raisedIx l i) p.logN (ca c i)
      else nttInverse p.fam (p.raisedIx l i) p.logN (ca c i)]
  | .repulp => []

/-! ### Output and work (R136, R144, R186, R495) -/

/-- The header of an output: predicted fields, and GENERATION one above the largest of the ciphertext operands'. -/
def outHdr (o : CtOp) (hs : List CtHdr) (d : Pred) : CtHdr :=
  let a := hs.getD 0 (readHdr [])
  let gens := ((hs.zipIdx).filter fun c => !o.kind.plaintext c.2 c.1.comps).map fun c => c.1.gen
  let form := match o.kind with
    | .form toEval => b2n toEval 1
    | _ => 1
  { a with limbs := d.limbs, scale := d.scale.toNat, head := d.head, comps := outComps o.kind hs, form := form,
           gen := satAdd 0xFFFFFFFF (gens.foldl max 0) 1 }

/-- The writes of one output: its limbs, then its header. -/
def ctWrites (p : ParamSet) (l : Loc) (h : CtHdr) (v : List (List (List Nat))) : List (Loc × Bytes) :=
  ((v.zipIdx).flatMap fun c => (c.1.zipIdx).map fun y =>
    (⟨l.h, l.off + 64 + (c.2 * h.limbs + y.2) * p.limbBytes⟩, packLimb (famFmt p.fam) p.n y.1)) ++ [(l, h.bytes p)]

/-- The scratch of a key switch holds its accumulators, whose places the spec does not state (R185).
DESIGN CHOICE, safe (assumption 22). -/
def scratchWrites (p : ParamSet) (o : CtOp) (l : Nat) (seed : Bytes) : List (Loc × Bytes) :=
  match o.scratch with
  | none => []
  | some c => [(c, (List.range (p.bodyBytes 2 (l + p.k))).map fun i => BitVec.ofNat 8 (Config.ctValue 3 seed i))]

/-- The work of an operation: modular MACs, limb transforms, vector operations and key switches.
DEDUCED, safe (assumption 124). -/
structure Work where
  macs : Nat := 0
  ntts : Nat := 0
  vecs : Nat := 0
  switches : Nat := 0
  deriving DecidableEq, Repr

/-- The work of `n` key switches that share their raised digits (R186, R188).
DEDUCED, safe (assumption 124). -/
def switchWork (p : ParamSet) (l n : Nat) : Work :=
  let b := p.digits l
  let sizes := (List.range b).map fun d => (p.digit l d).length
  let up := (sizes.map fun a => l + p.k - a).foldl (· + ·) 0
  let upm := (sizes.map fun a => a * (l + p.k - a) * p.n).foldl (· + ·) 0
  { macs := upm + n * (2 * b * (l + p.k) * p.n + 2 * p.k * l * p.n), ntts := l + up + n * (2 * p.k + 2 * l), vecs := n * (3 * l * p.n),
    switches := n }

/-- The work of an operation (R495); a rescale's vector work is bounded only, and its value is free.
DEDUCED, safe (assumption 124). -/
def ctWork (p : ParamSet) (o : CtOp) (hs : List CtHdr) (d : Pred) : Work :=
  let c := outComps o.kind hs
  let l := d.limbs
  match o.kind.asPt (hs.getD 1 (readHdr [])) with
  | .add | .sub | .neg | .mulPt | .mulConst _ => { vecs := c * l * p.n }
  | .addPt => { vecs := l * p.n }
  | .tensor => { vecs := 5 * l * p.n }
  | .relin | .rotate _ | .conjugate => switchWork p l 1
  | .mulRelin => { switchWork p l 1 with vecs := 5 * l * p.n + 3 * l * p.n }
  | .hoisted rs => switchWork p l rs.length
  | .rescale => { ntts := 2 * (l + 1), vecs := Config.fnOffset 7 false (l * p.n) 0 % (8 * l * p.n + 1) }
  | .form _ => { ntts := c * l }
  | .levelDrop _ | .repulp => {}

/-- Work counted for the core's job (R479). -/
def State.countWork (s : State) (n : Nat) (p : ParamSet) (w : Work) : State :=
  (((s.work n 8 w.macs).work n 9 (w.ntts * (p.n / 2 * p.logN))).work n 10 w.vecs).work n 5 w.switches

/-! ### Issue -/

/-- What a verdict other than a start does. -/
def State.ctStop (s : State) (n : Nat) : CtVerdict → State
  | .stop code detail h data => s.program n code detail slotMatrix h data
  | .stale k l => s.staleFault n slotMatrix k l.h l.off
  | .header l e => s.readFault (s.core n).job l.h l.off e n slotMatrix (s.core n).bundle
  | .damaged ix =>
    s.stopJob (s.core n).job { code := 0x0601, core := n, slot := slotMatrix, bundle := (s.core n).bundle, data := zeros 3 ++ le 2 ix ++ le 1 0 }
  | .go _ _ _ | .refresh _ _ => s

/-- An operation in flight read back: its parameters, headers and prediction, from its operands as they were at its issue. -/
def CtQ.plan (q : CtQ) : Option (ParamSet × List CtHdr × Pred) :=
  let hs := q.data.map fun b => readHdr (b.take 64)
  (paramSet (hs.getD 0 (readHdr [])).set).map fun p => (p, hs, predict p q.op.kind hs)

/-- Its operands. -/
def CtQ.args (q : CtQ) (p : ParamSet) (hs : List CtHdr) (d : Pred) : CtArgs :=
  let a := hs.getD 0 (readHdr [])
  { p := p, a := a, b := hs.getD 1 a, da := q.data.getD 0 [], db := q.data.getD 1 (q.data.getD 0 []), l := d.limbs }

/-- What an operation writes at its end: its scratch, and for each output its limbs and then its header (R144). -/
def CtQ.writes (q : CtQ) : List (Loc × Bytes) :=
  match q.plan with
  | none => []
  | some (p, hs, d) =>
    let seed := q.data.flatten ++ q.got.flatMap Prod.snd ++ (q.op.needs p (hs.getD 0 (readHdr []))).flatMap fun c => le 4 c.2
    let outs := (q.op.dsts.zip (ctResult q.op (q.args p hs d) q.got (outComps q.op.kind hs))).flatMap fun c =>
      ctWrites p c.1 (outHdr q.op hs d) c.2
    scratchWrites p q.op d.limbs seed ++ outs

/-- The coefficient-form copy of the switched polynomial, in the component-1 area of the first output (R185). -/
def CtQ.coefficients (q : CtQ) : List (Loc × Bytes) :=
  match q.plan, q.op.dsts.head? with
  | some (p, hs, d), some l =>
    (((q.args p hs d).switched q.op).zipIdx).map fun c =>
      (⟨l.h, l.off + 64 + (d.limbs + c.2) * p.limbBytes⟩, packLimb (famFmt p.fam) p.n (nttInverse p.fam (p.raisedIx d.limbs c.2) p.logN c.1))
  | _, _ => []

/-- The limbs of a key that a switch at LIMBS ℓ streams, by their place in the key (R184). -/
def ParamSet.streamed (p : ParamSet) (l : Nat) : List Nat := List.range l ++ (List.range p.k).map (p.l + ·)

/-- An operation whose next key no stream brings joins a stream that serves its core from the start, or starts one where the headbox has
one free; else it waits (R167, R184).
DEDUCED, unsafe (assumption 49). -/
def State.feedOp (s : State) (n : Nat) (q : CtQ) : State :=
  let j := (s.core n).job
  let m := s.millOf n
  let h := s.headbox m
  match q.plan, q.keys.head?, (s.job j).bind fun x => x.boundSet q.op.slot with
  | some (p, _, d), some ix, some k =>
    let b := p.digits d.limbs
    let ls := p.streamed d.limbs
    if h.running.any fun c => c.2.ops.contains (n, q.stamp) then s
    else match h.serving j q.op.slot ix n b ls, h.freeStream with
      | some i, _ => s.modHeadbox m fun h =>
          { h with streams := Tbl.set h.streams i ((Tbl.get none h.streams i).map fun t => { t with ops := t.ops ++ [(n, q.stamp)] }) }
      | none, some i =>
        if !s.passFresh j k ix then s
        else s.beginStream m i
          { job := j, slot := q.op.slot, index := ix, d0 := 0, d1 := b - 1, limbs := ls, group := [n], blocks := streamBlocks p 0 (b - 1) ls.length,
            staged := 0, acked := [], ops := [(n, q.stamp)], remote := k.remote ix } k
      | none, none => s
  | _, _, _ => s

/-- The operations of a mill's cores that wait for a key, looked at again in order. -/
def State.feedOps (s : State) (m : Nat) : State := s.each (s.coresOf m) fun s n => s.each (s.core n).ctQ fun s q => s.feedOp n q

/-- A performed operation: its operands are read as they are now, its keys begin to stream, and its outputs are written when the sequence
ends (R141, R144, R184, R185). -/
def State.ctStart (s : State) (n : Nat) (o : CtOp) (p : ParamSet) (hs : List CtHdr) (d : Pred) : State :=
  let j := (s.core n).job
  let data := (o.srcs.zip hs).map fun c => s.load j c.1.h c.1.off (64 + p.bodyBytes c.2.comps c.2.limbs)
  let q : CtQ := { op := o, data := data, keys := if o.kind.switches then o.keys else [], got := [],
                   foot := (o.dsts ++ o.scratch.toList).map Loc.h, stamp := (s.core n).stamp, bundle := (s.core n).bundle,
                   mem := s.touched j ((o.srcs.zip data).map fun c => (c.1.h, c.1.off, c.2.length)) }
  let s := s.countWork n p (ctWork p o hs d)
  let s := s.each q.coefficients fun s w => s.store j w.1.h w.1.off w.2
  (s.modCore n fun c => { c with ctQ := c.ctQ ++ [q] }).feedOp n q

/-! ### Requests for a refresh (R190, R199, R202) -/

/-- REPULP work areas that fit in a job's work handle, up to the set's batch limit (R196, R198). -/
def repBatch (p : ParamSet) : Nat := if p.logN = 17 then 2 else if p.logN = 16 then 8 else 16
def Job.batchOf (x : Job) (p : ParamSet) : Nat :=
  min (repBatch p) ((x.handle (x.work.getD 0xFFFF)).bound / (4 * p.bodyBytes 2 (p.l + p.k)))

/-- A request joins the batch, or waits for the next interlude; two requests for one handle are one refresh, for
which both cores wait.
DEDUCED, unsafe (assumption 77). -/
def Interlude.request (y : Interlude) (cap : Nat) (r : RepReq) : Interlude :=
  let cts := (y.batch.map RepReq.ct).dedup
  if y.ph = .none ∨ y.ph = .halting then
    if cts.contains r.ct || cts.length < cap then { y with ph := .halting, batch := y.batch ++ [r] }
    else { y with ph := .halting, later := y.later ++ [r] }
  else { y with later := y.later ++ [r] }

/-- The parameter set of the ciphertext that a request names. -/
def State.ctSet (s : State) (j : Nat) (l : Loc) : Option ParamSet := paramSet (readHdr (s.load j l.h l.off 64)).set

/-- The cores of a job that wait in WAIT or BAR halt at once (R199). -/
def State.haltWaiting (s : State) (j : Nat) : State :=
  s.jobCores j fun c => match c.mode with
    | .wait _ _ | .bar _ => c.halt
    | _ => c

/-- A core requests refreshes, and the halt of its job begins.
DESIGN CHOICE, unsafe (assumption 73). -/
def State.requestRefresh (s : State) (n slot : Nat) (auto : Bool) (cts : List Loc) : State :=
  let j := (s.core n).job
  let b := (s.core n).bundle
  let s := s.each cts.dedup fun s l =>
    match s.ctSet j l with
    | none => s
    | some p => s.modJob j fun x =>
        { x with inter := x.inter.request (x.batchOf p) { core := n, bundle := b, ct := l, slot := slot, auto := auto } }
  s.haltWaiting j

/-- A core halts at its bundle for a refresh that AUTO inserts, and issues it again afterwards (R190, R201). -/
def State.haltForRefresh (s : State) (n slot : Nat) (cts : List Loc) : State :=
  (s.requestRefresh n slot true cts).modCore n fun c =>
    { c with before := .issuing, mode := .halted, resume := c.bundle, staged := [] }

/-! ### Issue (R141, R228) -/

/-- A ciphertext operation: its checks in order, and what one that passes them does. -/
def State.ctCheck (s : State) (i : Issue) (o : CtOp) (e : ReadErr) (go : ParamSet → List CtHdr → Pred → OpAct) : Op :=
  let n := i.core
  let j := (s.core n).job
  { slot := slotMatrix, uses := { mem := (o.srcs ++ o.dsts ++ o.scratch.toList).map Loc.h },
    act := match s.job j with
      | none => .effect id
      | some x =>
        s.needs n slotMatrix [] (engCt :: if o.kind.switches || o.kind == .repulp then [engKey] else []) (
          if o.dsts.isEmpty then argStop n slotMatrix opExtent
          else match s.ctStale j x o with
            | some (k, l) => staleStop n slotMatrix k l.h l.off
            | none => match s.ctVerdict (s.millOf n) j x o e with
              | .go p hs d => go p hs d
              | .refresh slot cts => .stop 8 fun s => s.haltForRefresh n slot cts
              | v => .stop 7 fun s => s.ctStop n v) }

/-- A ciphertext operation of a hardware sequence. A hoisted group without an output is out of range.
DESIGN CHOICE, unsafe (assumption 154). -/
def State.ctOp (s : State) (i : Issue) (o : CtOp) (e : ReadErr) : Op :=
  s.ctCheck i o e fun p hs d => .effect fun s => s.ctStart i.core o p hs d

/-- CIPHERTEXT_ADD (R147). -/
def opCiphertextAdd (i : Issue) (a b dst : Loc) (e : ReadErr) (s : State) : Op := s.ctOp i { kind := .add, srcs := [a, b], dsts := [dst] } e
/-- CIPHERTEXT_SUBTRACT (R147). -/
def opCiphertextSubtract (i : Issue) (a b dst : Loc) (e : ReadErr) (s : State) : Op := s.ctOp i { kind := .sub, srcs := [a, b], dsts := [dst] } e
/-- CIPHERTEXT_NEGATE (R147). -/
def opCiphertextNegate (i : Issue) (a dst : Loc) (e : ReadErr) (s : State) : Op := s.ctOp i { kind := .neg, srcs := [a], dsts := [dst] } e
/-- ADD_PLAINTEXT (R147). -/
def opAddPlaintext (i : Issue) (a pt dst : Loc) (e : ReadErr) (s : State) : Op := s.ctOp i { kind := .addPt, srcs := [a, pt], dsts := [dst] } e
/-- MULTIPLY_PLAINTEXT (R147). -/
def opMultiplyPlaintext (i : Issue) (a pt dst : Loc) (e : ReadErr) (s : State) : Op := s.ctOp i { kind := .mulPt, srcs := [a, pt], dsts := [dst] } e
/-- MULTIPLY_CONSTANT (R147, R148). -/
def opMultiplyConstant (i : Issue) (a dst : Loc) (c : Int) (e : ReadErr) (s : State) : Op :=
  s.ctOp i { kind := .mulConst c, srcs := [a], dsts := [dst] } e
/-- TENSOR_PRODUCT (R147). -/
def opTensorProduct (i : Issue) (a b dst : Loc) (e : ReadErr) (s : State) : Op := s.ctOp i { kind := .tensor, srcs := [a, b], dsts := [dst] } e
/-- RELINEARISE (R181). -/
def opRelinearise (i : Issue) (a dst : Loc) (k : KeyRef) (e : ReadErr) (s : State) : Op :=
  s.ctOp i { kind := .relin, srcs := [a], dsts := [dst], slot := k.slot, keys := [k.index], scratch := some k.scratch } e
/-- MULTIPLY_RELINEARISE (R181). -/
def opMultiplyRelinearise (i : Issue) (a b dst : Loc) (k : KeyRef) (e : ReadErr) (s : State) : Op :=
  s.ctOp i { kind := .mulRelin, srcs := [a, b], dsts := [dst], slot := k.slot, keys := [k.index], scratch := some k.scratch } e
/-- ROTATE (R176, R181). -/
def opRotate (i : Issue) (a dst : Loc) (r : Int) (k : KeyRef) (e : ReadErr) (s : State) : Op :=
  s.ctOp i { kind := .rotate r, srcs := [a], dsts := [dst], slot := k.slot, keys := [k.index], scratch := some k.scratch } e
/-- HOISTED_ROTATE (R188). -/
def opHoistedRotate (i : Issue) (a : Loc) (outs : List (Loc × Int × Nat)) (k : KeyRef) (e : ReadErr) (s : State) : Op :=
  s.ctOp i { kind := .hoisted (outs.map fun y => y.2.1), srcs := [a], dsts := outs.map Prod.fst, slot := k.slot,
             keys := outs.map fun y => y.2.2, scratch := some k.scratch } e
/-- CONJUGATE (R176, R181). -/
def opConjugate (i : Issue) (a dst : Loc) (k : KeyRef) (e : ReadErr) (s : State) : Op :=
  s.ctOp i { kind := .conjugate, srcs := [a], dsts := [dst], slot := k.slot, keys := [k.index], scratch := some k.scratch } e
/-- RESCALE (R493). -/
def opRescale (i : Issue) (a dst : Loc) (e : ReadErr) (s : State) : Op := s.ctOp i { kind := .rescale, srcs := [a], dsts := [dst] } e
/-- LEVEL_DROP (R493). -/
def opLevelDrop (i : Issue) (a dst : Loc) (k : Nat) (e : ReadErr) (s : State) : Op :=
  s.ctOp i { kind := .levelDrop k, srcs := [a], dsts := [dst] } e
/-- FORM_CONVERSION (R143). -/
def opFormConversion (i : Issue) (a dst : Loc) (toEval : Bool) (e : ReadErr) (s : State) : Op :=
  s.ctOp i { kind := .form toEval, srcs := [a], dsts := [dst] } e

/-- CIPHERTEXT_OUTPUT_WRITTEN (R144, R185): the oldest sequence of a core ends once its keys have streamed, its limbs written and then
its headers. -/
def execCiphertextOutputWritten (core : Nat) (e : EngCheck) (s : State) : Outcome :=
  let c := s.core core
  match c.ctQ with
  | [] => .next s
  | x :: xs =>
    if !s.live ∨ !x.keys.isEmpty then .next s
    else if checkOf e x.mem = .good then
      let s := s.each x.writes fun s w => s.store c.job w.1.h w.1.off w.2
      .next ((s.modCore core fun c => { c with ctQ := xs }).settle c.job)
    else .next ((s.modCore core fun c => { c with ctQ := xs }).engineCheck core slotMatrix x.bundle x.mem e)

end Sys2Proof.Machine
end

