-- ==== Sys2Proof/Machine/Keys.lean ====
section
/-! DEFINITION. Key sets: ingest, binding, self-check, and the commands of key streams and key passes (R151 to R178). -/

namespace Sys2Proof.Machine

/-! ### Manifests and containers (R153 to R157) -/

def magicManifest : Nat := 0x4D4B4A46
def magicContainer : Nat := 0x594B4A46

/-- The body size of a key of a set (R157). -/
def ParamSet.keyBody (p : ParamSet) : Nat := p.dnum * (p.l + p.k) * p.limbBytes

/-- The 64 bytes of entry `i` of a manifest. -/
def manifestRaw (b : Bytes) (i : Nat) : Bytes := (b.drop (64 + 64 * i)).take 64

def readEntry (e : Bytes) : KeyEntry :=
  { kind := field e 2 1, flags := field e 3 1, galois := field e 4 4, bytes := field e 8 4, digest := (e.drop 0x10).take 48 }

def manifestEntries (b : Bytes) : List KeyEntry := (List.range (field b 8 2)).map fun i => readEntry (manifestRaw b i)

/-- GALOIS is right for the kind (R152). -/
def galoisOk (p : ParamSet) (e : KeyEntry) : Bool :=
  if e.kind = kindRelin then e.galois == 0
  else e.kind == kindGalois && e.galois % 2 == 1 && 3 ≤ e.galois && e.galois ≤ 2 ^ (p.logN + 1) - 1

/-- The entry at position `i` is well formed. -/
def entryOk (p : ParamSet) (b : Bytes) (i : Nat) : Bool :=
  let r := manifestRaw b i
  let e := readEntry r
  field r 0 2 == i && galoisOk p e && e.flags ≤ 1 && e.bytes == 128 + p.keyBody && field r 0xC 4 == 0

/-- The REPULP flag agrees with the entries: a flagged set of CKKS lists the whole family, an unflagged one flags none. -/
def familyOk (p : ParamSet) (scheme flags : Nat) (es : List KeyEntry) : Bool :=
  if flags = 1 then
    scheme == ckks && (repFamily p.logN).all fun f => es.any fun e => e.kind == f.1 && e.galois == f.2 && bit e.flags 0
  else es.all fun e => !bit e.flags 0

/-- A manifest is valid (R155); its length is the source's. -/
def manifestOk (b : Bytes) : Bool :=
  let n := field b 8 2
  let es := manifestEntries b
  match paramSet (field b 6 1) with
  | none => false
  | some p =>
    field b 0 4 == magicManifest && field b 4 1 == 1 && 1 ≤ n && n ≤ 1024 && b.length == 64 + 64 * n && field b 7 1 ≤ 1 &&
      (b.drop 0xB).take 21 == zeros 21 && p.serves (field b 5 1) && plainOk (field b 5 1) (field b 0xA 1) &&
      (List.range n).all (entryOk p b) && (es.map fun e => (e.kind, e.galois)).Nodup && familyOk p (field b 5 1) (field b 7 1) es

/-- The identifier of a manifest (R154). -/
def manifestId (b : Bytes) : Bytes := (sha384 b).take 16

/-- A container's header and length are valid (R156, R158). -/
def containerOk (b : Bytes) : Bool :=
  match paramSet (field b 6 1) with
  | none => false
  | some p =>
    field b 4 1 == 1 && 1 ≤ field b 5 1 && field b 5 1 ≤ 2 && field b 0xA 1 == p.dnum && field b 0xB 1 == p.l + p.k &&
      field b 0x30 4 == p.keyBody && (b.drop 0x34).take 76 == zeros 76 && b.length == 128 + p.keyBody

/-- A container agrees with its manifest entry. -/
def KeySet.lists (k : KeySet) (b : Bytes) : Bool :=
  (k.entry (field b 8 2)).any fun e =>
    e.kind == field b 5 1 && e.flags == field b 7 1 && e.galois == field b 0xC 4 && k.set == field b 6 1

/-! ### Sets of a job (R160, R161) -/


/-- The key sets of a job with one changed. -/
def Job.modSet (x : Job) (id : Bytes) (f : KeySet → KeySet) : Job := { x with sets := x.sets.map fun k => if k.id = id then f k else k }

/-- A key is present and valid. -/
def KeySet.present (k : KeySet) (ix : Nat) : Bool := k.placed.any fun c => c.1 == ix && !c.2.damaged

/-- Every key listed, or of the shard of a ring, is placed. -/
def KeySet.complete (k : KeySet) (ring : Option KeyRing) : Bool :=
  (List.range k.entries.length).all fun i =>
    k.placed.any (fun c => c.1 == i) || ring.any fun r => i % r.members.length != r.pos

/-- The state of a set: 1 OPEN, 2 COMPLETE, 3 BOUND. -/
def KeySet.stateCode (k : KeySet) : Nat := if k.slot.isSome then 3 else if k.complete k.ring then 2 else 1

/-- A size in blocks of 4 KiB (R159). -/
def blocksOf (n : Nat) : Nat := ceilDiv n 4096

/-- The blocks of the key region that a set occupies, by first block and number: its manifest and its placed keys. -/
def KeySet.taken (k : KeySet) : List (Nat × Nat) := k.runs ++ k.placed.flatMap fun c => c.2.runs

def Job.taken (x : Job) : List (Nat × Nat) := x.sets.flatMap KeySet.taken

/-- The bytes of a job's key region: its units, NEAR on the lowest mill with cores, or SPREAD frames (R355, R408).
DESIGN CHOICE, safe (assumption 82). -/
def State.keyRoom (s : State) (x : Job) : Nat :=
  x.keyUnits * (if x.keySpread then spreadFrame else (s.millStacks ((s.jobMills x).getD 0 0)).length * 32 * 2 ^ 20)

/-- Bytes of the key region in use: manifests, placed keys, and what its passes hold (R159, R172). -/
def State.keyUsed (s : State) (j : Nat) (x : Job) : Nat :=
  4096 * (x.taken.map Prod.snd).foldl (· + ·) 0 + ((s.passes.filter fun y => y.job == j).map fun y => y.got.length - y.freed).foldl (· + ·) 0

/-- The key region of a job lacks room for `n` bytes more. -/
def State.keyFull (s : State) (j : Nat) (x : Job) (n : Nat) : Bool := decide (s.keyRoom x < s.keyUsed j x + 4096 * blocksOf n)

/-- The free runs of blocks below a top, lowest first. -/
def freeRuns (taken : List (Nat × Nat)) (top : Nat) : List (Nat × Nat) :=
  let starts := (0 :: taken.map fun c => c.1 + c.2).filter fun b => decide (b < top) && taken.all fun c => decide (b < c.1 ∨ c.1 + c.2 ≤ b)
  (starts.dedup.mergeSort (· ≤ ·)).map fun b => (b, (((taken.map Prod.fst).filter fun c => decide (b < c)).min?.getD top) - b)

/-- The first `n` blocks of runs. -/
def takeRuns : List (Nat × Nat) → Nat → List (Nat × Nat)
  | [], _ => []
  | r :: rs, n => if n = 0 then [] else (r.1, min r.2 n) :: takeRuns rs (n - r.2)

/-- Where `n` bytes go in a job's key region: the lowest free run that holds them, or the lowest free blocks.
DESIGN CHOICE, safe (assumption 82). -/
def State.keyRuns (s : State) (x : Job) (n : Nat) : List (Nat × Nat) :=
  let free := freeRuns x.taken (s.keyRoom x / 4096)
  match free.find? fun r => blocksOf n ≤ r.2 with
  | some r => [(r.1, blocksOf n)]
  | none => takeRuns free (blocksOf n)

/-- The byte of the key region at which byte `o` of something placed lies. -/
def runByte : List (Nat × Nat) → Nat → Nat
  | [], o => o
  | r :: rs, o => if o < 4096 * r.2 then 4096 * r.1 + o else runByte rs (o - 4096 * r.2)

/-- A manifest or a container written into the key region, with the job's tag (R159, R352). -/
def State.placeKey (s : State) (j : Nat) (runs : List (Nat × Nat)) (b : Bytes) : State :=
  s.writeSectors (fun o => s.regionKey j (runByte runs o)) 0 b j

/-- Blocks of the key region wiped (R160). -/
def State.wipeKey (s : State) (j : Nat) (runs : List (Nat × Nat)) : State :=
  s.each runs fun s r => s.each (List.range (64 * r.2)) fun s i => s.refill (s.regionKey j (4096 * r.1 + 64 * i))

/-- Key sets of all jobs, and keys in bound sets and in those whose bind is pending (R161). -/
def State.allSets (s : State) : List KeySet := s.jobNums.flatMap fun j => ((s.job j).map Job.sets).getD []
def State.boundKeys (s : State) : Nat :=
  ((s.allSets.filter fun k => k.slot.isSome || k.binding.isSome).map fun k => k.entries.length).foldl (· + ·) 0

/-! ### Ingest (R158, R159, R162) -/

/-- What an ingest comes to: a refusal, or the job after placing, the two values of its completion, and the key that is valid again. -/
inductive Placed where
  | refused (status : Nat) | done (x : Job) (v0 v1 : Nat) (restored : Option (Bytes × Nat)) (runs : List (Nat × Nat))
  deriving DecidableEq, Repr

/-- A manifest placed. -/
def State.placeManifest (s : State) (j : Nat) (x : Job) (b : Bytes) : Placed :=
  let id := manifestId b
  let k : KeySet := { id := id, scheme := field b 5 1, set := field b 6 1, plainMod := field b 0xA 1, flags := field b 7 1,
                      entries := manifestEntries b, runs := s.keyRuns x b.length }
  if !manifestOk b then .refused 0x0230
  else if (x.keySet id).isSome then .refused 0x0235
  else if 1024 ≤ s.allSets.length ∨ 256 ≤ x.sets.length then .refused 0x0237
  else if s.keyFull j x b.length then .refused 0x0236
  else .done { x with sets := x.sets ++ [k] } (leVal (id.take 8)) (leVal (id.drop 8)) none k.runs

/-- A container placed in its set; a DAMAGED key is restored where it stands (R178). -/
def State.placeContainer (s : State) (j : Nat) (x : Job) (set : Bytes) (b : Bytes) : Placed :=
  let ix := field b 8 2
  if !containerOk b then .refused 0x0231
  else match x.keySet set with
    | none => .refused 0x0232
    | some k =>
      if !k.lists b then .refused 0x0233
      else if k.remote ix then .refused 0x023C
      else if k.present ix then .refused 0x0235
      else if !k.damagedKey ix && s.keyFull j x b.length then .refused 0x0236
      else if (k.entry ix).any (fun e => e.digest != sha384 b) then .refused 0x0234
      else
        let runs := ((k.placed.find? fun c => c.1 == ix).map fun c => c.2.runs).getD (s.keyRuns x b.length)
        let body : KeyBody := { header := b.take 128, body := b.drop 128, runs := runs }
        let y := x.modSet set fun k => { k with placed := Tbl.set k.placed ix body }
        .done y ix (((y.keySet set).map KeySet.stateCode).getD 0) (if k.damagedKey ix then some (set, ix) else none) runs

/-- A source placed by its MAGIC. -/
def State.place? (s : State) (j : Nat) (x : Job) (set b : Bytes) : Placed :=
  if field b 0 4 = magicManifest then s.placeManifest j x b
  else if field b 0 4 = magicContainer then s.placeContainer j x set b
  else .refused 0x0231

/-- A key staging window of the port maps the handle of the job. -/
def State.stages (s : State) (p : Port) (j h : Nat) : Bool :=
  (s.port p).wins.any fun w => w.2.any fun w => w.keyStaging && w.job == j && w.handle == h

/-- The bytes of a BAR2 source: a handle that a key staging window of the port maps for the job. -/
def State.stagingBytes (s : State) (p : Port) (j : Nat) (c : Bytes) : Option Bytes :=
  let h := field c 0x2A 2
  let off := field c 0x30 8
  let n := field c 0x10 4
  if s.stages p j h && (s.accessFault j h off n false [spHbm]).isNone && (s.tagRefuses j h off n).isNone then some (s.load j h off n) else none

/-- A BAR2 source refused for the tag of one of its sectors makes its error record (R477). -/
def State.stagingTag (s : State) (p : Port) (j : Nat) (c : Bytes) : State :=
  let h := field c 0x2A 2
  let off := field c 0x30 8
  let n := field c 0x10 4
  if s.stages p j h && (s.accessFault j h off n false [spHbm]).isNone then
    match s.tagRefuses j h off n with
    | some (t, k) => s.tagRecord j h (off + k) t
    | none => s
  else s

/-- The KEY_INGEST of a ring that waits, unless it has been aborted. -/
def State.waitingIngest (s : State) (w : IngestWait) : Option Bytes :=
  match (s.ring w.port w.ring).current with
  | none => none
  | some c => if field c 0 1 = 0x12 ∧ (s.ring w.port w.ring).held = true then some c else none

/-- The ingest that is next: in order of arrival, but of the port that was not served last where both have one waiting (R162).
DESIGN CHOICE, safe (assumption 156). -/
def State.nextIngest (s : State) : Option IngestWait := (s.ingestQ.find? fun w => w.port != s.ingestLast).or s.ingestQ.head?

/-- The next ingest taken, where none is in hand. -/
def State.takeIngest : Nat → State → State
  | 0, s => s
  | n + 1, s =>
    if s.ingest.isSome then s
    else match s.nextIngest with
      | none => s
      | some w =>
        let s := { s with ingestQ := s.ingestQ.erase w }
        match s.waitingIngest w with
        | none => State.takeIngest n s
        | some c =>
          let s := { s with ingestLast := w.port }
          let bar2 := field c 0x28 1 = 1
          match (if bar2 then s.stagingBytes w.port (field c 2 1) c else w.src.map (fit (field c 0x10 4))) with
          | none => State.takeIngest n ((if bar2 then s.stagingTag w.port (field c 2 1) c else s).refuse w.port w.ring 0x023A)
          | some b => { s with ingest := some { port := w.port, ring := w.ring, job := field c 2 1, set := (c.drop 0x18).take 16, src := b } }

/-- As many ingests are looked at as wait. -/
def State.ingestStep (s : State) : State := State.takeIngest s.ingestQ.length s

/-- KEY_INGEST (R159, R162): the module takes one ingest at a time; the command waits while another runs. -/
def execKeyIngest (p : Port) (r : Nat) (src : Option Bytes) (s : State) : Outcome :=
  match s.command p r 0x12 with
  | none => .next (s.turnAway p r 0x12)
  | some _ =>
    let q := s.ingestQ.filter fun w => !(w.port == p && w.ring == r)
    .next (State.ingestStep (State.hold { s with ingestQ := q ++ [{ port := p, ring := r, src := src }] } p r))

/-- The ingest in hand ends: its checks decide, and a refused one places nothing. -/
def State.endIngest (s : State) (g : Ingest) : State :=
  let s := { s with ingest := none }
  match s.job g.job with
  | none => s.refuse g.port g.ring cAborted
  | some x =>
    match s.place? g.job x g.set g.src with
    | .refused k => s.refuse g.port g.ring k
    | .done x v0 v1 again runs =>
      let s := (s.setJob g.job (some x)).placeKey g.job runs g.src
      (again.toList.foldl (fun s k => s.markDir g.job k.1 k.2 dirValid) s).complete g.port g.ring { v0 := v0, v1 := v1 }

/-- KEY_INGEST_COMPLETE (R160, R162). -/
def execKeyIngestComplete (p : Port) (r : Nat) (s : State) : Outcome :=
  if !s.live then .next s
  else
    let s := s.ingestStep
    match s.ingest with
    | none => .next s
    | some g => if g.port ≠ p ∨ g.ring ≠ r then .next s else .next (s.endIngest g).ingestStep

/-! ### Binding (R163, R171) -/

/-- The places in the ready bitmap of the sets with a REPULP table (R90). -/
def repulpPlace (set : Nat) : Option Nat := [0x01, 0x02, 0x03, 0x04, 0x05, 0x23, 0x24].findIdx? (· == set)

/-- SPREAD frames of the largest table of each of those sets (R196, R197).
DEDUCED, unsafe (assumption 83). -/
def tableFrames : List Nat := [1, 1, 2, 7, 24, 3, 8]

/-- A unit that nothing owns. -/
def State.unitFree (s : State) (x : Nat) : Bool := (s.hunit x).owner == 0 && !(s.hunit x).filling

/-- Free units of a mill, by number, lowest first. -/
def State.freeUnits (s : State) (m : Nat) : List Nat := (List.range 1536).filter fun k => s.unitFree (1536 * m + k)

/-- Free SPREAD frames, lowest first (R348). -/
def State.freeFrames (s : State) : List Nat := (List.range 1536).filter fun k => (List.range 4).all fun m => s.unitFree (1536 * m + k)

/-- The mill with the most free units, of those that have a stack to hold them (R355). -/
def State.emptiestMill (s : State) : Nat :=
  let room (m : Nat) : Nat := if (s.millStacks m).isEmpty then 0 else (s.freeUnits m).length
  (List.range 4).foldl (fun a m => if room a < room m then m else a) 0

/-- The firmware takes the units of a table: SPREAD frames, or NEAR units of the emptiest mill where a stack is retired (R197, R355).
DEDUCED, unsafe (assumption 83). -/
def State.takeTable (s : State) (i : Nat) : State :=
  let n := tableFrames.getD i 0
  let m := s.emptiestMill
  let us := if s.stackGone then ((s.freeUnits m).take (n * 12 / max 1 (s.millStacks m).length)).map (1536 * m + ·)
    else (s.freeFrames.take n).flatMap fun k => (List.range 4).map fun m => 1536 * m + k
  let s := State.each { s with tableUnits := Tbl.set s.tableUnits i us } us fun s x =>
    s.modUnit x fun u => { u with owner := 255, onStacks := s.millStacks (x / 1536) }
  s.each ((List.range 4).filter fun m => us.any fun u => u / 1536 == m) State.wakeStacks

/-- The REPULP table of a set is built at the first bind of a set with the family, where its bit is clear (R93).
DEDUCED, unsafe (assumption 83). -/
def State.startBuild (s : State) (k : KeySet) : State :=
  match repulpPlace k.set with
  | none => s
  | some i =>
    if bit k.flags 0 && !s.isReady (bitRepulp i) && !s.building.contains i then State.takeTable { s with building := s.building ++ [i] } i else s

/-- A pending bind takes effect: the key directories hold the set, and its command completes with the slot and the state BOUND. -/
def State.bindNow (s : State) (j : Nat) (k : KeySet) : State :=
  match k.binding with
  | none => s
  | some (slot, p, r) =>
    let s := s.modJob j fun x => x.modSet k.id fun k => { k with slot := some slot, binding := none }
    ((s.fillDir j slot k).startBuild k).complete p r { v0 := slot, v1 := 3 }

/-- A key stream of a slot of a job runs, or waits to run again. -/
def State.slotStreams (s : State) (j slot : Nat) : Bool :=
  ((List.range 4).any fun m => (s.headbox m).running.any fun c => c.2.job == j && c.2.slot == slot) ||
    (s.job j).any fun x => x.keysWait.any fun c => c.2.2.slot == slot

/-- A pending unbind takes effect: the set is gone from the job and the key directories, and its space wiped (R160, R166). -/
def State.unbindNow (s : State) (j : Nat) (k : KeySet) : State :=
  match k.unbinding with
  | none => s
  | some (p, r) =>
    let s := (s.wipeKey j k.taken).modJob j fun x => { x with sets := x.sets.filter fun y => y.id != k.id }
    let s := { s with passes := s.passes.filter fun y => !(y.job == j && y.set == k.id) }
    (s.clearDir j (some k.id)).complete p r { v0 := k.slot.getD 0, v1 := 0 }

/-- A bind or unbind that waits takes effect: not a bind that waits for its ring, nor an unbind of a set in `keep` or of one whose own
bind waits. -/
def State.takeBind (s : State) (j : Nat) (keep : List Bytes) (o : BindOp) : State :=
  let drop (s : State) : State := s.modJob j fun x => { x with binds := x.binds.erase o }
  match (s.job j).bind fun x => x.keySet o.set with
  | none => drop s
  | some k =>
    if o.unbind then (if keep.contains k.id ∨ k.binding.isSome then s else drop (s.unbindNow j k))
    else if k.awaits then s else drop (s.bindNow j k)

/-- The binds and unbinds of a job that may take effect do, in the order in which they were accepted (R163); `keep` holds the sets
whose unbind waits for a later couch (R205). -/
def State.takeBinds (s : State) (j : Nat) (keep : List Bytes) : State :=
  s.each (((s.job j).map Job.binds).getD []) fun s o => s.takeBind j keep o

/-- The job runs, so that binds wait for its next couch. -/
def Job.runs (x : Job) : Bool := x.st == .running

/-- The slot is held, or about to be. -/
def Job.slotBusy (x : Job) (slot : Nat) : Bool :=
  x.sets.any fun k => k.slot == some slot || k.binding.any fun b => b.1 == slot

/-- The first check of a bind that fails (R163, R171). -/
def State.bindFault (s : State) (x : Job) (id : Bytes) (slot : Nat) (ring : Option KeyRing) : Option Nat :=
  match x.keySet id with
  | none => some 0x0232
  | some k =>
    if k.slot.isSome ∨ k.binding.isSome ∨ !k.complete ring then some 0x0238
    else if x.slotBusy slot then some 0x0239
    else if 16384 < s.boundKeys + k.entries.length then some 0x0237
    else if ring.any fun r => k.placed.any fun c => c.1 % r.members.length != r.pos then some 0x023C
    else none

/-- The ring that a command names: its members of two bytes each, and this module's position. -/
def ringOf (c : Bytes) (b : Bytes) : Option KeyRing :=
  let m := field c 0x2A 1
  if m = 0 then none else some { members := (List.range m).map fun i => field b (2 * i) 2, pos := field c 0x2B 1 }

/-- KEYSET_BIND with ACTION bind (R163): at once for a job not yet submitted, at the next couch for a running one, and
with a ring once every member has bound it. -/
def execKeysetBind (p : Port) (r : Nat) (buf : Option Bytes) (s : State) : Outcome :=
  match s.command p r 0x11 with
  | none => .next (s.turnAway p r 0x11)
  | some c =>
    let j := field c 2 1
    let m := field c 0x2A 1
    match s.job j with
    | none => .next s
    | some x =>
      if field c 0x29 1 ≠ 0 then .next s
      else if m ≠ 0 ∧ buf = none then .next (s.refuse p r cBufferFault)
      else if m ≠ 0 ∧ field c 0x10 4 < 2 * m then .next (s.complete p r { status := cFieldInvalid, detail := 0x10 })
      else
        let id := (c.drop 0x18).take 16
        let slot := field c 0x28 1
        let ring := ringOf c (buf.getD [])
        match s.bindFault x id slot ring with
        | some k => .next (s.refuse p r k)
        | none =>
          let s := (s.modJob j fun x =>
            { x.modSet id (fun k => { k with binding := some (slot, p, r), ring := ring, joined := [] }) with
              binds := x.binds ++ [{ set := id, unbind := false }] }).hold p r
          .next (if x.runs then s else s.takeBinds j [])

/-- KEYSET_BIND with ACTION unbind (R163). -/
def execKeysetUnbind (p : Port) (r : Nat) (s : State) : Outcome :=
  match s.command p r 0x11 with
  | none => .next (s.turnAway p r 0x11)
  | some c =>
    let j := field c 2 1
    match s.job j with
    | none => .next s
    | some x =>
      if field c 0x29 1 ≠ 1 then .next s
      else
        let id := (c.drop 0x18).take 16
        let slot := field c 0x28 1
        match x.keySet id with
        | none => .next (s.refuse p r 0x0232)
        | some k =>
          if !(k.slot == some slot || k.binding.any fun b => b.1 == slot) then .next (s.refuse p r 0x0232)
          else if k.unbinding.isSome then .next (s.refuse p r 0x0239)
          else
            let s := (s.modJob j fun x =>
              { x.modSet id (fun k => { k with unbinding := some (p, r) }) with binds := x.binds ++ [{ set := id, unbind := true }] }).hold p r
            .next (if x.runs then s else s.takeBinds j [])

/-- KEYRING_BIND_COMPLETE (R171): every member has bound the same identifier, M and order.
DEDUCED, unsafe (assumption 118). -/
def execKeyringBindComplete (p : Port) (r : Nat) (s : State) : Outcome :=
  match s.ringBind p r with
  | none => .next s
  | some (j, k) =>
    if !s.live then .next s
    else
      let k := { k with joined := (k.ring.map KeyRing.members).getD [] }
      let s := s.modJob j fun x => x.modSet k.id fun _ => k
      .next (if (s.job j).any Job.runs then s else s.takeBinds j [])

/-- KEYRING_INCOMPLETE (R171): the bind is refused; an unbind that waited for it finds its slot empty.
DEDUCED, unsafe (assumption 118). -/
def execKeyringIncomplete (p : Port) (r : Nat) (s : State) : Outcome :=
  match s.ringBind p r with
  | none => .next s
  | some (j, k) =>
    if !s.live then .next s
    else
      let s := s.modJob j fun x =>
        { x.modSet k.id (fun k => { k with binding := none, unbinding := none, ring := none }) with
          binds := x.binds.filter fun o => o.set != k.id }
      let s := s.refuse p r 0x023D
      match k.unbinding with
      | none => .next s
      | some (p', r') => .next (s.refuse p' r' 0x0232)

/-! ### KEY_SELFCHECK (R165) -/

/-- KEY_SELFCHECK (R165): 64 words of the expansion, written to the host. -/
def execKeySelfcheck (p : Port) (r : Nat) (ok : Bool) (s : State) (written : Nat := 0) : Outcome :=
  match s.command p r 0x13 with
  | none => .next s
  | some c =>
    let f : Family := if field c 0x3B 1 = 1 then .z36 else .z28
    let i := field c 0x3C 1
    if (field c 0x3B 1 ≠ 1 ∧ field c 0x3B 1 ≠ 2) ∨ famCount f ≤ i then .next (s.refuse p r 0x023B)
    else
      let q := primeOf f i
      let w := expandWords 64 (expandMsg ((c.drop 0x18).take 32) (field c 0x38 2) (field c 0x3A 1) i) q (fmtWidth (famFmt f)) 64 128
      let rec_ := le 1 (famCode f) ++ le 1 i ++ le 2 w.2 ++ zeros 4 ++ le 8 q ++ w.1.flatMap (le 8)
      .next (s.writeBuffer p r ok rec_ { v0 := w.2 } written)

/-! ### Key streams (R166 to R170, R178) -/

/-- KEY_STREAM_START (R167): waits in issue while the headbox has no free stream, or a pass of the key is half read.
DESIGN CHOICE, safe (assumption 3); DEDUCED, unsafe (assumption 49). -/
def opKeyStreamStart (i : Issue) (slot index d0 d1 l0 l1 : Nat) (group : List Nat) (s : State) : Op :=
  let n := i.core
  let m := s.millOf n
  let j := (s.core n).job
  let set := (s.job j).bind fun x => x.boundSet slot
  { slot := slotLoad, uses := { ready := (s.headbox m).freeStream.isSome && set.all fun k => s.passFresh j k index },
    act := s.needs n slotLoad [] [engKey] (
      match s.job j, set.bind fun k => (paramSet k.set).map fun p => (k, p), (s.headbox m).entry j slot index with
      | some x, some (k, p), some e =>
        if d1 < d0 ∨ p.dnum ≤ d1 ∨ l1 < l0 ∨ p.l + p.k ≤ l1 ∨ group.isEmpty ∨ !(group.all fun c => x.cores.contains c && s.millOf c == m) then
          argStop n slotLoad opExtent
        else if e.state = dirDamaged then
          .stop 7 fun s => s.stopJob j
            { code := 0x0601, core := n, slot := slotLoad, bundle := (s.core n).bundle, data := zeros 3 ++ le 2 index ++ le 1 0 }
        else .effect fun s =>
          let ls := fromTo l0 (l1 + 1)
          match (s.headbox m).freeStream with
          | none => s
          | some q => s.beginStream m q
              { job := j, slot := slot, index := index, d0 := d0, d1 := d1, limbs := ls, group := group.dedup,
                blocks := streamBlocks p d0 d1 ls.length, staged := 0, acked := [], ops := [], remote := k.remote index } k
      | _, _, _ => .stop 7 fun s => s.program n 0x0301 1 slotLoad 0xFFFF (keyRef slot index 0 0)) }

/-- The jobs that stream through a headbox.
DEDUCED, unsafe (assumption 84). -/
def State.streamJobs (s : State) (m : Nat) : List Nat :=
  (s.runningJobs).filter fun j => (s.headbox m).streams.any fun c => c.2.any fun t => t.job == j

/-- A failed check of an expander's datapath (R178): every job on the mill replays, and a second failure within 16 sheets retires the
expander.
DEDUCED, unsafe (assumption 84). -/
def State.expanderCheck (s : State) (m i : Nat) : State :=
  let js := s.jobsOnMill m
  let s :=
    if s.within16 (Tbl.get none (s.headbox m).lastCheck i) then
      (s.retired 0x0505 0x07 (16 * m + i)).modHeadbox m fun h => { h with retired := h.retired ++ [i] }
    else s.modHeadbox m fun h => { h with lastCheck := Tbl.set h.lastCheck i (some s.now) }
  s.each js fun s j => s.beginReplay j { contained := false, code := 0x0505, res := { res := .headbox, index := m }, detail := 0, tag := 0 }

/-- A job uses a key now: a stream delivers it, an operation waits for it, or a macro refreshes with its family (R178).
DEDUCED, unsafe (assumption 84). -/
def State.usesKey (s : State) (j : Nat) (k : KeySet) (ix : Nat) : Bool :=
  ((List.range 4).any fun m => (s.headbox m).running.any fun c => c.2.job == j && k.slot == some c.2.slot && c.2.index == ix) ||
    (s.cores.any fun c => c.2.job == j && c.2.ctQ.any fun q => k.slot == some q.op.slot && q.keys.contains ix) ||
    (s.job j).any fun x => x.inter.ph == .working && (x.inter.batch.any fun r => k.slot == some r.slot) && (k.entry ix).any fun e => bit e.flags 0

/-- An uncorrectable error in a key's container or directory entry (R178): the key is DAMAGED, and its job stops where it uses it.
DEDUCED, unsafe (assumption 84). -/
def State.damage (s : State) (j : Nat) (id : Bytes) (ix : Nat) : State :=
  let hit := ((s.job j).bind fun x => x.keySet id).any fun k => s.usesKey j k ix
  let s := s.modJob j fun x => x.modSet id fun k =>
    { k with placed := k.placed.map fun (c : Nat × KeyBody) => if c.1 = ix then (c.1, { c.2 with damaged := true }) else c }
  let s := s.markDir j id ix dirDamaged
  if hit then s.stopJob j { code := 0x0601, data := zeros 3 ++ le 2 ix ++ le 1 0 } else s

/-- A stream that every core has taken whole is over: the operations that it feeds have its key, and others may begin (R167, R184). -/
def State.endStream (s : State) (m q : Nat) (t : KeyStream) : State :=
  let got := (((s.job t.job).bind fun x => x.boundSet t.slot).map fun k => s.container t.job k t.index).getD []
  let feed (n : Nat) (y : CtQ) : CtQ :=
    if t.ops.contains (n, y.stamp) then { y with keys := y.keys.drop 1, got := y.got ++ [(t.index, got)] } else y
  let s := s.modHeadbox m fun h => { h with streams := Tbl.set h.streams q none }
  let s := s.each ((t.ops.map Prod.fst).dedup) fun s n => s.modCore n fun c => { c with ctQ := c.ctQ.map (feed n) }
  let s := ((s.dropPass t.job t.slot t.index).each s.runningJobs State.retryKeys).feedOps m
  s.grant m

/-- A core acknowledges its next block: a block that every core of the group has acknowledged is free, and its credit back (R167). -/
def State.ackBlock (s : State) (m q n : Nat) (t : KeyStream) : State :=
  let t := { t with acked := Tbl.set t.acked n (Tbl.get 0 t.acked n + 1) }
  let free (b : StageBlk) : StageBlk := if b.stream = q ∧ b.job = t.job ∧ b.block < t.returned then { b with busy := false } else b
  let s := s.modHeadbox m fun h =>
    { h with streams := Tbl.set h.streams q (some t), staging := h.staging.map fun (c : Nat × StageBlk) => (c.1, free c.2) }
  let s := s.modJob t.job fun x => { x with stuck := false }
  if t.returned < t.blocks then s.grant m else s.endStream m q t

/-- KEY_BLOCK_ACKNOWLEDGED (R167): a core of the group acknowledges the next block that is staged. A delivery that failed is resolved as
R178 says.
DEDUCED, unsafe (assumption 84). -/
def execKeyBlockAcknowledged (m stream core : Nat) (e : HbCheck) (s : State) : Outcome :=
  match Tbl.get none (s.headbox m).streams stream with
  | none => .next s
  | some t =>
    if !s.live || !t.group.contains core || decide (t.staged ≤ Tbl.get 0 t.acked core) then .next s
    else match e with
    | .storage => .next (s.each (s.streamJobs m) fun s j =>
        s.beginReplay j { contained := false, code := 0x0501, res := { res := .headbox, index := m }, detail := 0, tag := 0 })
    | .expander i => if (s.headbox m).retired.contains i then .next s else .next (s.expanderCheck m i)
    | .container | .directory => match s.streamSet t with
      | none => .next s
      | some (k, _) => .next (s.damage t.job k.id t.index)
    | .good => .next (s.ackBlock m stream core t)

/-! ### Key passes (R172, R429) -/

/-- Every job with a bound set of an identifier that lists a key, with that set. -/
def State.boundBy (s : State) (id : Bytes) (ix : Nat) : List (Nat × KeySet) :=
  s.jobNums.filterMap fun j => ((s.job j).bind fun x =>
    x.sets.find? fun k => k.slot.isSome && k.ring.isSome && k.id == id && (k.entry ix).isSome).map fun k => (j, k)

/-- The member after this one in a ring. -/
def KeyRing.successor (r : KeyRing) : Nat := r.members.getD ((r.pos + 1) % r.members.length) 0

/-- The holder sends a container's header and stored half to its successor. A key that it does not hold sends nothing. -/
def State.passOut (s : State) (link src : Nat) (keyset : Bytes) (index d0 d1 : Nat) : State :=
  if !s.live ∨ !(s.link link).carries ∨ src = s.self ∨ d1 < d0 then s
  else match (s.boundBy keyset index).head? with
    | none => s
    | some (_, k) =>
      match k.ring, (k.placed.find? fun c => c.1 == index && !c.2.damaged) with
      | some r, some c =>
        if k.remote index then s
        else s.sendMsg r.successor clsKey index (leVal (k.id.take 2)) (k.id ++ c.2.header ++ c.2.body)
      | _, _ => s

/-- PASS_REQUEST (R429). -/
def execPassRequest (link src : Nat) (keyset : Bytes) (index d0 d1 : Nat) (s : State) (arr : Option Arrival := none) : Outcome :=
  .next (s.receive arr clsControl (passPayload index d0 d1) fun s => s.passOut link src keyset index d0 d1)

/-- A part of a pass kept for the jobs that asked for it: the first one begins those that have not begun, and the rest of a pass goes
to those that have (R172). A pass still arriving is progress (R221).
DEDUCED, safe (assumption 50). -/
def State.passArrives (s : State) (id : Bytes) (ix : Nat) (first : Bool) (b : Bytes) : State :=
  let takes (y : Pass) : Bool := y.set == id && y.index == ix && y.got.isEmpty == first
  let hit := (s.passes.filter takes).map Pass.job
  let s := s.each hit fun s j => s.modJob j fun x => { x with stuck := false }
  { s with passes := s.passes.map fun y => if takes y then { y with got := y.got ++ b } else y }

/-- The bytes of a KEY flit: the first one of a pass carries the key-set identifier (R429). -/
def keyFlit (h : FlitHdr) (keyset payload : Bytes) : Bytes := (if h.first then keyset else []) ++ payload

/-- A part of a pass is kept for the jobs that asked for it, whose streams go on, and sent on, up to the holder's predecessor. One for a key
that is not bound here is discarded and sets PEER_MISMATCH (R172, R429). -/
def State.passIn (s : State) (link : Nat) (h : FlitHdr) (keyset payload : Bytes) : State :=
  match (s.boundBy keyset h.span).head? with
  | none => s.linkErr link 4
  | some (_, k) =>
    let s := (s.passArrives keyset h.span h.first payload).each (List.range 4) State.grant
    match k.ring with
    | none => s
    | some r =>
      if r.successor = r.holder h.span then s
      else s.forward { h with dst := r.successor } clsKey (keyFlit h k.id payload)

/-- KEY_MESSAGE (R172, R423, R429). -/
def execKeyMessage (link : Nat) (h : FlitHdr) (keyset : Bytes) (payload : Bytes) (s : State) (line : FlitLine := .good) (cls : Nat := 2) : Outcome :=
  if !s.live ∨ !(s.link link).carries then .next s
  else .next (s.takeIn link cls clsKey h line (keyFlit h keyset payload) fun s => s.passIn link h keyset payload)

end Sys2Proof.Machine
end

