-- ==== Sys2Proof/Machine/Handles.lean ====
section
/-! DEFINITION. Mapping of handles, BAR2 windows, and the power states of bank groups (R293 to R307, R411). -/

namespace Sys2Proof.Machine

/-! ### Entries and operations (R293, R411) -/

/-- The entry of R293 in 32 bytes. -/
def readHandle (b : Bytes) : Handle :=
  { space := field b 0 1, attr := field b 1 1, layout := field b 2 1, mode := field b 3 1, context := field b 4 4,
    bound := field b 8 8, baseA := field b 0x10 8, baseB := field b 0x18 8 }

/-- An operation of HANDLE_MAP: handle, OP, window, BASE_GIB, WIN_FLAGS and entry. -/
structure HOp where
  h : Nat
  op : Nat
  window : Nat
  gib : Nat
  flags : Nat
  raw : Bytes
  deriving DecidableEq, Repr

def readHOp (b : Bytes) : HOp :=
  { h := field b 0 2, op := field b 2 1, window := field b 3 1, gib := field b 4 2, flags := field b 6 1, raw := (b.drop 8).take 32 }

/-- The operations of a buffer. -/
def readHOps (b : Bytes) (n : Nat) : List HOp := (List.range n).map fun i => readHOp (b.drop (40 * i))

/-- The offset within its operation of the first field that is out of range or reserved.
DEDUCED, unsafe (assumption 52). -/
def hopBad (o : HOp) (reserved : Nat) : Option Nat :=
  let win := o.op == 3 || o.op == 4
  if o.op = 0 ∨ 4 < o.op then some 2
  else if (if win then decide (63 < o.window) else o.window != 0) then some 3
  else if o.op ≠ 3 ∧ o.gib ≠ 0 then some 4
  else if (if o.op = 3 then decide (1 < o.flags) else o.flags != 0) then some 6
  else if reserved ≠ 0 then some 7
  else if o.op ≠ 1 ∧ o.raw ≠ zeros 32 then some 8
  else none

/-! ### Extents -/


/-- The exclusive attributes: DURABLE, RELEASE or RECEIVE. -/
def Handle.kept (e : Handle) : Bool := e.durable || e.release || e.receive

/-- The address ranges of a copy in its space: a STRIPED copy has one in each of its groups. -/
def copySpans (e : Handle) (base : Nat) : List (Nat × Nat) :=
  if e.space = spSram ∧ e.mode = 1 then
    let blocks := (e.bound + 4095) / 4096
    (List.range 8).filterMap fun i =>
      let n := (blocks + 7 - i) / 8
      let short := if (blocks - 1) % 8 = i then blocks * 4096 - e.bound else 0
      if n = 0 then none else some (base + i * 2 ^ 22, base + i * 2 ^ 22 + (n * 4096 - short))
  else if e.bound = 0 then []
  else [(base, base + e.bound)]

def meets (a b : Nat × Nat) : Bool := a.1 < b.2 && b.1 < a.2

/-- The parts of a range of addresses of units or frames of `size` bytes: the number, and the offsets in it. -/
def unitParts (size lo hi : Nat) : List (Nat × Nat × Nat) :=
  (fromTo (lo / size) ((hi - 1) / size + 1)).map fun k => (k, lo - k * size, min hi (k * size + size) - k * size)

/-- A granule of a SPREAD frame lies in a range of offsets of the frame: the granule at row `b` that a stack and
pseudo-channel hold (R350). -/
def spreadHas (lo hi b stack pc : Nat) : Bool :=
  let r := (stack + 12 - b % 12) % 12 * 64 + Nat.xor (Nat.xor pc (b % 64)) (b / 64) % 64
  let o := (b * 768 + r) * 256
  lo < o + 256 && o < hi

/-- A NEAR range of unit k and a SPREAD range of frame k hold a granule in common; `ks` are the stacks of the unit.
DEDUCED, unsafe (assumption 51). -/
def nearMeetsSpread (ks : List Nat) (near spread : Nat × Nat) : Bool :=
  let n := ks.length
  let w := 64 * n
  let rows := fromTo (max (near.1 / 256 / w) (spread.1 / 256 / 768)) (min ((near.2 - 1) / 256 / w) ((spread.2 - 1) / 256 / 768) + 1)
  rows.any fun b => (List.range w).any fun r =>
    let o := (b * w + r) * 256
    near.1 < o + 256 && o < near.2 &&
      spreadHas spread.1 spread.2 b (ks.getD ((r / 64 + b) % n) 0) (Nat.xor (Nat.xor (r % 64) (b % 64)) (b / 64) % 64)

/-- Two copies share a byte of storage. -/
def State.copiesMeet (s : State) (e : Handle) (a : Nat) (f : Handle) (b : Nat) : Bool :=
  if e.space ≠ f.space then false
  else if e.space ≠ spHbm ∨ e.mode = f.mode then (copySpans e a).any fun x => (copySpans f b).any (meets x)
  else
    let near (m lo hi : Nat) (lo' hi' : Nat) : Bool :=
      (unitParts nearUnit (lo % 2 ^ 38) (lo % 2 ^ 38 + (hi - lo))).any fun u => (unitParts spreadFrame lo' hi').any fun v =>
        u.1 == v.1 && nearMeetsSpread (s.unitStacks m u.1) u.2 v.2
    if f.mode = 0x20 then near (e.mode - 0x10) a (a + e.bound) b (b + f.bound)
    else if e.mode = 0x20 then near (f.mode - 0x10) b (b + f.bound) a (a + e.bound)
    else false

/-! ### Validity of an entry (R294) -/

def hdNumber : Nat := 1
def hdAttributes : Nat := 2
def hdAlignment : Nat := 3
def hdNotOwned : Nat := 4
def hdOverlap : Nat := 5
def hdMode : Nat := 6
def hdDark : Nat := 7

/-- LAYOUT is one that R308 allows. -/
def layoutOk (l : Nat) : Bool :=
  match l / 64 with
  | 1 => l / 8 % 8 ≤ 5 && l % 8 ≤ 5
  | 3 => false
  | _ => l % 64 == 0

def Handle.encodingOk (e : Handle) : Bool :=
  e.space ≤ 3 && e.attr < 16 && layoutOk e.layout && ((e.space != spSram && e.space != spHbm) || e.context == 0) &&
    (e.space != spHost || bits e.context 30 20 == 0) && (e.durable || e.baseB == 0)

def Handle.attrOk (e : Handle) : Bool :=
  b2n e.durable 1 + b2n e.release 1 + b2n e.receive 1 ≤ 1 && !(e.readonly && (e.release || e.receive)) &&
    (e.space == spSram || e.space == spHbm || !e.kept)

def State.modeOk (s : State) (e : Handle) : Bool :=
  if e.space = spSram then e.mode ≤ 1
  else if e.space = spHbm then (0x10 ≤ e.mode && e.mode ≤ 0x13) || (e.mode == 0x20 && !s.stackGone)
  else e.space == spHost && e.mode == 0

def State.alignOk (s : State) (e : Handle) : Bool :=
  let al := if e.durable then 4096 else 64
  e.baseA % al == 0 && e.baseB % al == 0 && e.bound % al == 0 && (e.durable || 64 ≤ e.bound) &&
    !(e.durable && s.copiesMeet e e.baseA e e.baseB)

/-- A unit is the job's own, and one of its key region or its image area is mapped READONLY only (R226, R369). -/
def State.unitMaps (s : State) (j : Nat) (e : Handle) (u : Nat) : Bool :=
  (s.hunit u).owner == j && (e.readonly || ((s.hunit u).use != .key && (s.hunit u).use != .image))

/-- A copy lies in what the job owns; one of no bytes, which a durable handle may have, lies anywhere. -/
def State.copyOwned (s : State) (j : Nat) (e : Handle) (base : Nat) : Bool :=
  if e.bound = 0 then true
  else if e.space = spSram then
    let gs := groupsTouched e.mode base 0 e.bound
    gs.all fun g => g < 512 && (s.group g).owner == j && g / 128 == base / 2 ^ 29
  else if e.mode = 0x20 then
    (unitParts spreadFrame base (base + e.bound)).all fun u =>
      u.1 < 1536 && (List.range 4).all fun m => s.unitMaps j e (1536 * m + u.1)
  else
    let m := e.mode - 0x10
    let a := base % 2 ^ 38
    base / 2 ^ 38 == m && (unitParts nearUnit a (a + e.bound)).all fun u =>
      u.1 < 1536 && s.unitMaps j e (1536 * m + u.1) && u.2.2 ≤ s.unitSize (1536 * m + u.1)

def State.extentOk (s : State) (j : Nat) (x : Job) (e : Handle) : Bool :=
  if e.space = spHost then e.context / 2 ^ 31 == portNum x.owner else e.bases.all (s.copyOwned j e)

/-- A copy of the entry for handle `h` meets another handle of the table, and one of the two may not.
DEDUCED, unsafe (assumption 51). -/
def State.overlapsIn (s : State) (t : Tbl Handle) (h : Nat) (e : Handle) : Bool :=
  t.any fun c => c.1 != h && c.2.space != spEmpty && (e.kept || c.2.kept) &&
    e.bases.any fun a => c.2.bases.any fun b => s.copiesMeet e a c.2 b

def Handle.stripeOk (e : Handle) : Bool :=
  !(e.space == spSram && e.mode == 1) ||
    e.bases.all fun b => b / 2 ^ 22 % 128 + 7 ≤ 127 && e.bound ≤ 8 * (2 ^ 22 - b % 2 ^ 22)

/-- A group is DARK with no power-up accepted, or is on its way there. -/
def Group.unlit (g : Group) : Bool := g.st == .draining || (g.st == .dark && g.pend != some true) || g.pend == some false

def State.litOk (s : State) (e : Handle) : Bool :=
  e.space != spSram || e.bases.all fun b => (groupsTouched e.mode b 0 e.bound).all fun g => !(s.group g).unlit

/-- The detail of the first row of R294 that an entry fails. -/
def State.entryFault (s : State) (j : Nat) (x : Job) (t : Tbl Handle) (h : Nat) (e : Handle) : Option Nat :=
  if 4095 < h then some hdNumber
  else if !e.encodingOk ∨ !e.attrOk then some hdAttributes
  else if !s.modeOk e then some hdMode
  else if !s.alignOk e then some hdAlignment
  else if !s.extentOk j x e then some hdNotOwned
  else if s.overlapsIn t h e then some hdOverlap
  else if !e.stripeOk then some hdMode
  else if !s.litOk e then some hdDark
  else none

/-! ### HANDLE_MAP (R296, R411) -/

/-- A table with operations applied. -/
def applyMaps (t : Tbl Handle) (ops : List MapOp) : Tbl Handle := ops.foldl (fun t o => Tbl.set t o.h o.e) t

/-- The table as it will stand after every operation already pending. -/
def Job.view (x : Job) : Tbl Handle := x.maps.foldl (fun t m => applyMaps t m.ops) x.handles

/-- The handle may have a window (R399).
DEDUCED, unsafe (assumption 53). -/
def windowOk (e : Handle) : Bool := e.space == spHbm && e.scratch && !e.release && !e.receive

/-- What a command has come to: the windows and the tables as they stand after its operations so far. -/
structure MapScan where
  wins : Tbl (Option Win)
  /-- The table with the pending operations, and the table that window operations look at. -/
  view : Tbl Handle
  now : Tbl Handle
  ops : List MapOp := []
  deriving DecidableEq, Repr

/-- One operation checked and applied: a status with its detail code, or the scan after it.
DEDUCED, unsafe (assumption 53). -/
def State.scanOp (s : State) (j : Nat) (x : Job) (m : MapScan) (o : HOp) : Except (Nat × Nat) MapScan :=
  let put (e : Handle) : MapScan :=
    { m with view := Tbl.set m.view o.h e, now := if x.runs then m.now else Tbl.set m.now o.h e, ops := m.ops ++ [({ h := o.h, e := e } : MapOp)] }
  if o.op = 1 then
    match s.entryFault j x m.view o.h (readHandle o.raw) with
    | some k => .error (0x0250, k)
    | none => .ok (put (readHandle o.raw))
  else if 4095 < o.h then .error (0x0250, hdNumber)
  else if o.op = 2 then .ok (put {})
  else if o.op = 3 then
    if (Tbl.get none m.wins o.window).isSome then .error (0x0254, 0)
    else if !windowOk (Tbl.get {} m.now o.h) then .error (0x0250, hdAttributes)
    else .ok { m with wins := Tbl.set m.wins o.window (some { keyStaging := bit o.flags 0, job := j, handle := o.h, baseGib := o.gib }) }
  else
    .ok { m with wins := if (Tbl.get none m.wins o.window).any fun w => w.job == j && w.handle == o.h then Tbl.set m.wins o.window none else m.wins }

/-- The operations of a command in order: the first refusal with its position, or the scan at the end. -/
def State.scanOps (s : State) (j : Nat) (x : Job) : Nat → MapScan → List HOp → Except (Nat × Nat × Nat) MapScan
  | _, m, [] => .ok m
  | i, m, o :: os =>
    match s.scanOp j x m o with
    | .error (st, k) => .error (st, i, k)
    | .ok m => s.scanOps j x (i + 1) m os

/-- The first malformed field of the operations, by its offset in the buffer.
DEDUCED, unsafe (assumption 52). -/
def hopsBad (b : Bytes) (n : Nat) : Option Nat :=
  (List.range n).findSome? fun i => (hopBad (readHOp (b.drop (40 * i))) (field (b.drop (40 * i)) 7 1)).map (40 * i + ·)

/-- A HANDLE_MAP whose first operation is `first`: its windows at once, its map operations at once for a job not
submitted and at the next couch for a running one. A refusal of one operation refuses them all.
DEDUCED, unsafe (assumption 52). -/
def State.handleCommand (s : State) (p : Port) (r : Nat) (buf : Option Bytes) (first : Nat) : Outcome :=
  match s.command p r 0x21 with
  | none => .next (s.turnAway p r 0x21)
  | some c =>
    let j := field c 2 1
    match s.job j, buf with
    | none, _ => .next s
    | some _, none => .next (s.refuse p r cBufferFault)
    | some x, some b =>
      let n := field c 0x10 4 / 40
      let ops := readHOps (fit (40 * n) b) n
      if (ops.head?.map HOp.op) ≠ some first ∧ ¬(first = 1 ∧ (hopsBad (fit (40 * n) b) n).isSome) then .next s
      else match hopsBad (fit (40 * n) b) n with
        | some off => .next (s.complete p r { status := cFieldInvalid, detail := off })
        | none =>
          match s.scanOps j x 0 { wins := (s.port p).wins, view := x.view, now := x.handles } ops with
          | .error (st, i, k) => .next (s.complete p r { status := st, detail := i + 256 * k })
          | .ok m =>
            let s := s.modPort p fun q => { q with wins := m.wins }
            if x.runs ∧ m.ops ≠ [] then
              .next ((s.modJob j fun x => { x with maps := x.maps ++ [({ port := p, ring := r, ops := m.ops } : PendMap)] }).hold p r)
            else .next ((s.modJob j fun x => { x with handles := applyMaps x.handles m.ops }).complete p r {})

/-- HANDLE_MAP (R296): the operations of a command that begins with a map, or that is malformed. -/
def execHandleMap (p : Port) (r : Nat) (buf : Option Bytes) (s : State) : Outcome := s.handleCommand p r buf 1
/-- HANDLE_UNMAP (R296). -/
def execHandleUnmap (p : Port) (r : Nat) (buf : Option Bytes) (s : State) : Outcome := s.handleCommand p r buf 2
/-- WINDOW_OPEN (R411). -/
def execWindowOpen (p : Port) (r : Nat) (buf : Option Bytes) (s : State) : Outcome := s.handleCommand p r buf 3
/-- WINDOW_CLOSE (R411). -/
def execWindowClose (p : Port) (r : Nat) (buf : Option Bytes) (s : State) : Outcome := s.handleCommand p r buf 4

/-! ### BANK_POWER (R298, R300, R301) -/

/-- The groups that a BANK_POWER command names. -/
def powerGroups (c : Bytes) : List Nat := ((List.range 128).filter (bit (field c 0x20 16))).map (128 * field c 0x19 1 + ·)

/-- A copy of a durable, RELEASE or RECEIVE handle, pending maps counted, touches a group. -/
def Job.keeps (x : Job) (g : Nat) : Bool :=
  x.view.any fun c => c.2.space == spSram && c.2.kept && c.2.bases.any fun b => (groupsTouched c.2.mode b 0 c.2.bound).contains g

/-- A power change of the group is under way for the job. -/
def Job.waking (x : Job) (g : Nat) : Bool := x.power.any fun w => w.groups.contains g

/-- The first refusal among the named groups.
DEDUCED, unsafe (assumption 54). -/
def State.powerFault (s : State) (j : Nat) (x : Job) (up : Bool) (gs : List Nat) : Option Nat :=
  gs.findSome? fun g =>
    let y := s.group g
    if y.owner ≠ j ∨ y.st = .retired then some 0x0252
    else if y.pend.isSome ∨ x.waking g then some 0x0253
    else if y.st ≠ (if up then .dark else .owned) then some 0x0252
    else if !up ∧ x.keeps g then some 0x0251
    else none

/-- The groups of a power change leave the bank map, to drain, or are powered and wiped. -/
def State.beginPower (s : State) (w : PendPower) : State :=
  s.each w.groups fun s g => s.modGroup g fun y => { y with pend := none, mapped := false, st := if w.up then .wiping else .draining }

/-- The power changes of a job that are complete: a power-down whose groups are all DARK; a power-up whose groups are
all wiped, at a couch of the job or where the job has none to wait for.
DEDUCED, unsafe (assumption 55). -/
def State.endPower (s : State) (j : Nat) (couch : Bool) : State :=
  match s.job j with
  | none => s
  | some x =>
    let complete (w : PendPower) : Bool :=
      w.begun && (if w.up then (couch || !x.runs) && w.groups.all (fun g => (s.group g).st != .wiping) else w.groups.all fun g => (s.group g).st != .draining)
    let s := s.modJob j fun x => { x with power := x.power.filter fun w => !complete w }
    s.each (x.power.filter complete) fun s w =>
      (s.each w.groups fun s g => if w.up then s.modGroup g fun y => { y with mapped := true } else s).complete w.port w.ring {}

/-- A BANK_POWER of one direction: at once for a job not submitted, else at its next couch.
DEDUCED, unsafe (assumption 55). -/
def State.powerCommand (s : State) (p : Port) (r : Nat) (up : Bool) : Outcome :=
  match s.command p r 0x22 with
  | none => .next (s.turnAway p r 0x22)
  | some c =>
    let j := field c 2 1
    match s.job j with
    | none => .next s
    | some x =>
      if (field c 0x18 1 == 1) != up then .next s
      else
        let gs := powerGroups c
        match s.powerFault j x up gs with
        | some k => .next (s.refuse p r k)
        | none =>
          let w : PendPower := { port := p, ring := r, up := up, groups := gs, begun := !x.runs }
          let s := (s.each gs fun s g => s.modGroup g fun y => { y with pend := some up }).hold p r
          let s := s.modJob j fun x => { x with power := x.power ++ [w] }
          .next (if x.runs then s else (s.beginPower w).endPower j false)

/-- BANK_POWER down (R300). -/
def execBankPowerDown (p : Port) (r : Nat) (s : State) : Outcome := s.powerCommand p r false
/-- BANK_POWER up (R301). -/
def execBankPowerUp (p : Port) (r : Nat) (s : State) : Outcome := s.powerCommand p r true

/-- BANK_GROUP_DARK (R300): a draining group's counters are zero and its supply is gated. -/
def execBankGroupDark (m g : Nat) (s : State) : Outcome :=
  let x := 128 * m + g
  if !s.live ∨ (s.group x).st ≠ .draining then .next s
  else .next ((s.modGroup x fun y => { y with st := .dark }).endPower (s.group x).owner false)

/-- BANK_GROUP_WIPED (R299): the group is FREE, or OWNED by the job it was wiped for; a group given to a job stands in
its bank map at once, one powered up at a couch (R301). -/
def execBankGroupWiped (m g : Nat) (s : State) : Outcome :=
  let x := 128 * m + g
  let y := s.group x
  if !s.live ∨ y.st ≠ .wiping then .next s else
  let s := s.wipeGroup x
  let free := match s.job y.owner with
    | none => true
    | some k => k.st == JobSt.wiping
  if free then
    .next ((s.modGroup x fun y => { y with st := .free, owner := 0, mapped := false }).modJob y.owner fun k =>
      { k with wipeGroups := k.wipeGroups.erase x })
  else
    let waking := (s.job y.owner).any fun k => Job.waking k x
    .next ((s.modGroup x fun y => { y with st := .owned, mapped := !waking }).endPower y.owner false)

/-- BANK_GROUP_OFF (R299): a FREE group goes OFF after 1 ms. -/
def execBankGroupOff (m g : Nat) (s : State) : Outcome :=
  if s.live ∧ (s.group (128 * m + g)).st = .free then .next (s.modGroup (128 * m + g) fun y => { y with st := .off }) else .next s

/-! ### What a couch does to handles and groups (R102, R296, R300, R301) -/

/-- The group is on its way to the job's bank map, which it enters at a couch after its wipe. -/
def Group.rising (y : Group) : Bool := !y.mapped && (y.st == .wiping || y.st == .owned)

/-- A map of a group that is still powering up waits for the first couch after the wipe; one of a group that is turned off takes
effect with the power-down (R300).
DEDUCED, unsafe (assumption 55). -/
def State.mapWaits (s : State) (j : Nat) (ops : List MapOp) : Bool :=
  ops.any fun o => o.e.space == spSram && o.e.bases.any fun b =>
    (groupsTouched o.e.mode b 0 o.e.bound).any fun g => (s.group g).owner == j && (s.group g).rising

/-- Pending maps taken in arrival order: the table, the maps done and the maps that wait. What follows a waiting map of the
same handle waits behind it. -/
structure MapTake where
  table : Tbl Handle
  done : List PendMap := []
  wait : List PendMap := []
  deriving DecidableEq, Repr

def MapTake.behind (a : MapTake) (m : PendMap) : Bool := a.wait.any fun w => w.ops.any fun o => m.ops.any fun q => q.h == o.h

def State.takeMaps (s : State) (j : Nat) (t : Tbl Handle) (ms : List PendMap) : MapTake :=
  ms.foldl (fun (a : MapTake) (m : PendMap) =>
    if a.behind m || s.mapWaits j m.ops then { a with wait := a.wait ++ [m] }
    else { a with table := applyMaps a.table m.ops, done := a.done ++ [m] }) { table := t }

/-- The commit point for handles: roles exchange, power changes and maps take effect. -/
def State.couchHandles (s : State) (j : Nat) : State :=
  let s := s.modJob j fun x =>
    { x with blks := x.blks.map (fun (c : Nat × Blk) => (c.1, if c.2.written then { roleB := !c.2.roleB, written := false } else c.2)), folding := true }
  let s := s.endPower j true
  match s.job j with
  | none => s
  | some x =>
    let fresh := x.power.filter fun w => !w.begun
    let s := s.modJob j fun x => { x with power := x.power.map fun w => { w with begun := true } }
    let s := s.each fresh State.beginPower
    let k := s.takeMaps j x.handles x.maps
    let s := s.modJob j fun x => { x with handles := k.table, maps := k.wait }
    (s.each k.done fun s m => s.complete m.port m.ring {}).endPower j false

/-! ### Evacuation (R304) -/

/-- A dry copy of a durable block of the job lies in a group. -/
def Job.dryIn (x : Job) (g : Nat) : Bool :=
  x.handles.any fun c => c.2.space == spSram && c.2.durable &&
    (List.range ((c.2.bound + 63) / 64)).any fun b =>
      sramAddr c.2.mode (c.2.dryBase (x.blk c.1 (b / 64))) (64 * b) / 2 ^ 22 == g

/-- Data that the release in hand has still to write lie in a group. -/
def Job.begunIn (x : Job) (g : Nat) : Bool :=
  x.handles.any fun c => c.2.space == spSram && c.2.release &&
    (List.range ((c.2.bound + 63) / 64)).any fun b => x.inBegun c.1 (64 * b) && sramAddr c.2.mode c.2.baseA (64 * b) / 2 ^ 22 == g

/-- EVACUATION_DONE (R304): the replacement serves the number; a copy that failed stops the job where a dry block lies
in the group, else the job replays. -/
def execEvacuationDone (m g : Nat) (ok : Bool) (s : State) : Outcome :=
  let x := 128 * m + g
  let y := s.group x
  if !s.live ∨ y.st ≠ .evacuating then .next s else
  let s := s.modGroup x fun y => { y with st := .owned }
  if ok then .next s
  else
    let res : ResIx := { res := .bankGroup, index := x }
    let dry := (s.job y.owner).any fun k => k.dryIn x
    .next (s.storageFault y.owner (if dry then .dry else .wet) res (.checkBits 0) 0xFF 0xFF 0 0xFFFF
      ((s.job y.owner).any fun k => k.begunIn x))

end Sys2Proof.Machine
end

