-- ==== Sys2Proof/Machine/Guarantees.lean ====
section
/-! DEFINITION. Core shares, key-stream shares and release latencies: admission and revocation (R372 to R376). -/

namespace Sys2Proof.Machine

/-! ### Capacities -/

/-- The divider of a mill's operating point: a lowering that an evaluation has decided counts at once, and a raising once it is reached
(R381). During a switch of source the divider counts as it stands. -/
def State.pointK (s : State) (m : Nat) : Nat :=
  max (s.mill m).divK (if s.clk.switching = .none then s.targetDiv m else 0)

/-- floor(16 × d / K) of a mill. -/
def State.coreCap (s : State) (m : Nat) : Nat := 16 * (s.mill m).duty / s.pointK m

/-- The key capacity of a mill at divider `k`, rounded down: 16 × (16 / K) × min(1, 8.4 × X / 128). -/
def keyCapAt (k expanders : Nat) : Nat := 256 * min 1280 (84 * expanders) / (k * 1280)
def State.keyCap (s : State) (m : Nat) : Nat := keyCapAt (s.pointK m) (s.headbox m).expanders

/-- The release capacity of a port in bytes per second. -/
def PortSt.relCap (q : PortSt) : Nat := 80000000000 * q.gts * q.width / 10240

/-- The jobs that hold guarantees, the oldest admission first. -/
def State.admitted (s : State) : List (Nat × Job) :=
  let js := s.jobNums.filterMap fun j => (s.job j).bind fun x => if x.adm = 0 ∨ x.st = .wiping then none else some (j, x)
  js.foldr (fun a l => l.takeWhile (fun b => b.2.adm < a.2.adm) ++ a :: l.dropWhile (fun b => b.2.adm < a.2.adm)) []

/-- The admitted shares on a mill of the jobs older than an admission number. -/
def State.olderKeys (s : State) (adm m : Nat) : Nat :=
  ((s.admitted.filter fun a => a.2.adm < adm).map fun a => a.2.keyShare.getD m 0).foldl (· + ·) 0

/-- A multiple of every latency from 1 to 64. -/
def latUnit : Nat := (List.range 64).foldl (fun a i => Nat.lcm a (i + 1)) 1

/-- B / L in units of 1 / `latUnit`. -/
def latLoad (b l : Nat) : Nat := if l = 0 then 0 else b * (latUnit / l)

/-- The same sum over the older jobs of a port. -/
def State.olderLoad (s : State) (p : Port) (adm : Nat) : Nat :=
  ((s.admitted.filter fun a => a.2.owner == p && a.2.adm < adm).map fun a => latLoad a.2.relBytes a.2.lat).foldl (· + ·) 0

/-- A latency with its bytes passes the test of R373 against older jobs. -/
def State.latFits (s : State) (p : Port) (adm b l : Nat) : Bool :=
  (latLoad b l + s.olderLoad p adm) * 1000000 ≤ (s.port p).relCap * latUnit * s.period

/-! ### Current values (R372, R375) -/

/-- The mill of a job with the least core capacity. -/
def State.tightMill (s : State) (x : Job) : Nat :=
  (s.jobMills x).foldl (fun a m => if s.coreCap m < s.coreCap a then m else a) ((s.jobMills x).getD 0 0)

/-- The current core share. -/
def State.coreNow (s : State) (x : Job) : Nat :=
  if x.suspended then 0 else (s.jobMills x).foldl (fun a m => min a (s.coreCap m)) x.coreShare

/-- The current key-stream share on a mill: the newest admission yields first. -/
def State.keyNow (s : State) (x : Job) (m : Nat) : Nat := min (x.keyShare.getD m 0) (s.keyCap m - s.olderKeys x.adm m)

def State.keysNow (s : State) (x : Job) : List Nat := (List.range 4).map (s.keyNow x)

/-- The current release latency: the admitted one, or the smallest that fits; 0 for none.
DEDUCED, unsafe (assumption 57). -/
def State.latNow (s : State) (x : Job) : Nat :=
  if x.lat = 0 then 0
  else (((List.range 65).filter (x.lat ≤ ·)).find? fun l => s.latFits x.owner x.adm x.relBytes l).getD 0

/-! ### Records (R376) -/

/-- What each cause of R376 alone would leave of a mill's core share, in thousandths: the cap, the limiter, heat and limp (R54, R57, R62,
R67).
DEDUCED, unsafe (assumption 56). -/
def State.coreParts (s : State) (m : Nat) : List Nat :=
  let x := s.mill m
  let part (d k : Nat) : Nat := 16000 * d / max 16 k
  [part x.capDuty x.capK, part (if x.limiter then 8 else 16) 16, part (if x.thermLimit then 4 else 16) x.thermK, part 16 s.ratio]

/-- The same of its key capacity, which duty does not lower; the last cause is retired expanders (R178). -/
def State.keyParts (s : State) (m : Nat) : List Nat :=
  let x := s.mill m
  let part (k : Nat) : Nat := 256000 / max 16 k
  [part x.capK, 16000, part x.thermK, part s.ratio, 16000, 16000 * min 1280 (84 * (s.headbox m).expanders) / 1280]

/-- The cause that took the most since `old`, by its code; where none took more than before, the one that leaves the least.
DEDUCED, unsafe (assumption 56). -/
def causeOf (old now : List Nat) : Nat :=
  let fell (i : Nat) : Nat := old.getD i 0 - now.getD i 0
  let is := List.range now.length
  let most := is.foldl (fun a i => if fell a < fell i then i else a) 0
  (if fell most = 0 then is.foldl (fun a i => if now.getD i 0 < now.getD a 0 then i else a) 0 else most) + 1

/-- A guarantee record: the guarantee, its mill or port, cause, admitted and new value.
DEDUCED, unsafe (assumption 56). -/
def State.guaranteeRec (s : State) (j kind place cause adm new : Nat) (down : Bool) : State :=
  s.jobEvent j 4 (if down then 0x0410 else 0x0411) 1 (le 1 kind ++ le 1 place ++ le 2 cause ++ le 2 adm ++ le 2 new)

/-- A list made four long. -/
def fit4 {α : Type} [Inhabited α] (xs : List α) : List α := (List.range 4).map fun i => xs.getD i default

/-- What a tick reports of a job's core share: a value that has stood for a sheet and is not the one reported. -/
def State.reportCore (s : State) (j : Nat) (x : Job) : State :=
  let v := s.coreNow x
  let m := s.tightMill x
  let parts := (List.range 4).map s.coreParts
  let s := if v = x.seenCore ∧ v ≠ x.coreCur then
      let why := if v < x.coreCur then (if x.suspended then 5 else causeOf (x.baseCore.getD m []) (s.coreParts m)) else x.whyCore
      (s.guaranteeRec j 1 m why x.coreShare v (v < x.coreCur)).modJob j fun x => { x with coreCur := v, whyCore := why }
    else s
  s.modJob j fun x => { x with seenCore := v, baseCore := if v = x.coreCur then parts else x.baseCore }

def State.reportKeys (s : State) (j : Nat) (x : Job) : State :=
  let vs := s.keysNow x
  let s := s.each (List.range 4) fun s m =>
    let v := vs.getD m 0
    let old := x.keyCur.getD m 0
    let s := if v = x.seenKey.getD m 0 ∧ v ≠ old then
        let why := if v < old then causeOf (x.baseKey.getD m []) (s.keyParts m) else x.whyKey.getD m 0
        (s.guaranteeRec j 2 m why (x.keyShare.getD m 0) v (v < old)).modJob j fun x =>
          { x with keyCur := x.keyCur.set m v, whyKey := (fit4 x.whyKey).set m why }
      else s
    s.modJob j fun x => { x with baseKey := if v = x.keyCur.getD m 0 then (fit4 x.baseKey).set m (s.keyParts m) else x.baseKey }
  s.modJob j fun x => { x with seenKey := vs }

def State.reportLat (s : State) (j : Nat) (x : Job) : State :=
  let v := s.latNow x
  let worse (a b : Nat) : Bool := a != 0 && (b == 0 || a < b)
  let s := if v = x.seenLat ∧ v ≠ x.latCur then
      let why := if worse x.latCur v then 7 else x.whyLat
      (s.guaranteeRec j 3 (portNum x.owner) why x.lat v (worse x.latCur v)).modJob j fun x =>
        { x with latCur := v, whyLat := why }
    else s
  s.modJob j fun x => { x with seenLat := v }

/-- Revocations and restorations that a tick reports, the oldest admission first.
DEDUCED, unsafe (assumption 56). -/
def State.reportGuarantees (s : State) : State :=
  s.each s.admitted fun s a => ((s.reportCore a.1 a.2).reportKeys a.1 a.2).reportLat a.1 a.2

/-! ### Admission (R373) -/

/-- The first guarantee of a request that fails its test, with the mill of a key-stream share: 1 core share, 2 key-stream
share, 3 release latency. -/
def State.admitFault (s : State) (p : Port) (mills : List Nat) (core : Nat) (keys : List Nat) (lat bytes : Nat) : Option (Nat × Nat) :=
  if mills.any fun m => s.coreCap m < core then some (1, 0)
  else match (List.range 4).find? fun m => keys.getD m 0 != 0 && s.keyCap m < keys.getD m 0 + s.olderKeys (s.admissions + 1) m with
    | some m => some (2, m)
    | none => if lat ≠ 0 ∧ !s.latFits p (s.admissions + 1) bytes lat then some (3, 0) else none

end Sys2Proof.Machine
end

