-- ==== Sys2Proof/Machine/Releases.lean ====
section
/-! DEFINITION. Release engines, couch reports and receive areas (R105 to R107, R335, R336, R415, R427, R428). -/

namespace Sys2Proof.Machine

/-! ### Release engines (R105, R106) -/

/-- A couch report of a job waits for the host's event ring (R415). -/
def State.reportWaits (s : State) (j : Nat) (x : Job) : Bool := (s.port x.owner).ev.waiting.any fun e => e.type == 1 && e.job == j

/-- The first couched release of a job begins, where nothing holds it back: a switch of source pauses releases (R66), and a
couch report that waits holds the next release (R415). -/
def State.startRelease (s : State) (j : Nat) : State :=
  match s.job j with
  | none => s
  | some x =>
    match x.rels with
    | [] => s
    | r :: rs =>
      if r.begun ∨ x.st ≠ .running ∨ !s.live ∨ s.clk.switching ≠ .none ∨ s.reportWaits j x then s
      else s.modJob j fun x => { x with rels := { r with begun := true } :: rs }

/-- The member that receives an outbound quire stream.
DESIGN CHOICE, safe (assumption 21). -/
def State.quireTo (s : State) (span stream : Nat) : Nat :=
  let ms := (s.members span).filter (· != s.self)
  ms.getD (Config.quireDst span stream % ms.length) s.self

/-- The next entry written to its destination: FLUSH passes it, and the engine goes on to the one after it.
DEDUCED, unsafe (assumption 45). -/
def State.sendEntry (s : State) (j : Nat) (e : RelEntry) : State :=
  let b := s.loadRing j e.h e.off e.len
  let s := match e.dst with
    | .host p pasid a => s.hostWrite p pasid a b
    | .link span stream => s.sendMsg (s.quireTo span stream) clsData span stream b e.opens e.ends
  s.modJob j fun x =>
    { x with areas := Tbl.set x.areas e.h { x.area e.h with flush := (x.area e.h).flush + e.len },
             rels := x.rels.modifyHead fun r => { r with done := r.done + 1 } }

/-- The quire streams of a release with their bytes, in order of their first entry. -/
def Release.links (r : Release) : List (Nat × Nat × Nat) :=
  let es := r.entries.filterMap fun e => match e.dst with
    | .link sp st => some (sp, st, e.len)
    | .host _ _ _ => none
  ((es.map fun e => (e.1, e.2.1)).dedup).map fun k => (k.1, k.2, ((es.filter fun e => (e.1, e.2.1) == k).map fun e => e.2.2).foldl (· + ·) 0)

/-- Bytes of a release. -/
def relBytes (es : List RelEntry) : Nat := (es.map RelEntry.len).foldl (· + ·) 0

/-- The payload of RELEASE_END (R427). -/
def endPayload (seq bytes : Nat) : Bytes := le 4 seq ++ le 8 bytes

/-- The release in hand is written: its RELEASE_ENDs are sent, and its couch report is posted (R106, R427). -/
def State.finishRelease (s : State) (j : Nat) (r : Release) : State :=
  let s := s.each r.links fun s k => s.sendMsg (s.quireTo k.1 k.2.1) clsCouch k.1 kindReleaseEnd (endPayload r.seq k.2.2)
  let s := (s.bump (ctrJob j 14) (relBytes r.entries)).modJob j fun x => { x with rels := x.rels.drop 1, relHalt := none }
  let s := match s.job j with
    | none => s
    | some x => s.post x.owner r.report
  s.startRelease j

/-- The host address of an entry whose port serves no host handle (R338). -/
def State.entryRefused (s : State) (e : RelEntry) : Option Nat :=
  match e.dst with
  | .host p _ a => if (s.port p).servesHost then none else some a
  | .link _ _ => none

/-- The detail of the address check that the data of an entry fails, since its handle was emptied or replaced, or its bank group powered
down, at a couch (R297, R302).
DESIGN CHOICE, unsafe (assumption 165). -/
def State.entryStale (s : State) (j : Nat) (e : RelEntry) : Option Nat := s.ringFault j e.h e.off e.len false

/-- The engine can write an entry: its data can be reached, its page is translated, and no owner tag refuses its data (R352, R353). -/
def State.entryGoes (s : State) (j : Nat) (e : RelEntry) : Bool :=
  (s.entryStale j e).isNone && (s.entryRefused e).isNone && (s.entryAwaits e).isNone && (s.tagRefuses j e.h e.off e.len).isNone

/-- Up to `n` entries of the release in hand written, in order. -/
def State.writeEntries (j : Nat) : Nat → State → State
  | 0, s => s
  | n + 1, s =>
    match (s.job j).bind Job.relNext with
    | none => s
    | some e => if s.entryGoes j e then State.writeEntries j n (s.sendEntry j e) else s

/-- A release whose data is out of reach is abandoned, and its job stops.
DESIGN CHOICE, unsafe (assumption 165). -/
def State.staleEntry (s : State) (j : Nat) (p : RelEntry) (k : Nat) : State :=
  (s.dropReleases j).stopJob j { code := codeStale, detail := k, handle := p.h % 65536, data := le 8 p.off, inRelease := true }

/-- What the release engine meets at the next entry: its data is out of reach, its page is refused or asked for, or its data cannot be read
(R107, R302, R336). -/
def State.meetEntry (s : State) (j : Nat) (p : RelEntry) (e : ReadErr) : State :=
  match s.entryStale j p, s.entryRefused p, s.readOutcome j p.h p.off p.len e, s.entryAwaits p with
  | some k, _, _, _ => s.staleEntry j p k
  | none, some a, _, _ => s.pageStop j 0x0308 0xFF 0xFF 0 0xFFFF 0xFF 0 a true
  | none, none, .good, some (q, pg) => s.askXlat q pg
  | none, none, .good, none => s
  | none, none, r, _ => s.storageFault j .dry (s.resOf j p.h (p.off + readAt r)) r 0xFF 0xFF 0 p.h true

/-- RELEASE_COMPLETE (R106): the engine writes entries of the release in hand, halts where a page is not translated, and
ends the release after its last entry. While it is halted it waits for the response to its page request (R339). A job stopped after its
release began completes it (R107). What stands in host memory of a release cut short is what was written by then (R86).
DEDUCED, unsafe (assumption 48). -/
def execReleaseComplete (j : Nat) (s : State) (n : Nat := 1) (e : ReadErr := .good) : Outcome :=
  if !s.live ∨ s.clk.switching ≠ .none ∨ (s.job j).any (fun x => x.relHalt.isSome) then .next s else
  let s := State.writeEntries j n (s.startRelease j)
  match (s.job j).map Job.rels with
  | some (r :: _) =>
    if !r.begun then .next s
    else match r.entries[r.done]? with
      | some p => .next (s.meetEntry j p e)
      | none => .next (s.finishRelease j r)
  | _ => .next s

/-! ### Receive areas (R105, R428) -/

/-- The data of a release becomes visible in the receive area of its stream (R428). A receive area whose banks are not mapped takes none
of it, and the job stops (R302). -/
def State.releaseEndNow (s : State) (span stream seq bytes : Nat) : State :=
  match s.spanJob span with
  | none => s
  | some j =>
    match s.job j with
    | none => s
    | some x =>
      let b := (Tbl.get [] x.rxHidden stream).take bytes
      let off := (x.area stream).flush % max 1 (x.handle stream).bound
      if !s.live ∨ !(x.handle stream).receive ∨ seq = 0 then s
      else if let some k := s.ringFault j stream off b.length true then
        s.stopJob j { code := codeStale, detail := k, handle := stream % 65536, data := le 8 off }
      else
        let s := s.storeRing j stream (x.area stream).flush b
        s.modJob j fun x =>
          { x with areas := Tbl.set x.areas stream { x.area stream with flush := (x.area stream).flush + b.length },
                   rxHidden := Tbl.set x.rxHidden stream ((Tbl.get [] x.rxHidden stream).drop bytes), stuck := false }

/-- RELEASE_END (R428).
DEDUCED, unsafe (assumption 44); DEDUCED, unsafe (assumption 45). -/
def execReleaseEnd (span stream seq bytes : Nat) (s : State) (arr : Option Arrival := none) : Outcome :=
  .next (s.receive arr clsCouch (endPayload seq bytes) fun s => s.releaseEndNow span stream seq bytes)

/-- Receive-area credits of 64 KiB for an outbound stream (R427). -/
def State.grantNow (s : State) (span stream credits : Nat) : State :=
  match s.spanJob span with
  | none => s
  | some j =>
    if !s.live then s
    else s.modJob j fun x => { x with txCredits := Tbl.set x.txCredits stream (Tbl.get 0 x.txCredits stream + credits) }

/-- The payload of GRANT (R427). -/
def grantPayload (stream credits : Nat) : Bytes := le 2 stream ++ le 4 credits

/-- GRANT (R427).
DESIGN CHOICE, safe (assumption 2). -/
def execGrant (span stream credits : Nat) (s : State) (arr : Option Arrival := none) : Outcome :=
  .next (s.receive arr clsControl (grantPayload stream credits) fun s => s.grantNow span stream credits)

/-- Credits granted for a stream to a member.
DEDUCED, unsafe (assumption 46). -/
def State.grantTo (s : State) (span m stream credits : Nat) : State :=
  if credits = 0 then s else s.sendMsg m clsControl span kindGrant (grantPayload stream credits)

/-- At the start of a span every receive area offers its room to the other members (R330).
DEDUCED, unsafe (assumption 46). -/
def State.grantRoom (s : State) (j span : Nat) : State :=
  match s.job j with
  | none => s
  | some x =>
    s.each (x.handles.filter fun c => c.2.receive) fun s c =>
      s.each ((s.members span).filter (· != s.self)) fun s m => s.grantTo span m c.1 (c.2.bound / 65536)

/-! ### The commit point for areas and releases (R104, R105) -/

/-- The entries staged since the last couch, by handle. -/
def Job.stagedNow (x : Job) : List RelEntry := x.areas.flatMap fun c => c.2.staged

/-- Blocks of the sender that a couch records as read whole (R105).
DEDUCED, unsafe (assumption 46). -/
def Area.freed (a : Area) : Nat := (a.ends.filter (· ≤ a.write)).length

/-- The commit point of an area. -/
def Area.couch (a : Area) : Area := { a with commit := a.write, staged := [], ends := a.ends.filter (a.write < ·) }

/-- COMMIT is set to WRITE in every area; what a receive area frees goes back as credits.
DEDUCED, unsafe (assumption 45); DEDUCED, unsafe (assumption 46). -/
def State.commitAreas (s : State) (j : Nat) : State :=
  match s.job j with
  | none => s
  | some x =>
    let s := s.each (x.areas.filter fun c => (x.handle c.1).receive) fun s c =>
      match x.span, (x.rxFrom.find? fun y => y.1 == c.1) with
      | some i, some y => s.grantTo i y.2 c.1 c.2.freed
      | _, _ => s
    s.modJob j fun x => { x with areas := x.areas.map (fun (c : Nat × Area) => (c.1, c.2.couch)) }

/-- The body of a couch report (R415). -/
structure Report where
  seq : Nat
  sheets : Nat
  late : Nat
  flags : Nat
  count : Nat
  released : Nat
  exc : Option Exc
  deriving DecidableEq, Repr

def Report.body (r : Report) : Bytes :=
  let e := r.exc.getD { sheet := 0, core := 0, unit := 0, bundle := 0, status := 0 }
  le 4 r.seq ++ le 2 (min 0xFFFF r.sheets) ++ le 2 (min 0xFFFF r.late) ++ le 1 r.flags ++ zeros 3 ++ le 4 r.count ++ le 8 r.released ++
    le 2 (min 0xFFFF e.sheet) ++ le 1 e.core ++ le 1 e.unit ++ le 4 e.bundle ++ le 8 e.status.toNat ++ zeros 7

/-- A couch queues its release with the report that follows it. -/
def State.queueRelease (s : State) (j : Nat) (es : List RelEntry) (final inter : Bool) : State :=
  match s.job j with
  | none => s
  | some x =>
    let b := Report.body { seq := x.seq, sheets := x.sheets, late := x.late, flags := b2n final 1 + b2n inter 2 + b2n x.replaying 4,
                           count := x.excCount, released := relBytes es, exc := if x.excCount = 0 then none else x.exc }
    let e : EvRec := { type := 1, units := 1, job := j, code := 0, tick := s.now, body := b }
    let s := s.modJob j fun x => { x with rels := x.rels ++ [({ begun := false, seq := x.seq, entries := es, report := e, final := final } : Release)] }
    s.startRelease j

end Sys2Proof.Machine
end

