-- ==== Sys2Proof/Machine/SelfTest.lean ====
section
/-! DEFINITION. Logic self-test: the rotation, requests, the module-wide test, and JTAG read-out (R447, R468 to R475, R482). -/

namespace Sys2Proof.Machine

/-! ### One test of a mill (R469 to R472) -/

/-- The slots of a mill's rotation: fused-off and retired ones are left out. -/
def State.rotation (s : State) (m : Nat) : List Nat :=
  (List.range s.grade.coresPerMill ++ [16]).filter fun k => !(s.stest m).retiredSlots.contains k

/-- The first slot of the rotation from `k` on, wrapping. -/
def State.slotFrom (s : State) (m k : Nat) : Option Nat :=
  ((s.rotation m).find? (k ≤ ·)).orElse fun _ => (s.rotation m).head?

/-- The job that a logical core serves, 0 for none. -/
def State.jobOn (s : State) (n : Nat) : Nat := (s.core n).job

/-- A job makes couches of its own now: it runs and is not suspended, and its first stride does not wait for the end of a module-wide
test (R473). -/
def State.couches (s : State) (j : Nat) : Bool :=
  (s.job j).any fun x => x.st == .running && !x.suspended && (s.modTest.isNone || x.suspend || !x.begins)

/-- A job has couches still to make (R470). -/
def State.willCouch (s : State) (j : Nat) : Bool :=
  s.couches j || (s.job j).any fun x => x.st == .created || x.st == .loaded

/-- What a test waits for has come: the job of the tested core is at a couch (`j`), or makes none; and the job of a
stand-in core is suspended. After its scan a slot that was handed over waits for the first couch of a job that has still to start (R470).
DEDUCED, unsafe (assumption 61). -/
def State.testReady (s : State) (u : SlotTest) (j : Nat) : Bool :=
  (match u.core with
    | none => true
    | some n => s.jobOn n == j || !(if u.result.isSome && u.scanning then s.willCouch (s.jobOn n) else s.couches (s.jobOn n))) &&
  (u.suspended == 0 || !s.couches u.suspended)

/-- A test ends: the spare or the stand-in is free again, a job suspended for it goes on, and the asker has its completion. -/
def State.endTest (s : State) (m : Nat) (u : SlotTest) (status : Nat) : State :=
  let s := s.modStest m fun t => { t with under := t.under.erase u, spare := if u.spare ∧ t.spare = 1 then 0 else t.spare }
  let s := if u.suspended = 0 then s else s.modJob u.suspended fun x => { x with suspended := false, suspend := false }
  match u.asker with
  | none => s
  | some (p, r) => s.complete p r { status := status }

/-- A job told to suspend: at its next couch, or at once where it makes none (R472, R473).
DEDUCED, unsafe (assumption 65). -/
def State.askSuspend (s : State) (j : Nat) : State :=
  s.modJob j fun x => if x.st = .running then { x with suspend := true } else { x with suspended := true }

/-- A test begun on a mill, with the spare where it is free. -/
def State.beginTest (s : State) (m : Nat) (u : SlotTest) (spare : Bool) : State :=
  let s := s.modStest m fun t => { t with under := t.under ++ [{ u with spare := spare }], spare := if spare then 1 else t.spare }
  if u.suspended = 0 then s else s.askSuspend u.suspended

/-- The spare of a mill is free, and is not under test itself. -/
def STest.spareFree (t : STest) : Bool := t.spare == 0 && t.under.all fun u => u.slot != 16

/-- The stand-in core of a forced test of core `n`, in the order of R472: an idle core, a core of a best-effort job, the
core of the newest admission on the mill; none that another test has.
DEDUCED, unsafe (assumption 61). -/
def State.standIn (s : State) (m n : Nat) : Option Nat :=
  let cs := (s.usableCores m).filter fun c => !((s.stest m).under.any fun u => u.standIn == some c || u.core == some c)
  let adm (c : Nat) : Nat := ((s.job (s.jobOn c)).map Job.adm).getD 0
  ((cs.find? fun c => c != n && s.jobOn c == 0).orElse fun _ => cs.find? fun c => s.jobOn c != 0 && adm c == 0).orElse fun _ =>
    cs.foldl (fun a c => match a with
      | none => some c
      | some b => if adm b < adm c then some c else a) none

/-- A request may begin: a spare is free, or it is forced. -/
def State.mayStart (s : State) (m : Nat) (q : Nat × Bool × Port × Nat) : Bool := (s.stest m).spareFree || q.2.1

/-- A request begun (R472). -/
def State.startRequest (s : State) (m : Nat) (q : Nat × Bool × Port × Nat) : State :=
  let n := q.1
  let u : SlotTest := { slot := s.slotOf n, core := some n, asker := some q.2.2, scanning := false, result := none }
  let s := s.modStest m fun t => { t with queue := t.queue.erase q }
  if (s.stest m).spareFree then s.beginTest m u true
  else if s.jobOn n = 0 then s.beginTest m u false
  else match s.standIn m n with
    | none => s.beginTest m u false
    | some c =>
      if s.jobOn c = s.jobOn n then s.beginTest m { u with suspended := s.jobOn n } false
      else s.beginTest m { u with standIn := some c, suspended := s.jobOn c } false

/-- A JOB_CREATE is fetched and has not acted yet (R471).
DEDUCED, unsafe (assumption 62). -/
def State.createPending (s : State) : Bool :=
  [Port.a, .b].any fun p => (List.range 8).any fun r => (s.ring p r).current.any fun c => field c 0 1 == 0x01

/-- A turn of the rotation begun, or deferred where the slot holds a job, or a JOB_CREATE is pending, and no spare is free (R469 to R471).
DEDUCED, unsafe (assumption 61); DEDUCED, unsafe (assumption 62). -/
def State.startTurn (s : State) (m : Nat) : State :=
  match s.slotFrom m (s.stest m).nextSlot with
  | none => s
  | some k =>
    let t := s.stest m
    let core := if k = 16 then t.spareFor else some k
    let n := core.map (m * s.grade.coresPerMill + ·)
    let u : SlotTest := { slot := k, core := n, asker := none, scanning := false, result := none }
    let go (spare : Bool) : State :=
      (s.modStest m fun t => { t with turn := false, nextSlot := (s.slotFrom m (k + 1)).getD 0 }).beginTest m u spare
    if t.spare = 0 then go (k != 16)
    else if (n.all fun n => s.jobOn n == 0) ∧ !s.createPending then go false
    else s

/-- The next test of a mill, a request before the turn (R483). A turn, and a request that the spare serves, wait for the test in hand; a
forced one takes a stand-in (R472).
DEDUCED, unsafe (assumption 61). -/
def State.nextTest (s : State) (m : Nat) : State :=
  let t := s.stest m
  if s.modTest.isSome then s
  else match t.queue.find? (s.mayStart m) with
    | some q => s.startRequest m q
    | none => if t.turn ∧ t.under = [] then s.startTurn m else s

/-- A test taken on: the handover to the scan, or the handover back. -/
def State.stepTest (s : State) (m j : Nat) (u : SlotTest) : State :=
  if !s.testReady u j then s
  else if !u.scanning && u.result.isNone then
    s.modStest m fun t => { t with under := t.under.map fun v => if v = u then { v with scanning := true } else v }
  else if u.result = some true then s.endTest m u 0
  else s

/-- The tests of a mill taken on, and the test after them.
DEDUCED, unsafe (assumption 61). -/
def State.testStep (s : State) (m j : Nat) : State :=
  let s := s.nextTest m
  let s := s.each (s.stest m).under fun s u => s.stepTest m j u
  let s := s.nextTest m
  s.each ((s.stest m).under.filter fun u => u.result.isNone) fun s u => s.stepTest m 0 u

/-- The tests of every mill taken on, at a couch of job `j` or of none. -/
def State.testSteps (s : State) (j : Nat) : State := s.each (List.range 4) fun s m => s.testStep m j

/-! ### Couches of suspended jobs (R472, R473) -/

/-- A core set aside where the couch leaves it. -/
def CoreSt.pause (c : CoreSt) : CoreSt :=
  match c.mode with
  | .out => c
  | _ => { c with mode := .out, before := c.goesOn.1, bundle := c.goesOn.2.1, resume := c.goesOn.2.2 }

/-- The images of a job's cores saved for the module-wide test, 64 KiB each by logical core, with tag 0xF0 (R473). The spec states no
byte of an image.
DESIGN CHOICE, safe (assumption 22); DESIGN CHOICE, unsafe (assumption 164). -/
def State.saveImages (s : State) (j : Nat) : State :=
  match s.modTest.bind ModTest.unit, s.job j with
  | some u, some x => s.each x.cores fun s n =>
      let img := (List.range 65536).map fun i => BitVec.ofNat 8 (Config.ctValue 4 (le 8 s.draw.1) i)
      s.draw.2.writeSectors (granulePlace (s.unitStacks (u / 1536) (u % 1536)) (u % 1536)) (65536 * n) img 0xF0
  | _, _ => s

/-- A job that a self-test asked for is suspended at its couch; its next stride begins when it resumes.
DEDUCED, unsafe (assumption 65). -/
def State.suspendNow (s : State) (j : Nat) : State :=
  if (s.job j).any Job.suspend then
    State.saveImages ((s.jobCores j CoreSt.pause).modJob j fun x => { x with suspend := false, suspended := true, begins := true }) j
  else s

/-! ### The module-wide test (R473, R474) -/

/-- The blocks of R468 that are in service. -/
def State.testBlocks (s : State) : List Block :=
  (List.range 4).flatMap (fun m => (s.rotation m).map (Block.core m) ++ [.headbox m, .copyEngine m, .streamEngine m]) ++ [.hub]

/-- Every job is suspended or makes no couch, and every release has flushed: the scans run. -/
def State.modReady (s : State) : Bool :=
  s.jobNums.all fun j => !s.couches j && (s.job j).all fun x => x.rels.isEmpty

/-- Scans that may begin are begun. -/
def State.modStart (s : State) : State :=
  match s.modTest with
  | none => s
  | some t => if !t.scanning && s.modReady then { s with modTest := some { t with scanning := true } } else s

/-- SELFTEST_FAILED: an error record with the failing signature bits, and a module event to both ports (R471, R474, R478).
DEDUCED, unsafe (assumption 63). -/
def State.testFailed (s : State) (res index sig : Nat) : State :=
  (s.errRec { code := 0x0270, res := res, cls := 6, index := index, info := sig % 2 ^ 32 }).moduleEvents 0x0270 0

/-- Every job with a core on a mill stops, submitted or not (R474). -/
def State.stopMill (s : State) (m : Nat) (res : ResIx) : State :=
  s.each (s.jobNums.filter fun j => (s.job j).any fun x => (s.jobMills x).contains m) fun s j =>
    s.stopAny j { code := 0x0603, res := res }

/-- A logical core is left without a slot: the mill is degraded, and the core's job stops (R474).
DEDUCED, unsafe (assumption 63); DEDUCED, unsafe (assumption 64). -/
def State.loseCore (s : State) (m n : Nat) : State :=
  let s := State.millCheck { s with boot := { s.boot with degraded := true } } m
  s.stopAny (s.core n).job { code := 0x0603, core := n, res := { res := .core, index := n } }

/-- A slot whose scan failed is retired: the spare takes its logical core for good, or none is left for it (R471, R474).
DEDUCED, unsafe (assumption 63); DEDUCED, unsafe (assumption 64). -/
def State.retireSlot (s : State) (m k sig : Nat) : State :=
  let t := s.stest m
  let core (i : Nat) : Nat := m * s.grade.coresPerMill + i
  if k = 16 then
    let s := (s.testFailed 1 (s.slotIndex m 16) sig).modStest m fun t => { t.retire 16 with spareFor := none }
    match t.spareFor with
    | none => s
    | some i => s.loseCore m (core i)
  else
    let s := (s.testFailed 1 (s.slotIndex m k) sig).modStest m fun t => t.retire k
    if t.spare < 2 then s else s.loseCore m (core k)

/-- A failed block of the module-wide test (R474). -/
def State.blockFailed (s : State) (sig : Nat) : Block → State
  | .core m k => s.retireSlot m k sig
  | .headbox m => (((s.testFailed 5 m sig).setReady (bitCores m) false).stopMill m { res := .headbox, index := m })
  | .copyEngine m => (((s.testFailed 8 m sig).setReady (bitCores m) false).stopMill m {})
  | .streamEngine m => (((s.testFailed 9 m sig).setReady (bitCores m) false).stopMill m {})
  | .hub =>
    let s := s.testFailed 0x0A 0 sig
    let s := s.each s.jobNums fun s j => s.stopAny j { code := 0x0603 }
    let s := s.each (List.range 4) fun s m => s.setReady (bitCores m) false
    { s with boot := { s.boot with safe := true } }

/-- The unit that the firmware takes for the images: the last free one of the emptiest mill, if any is left.
DESIGN CHOICE, unsafe (assumption 164). -/
def State.imageUnit (s : State) : Option Nat :=
  let m := s.emptiestMill
  if (s.millStacks m).isEmpty then none else ((s.freeUnits m).getLast?).map (1536 * m + ·)

/-- The unit of the images taken by the firmware, and given back filled with zeros.
DESIGN CHOICE, unsafe (assumption 164). -/
def State.takeImages (s : State) (t : ModTest) : State :=
  let s := { s with modTest := some t }
  s.each t.unit.toList fun s u => (s.modUnit u fun _ => { owner := 255, onStacks := s.millStacks (u / 1536) }).wakeStacks (u / 1536)

def State.dropImages (s : State) (t : ModTest) : State := s.each t.unit.toList fun s u => (s.fillUnit u).modUnit u fun _ => {}

/-- A block's scan of the module-wide test has ended; with the last one every job resumes at the next tick. -/
def State.modScan (s : State) (t : ModTest) (b : Block) (pass : Bool) (sig : Nat) : State :=
  let t := { t with left := t.left.erase b, failed := t.failed || !pass }
  let s := { s with modTest := some t }
  let s := if pass then s else s.blockFailed sig b
  if t.left.isEmpty then
    let s := State.dropImages { s with modTest := none } t
    let s := s.each s.jobNums fun s j => s.modJob j fun x => { x with suspended := false, suspend := false }
    let s := match t.asker with
      | none => s
      | some (p, r) => s.complete p r { status := if t.failed then 0x0270 else 0 }
    s.testSteps 0
  else s

/-! ### The commands -/

/-- SELFTEST of one core (R472). -/
def execSelftestCore (p : Port) (r : Nat) (s : State) : Outcome :=
  match s.command p r 0x40 with
  | none => .next s
  | some c =>
    let n := field c 0x1A 1
    let m := s.millOf n
    if field c 0x18 1 ≠ 0 then .next s
    else if s.modTest.isSome ∨ (s.stest m).queue.any (fun q => q.1 == n) ∨ (s.stest m).under.any (fun u => u.core == some n) then
      .next (s.refuse p r 0x0271)
    else .next (((s.modStest m fun t => { t with queue := t.queue ++ [(n, field c 0x19 1 == 1, p, r)] }).hold p r).testStep m 0)

/-- SELFTEST of the module (R473). -/
def execSelftestModule (p : Port) (r : Nat) (s : State) : Outcome :=
  match s.command p r 0x40 with
  | none => .next s
  | some c =>
    if field c 0x18 1 ≠ 1 then .next s
    else if s.modTest.isSome ∨ (List.range 4).any (fun m => !(s.stest m).under.isEmpty || !(s.stest m).queue.isEmpty) then
      .next (s.refuse p r 0x0271)
    else
      let s := s.takeImages { asker := some (p, r), scanning := false, left := s.testBlocks, failed := false, unit := s.imageUnit }
      .next ((s.each s.jobNums State.askSuspend).hold p r).modStart

/-- SELFTEST_TURN (R469): the turn comes, and waits for what goes before it. -/
def execSelftestTurn (m : Nat) (s : State) : Outcome :=
  if !s.live ∨ !s.isReady bitControl ∨ 4 ≤ m then .next s
  else .next ((s.modStest m fun t => { t with turn := true }).testStep m 0)

/-- SCAN_DONE (R471, R474): of a block of the module-wide test, or of the slot under test on a mill; a failed one brings the failing bits
of its signature. -/
def execScanDone (b : Block) (pass : Bool) (s : State) (sig : Nat := 0) : Outcome :=
  if !s.live then .next s
  else
    let s := s.modStart
    match s.modTest with
    | some t => .next (if t.scanning && t.left.contains b then s.modScan t b pass sig else s)
    | none =>
      match b with
      | .core m k =>
        match (s.stest m).under.find? fun u => u.scanning && u.slot == k && u.result.isNone with
        | none => .next s
        | some u =>
          if pass then
            .next ((s.modStest m fun t =>
              { t with under := t.under.map fun v => if v = u then { v with result := some true } else v }).testStep m 0)
          else .next ((((if u.spare then s else s.cutTest m (u.core.getD 0)).retireSlot m k sig).endTest m u 0x0270).testStep m 0)
      | _ => .next s

/-! ### JTAG (R439, R441, R447, R482) -/

/-- What a JTAG read of storage may see of a place that tenants may own.
DESIGN CHOICE, safe (assumption 66). -/
def State.jtagSees (s : State) (tenant : Bool) : Bool := s.sec.lifecycle != 2 || !tenant

/-- A bank group whose contents a PRODUCTION module does not show: any that may still hold bytes of a tenant, so every one but those that
are wiped (R378, R482). -/
def GroupSt.tenant : GroupSt → Bool
  | .free => false
  | _ => true

/-- Fuses blown into bytes: a blown fuse stays blown (R439).
DEDUCED, unsafe (assumption 142). -/
def blow (old new : Bytes) : Bytes := List.zipWith (· ||| ·) old (fit old.length new)

/-- The grade of a fused code (R4). -/
def gradeOf (code : Nat) : Option Grade := [Grade.fx1224, .fx1216, .fx1208c].find? fun g => g.code == code

/-- The check bits of a data word under its sector's owner tag (R351): a function of the two, 0 for a zero word with tag 0x00. -/
def checkBits (word tag : Nat) : Nat :=
  if word = 0 ∧ tag = 0 then 0 else (Config.checkBits (BitVec.ofNat 64 word) (BitVec.ofNat 8 tag)).toNat

/-- The side bits of a sector (R351): the check bits of its eight words, and its owner tag in bits [127:120].
DESIGN CHOICE, safe (assumption 66). -/
def sideBits (data : Bytes) (tag : Nat) : Bytes :=
  le 16 (((List.range 8).map fun i => checkBits (field data (8 * i) 8) tag * 2 ^ (15 * i)).foldl (· + ·) 0 + tag * 2 ^ 120)

/-- The owner tag that stands with a sector at a place of HBM: the firmware's in the units of its tables (R352). -/
def State.placeTag (s : State) (a : Nat) : Nat := if (s.hunit (unitAt (s.logical a))).owner = 255 then 0xF0 else Tbl.get 0 s.hbmTag (a / 64)

/-- What the factory writes through JTAG (R439, R441): UDS, SERIAL and GRADE in MANUFACTURE, the provisioning record, which ends
MANUFACTURE, and the end of the factory test, which ends PROVISIONED.
DEDUCED, unsafe (assumption 142). -/
def State.jtagFuse (s : State) (t : JtagTarget) : State :=
  let f := s.sec.fuses
  let put (f : Fuses) : State := { s with sec := { s.sec with fuses := f } }
  match s.sec.lifecycle, t with
  | 0, .uds v => put { f with uds := blow f.uds v }
  | 0, .serial v => put { f with serial := blow f.serial v }
  | 0, .grade c =>
    let g := f.grade ||| c
    { put { f with grade := g } with grade := (gradeOf g.toNat).getD s.grade }
  | 0, .provision fw tk p =>
    put { f with fwKeyHash := blow f.fwKeyHash fw, tokenKeyHash := blow f.tokenKeyHash tk, adminDefault := if f.adminDefault = .b then .b else p, provisioned := true }
  | 1, .production => put { f with production := true }
  | _, _ => s

/-- A JTAG access of a module whose test access port is out of reset: a word or a sector as stored, zeros, or nothing where it is out of
reach. The contents of scan chains are a free value.
DESIGN CHOICE, safe (assumption 66). -/
def State.jtag (s : State) (t : JtagTarget) : State :=
  let chain := s.draw.2.emit (.jtag (le 8 (Config.freeWord s.draw.1).toNat))
  if t = .boundary then chain
  else if s.sec.lifecycle = 4 then s.emit (.jtag [])
  else match t with
    | .scan security jobData =>
      if security && decide (2 ≤ s.sec.lifecycle) then s.emit (.jtag [])
      else if !s.jtagSees jobData then s.emit (.jtag (zeros 8))
      else chain
    | .sram a =>
      let a := a % 2 ^ 31 / 8 * 8
      s.emit (.jtag (if s.jtagSees (s.group (a / 2 ^ 22)).st.tenant then s.sram.read a 8 else zeros 8))
    | .hbm pc byte =>
      let a := hbmKey pc (byte % 2 ^ 30 / 64 * 64)
      s.emit (.jtag (if s.jtagSees (s.placeTag a != 0) then s.hbm.read a 64 else zeros 64))
    | .sramSide _ => if s.sec.lifecycle < 2 then chain else s.emit (.jtag [])
    | .hbmSide pc byte =>
      let a := hbmKey pc (byte % 2 ^ 30 / 64 * 64)
      s.emit (.jtag (if s.sec.lifecycle < 2 then sideBits (s.hbm.read a 64) (s.placeTag a) else []))
    | .keySlots => s.emit (.jtag [])
    | t => s.jtagFuse t

/-- JTAG_ACCESS (R447, R482): TRST_N held low keeps the test access port in reset, and an unpowered module does not drive TDO (R28,
R29).
DESIGN CHOICE, safe (assumption 66); DESIGN CHOICE, safe (assumption 157). -/
def execJtagAccess (t : JtagTarget) (s : State) (trstN : Bool := true) : Outcome :=
  if s.pins.power ≠ .on then .next s else
  let s := { s with pins := { s.pins with trstN := trstN } }
  .next (if trstN then s.jtag t else s)

end Sys2Proof.Machine
end

