-- ==== Sys2Proof/Machine/Couch.lean ====
section
/-! DEFINITION. The commit point of a couch, and the couch of a job on one module (R99 to R106, R219, R220, R300, R470, R472). -/

namespace Sys2Proof.Machine

/-- The sets of a job whose unbind is pending and whose key streams have still to complete. -/
def State.streamedSets (s : State) (j : Nat) (x : Job) : List Bytes :=
  (x.sets.filter fun k => k.unbinding.isSome && k.slot.any (s.slotStreams j)).map KeySet.id

/-- Every core of a job is at COUCH, or counts as such (R99, R100, R220), and the stride's streams of a set to be unbound are complete
(R178). -/
def State.allCouched (s : State) (j : Nat) (x : Job) : Bool := (x.cores.all fun n => (s.core n).atCouch) && (s.streamedSets j x).isEmpty

/-- Every core of a job is at END (R220). -/
def State.allEnded (s : State) (x : Job) : Bool := x.cores.all fun n => (s.core n).mode == .ended

/-- Cores leave COUCH for the bundle after it (R219). -/
def State.leaveCouch (s : State) (j : Nat) : State :=
  match s.job j with
  | none => s
  | some x => s.enterAll j ((x.cores.filter fun n => (s.core n).mode == .couch).map fun n => (n, (s.core n).resume))

/-- A new stride begins at a couch: its counts start afresh (R98, R56, R109, R119, R247). -/
def State.newStride (s : State) (j : Nat) : State :=
  s.modJob j fun x =>
    { x with sheet := 1, elapsed := 0, sheets := 0, late := 0, excCount := 0, exc := none, kMax := (s.jobPoint x).1, dMin := (s.jobPoint x).2,
             couching := false, overrun := false, stuck := false, replaying := false }

/-- The commit point (R101 to R105): areas and handles commit, pending commands of the job take effect, the state is
recorded, the release follows with its report (R106), and a new stride begins. Key sets in `keep` stay bound. -/
def State.commit (s : State) (j : Nat) (final inter : Bool) (keep : List Bytes) : State :=
  match s.job j with
  | none => s
  | some x =>
    let staged := x.stagedNow
    let s := (s.commitAreas j).modJob j fun x => { x with seq := x.seq + 1 }
    let s := (s.bump (ctrJob j 1) 1).queueRelease j staged final inter
    (((s.couchHandles j).takeBinds j keep).takeSnap j).newStride j

/-- An ordinary couch: the final one of a job whose cores are all at END (R220), else the cores go on, or are set aside for
a self-test (R470, R472). What still waited for a later couch of an ended job is aborted.
DEDUCED, unsafe (assumption 67). -/
def State.ordinaryCouch (s : State) (j : Nat) : State :=
  match s.job j with
  | none => s
  | some x =>
    if s.allEnded x then ((s.commit j true false []).modJob j fun x => { x with final := true }).abortWaiting j
    else (((s.commit j false false []).suspendNow j).testSteps j).leaveCouch j

/-- The couch that a job found due at the last tick waits for its commit. -/
def Job.commits (x : Job) : Bool := x.st == .running && x.couching && x.quiesce.isNone && x.inter.ph == .none

/-- The couch of a job on one module, where it is due.
DEDUCED, unsafe (assumption 68). -/
def State.couchDue (s : State) (j : Nat) : State :=
  if (s.job j).any fun x => x.commits && x.span.isNone then s.ordinaryCouch j else s

/-- COUCH_COMMIT (R104). A job that spans modules commits by decision (R116).
DEDUCED, unsafe (assumption 68). -/
def execCouchCommit (j : Nat) (s : State) : Outcome := if s.live ∧ s.clk.switching = .none then .next (s.couchDue j) else .next s

/-- ROLE_FOLD_COMPLETE (R102, R104): the written bits are folded into the role bits. -/
def execRoleFoldComplete (j : Nat) (s : State) : Outcome :=
  if s.live then .next (s.modJob j fun x => { x with folding := false }) else .next s

end Sys2Proof.Machine
end

