-- ==== Sys2Proof/Machine/Interludes.lean ====
section
/-! DEFINITION. REPULP and its interludes: the halt, the interlude couch, the macro's couches and the resumption (R93, R193 to R205). -/

namespace Sys2Proof.Machine

/-! ### Work and save areas (R198, R199) -/

/-- Bytes of a work area or a save area whose contents the spec does not state, written through a job's handle.
DESIGN CHOICE, safe (assumption 22). -/
def State.storeFree (s : State) (j : Nat) (h : Option Nat) (off n : Nat) : State :=
  let seed := le 8 s.draw.1
  s.draw.2.store j (h.getD 0xFFFF) off ((List.range n).map fun i => BitVec.ofNat 8 (Config.ctValue 4 seed i))

/-- Every operation that a core has issued is complete. -/
def CoreSt.finished (c : CoreSt) : Bool :=
  c.scalarQ.isEmpty && c.vecQ.isEmpty && c.loadQ.isEmpty && c.storeQ.isEmpty && c.sigQ.isEmpty && c.drainQ.isEmpty && c.nttQ.isEmpty &&
    c.ctQ.isEmpty && c.xq0.isEmpty && c.xq1.isEmpty && c.o0.inFlight.isEmpty && c.o1.inFlight.isEmpty

/-- The image of a core saved in its slot of the save area. -/
def State.saveCore (s : State) (j n : Nat) : State :=
  let c := s.core n
  let img : CoreImg := { treg := c.treg, o0 := c.o0, o1 := c.o1 }
  let save := ((s.job j).bind Job.save)
  (s.storeFree j save (65536 * c.index) 65536).modJob j fun x => { x with inter := { x.inter with images := Tbl.set x.inter.images n img } }

/-! ### The halt (R199) -/

/-- The core's image is saved. -/
def Interlude.saved (y : Interlude) (n : Nat) : Bool := y.images.any fun c => c.1 == n

/-- Every core of a job is halted, or is at COUCH or END, and all its operations are complete (R199, R288). -/
def State.haltDone (s : State) (x : Job) : Bool :=
  x.cores.all fun n => match (s.core n).mode with
    | .halted => x.inter.saved n
    | .couch | .ended => (s.core n).finished
    | _ => false

/-- The halt of a job that spans modules begins for a request of another member, which no message announces (R204).
DESIGN CHOICE, unsafe (assumption 73). -/
def State.peerHalt (s : State) (j : Nat) (x : Job) : State :=
  if x.span.isSome ∧ x.inter.ph = .none ∧ !x.begins ∧ !x.final ∧ !x.suspended then
    (s.modJob j fun x => { x with inter := { x.inter with ph := .halting } }).haltWaiting j
  else s

/-- A core of a halting job halts and its image is saved, where it stands between two bundles and all it has issued is complete. -/
def State.haltCore (s : State) (core : Nat) (x : Job) : State :=
  let c := s.core core
  let stands := match c.mode with
    | .issuing | .wait _ _ | .bar _ | .halted | .couch => true
    | _ => false
  if x.inter.ph != .halting || x.inter.saved core || !stands || !c.finished then s else (s.modCore core CoreSt.halt).saveCore c.job core

/-- CORE_HALTED (R199). -/
def execCoreHalted (core : Nat) (s : State) : Outcome :=
  let j := (s.core core).job
  match s.job j with
  | none => .next s
  | some x =>
    if !s.live || x.st != .running || x.quiesce.isSome then .next s
    else
      let s := s.peerHalt j x
      match s.job j with
      | none => .next s
      | some x => .next (s.haltCore core x)

/-- REPULP (R141, R193, R195, R199): its checks decide; one that passes asks for an interlude, and the core waits for it at its bundle. -/
def opRepulp (i : Issue) (a : Loc) (slot : Nat) (e : ReadErr) (s : State) : Op :=
  s.ctCheck i { kind := .repulp, srcs := [a], dsts := [a], slot := slot } e fun _ _ _ =>
    .go (fun s => (s.requestRefresh i.core slot false [a]).modCore i.core fun c => { c with before := .issuing }) .none .halted

/-! ### Couches of an interlude (R200, R202) -/

/-- The sets that the requests of an interlude need stay bound until the resumption couch (R205). -/
def Job.keepSets (x : Job) : List Bytes :=
  let slots := (x.inter.batch ++ x.inter.later).map RepReq.slot
  (x.sets.filter fun k => k.slot.any slots.contains).map KeySet.id

/-- The sets whose unbind waits for a later couch: those, and those that still stream (R178, R205). -/
def State.keptSets (s : State) (j : Nat) : List Bytes :=
  match s.job j with
  | none => []
  | some x => x.keepSets ++ s.streamedSets j x

/-! ### What the macro reads (R194, R204) -/

/-- The family keys that a batch refreshes with: the set, its slot, and the indices. -/
def Job.familyKeys (x : Job) : List (KeySet × Nat × Nat) :=
  ((x.inter.batch.map RepReq.slot).dedup).flatMap fun q => match x.boundSet q with
    | none => []
    | some k => (k.entries.zipIdx.filter fun c => bit c.1.flags 0).map fun c => (k, q, c.2)

/-- The macro requests the passes of its remote family keys. -/
def State.macroPasses (s : State) (j : Nat) : State :=
  match s.job j with
  | none => s
  | some x => if x.inter.ph ≠ .working then s else s.each x.familyKeys fun s c => s.requestPass j c.1 c.2.2

/-- Every family key of the batch is here. -/
def State.familyHere (s : State) (j : Nat) (x : Job) : Bool :=
  x.familyKeys.all fun c => (s.container j c.1 c.2.2).length == ((c.1.entry c.2.2).map KeyEntry.bytes).getD 0

/-- The interlude couch: the images of the cores at COUCH are saved with the others, and the macro begins. -/
def State.interludeCommit (s : State) (j : Nat) : State :=
  match s.job j with
  | none => s
  | some x =>
    let s := s.each (x.cores.filter fun n => (s.core n).mode == .couch && !x.inter.saved n) fun s n => s.saveCore j n
    ((s.modJob j fun x => { x with inter := { x.inter with ph := .working } }).commit j false true (s.keptSets j)).macroPasses j

/-- Stage 1, the modulus raise: the coefficients modulo q_0, centred, in evaluation form modulo every prime of the Q chain (R194). -/
def raiseModulus (p : ParamSet) (b : Bytes) (h : CtHdr) (c : Nat) : List (List Nat) :=
  let xs := (nttInverse p.fam (p.raisedIx h.limbs 0) p.logN (ctLimb p b h c 0)).map fun v => centredInt (p.q 0) v
  (List.range p.l).map fun i => nttForward p.fam (p.raisedIx p.l i) p.logN (xs.map fun v => intMod v (p.q i))

/-- The work of one refresh: the transforms of stage 1, and of the other stages what the spec does not state (R495).
DESIGN CHOICE, safe (assumption 22). -/
def State.repulpWork (s : State) (j : Nat) (p : ParamSet) : State :=
  let n := s.draw.1
  let free (i : Nat) : Nat := Config.fnOffset 8 false n i
  let s := s.draw.2
  let ntts := (2 + 2 * p.l + free 9) * (p.n / 2 * p.logN)
  ((((s.bump (ctrJob j 8) (free 8)).bump (ctrJob j 9) ntts).bump (ctrJob j 10) (free 10)).bump (ctrJob j 5) (free 5)).bump (ctrJob j 13) (free 13)

/-- A ciphertext refreshed in place (R193, R194): the predicted header over residues of which the spec states stage 1 only; the others
depend on it and on the family keys.
DESIGN CHOICE, safe (assumption 22). -/
def State.refreshCt (s : State) (j : Nat) (keys : Bytes) (l : Loc) : State :=
  let h := readHdr (s.load j l.h l.off 64)
  match paramSet h.set with
  | none => s
  | some p =>
    let o : CtOp := { kind := .repulp, srcs := [l], dsts := [l] }
    let d := predict p .repulp [h]
    let b := s.ctBytes j p l h
    let raised := (List.range 2).flatMap fun c => (raiseModulus p b h c).flatMap (packLimb (famFmt p.fam) p.n)
    let body := limbTable 2 d.limbs (freeLimb p 0 (le 1 h.slots ++ raised ++ keys))
    let s := s.each (ctWrites p l (outHdr o [h] d) body) fun s w => s.store j w.1.h w.1.off w.2
    (s.bump (ctrJob j 6) 1).repulpWork j p

/-- The work areas that a batch used hold what its macro left there.
DESIGN CHOICE, safe (assumption 22). -/
def State.dirtyWork (s : State) (j : Nat) (cts : List Loc) : State :=
  match s.job j, cts.head?.bind (s.ctSet j) with
  | some x, some p => s.storeFree j x.work 0 (cts.length * (4 * p.bodyBytes 2 (p.l + p.k)))
  | _, _ => s

/-- The requests of the next batch among those that wait: those for the first ciphertexts, as many as a batch holds.
DEDUCED, unsafe (assumption 77). -/
def State.nextBatch (s : State) (j : Nat) (x : Job) : List RepReq :=
  let cts := (x.inter.later.map RepReq.ct).dedup
  match cts.head?.bind (s.ctSet j) with
  | none => x.inter.later
  | some p => x.inter.later.filter fun r => (cts.take (max 1 (x.batchOf p))).contains r.ct

/-- The requests whose refresh AUTO inserted, one for each ciphertext.
DEDUCED, unsafe (assumption 77). -/
def autoReqs (b : List RepReq) : List RepReq :=
  (b.map RepReq.ct).dedup.filterMap fun l => b.find? fun r => r.ct == l && r.auto

/-- REPULP_INSERTED, naming the core, the bundle and the handle (R201, R415).
DEDUCED, unsafe (assumption 77). -/
def State.insertedRec (s : State) (j : Nat) (r : RepReq) : State :=
  s.jobEvent j 5 0x0420 1 (fit 47 (zeros 2 ++ le 1 r.core ++ zeros 1 ++ le 4 r.bundle ++ zeros 4 ++ le 2 r.ct.h))

/-- A macro sheet's couch; with the last one, which needs every family key here, the batch is refreshed, and the next batch or the
resumption follows.
DEDUCED, unsafe (assumption 77). -/
def State.macroCommit (s : State) (j : Nat) (last : Bool) : State :=
  match s.job j with
  | none => s
  | some x =>
    if !last || !s.familyHere j x then (s.commit j false true (s.keptSets j)).macroPasses j
    else
      let cts := (x.inter.batch.map RepReq.ct).dedup
      let keys := x.familyKeys.flatMap fun c => s.container j c.1 c.2.2
      let s := s.each cts fun s l => s.refreshCt j keys l
      let s := s.dirtyWork j cts
      let next := s.nextBatch j x
      let s := s.modJob j fun x =>
        { x with inter := { x.inter with ph := if next.isEmpty then .resuming else .working, batch := next,
                                         later := x.inter.later.filter fun r => !next.contains r, last := false } }
      let s := s.each x.familyKeys fun s c => s.dropPass j c.2.1 c.2.2
      let s := (s.commit j false true (s.keptSets j)).macroPasses j
      s.each (autoReqs x.inter.batch) fun s r => s.insertedRec j r

/-! ### The resumption (R201) -/

/-- The bundle at which a core that an interlude halted, or that stood at COUCH, goes on; none for one that waits again or has ended. -/
def CoreSt.onward (c : CoreSt) : Option Nat :=
  match c.mode, c.before with
  | .couch, _ | .halted, .issuing => some c.resume
  | _, _ => none

/-- Halted cores go on where the interlude halted them. -/
def State.unhalt (s : State) (j : Nat) (cores : List Nat) : State :=
  let go := cores.filterMap fun n => ((s.core n).onward).map fun p => (n, p)
  let s := s.each cores fun s n =>
    if (s.core n).mode = .halted ∧ (s.core n).before ≠ .issuing then s.modCore n fun c => { c with mode := c.before } else s
  s.enterAll j go

/-- The images are restored, SRAM scratch is wiped, and the program goes on; self-tests of the job hand over (R205, R470). -/
def State.resumeNow (s : State) (j : Nat) : State :=
  match s.job j with
  | none => s
  | some x =>
    if x.st ≠ .running ∨ x.quiesce.isSome ∨ x.inter.ph ≠ .resuming then s
    else
      let s := (s.wipeScratch x.handles).each x.inter.images fun s c => s.modCore c.1 fun y => y.load c.2
      let s := ((s.modJob j fun x => { x with inter := {} }).suspendNow j).testSteps j
      (s.unhalt j x.cores).settle j

/-- INTERLUDE_RESUME (R201). -/
def execInterludeResume (j : Nat) (s : State) : Outcome := if s.live ∧ s.clk.switching = .none then .next (s.resumeNow j) else .next s

/-! ### The REPULP table (R93, R197) -/

/-- A bound key set of the job has the REPULP family of the parameter set at a place. -/
def Job.needsTable (x : Job) (i : Nat) : Bool := x.sets.any fun k => k.slot.isSome && bit k.flags 0 && repulpPlace k.set == some i

/-- REPULP_TABLE_BUILT (R93): the set's bit is set, and the jobs that run with its family have the table mapped (R197).
DEDUCED, unsafe (assumption 83). -/
def execRepulpTableBuilt (i : Nat) (s : State) : Outcome :=
  if s.live ∧ s.building.contains i then
    let s := State.each { s with building := s.building.erase i } s.runningJobs fun s j =>
      s.modJob j fun x => if x.needsTable i then { x with tables := x.tables ++ [i] } else x
    .next (s.setReady (bitRepulp i) true)
  else .next s

/-- The tables built and not mapped to a job yet (R197). -/
def State.builtTables (s : State) : List Nat := (List.range 7).filter fun i => s.isReady (bitRepulp i)

/-- A macro of the job reads the table at a place. -/
def Job.readsTable (x : Job) (i : Nat) : Bool :=
  x.tables.contains i && x.inter.ph == .working && x.inter.batch.any fun r => (x.boundSet r.slot).any fun k => repulpPlace k.set == some i

/-- A job that reads a damaged table replays, and the firmware recomputes the block in its quiesce (R197, R353). -/
def State.tableReplay (s : State) (j : Nat) (r : ResIx) : State :=
  s.beginReplay j { contained := false, code := 0x0501, res := r, detail := 1, tag := 0 }

/-- The jobs that read a damaged table (R361).
DEDUCED, unsafe (assumption 83). -/
def State.tableError (s : State) (i : Nat) (r : ResIx) : State :=
  s.each (s.runningJobs.filter fun j => (s.job j).any fun x => x.readsTable i) fun s j => s.tableReplay j r

/-- The key of a byte of a table: over its frames, or over its NEAR units where a stack is retired (R197, R355).
DEDUCED, unsafe (assumption 83). -/
def State.tableKey (s : State) (i off : Nat) : Nat :=
  let us := Tbl.get [] s.tableUnits i
  if us.any fun u => decide (u < 1536) && us.contains (1536 + u) then
    granulePlace (List.range 12) ((us.filter (· < 1536)).getD (off / spreadFrame) 0) (off % spreadFrame)
  else s.nearPlace us off

/-- The macro of a job finds an uncorrectable error in a table that it reads. -/
def State.macroRead (s : State) (j : Nat) (x : Job) (off : Nat) : State :=
  match (List.range 7).find? x.readsTable with
  | none => s
  | some i => s.tableReplay j { res := .pseudoChannel, index := s.holdingPc (s.tableKey i off) }

end Sys2Proof.Machine
end

