-- ==== Sys2Proof/Machine/Bundles.lean ====
section
/-! DEFINITION. The operations of a core as they are issued: those of one bundle come one after the other and issue together with its last
(R207 to R210, R228). -/

namespace Sys2Proof.Machine

/-! ### The operations of a bundle -/

/-- The slot operation of a command, computed on the state `s` before its bundle; an MMA finds the buffers as the drains of its bundle
leave them, in `t` (R208, R255). -/
def opOf (s t : State) : Instr → Option Op
  | .ciphertextAdd i a b dst e => some (opCiphertextAdd i a b dst e s)
  | .ciphertextSubtract i a b dst e => some (opCiphertextSubtract i a b dst e s)
  | .ciphertextNegate i a dst e => some (opCiphertextNegate i a dst e s)
  | .addPlaintext i a pt dst e => some (opAddPlaintext i a pt dst e s)
  | .multiplyPlaintext i a pt dst e => some (opMultiplyPlaintext i a pt dst e s)
  | .multiplyConstant i a dst c e => some (opMultiplyConstant i a dst c e s)
  | .tensorProduct i a b dst e => some (opTensorProduct i a b dst e s)
  | .relinearise i a dst k e => some (opRelinearise i a dst k e s)
  | .multiplyRelinearise i a b dst k e => some (opMultiplyRelinearise i a b dst k e s)
  | .rotate i a dst r k e => some (opRotate i a dst r k e s)
  | .hoistedRotate i a outs k e => some (opHoistedRotate i a outs k e s)
  | .conjugate i a dst k e => some (opConjugate i a dst k e s)
  | .rescale i a dst e => some (opRescale i a dst e s)
  | .levelDrop i a dst k e => some (opLevelDrop i a dst k e s)
  | .formConversion i a dst toEval e => some (opFormConversion i a dst toEval e s)
  | .repulp i a slot e => some (opRepulp i a slot e s)
  | .keyStreamStart i slot index d0 d1 l0 l1 group => some (opKeyStreamStart i slot index d0 d1 l0 l1 group s)
  | .add i d a b => some (opAdd i d a b s)
  | .sub i d a b => some (opSub i d a b s)
  | .and i d a b => some (opAnd i d a b s)
  | .or i d a b => some (opOr i d a b s)
  | .xor i d a b => some (opXor i d a b s)
  | .shl i d a b => some (opShl i d a b s)
  | .shr i d a b => some (opShr i d a b s)
  | .sar i d a b => some (opSar i d a b s)
  | .min i d a b => some (opMin i d a b s)
  | .max i d a b => some (opMax i d a b s)
  | .minu i d a b => some (opMinu i d a b s)
  | .maxu i d a b => some (opMaxu i d a b s)
  | .cmpeq i d a b => some (opCmpeq i d a b s)
  | .cmplt i d a b => some (opCmplt i d a b s)
  | .cmpltu i d a b => some (opCmpltu i d a b s)
  | .sel i d a b c => some (opSel i d a b c s)
  | .li i d imm => some (opLi i d imm s)
  | .lui i d imm => some (opLui i d imm s)
  | .mul i d a b => some (opMul i d a b s)
  | .mulhu i d a b => some (opMulhu i d a b s)
  | .mulhs i d a b => some (opMulhs i d a b s)
  | .getid i d code => some (opGetid i d code s)
  | .br i dest => some (opBr i dest s)
  | .brz i a dest => some (opBrz i a dest s)
  | .brnz i a dest => some (opBrnz i a dest s)
  | .call i dest => some (opCall i dest s)
  | .ret i => some (opRet i s)
  | .loop i n reg stopAt => some (opLoop i n reg stopAt s)
  | .ldS i d l size signed => some (opLdS i d l size signed s)
  | .stS i a l size => some (opStS i a l size s)
  | .ldT i t' f l form => some (opLdT i t' f l form s)
  | .stT i t' f l form => some (opStT i t' f l form s)
  | .sig i sem k => some (opSig i sem k s)
  | .wait i sem k => some (opWait i sem k s)
  | .bar i b => some (opBar i b s)
  | .couch i => some (opCouch i s)
  | .endOp i => some (opEnd i s)
  | .mmaStart i m row col prime => some (opMmaStart i m row col prime t)
  | .mmaCont i m => some (opMmaCont i m t)
  | .drain i d => some (opDrain i d s)
  | .nttF i n => some (opNttF i n s)
  | .nttI i n => some (opNttI i n s)
  | .vectorAdd i v a b => some (opVectorAdd i v a b s)
  | .vectorSub i v a b => some (opVectorSub i v a b s)
  | .vectorMul i v a b => some (opVectorMul i v a b s)
  | .fma i v a b c => some (opFma i v a b c s)
  | .neg i v a => some (opNeg i v a s)
  | .abs i v a => some (opAbs i v a s)
  | .vectorMin i v a b => some (opVectorMin i v a b s)
  | .vectorMax i v a b => some (opVectorMax i v a b s)
  | .vectorCmpeq i v a b => some (opVectorCmpeq i v a b s)
  | .vectorCmplt i v a b => some (opVectorCmplt i v a b s)
  | .cmple i v a b => some (opCmple i v a b s)
  | .vectorSel i v a b c => some (opVectorSel i v a b c s)
  | .vectorAnd i v a b => some (opVectorAnd i v a b s)
  | .vectorOr i v a b => some (opVectorOr i v a b s)
  | .vectorXor i v a b => some (opVectorXor i v a b s)
  | .not i v a => some (opNot i v a s)
  | .vectorShl i v a b => some (opVectorShl i v a b s)
  | .vectorShr i v a b => some (opVectorShr i v a b s)
  | .vectorSar i v a b => some (opVectorSar i v a b s)
  | .exp2 i v a => some (opExp2 i v a s)
  | .rcp i v a => some (opRcp i v a s)
  | .rsqrt i v a => some (opRsqrt i v a s)
  | .act i v a f => some (opAct i v a f s)
  | .madd i v a b q => some (opMadd i v a b q s)
  | .msub i v a b q => some (opMsub i v a b q s)
  | .mneg i v a q => some (opMneg i v a q s)
  | .mmul i v a b q => some (opMmul i v a b q s)
  | .mfma i v a b c q => some (opMfma i v a b c q s)
  | .msubmul i v a b c q => some (opMsubmul i v a b c q s)
  | .mcentre i v a q q2 => some (opMcentre i v a q q2 s)
  | .vcvt i v a df q q2 sigma => some (opVcvt i v a df q q2 sigma s)
  | .vmov i d a => some (opVmov i d a s)
  | .vred i v a df kind col q => some (opVred i v a df kind col q s)
  | .xcopyMove i h src dst slices => some (opXcopyMove i h src dst slices s)
  | .xcopyTranspose i h src dst slices => some (opXcopyTranspose i h src dst slices s)
  | .xcopyGalois i h src dst n g limbs stride => some (opXcopyGalois i h src dst n g limbs stride s)
  | .xcopyGather i h src dst index => some (opXcopyGather i h src dst index s)
  | .strm i f => some (opStrm i f s)
  | .strmMark i channel mark outbound => some (opStrmMark i channel mark outbound s)
  | _ => none

/-- A core's buffers as the drains among some operations empty them (R255). -/
def State.afterDrains (s : State) (n : Nat) (is : List Instr) : State :=
  s.modCore n fun c => is.foldl (fun c x => match x with
    | .drain _ d => c.drained d.o
    | _ => c) c

/-! ### Issue -/

/-- An uncorrectable error in the program store (R210): the job replays, and the store is rewritten from the image copy. -/
def State.storeLost (s : State) (n : Nat) : State :=
  (s.modCore n fun c => { c with code := [], starts := [] }).coreFault n false 0x0501

/-- An operation of a bundle: one that is not the last waits for the others, and the last issues them all. -/
def State.slotOp (s : State) (i : Issue) (c : Instr) : Outcome :=
  let n := i.core
  let is := (s.core n).staged ++ [c]
  if !s.canIssue n then .next s
  else if !i.last then .next (s.modCore n fun x => { x with staged := is })
  else if !i.good then .next (s.storeLost n)
  else .next (s.issueOps n (is.filterMap (opOf s (s.afterDrains n is))))

/-! ### The operations -/

/-- CIPHERTEXT_ADD (R147). -/
def execCiphertextAdd (i : Issue) (a b dst : Loc) (e : ReadErr) (s : State) : Outcome := s.slotOp i (.ciphertextAdd i a b dst e)
/-- CIPHERTEXT_SUBTRACT (R147). -/
def execCiphertextSubtract (i : Issue) (a b dst : Loc) (e : ReadErr) (s : State) : Outcome := s.slotOp i (.ciphertextSubtract i a b dst e)
/-- CIPHERTEXT_NEGATE (R147). -/
def execCiphertextNegate (i : Issue) (a dst : Loc) (e : ReadErr) (s : State) : Outcome := s.slotOp i (.ciphertextNegate i a dst e)
/-- ADD_PLAINTEXT (R147). -/
def execAddPlaintext (i : Issue) (a pt dst : Loc) (e : ReadErr) (s : State) : Outcome := s.slotOp i (.addPlaintext i a pt dst e)
/-- MULTIPLY_PLAINTEXT (R147). -/
def execMultiplyPlaintext (i : Issue) (a pt dst : Loc) (e : ReadErr) (s : State) : Outcome := s.slotOp i (.multiplyPlaintext i a pt dst e)
/-- MULTIPLY_CONSTANT (R147). -/
def execMultiplyConstant (i : Issue) (a dst : Loc) (c : Int) (e : ReadErr) (s : State) : Outcome := s.slotOp i (.multiplyConstant i a dst c e)
/-- TENSOR_PRODUCT (R147). -/
def execTensorProduct (i : Issue) (a b dst : Loc) (e : ReadErr) (s : State) : Outcome := s.slotOp i (.tensorProduct i a b dst e)
/-- RELINEARISE (R181). -/
def execRelinearise (i : Issue) (a dst : Loc) (k : KeyRef) (e : ReadErr) (s : State) : Outcome := s.slotOp i (.relinearise i a dst k e)
/-- MULTIPLY_RELINEARISE (R181). -/
def execMultiplyRelinearise (i : Issue) (a b dst : Loc) (k : KeyRef) (e : ReadErr) (s : State) : Outcome :=
  s.slotOp i (.multiplyRelinearise i a b dst k e)
/-- ROTATE (R176). -/
def execRotate (i : Issue) (a dst : Loc) (r : Int) (k : KeyRef) (e : ReadErr) (s : State) : Outcome := s.slotOp i (.rotate i a dst r k e)
/-- HOISTED_ROTATE (R188). -/
def execHoistedRotate (i : Issue) (a : Loc) (outs : List (Loc × Int × Nat)) (k : KeyRef) (e : ReadErr) (s : State) : Outcome :=
  s.slotOp i (.hoistedRotate i a outs k e)
/-- CONJUGATE (R176). -/
def execConjugate (i : Issue) (a dst : Loc) (k : KeyRef) (e : ReadErr) (s : State) : Outcome := s.slotOp i (.conjugate i a dst k e)
/-- RESCALE (R493). -/
def execRescale (i : Issue) (a dst : Loc) (e : ReadErr) (s : State) : Outcome := s.slotOp i (.rescale i a dst e)
/-- LEVEL_DROP (R493). -/
def execLevelDrop (i : Issue) (a dst : Loc) (k : Nat) (e : ReadErr) (s : State) : Outcome := s.slotOp i (.levelDrop i a dst k e)
/-- FORM_CONVERSION (R143). -/
def execFormConversion (i : Issue) (a dst : Loc) (toEval : Bool) (e : ReadErr) (s : State) : Outcome := s.slotOp i (.formConversion i a dst toEval e)
/-- REPULP (R199). -/
def execRepulp (i : Issue) (a : Loc) (slot : Nat) (e : ReadErr) (s : State) : Outcome := s.slotOp i (.repulp i a slot e)
/-- KEY_STREAM_START (R167). -/
def execKeyStreamStart (i : Issue) (slot index d0 d1 l0 l1 : Nat) (group : List Nat) (s : State) : Outcome :=
  s.slotOp i (.keyStreamStart i slot index d0 d1 l0 l1 group)
/-- ADD (R211). -/
def execAdd (i : Issue) (d a b : SReg) (s : State) : Outcome := s.slotOp i (.add i d a b)
/-- SUB (R211). -/
def execSub (i : Issue) (d a b : SReg) (s : State) : Outcome := s.slotOp i (.sub i d a b)
/-- AND (R211). -/
def execAnd (i : Issue) (d a b : SReg) (s : State) : Outcome := s.slotOp i (.and i d a b)
/-- OR (R211). -/
def execOr (i : Issue) (d a b : SReg) (s : State) : Outcome := s.slotOp i (.or i d a b)
/-- XOR (R211). -/
def execXor (i : Issue) (d a b : SReg) (s : State) : Outcome := s.slotOp i (.xor i d a b)
/-- SHL (R211). -/
def execShl (i : Issue) (d a b : SReg) (s : State) : Outcome := s.slotOp i (.shl i d a b)
/-- SHR (R211). -/
def execShr (i : Issue) (d a b : SReg) (s : State) : Outcome := s.slotOp i (.shr i d a b)
/-- SAR (R211). -/
def execSar (i : Issue) (d a b : SReg) (s : State) : Outcome := s.slotOp i (.sar i d a b)
/-- MIN (R211). -/
def execMin (i : Issue) (d a b : SReg) (s : State) : Outcome := s.slotOp i (.min i d a b)
/-- MAX (R211). -/
def execMax (i : Issue) (d a b : SReg) (s : State) : Outcome := s.slotOp i (.max i d a b)
/-- MINU (R211). -/
def execMinu (i : Issue) (d a b : SReg) (s : State) : Outcome := s.slotOp i (.minu i d a b)
/-- MAXU (R211). -/
def execMaxu (i : Issue) (d a b : SReg) (s : State) : Outcome := s.slotOp i (.maxu i d a b)
/-- CMPEQ (R211). -/
def execCmpeq (i : Issue) (d a b : SReg) (s : State) : Outcome := s.slotOp i (.cmpeq i d a b)
/-- CMPLT (R211). -/
def execCmplt (i : Issue) (d a b : SReg) (s : State) : Outcome := s.slotOp i (.cmplt i d a b)
/-- CMPLTU (R211). -/
def execCmpltu (i : Issue) (d a b : SReg) (s : State) : Outcome := s.slotOp i (.cmpltu i d a b)
/-- SEL (R211). -/
def execSel (i : Issue) (d a b c : SReg) (s : State) : Outcome := s.slotOp i (.sel i d a b c)
/-- LI (R211). -/
def execLi (i : Issue) (d : SReg) (imm : BitVec 32) (s : State) : Outcome := s.slotOp i (.li i d imm)
/-- LUI (R211). -/
def execLui (i : Issue) (d : SReg) (imm : BitVec 32) (s : State) : Outcome := s.slotOp i (.lui i d imm)
/-- MUL (R211). -/
def execMul (i : Issue) (d a b : SReg) (s : State) : Outcome := s.slotOp i (.mul i d a b)
/-- MULHU (R211). -/
def execMulhu (i : Issue) (d a b : SReg) (s : State) : Outcome := s.slotOp i (.mulhu i d a b)
/-- MULHS (R211). -/
def execMulhs (i : Issue) (d a b : SReg) (s : State) : Outcome := s.slotOp i (.mulhs i d a b)
/-- GETID (R211). -/
def execGetid (i : Issue) (d : SReg) (code : Nat) (s : State) : Outcome := s.slotOp i (.getid i d code)
/-- BR (R212). -/
def execBr (i : Issue) (dest : Nat) (s : State) : Outcome := s.slotOp i (.br i dest)
/-- BRZ (R212). -/
def execBrz (i : Issue) (a : SReg) (dest : Nat) (s : State) : Outcome := s.slotOp i (.brz i a dest)
/-- BRNZ (R212). -/
def execBrnz (i : Issue) (a : SReg) (dest : Nat) (s : State) : Outcome := s.slotOp i (.brnz i a dest)
/-- CALL (R212). -/
def execCall (i : Issue) (dest : Nat) (s : State) : Outcome := s.slotOp i (.call i dest)
/-- RET (R212). -/
def execRet (i : Issue) (s : State) : Outcome := s.slotOp i (.ret i)
/-- LOOP (R212). -/
def execLoop (i : Issue) (n : Nat) (reg : Option SReg) (stopAt : Nat) (s : State) : Outcome := s.slotOp i (.loop i n reg stopAt)
/-- LD_S (R213). -/
def execLdS (i : Issue) (d : SReg) (l : Loc) (size : Nat) (signed : Bool) (s : State) : Outcome := s.slotOp i (.ldS i d l size signed)
/-- ST_S (R213). -/
def execStS (i : Issue) (a : SReg) (l : Loc) (size : Nat) (s : State) : Outcome := s.slotOp i (.stS i a l size)
/-- LD_T (R313). -/
def execLdT (i : Issue) (t : TReg) (f : Fmt) (l : Loc) (form : TileForm) (s : State) : Outcome := s.slotOp i (.ldT i t f l form)
/-- ST_T (R313). -/
def execStT (i : Issue) (t : TReg) (f : Fmt) (l : Loc) (form : TileForm) (s : State) : Outcome := s.slotOp i (.stT i t f l form)
/-- SIG (R215). -/
def execSig (i : Issue) (sem k : Nat) (s : State) : Outcome := s.slotOp i (.sig i sem k)
/-- WAIT (R215). -/
def execWait (i : Issue) (sem k : Nat) (s : State) : Outcome := s.slotOp i (.wait i sem k)
/-- BAR (R218). -/
def execBar (i : Issue) (b : Nat) (s : State) : Outcome := s.slotOp i (.bar i b)
/-- COUCH (R219). -/
def execCouch (i : Issue) (s : State) : Outcome := s.slotOp i (.couch i)
/-- END (R220). -/
def execEndOp (i : Issue) (s : State) : Outcome := s.slotOp i (.endOp i)
/-- MMA_START (R235). -/
def execMmaStart (i : Issue) (m : Mma) (row col : Option SReg) (prime : Option PSel) (s : State) : Outcome := s.slotOp i (.mmaStart i m row col prime)
/-- MMA_CONT (R235). -/
def execMmaCont (i : Issue) (m : Mma) (s : State) : Outcome := s.slotOp i (.mmaCont i m)
/-- DRAIN (R242). -/
def execDrain (i : Issue) (d : Drain) (s : State) : Outcome := s.slotOp i (.drain i d)
/-- NTT_F (R252). -/
def execNttF (i : Issue) (n : Ntt) (s : State) : Outcome := s.slotOp i (.nttF i n)
/-- NTT_I (R252). -/
def execNttI (i : Issue) (n : Ntt) (s : State) : Outcome := s.slotOp i (.nttI i n)
/-- VECTOR_ADD (R279). -/
def execVectorAdd (i : Issue) (v : VDst) (a b : VSrc) (s : State) : Outcome := s.slotOp i (.vectorAdd i v a b)
/-- VECTOR_SUB (R279). -/
def execVectorSub (i : Issue) (v : VDst) (a b : VSrc) (s : State) : Outcome := s.slotOp i (.vectorSub i v a b)
/-- VECTOR_MUL (R279). -/
def execVectorMul (i : Issue) (v : VDst) (a b : VSrc) (s : State) : Outcome := s.slotOp i (.vectorMul i v a b)
/-- FMA (R279). -/
def execFma (i : Issue) (v : VDst) (a b c : VSrc) (s : State) : Outcome := s.slotOp i (.fma i v a b c)
/-- NEG (R279). -/
def execNeg (i : Issue) (v : VDst) (a : VSrc) (s : State) : Outcome := s.slotOp i (.neg i v a)
/-- ABS (R279). -/
def execAbs (i : Issue) (v : VDst) (a : VSrc) (s : State) : Outcome := s.slotOp i (.abs i v a)
/-- VECTOR_MIN (R279). -/
def execVectorMin (i : Issue) (v : VDst) (a b : VSrc) (s : State) : Outcome := s.slotOp i (.vectorMin i v a b)
/-- VECTOR_MAX (R279). -/
def execVectorMax (i : Issue) (v : VDst) (a b : VSrc) (s : State) : Outcome := s.slotOp i (.vectorMax i v a b)
/-- VECTOR_CMPEQ (R279). -/
def execVectorCmpeq (i : Issue) (v : VDst) (a b : VSrc) (s : State) : Outcome := s.slotOp i (.vectorCmpeq i v a b)
/-- VECTOR_CMPLT (R279). -/
def execVectorCmplt (i : Issue) (v : VDst) (a b : VSrc) (s : State) : Outcome := s.slotOp i (.vectorCmplt i v a b)
/-- CMPLE (R279). -/
def execCmple (i : Issue) (v : VDst) (a b : VSrc) (s : State) : Outcome := s.slotOp i (.cmple i v a b)
/-- VECTOR_SEL (R279). -/
def execVectorSel (i : Issue) (v : VDst) (a b c : VSrc) (s : State) : Outcome := s.slotOp i (.vectorSel i v a b c)
/-- VECTOR_AND (R279). -/
def execVectorAnd (i : Issue) (v : VDst) (a b : VSrc) (s : State) : Outcome := s.slotOp i (.vectorAnd i v a b)
/-- VECTOR_OR (R279). -/
def execVectorOr (i : Issue) (v : VDst) (a b : VSrc) (s : State) : Outcome := s.slotOp i (.vectorOr i v a b)
/-- VECTOR_XOR (R279). -/
def execVectorXor (i : Issue) (v : VDst) (a b : VSrc) (s : State) : Outcome := s.slotOp i (.vectorXor i v a b)
/-- NOT (R279). -/
def execNot (i : Issue) (v : VDst) (a : VSrc) (s : State) : Outcome := s.slotOp i (.not i v a)
/-- VECTOR_SHL (R279). -/
def execVectorShl (i : Issue) (v : VDst) (a b : VSrc) (s : State) : Outcome := s.slotOp i (.vectorShl i v a b)
/-- VECTOR_SHR (R279). -/
def execVectorShr (i : Issue) (v : VDst) (a b : VSrc) (s : State) : Outcome := s.slotOp i (.vectorShr i v a b)
/-- VECTOR_SAR (R279). -/
def execVectorSar (i : Issue) (v : VDst) (a b : VSrc) (s : State) : Outcome := s.slotOp i (.vectorSar i v a b)
/-- EXP2 (R280). -/
def execExp2 (i : Issue) (v : VDst) (a : VSrc) (s : State) : Outcome := s.slotOp i (.exp2 i v a)
/-- RCP (R280). -/
def execRcp (i : Issue) (v : VDst) (a : VSrc) (s : State) : Outcome := s.slotOp i (.rcp i v a)
/-- RSQRT (R280). -/
def execRsqrt (i : Issue) (v : VDst) (a : VSrc) (s : State) : Outcome := s.slotOp i (.rsqrt i v a)
/-- ACT (R243). -/
def execAct (i : Issue) (v : VDst) (a : VSrc) (f : Act) (s : State) : Outcome := s.slotOp i (.act i v a f)
/-- MADD (R281). -/
def execMadd (i : Issue) (v : VDst) (a b : VSrc) (q : PSel) (s : State) : Outcome := s.slotOp i (.madd i v a b q)
/-- MSUB (R281). -/
def execMsub (i : Issue) (v : VDst) (a b : VSrc) (q : PSel) (s : State) : Outcome := s.slotOp i (.msub i v a b q)
/-- MNEG (R281). -/
def execMneg (i : Issue) (v : VDst) (a : VSrc) (q : PSel) (s : State) : Outcome := s.slotOp i (.mneg i v a q)
/-- MMUL (R281). -/
def execMmul (i : Issue) (v : VDst) (a b : VSrc) (q : PSel) (s : State) : Outcome := s.slotOp i (.mmul i v a b q)
/-- MFMA (R281). -/
def execMfma (i : Issue) (v : VDst) (a b c : VSrc) (q : PSel) (s : State) : Outcome := s.slotOp i (.mfma i v a b c q)
/-- MSUBMUL (R281). -/
def execMsubmul (i : Issue) (v : VDst) (a b c : VSrc) (q : PSel) (s : State) : Outcome := s.slotOp i (.msubmul i v a b c q)
/-- MCENTRE (R281). -/
def execMcentre (i : Issue) (v : VDst) (a : VSrc) (q q2 : PSel) (s : State) : Outcome := s.slotOp i (.mcentre i v a q q2)
/-- VCVT (R282). -/
def execVcvt (i : Issue) (v : VDst) (a : VSrc) (df : Fmt) (q q2 : Option PSel) (sigma : Option SReg) (s : State) : Outcome :=
  s.slotOp i (.vcvt i v a df q q2 sigma)
/-- VMOV (R282). -/
def execVmov (i : Issue) (d a : TReg) (s : State) : Outcome := s.slotOp i (.vmov i d a)
/-- VRED (R283). -/
def execVred (i : Issue) (v : VDst) (a : VSrc) (df : Fmt) (kind : Nat) (col : Bool) (q : Option PSel) (s : State) : Outcome :=
  s.slotOp i (.vred i v a df kind col q)
/-- XCOPY_MOVE (R316). -/
def execXcopyMove (i : Issue) (h : CopyHead) (src dst : Mat) (slices : List Slice) (s : State) : Outcome := s.slotOp i (.xcopyMove i h src dst slices)
/-- XCOPY_TRANSPOSE (R316). -/
def execXcopyTranspose (i : Issue) (h : CopyHead) (src dst : Mat) (slices : List Slice) (s : State) : Outcome :=
  s.slotOp i (.xcopyTranspose i h src dst slices)
/-- XCOPY_GALOIS (R316). -/
def execXcopyGalois (i : Issue) (h : CopyHead) (src dst : Mat) (n g limbs stride : Nat) (s : State) : Outcome :=
  s.slotOp i (.xcopyGalois i h src dst n g limbs stride)
/-- XCOPY_GATHER (R316). -/
def execXcopyGather (i : Issue) (h : CopyHead) (src dst : Mat) (index : Loc) (s : State) : Outcome := s.slotOp i (.xcopyGather i h src dst index)
/-- STRM (R327). -/
def execStrm (i : Issue) (f : Strm) (s : State) : Outcome := s.slotOp i (.strm i f)
/-- STRM_MARK (R331). -/
def execStrmMark (i : Issue) (channel mark : Nat) (outbound : Bool) (s : State) : Outcome := s.slotOp i (.strmMark i channel mark outbound)

end Sys2Proof.Machine
end

