-- ==== Sys2Proof/Machine/Spans.lean ====
section
/-! DEFINITION. Jobs that span modules: votes, decisions, START and STOP (R82, R116, R204, R222, R379, R428, R435, R436, R490). -/

namespace Sys2Proof.Machine

/-- The tick master of the group, as this module sees it (R433, R434). -/
def State.masterNo (s : State) : Nat := if s.tickGroup.role = 1 ∨ s.tickGroup.role = 3 then s.self else s.tickGroup.master

/-! ### Payloads of COUCH messages (R427) -/

def voteCode : Vote → Nat
  | .notReady => 0
  | .ready => 1
  | .fault => 2

def decisionCode : Decision → Nat
  | .defer => 0
  | .commit => 1
  | .rollback => 2

def votePayload (seq : Nat) (v : Vote) (k d : Nat) (dead : Bool) : Bytes := le 4 seq ++ le 1 (voteCode v) ++ le 1 k ++ le 1 d ++ le 1 (b2n dead 1)
def decisionPayload (seq : Nat) (d : Decision) : Bytes := le 4 seq ++ le 1 (decisionCode d)

/-! ### Late ticks and deadlocks (R109, R222) -/

/-- A late tick of a job counted (R109, R118, R119). -/
def State.lateTick (s : State) (j : Nat) : State :=
  (s.modJob j fun x => { x with late := x.late + 1, lateReam := satAdd 0xFFF x.lateReam 1, lateNow := true, couching := false }).bump (ctrJob j 2) 1

/-- The entry of a stop record for a core in WAIT, BAR, COUCH or END (R415). -/
def State.waitEntry (s : State) (x : Job) (n : Nat) : Option Bytes :=
  let c := s.core n
  let e (st sync k count : Nat) : Option Bytes := some (le 1 n ++ le 1 st ++ le 2 0 ++ le 4 c.bundle ++ le 1 sync ++ le 1 k ++ le 2 count ++ zeros 4)
  match c.mode with
  | .wait sem k => e 2 sem k (x.sem sem)
  | .bar b => e 3 b 0 (Tbl.get [] x.bars b).length
  | .couch => e 4 0 0 0
  | .ended => e 5 0 0 0
  | _ => none

/-- DEADLOCK: the job stops, and the record lists its cores (R222).
DEDUCED, unsafe (assumption 72). -/
def State.deadlockStop (s : State) (j : Nat) (tell : Bool) : State :=
  match s.job j with
  | none => s
  | some x => s.stopJob j { code := 0x0304, entries := x.cores.filterMap (s.waitEntry x) } tell

/-! ### Decisions (R116, R436) -/

/-- The commit that a COMMIT decision makes: a couch of the program, of the interlude or of a macro sheet (R204). A job
whose final couch is made only counts on.
DEDUCED, unsafe (assumption 68); DESIGN CHOICE, unsafe (assumption 73). -/
def State.commitSpan (s : State) (j : Nat) : State :=
  match s.job j with
  | none => s
  | some x =>
    if x.final then s.modJob j fun x => { x with seq := x.seq + 1 }
    else match x.inter.ph with
      | .none => s.ordinaryCouch j
      | .couching => s.interludeCommit j
      | .working => s.macroCommit j x.inter.last
      | _ => s

/-- What a DEFER does: R109 applies, but not to the ticks of an interlude (R200).
DESIGN CHOICE, unsafe (assumption 73). -/
def State.deferSpan (s : State) (j : Nat) : State :=
  match s.job j with
  | none => s
  | some x =>
    if x.final then s
    else if x.inter.ph ≠ .none then s.modJob j fun x => { x with couching := false }
    else (s.lateTick j).modJob j fun x => { x with sheet := x.sheet + b2n x.counts 1 }

/-- What a ROLLBACK does: the module with the fault goes on with its replay, another one replays with PEER_ROLLBACK. Flits
that no RELEASE_END has closed are discarded (R428).
DEDUCED, unsafe (assumption 70); DEDUCED, unsafe (assumption 71). -/
def State.rollbackSpan (s : State) (i j : Nat) (lost : Bool) : State :=
  let own := (s.span i).faulted
  let s := (s.modSpan i fun y => { y with faulted := false }).modJob j fun x =>
    { x with rxHidden := [], couching := false,
             areas := x.areas.map fun (c : Nat × Area) => (c.1, { c.2 with ends := c.2.ends.filter (· ≤ c.2.flush) }) }
  if own then s
  else if lost then s.beginReplay j { contained := false, code := 0x0503, res := { res := .linkLane }, detail := 0, tag := 0, told := true }
  else s.beginReplay j { contained := false, code := 0x0506, res := { res := .peer, index := s.masterNo }, detail := 0, tag := 0, told := true }

/-- A decision taken in this module: it commits only what it voted READY for; a fault found after the vote is handled now. -/
def State.takeDecision (s : State) (i j seq : Nat) (d : Decision) (lost : Bool := false) : State :=
  match s.job j with
  | none => s
  | some x =>
    if x.st ≠ .running ∨ x.seq ≠ seq then s
    else
      let mine := (s.span i).mine
      let late := (s.span i).deferred
      let s := s.modSpan i fun y => { y with mine := none, deferred := none }
      let s := match d with
        | .commit => if mine = some .ready then s.commitSpan j else s
        | .defer => s.deferSpan j
        | .rollback => s.rollbackSpan i j lost
      match late with
      | none => s
      | some q => s.beginReplay j q

/-- A decision of the master: kept for 16 sheets, sent to every member, and taken here.
DEDUCED, unsafe (assumption 69). -/
def State.decideAs (s : State) (i : Nat) (d : Decision) : State :=
  let seq := (s.span i).voteSeq
  let s := s.modSpan i fun y =>
    { y with votes := [], dead := true, kMax := 16, dMin := 16,
             decisions := (seq, s.now, d) :: y.decisions.filter fun c => s.now ≤ c.2.1 + 16 }
  let s := s.spanSend i clsCouch kindDecision (decisionPayload seq d)
  match s.spanJob i with
  | none => s
  | some j => s.takeDecision i j seq d

/-- A stop that the master declares for a whole span (R222, R490). -/
def State.stopSpan (s : State) (i code : Nat) : State :=
  let s := s.modSpan i fun y => { y with votes := [], dead := true, kMax := 16, dMin := 16, mine := none }
  match s.spanJob i with
  | none => s.spanSend i clsControl kindStop (le 2 code)
  | some j => if code = 0x0304 then s.deadlockStop j true else s.stopJob j { code := code }

/-- The sheet that just ended is sheet D of the span, over the operating points of every member (R490).
DEDUCED, unsafe (assumption 69). -/
def State.spanOver (s : State) (i : Nat) : Bool :=
  match (s.spanJob i).bind s.job with
  | none => false
  | some x => x.counts && decide (sheetD x.stride (s.span i).kMax (s.span i).dMin ≤ x.sheet) && x.inter.ph == .none

/-- The master decides once it can: ROLLBACK on any FAULT, COMMIT when every vote is READY; else a deadlock or an overrun
stops the span, and DEFER otherwise.
DEDUCED, unsafe (assumption 69). -/
def State.judge (s : State) (i : Nat) : State :=
  let y := s.span i
  if y.votes.any fun v => v.2 == .fault then s.decideAs i .rollback
  else if !((s.members i).all fun m => y.votes.any fun v => v.1 == m) then s
  else if y.votes.all fun v => v.2 == .ready then s.decideAs i .commit
  else if y.dead then s.stopSpan i 0x0304
  else if s.spanOver i then s.stopSpan i 0x0306
  else s.decideAs i .defer

/-- The span is decided for the tick in hand. -/
def State.decided (s : State) (i : Nat) : Bool := (s.span i).decisions.head?.any fun d => d.2.1 == s.now && d.2.2 == .rollback

/-- A vote that reaches the master. -/
def State.takeVote (s : State) (i m seq : Nat) (v : Vote) (k d : Nat) (dead : Bool) : State :=
  let other := ((s.spanJob i).bind s.job).any fun x => x.seq != seq
  if !(s.members i).contains m || (s.span i).votes.any (fun c => c.1 == m) || s.decided i || other then s
  else
    let s := s.modSpan i fun y =>
      { y with votes := y.votes ++ [(m, v)], voteSeq := seq, dead := y.dead && dead, kMax := max y.kMax k, dMin := min y.dMin d }
    s.judge i

/-- This module's vote for the couch of its job: counted here by the master, else sent to it. -/
def State.castVote (s : State) (i j : Nat) (v : Vote) (dead : Bool) : State :=
  match s.job j with
  | none => s
  | some x =>
    let s := s.modSpan i fun y => { y with mine := some v }
    if s.masterNo = s.self then s.takeVote i s.self x.seq v x.kMax x.dMin dead
    else s.sendMsg s.masterNo clsCouch i kindVote (votePayload x.seq v x.kMax x.dMin dead)

/-- A vote taken at the master. -/
def State.voteNow (s : State) (span m seq : Nat) (v : Vote) (divK duty : Nat) (dead : Bool) : State :=
  if s.live ∧ s.masterNo = s.self ∧ (s.spanEntry span).isSome then s.takeVote span m seq v divK duty dead else s

/-- VOTE (R116). -/
def execVote (span m seq : Nat) (v : Vote) (divK duty : Nat) (dead : Bool) (s : State) (arr : Option Arrival := none) : Outcome :=
  .next (s.receive arr clsCouch (votePayload seq v divK duty dead) fun s => s.voteNow span m seq v divK duty dead)

/-- A decision taken at a member; `lost` says that its vote did not reach the master. -/
def State.decisionNow (s : State) (span seq : Nat) (d : Decision) (lost : Bool) : State :=
  match s.spanJob span with
  | none => s
  | some j => if s.live ∧ s.masterNo ≠ s.self then s.takeDecision span j seq d lost else s

/-- DECISION (R116).
DEDUCED, unsafe (assumption 70). -/
def execDecision (span seq : Nat) (d : Decision) (s : State) (arr : Option Arrival := none) (lost : Bool := false) : Outcome :=
  .next (s.receive arr clsCouch (decisionPayload seq d) fun s => s.decisionNow span seq d lost)

/-- The couch in hand of a span, where its master knows it: that of the votes taken, of its own job, or the one after the last decision. -/
def State.seqInHand (s : State) (i : Nat) : Nat :=
  let y := s.span i
  match y.votes, (s.spanJob i).bind s.job, y.decisions with
  | _ :: _, _, _ => y.voteSeq
  | [], some x, _ => x.seq
  | [], none, d :: _ => d.1 + b2n (d.2.2 == .commit) 1
  | [], none, [] => 0

/-- VOTE_TIMEOUT (R436): a vote that has not reached the master counts as FAULT. A master with a job of its own in the span has voted by then,
one without may have received no vote at all.
DEDUCED, unsafe (assumption 70). -/
def execVoteTimeout (span m : Nat) (s : State) : Outcome :=
  let y := s.span span
  let own := ((s.spanJob span).bind s.job).isSome
  if s.live ∧ s.masterNo = s.self ∧ (y.votes ≠ [] ∨ (!own ∧ !(y.decisions.head?.any fun d => d.2.1 == s.now))) ∧ (s.members span).contains m ∧
      !(y.votes.any fun v => v.1 == m) then
    .next ((s.modSpan span fun y => { y with voteSeq := s.seqInHand span }).decideAs span .rollback)
  else .next s

/-- DECISION_TIMEOUT (R436): a READY module without a decision asks the master for it. -/
def execDecisionTimeout (span : Nat) (s : State) : Outcome :=
  match (s.spanJob span).bind s.job with
  | none => .next s
  | some x =>
    if s.live ∧ s.masterNo ≠ s.self ∧ (s.span span).mine = some .ready then .next (s.sendMsg s.masterNo clsControl span kindDecisionRequest (le 4 x.seq))
    else .next s

/-- The decision on a couch sent to a member, where it is kept. -/
def State.answerDecision (s : State) (span m seq : Nat) : State :=
  match (s.span span).decisions.find? fun d => d.1 == seq && s.now ≤ d.2.1 + 16 with
  | none => s
  | some d =>
    if s.live ∧ s.masterNo = s.self then s.sendMsg m clsCouch span kindDecision (decisionPayload seq d.2.2) else s

/-- DECISION_REQUEST (R436). -/
def execDecisionRequest (span m seq : Nat) (s : State) (arr : Option Arrival := none) : Outcome :=
  .next (s.receive arr clsControl (le 4 seq) fun s => s.answerDecision span m seq)

/-! ### Couches of an interlude (R200, R204) -/

/-- INTERLUDE_COUCH (R200): at the first tick at which every core is halted. -/
def execInterludeCouch (j : Nat) (s : State) : Outcome :=
  match s.job j with
  | none => .next s
  | some x =>
    if !s.live ∨ s.clk.switching ≠ .none ∨ x.st ≠ .running ∨ x.quiesce.isSome ∨ x.inter.ph ≠ .couching then .next s
    else match x.span with
      | none => .next (s.interludeCommit j)
      | some i => .next (s.castVote i j .ready false)

/-- A macro sheet couches at its closing tick; one that is not finished defers to the next tick. A member of a span without a batch votes
READY at each (R204). -/
def State.macroSheet (s : State) (j : Nat) (finished last : Bool) : Outcome :=
  match s.job j with
  | none => .next s
  | some x =>
    if !s.live ∨ s.clk.switching ≠ .none ∨ x.st ≠ .running ∨ x.quiesce.isSome ∨ x.inter.ph ≠ .working ∨ !x.couching then .next s
    else match x.span with
      | none => .next (if finished then s.macroCommit j last else s.modJob j fun x => { x with couching := false })
      | some i =>
        let s := s.modJob j fun x => { x with inter := { x.inter with last := last } }
        .next (s.castVote i j (if finished ∨ x.inter.batch = [] then .ready else .notReady) false)

/-- MACRO_SHEET_COUCH (R200): a macro that found an error in its table replays (R197). -/
def execMacroSheetCouch (j : Nat) (finished last : Bool) (s : State) (bad : Option Nat := none) : Outcome :=
  match s.job j, bad with
  | some x, some off => .next (if s.live ∧ x.st = .running ∧ x.quiesce.isNone then s.macroRead j x off else s)
  | _, _ => s.macroSheet j finished last

/-! ### START and STOP (R82, R98, R379, R435) -/

/-- A SUBMIT accepted: program stores, semaphores and barriers are set, the REPULP tables mapped (R197), and the first stride begins at a
tick (R98, R215, R226). Until then the cores read as out of service (R230).
DESIGN CHOICE, unsafe (assumption 8); DESIGN CHOICE, safe (assumption 18); DESIGN CHOICE, unsafe (assumption 163). -/
def State.launch (s : State) (j : Nat) : State :=
  match (s.job j).bind Job.image with
  | none => s
  | some g =>
    let s := s.each g.cores.zipIdx fun s c =>
      s.setCore c.1.1 { job := j, index := c.2, mode := .out, before := .issuing, bundle := c.1.2.2, resume := c.1.2.2, code := c.1.2.1,
                        starts := bundleStarts c.1.2.1, lastCheck := (s.core c.1.1).lastCheck }
    (s.modJob j fun x =>
      { x with st := .running, begins := true, sems := g.semInit.foldl (fun t c => Tbl.set t c.1 c.2) [], bars := [],
               tables := s.builtTables }).takeSnap j

/-- The SUBMIT of a span that waits for START, with its job. -/
def State.waitingSubmit (s : State) (i : Nat) : Option (Nat × Port × Nat) :=
  match s.spanJob i, (s.span i).submit with
  | some j, some (p, r) =>
    if (s.ring p r).held && (s.ring p r).current.any (fun c => field c 0 1 == 0x20 && field c 2 1 == j) then some (j, p, r) else none
  | _, _ => none

/-- Every member's SUBMIT completes with the first tick, or is refused: detail 0x06 where members differ, 0x07 for a path of more than
4 hops. The master broadcasts the START. -/
def State.startNow (s : State) (span tick hops : Nat) (agree : Bool) : State :=
  if !s.live then s
  else
    let s := if s.masterNo = s.self ∧ hops ≤ 4 ∧ agree then s.spanSend span clsCouch kindStart (le 8 tick) else s
    match s.waitingSubmit span with
    | none => s
    | some (j, p, r) =>
      let s := s.modSpan span fun y => { y with submit := none }
      if 4 < hops then s.complete p r { status := 0x0260, detail := 7 }
      else if !agree then s.complete p r { status := 0x0260, detail := 6 }
      else
        let s := s.modSpan span fun _ => { firstTick := some tick }
        ((s.launch j).complete p r { v0 := tick }).grantRoom j span

/-- START (R435). -/
def execStart (span tick hops : Nat) (agree : Bool) (s : State) (arr : Option Arrival := none) : Outcome :=
  .next (s.receive arr clsCouch (le 8 tick) fun s => s.startNow span tick hops agree)

/-- SPAN_SUBMIT_TIMEOUT (R435): the span is still incomplete 1 s after its first SUBMIT. -/
def execSpanSubmitTimeout (span : Nat) (s : State) : Outcome :=
  match s.waitingSubmit span with
  | none => .next s
  | some (_, p, r) =>
    if s.live then .next ((s.modSpan span fun y => { y with submit := none }).complete p r { status := 0x0260, detail := 6 }) else .next s

/-- A job killed in a peer is stopped and wiped here, in whatever state it is; a peer's reset, a lost link and a stop declared for the whole
span stop it with their own cause; any other stop of a peer stops it with PEER_STOPPED (R82, R116, R379).
DEDUCED, unsafe (assumption 72). -/
def State.peerStop (s : State) (span cause : Nat) : State :=
  match s.spanJob span with
  | none => s
  | some j =>
    match s.job j with
    | none => s
    | some x =>
      if !s.live ∨ x.span ≠ some span then s
      else if cause = 0x0704 then
        let i : StopInfo := { code := 0x0704, res := { res := .peer } }
        let s := if x.st = .running then s.stopJob j i false else if x.st = .wiping then s else s.stopRec j i
        (s.abortAll x.owner j none).killJob j
      else if cause = 0x0304 then s.deadlockStop j false
      else if cause = 0x0703 then s.stopAny j { code := cause, res := { res := .peer } } false
      else if cause = 0x0602 ∨ cause = 0x0306 then s.stopJob j { code := cause } false
      else s.stopJob j { code := 0x0704, res := { res := .peer } } false

/-- STOP (R82, R116, R379).
DEDUCED, unsafe (assumption 72). -/
def execStop (span cause : Nat) (s : State) (arr : Option Arrival := none) : Outcome :=
  .next (s.receive arr clsControl (le 2 cause) fun s => s.peerStop span cause)

end Sys2Proof.Machine
end

