-- ==== Sys2Proof/Machine/Sheets.lean ====
section
/-! DEFINITION. The tick: sheets, due couches, late sheets, deadlock, reams (R56, R95 to R100, R109, R117, R118, R220 to R222, R433, R479). -/

namespace Sys2Proof.Machine

/-! ### Reams (R117) -/

/-- What the live counters have counted since a boundary.
DEDUCED, unsafe (assumption 75). -/
def State.since (s : State) (b : Tbl Nat) : Tbl Nat :=
  (s.ctr.map fun (c : Nat × Nat) => (c.1, c.2 - Tbl.get 0 b c.1)).filter fun c => c.2 != 0

/-- The ream registers latch the live counters as they stood at the boundary tick, and these restart from that instant.
DEDUCED, unsafe (assumption 75). -/
def State.latchReam (s : State) : State :=
  match s.boundary with
  | none => s
  | some b =>
    let s := { s with ream := b, ctr := s.since b, reams := s.reams + 1, sheetInReam := 0, boundary := none }
    s.each s.jobNums fun s j => s.modJob j fun x => { x with lateReam := b2n x.lateNow 1, uncounted := 0 }

/-- REAM_BOUNDARY (R117). -/
def execReamBoundary (s : State) : Outcome := if s.live then .next s.latchReam else .next s

/-! ### What the last tick left to do -/

/-- A job that did not couch by sheet D stops (R56, R109). -/
def State.overrunNow (s : State) (j : Nat) : State :=
  if (s.job j).any fun x => x.st == .running && x.overrun && x.quiesce.isNone then s.stopJob j { code := 0x0306 } else s

/-- SCHEDULE_OVERRUN (R56). -/
def execScheduleOverrun (j : Nat) (s : State) : Outcome := if s.live then .next (s.overrunNow j) else .next s

/-- An interlude couch that was due at the last tick. -/
def State.interludeDue (s : State) (j : Nat) : State :=
  if (s.job j).any fun x => x.st == .running && x.quiesce.isNone && x.inter.ph == .couching && x.span.isNone then s.interludeCommit j else s

/-- Before a tick, everything that the last one made due has taken place. -/
def State.closeTick (s : State) : State :=
  (s.each s.runningJobs fun s j => (((s.overrunNow j).couchDue j).interludeDue j).resumeNow j).latchReam

/-! ### Strides (R98, R112, R247) -/

/-- A stride begins: the first one, a replayed one, or the one after a suspension. Cores go on where they stood; those of an
interlude stay halted (R203). -/
def State.beginStride (s : State) (j : Nat) : State :=
  match s.job j with
  | none => s
  | some x =>
    let s := s.modJob j fun x =>
      { x with begins := false, sheet := 1, elapsed := 0, late := 0, stuck := false, kMax := (s.jobPoint x).1, dMin := (s.jobPoint x).2 }
    let s := if x.replaying then s.resumeKeys j else s
    let out := x.cores.filter fun n => (s.core n).mode == .out
    let s := s.each out fun s n => s.modCore n fun c => { c with mode := if x.inter.ph = .none then c.before else .halted }
    let go := if x.inter.ph = .none then out.filter fun n => (s.core n).mode == .issuing else []
    (s.enterAll j (go.map fun n => (n, (s.core n).bundle))).settle j

/-- Affected drains and vector operations of the sheet join the stride summary, the lowest core first (R247). -/
def State.foldExc (s : State) (j : Nat) : State :=
  match s.job j with
  | none => s
  | some x => s.each x.cores fun s n =>
      let c := s.core n
      let s := s.modJob j fun x =>
        { x with excCount := satAdd 0xFFFFFFFF x.excCount c.excCount,
                 exc := x.exc.orElse fun _ => c.exc.map fun e => { sheet := x.sheet, core := n, unit := e.unit, bundle := e.bundle, status := e.word } }
      s.modCore n fun c => { c with exc := none, excCount := 0 }

/-! ### The deadlock test (R221) -/

/-- A stream of a core makes progress whatever its semaphores say: one halted on a translation, or a copy whose staging is
granted (R221, R314). -/
def CoreSt.moves (c : CoreSt) : Bool :=
  (c.chans.any fun y => y.2.any fun h => h.halt.isSome) || (c.xq0 ++ c.xq1).any XcQ.granted

/-- Every core waits or is at COUCH or END, no stream moves by itself, the release engine is not halted on a page (R342), and no key pass
still arrives. -/
def State.waitsNow (s : State) (j : Nat) (x : Job) : Bool :=
  (x.cores.all fun n => (s.core n).waits || (s.core n).atCouch) && !(x.cores.any fun n => (s.core n).moves) && x.relHalt.isNone &&
    !(s.passes.any fun y => y.job == j)

/-- Some core is in WAIT or BAR. -/
def State.someWait (s : State) (x : Job) : Bool := x.cores.any fun n => (s.core n).waits

/-! ### The tick of a job -/

/-- A page request of the job is outstanding (R342). -/
def State.pageOut (s : State) (j : Nat) (x : Job) : Bool := (s.port x.owner).pageReqs.any fun pg => s.halted j pg

/-- The sheet that ends is counted (R118, R415, R479).
DEDUCED, unsafe (assumption 65); DEDUCED, unsafe (assumption 74). -/
def State.countSheet (s : State) (j : Nat) (x : Job) : State :=
  if x.suspended ∨ x.final ∨ (x.begins ∧ !x.replaying) then s
  else ((s.modJob j fun x => { x with sheets := x.sheets + 1 }).bump (ctrJob j 0) 1).bump (ctrJob j 3) (b2n x.replaying 1)

/-- A sheet that a program runs in: not one of a quiesce, a suspension, an interlude, or before its stride. -/
def Job.inStride (x : Job) : Bool :=
  !x.final && x.quiesce.isNone && !x.begins && !x.suspended && x.inter.ph == .none

/-- What the sheet that ends adds to the live counters of its job, all of which belongs to the ream that it ends in (R117,
R247, R342, R479). -/
def State.closeSheet (s : State) (j : Nat) : State :=
  match s.job j with
  | none => s
  | some x =>
    let s := s.countSheet j x
    let s := if x.inStride then
        (s.modJob j fun x => { x with uncounted := satAdd 0xFFFF x.uncounted (b2n x.paged 1) }).bump (ctrJob j 4) (b2n x.paged 1)
      else s
    if x.quiesce.isSome || x.begins || x.suspended then s else s.foldExc j

/-- A sheet of the program ends: whether it counts towards D (R342), the deadlock test, and the couch, which is due at the
end of sheet S, deferred while some core is short of COUCH, and overrun at the end of sheet D (R98, R100, R109, R220).
DEDUCED, unsafe (assumption 74). -/
def State.endSheet (s : State) (j : Nat) (x : Job) : State :=
  let counts := !x.paged
  let waits := s.waitsNow j x
  let dead := x.stuck && waits
  let past := counts && decide (sheetD x.stride x.kMax x.dMin ≤ x.sheet)
  let couched := s.allCouched j x
  let due := decide (x.stride ≤ x.elapsed + 1) || (couched && s.allEnded x)
  let s := s.modJob j fun x => { x with elapsed := x.elapsed + 1, counts := counts, stuck := waits }
  let more (s : State) : State := s.modJob j fun x => { x with sheet := x.sheet + b2n counts 1 }
  match x.span with
  | none =>
    if dead && s.someWait x then s.deadlockStop j true
    else if !due then more s
    else if couched then s.modJob j fun x => { x with couching := true }
    else if past then (s.lateTick j).modJob j fun x => { x with overrun := true }
    else more (s.lateTick j)
  | some i =>
    if !due then more s
    else (s.modJob j fun x => { x with couching := couched }).castVote i j (if couched then .ready else .notReady) dead

/-- A module that owes its span a rollback votes FAULT (R116). -/
def State.faultVote (s : State) (j : Nat) (x : Job) : State :=
  s.each x.span.toList fun s i => if (s.span i).faulted then s.castVote i j .fault false else s

/-- The stride of a job may begin at this tick: not while it is suspended, nor while a module-wide test runs, but for one that has still to
couch before it is suspended (R472, R473); not before
the first tick of its span or before the rollback of its own fault (R116, R435).
DEDUCED, unsafe (assumption 65); DEDUCED, unsafe (assumption 71). -/
def State.mayBegin (s : State) (x : Job) : Bool :=
  !x.suspended && (s.modTest.isNone || x.suspend) &&
    x.span.all fun i => !(s.span i).faulted && (s.span i).firstTick.all fun t => t ≤ s.now

/-- One job at a tick.
DEDUCED, unsafe (assumption 68). -/
def State.tickJob (s : State) (j : Nat) : State :=
  match s.job j with
  | none => s
  | some x =>
    if x.final then s.each x.span.toList fun s i => s.castVote i j .ready true
    else if x.span.any fun i => (s.span i).mine.isSome then s.stopJob j { code := 0x0602, res := { res := .linkLane } }
    else
      let s := s.modJob j fun x => { x with lateNow := false }
      if x.quiesce.isSome then s.faultVote j x
      else if x.begins then if s.mayBegin x then s.beginStride j else s.faultVote j x
      else if x.suspended then s
      else match x.inter.ph with
        | .none => s.endSheet j x
        | .halting =>
          if s.haltDone x then s.modJob j fun x => { x with inter := { x.inter with ph := .couching } }
          else s.each x.span.toList fun s i => s.castVote i j .notReady false
        | .working => s.modJob j fun x => { x with couching := true }
        | _ => s

/-! ### The tick -/

/-- The mills and the input of the sheet that ends (R479).
DEDUCED, unsafe (assumption 76). -/
def State.countModule (s : State) : State :=
  let s := s.each (List.range 4) fun s m =>
    (s.bump (ctrModule (16 + m)) (b2n ((s.mill m).slow || (s.mill m).below) 1)).modMill m fun x => { x with slow := x.below }
  s.bump (ctrModule 20) (s.clk.inputPower * s.period / 1000)

/-- Votes of the last tick are past. -/
def Span.clear (y : Span) : Span := { y with votes := [], dead := true, kMax := 16, dMin := 16 }

/-- The sheet that ends counts in its ream: the first tick ends none and begins the first ream, and an accepted period begins
one; a new length takes effect at the boundary tick (R95, R96, R117). -/
def State.reamTick (s : State) : State :=
  if s.reamOn then
    let n := s.sheetInReam + 1
    if s.periodSet || decide (s.reamLen ≤ n) then { s with sheetInReam := n, boundary := some s.ctr, reamLen := s.reamNext }
    else { s with sheetInReam := n, boundary := none }
  else { s with reamOn := true, reamLen := s.reamNext }

/-- What the migration engine of a stack copies in a sheet: 32 bytes a ns, half of them after a training failure (R358).
DESIGN CHOICE, unsafe (assumption 160). -/
def Stack.copies (x : Stack) (us : Nat) : Stack :=
  match x.migrating with
  | [] => x
  | c :: cs =>
    if x.st ≠ 1 then x
    else { x with migrating := (c.1, min pcBytes (c.2 + us * 1000 * (if x.slowCopy.contains c.1 then 16 else 32))) :: cs }

/-- A tick: the sheet ends and counts in its ream, a new period takes effect, and every running job ends its sheet. -/
def State.tickNow (s : State) : State :=
  let s := s.closeTick.countModule
  let s := s.each (List.range 12) fun s k => s.modStack k fun x => x.copies s.period
  let s := (s.each s.runningJobs State.closeSheet).reamTick
  let s := { s with tick := s.tick + 1, period := s.periodNext, periodSet := false, spans := s.spans.map fun (c : Nat × Span) => (c.1, c.2.clear),
                    links := s.links.map fun (c : Nat × Link) => (c.1, { c.2 with users := [] }) }
  let s := (s.each s.runningJobs State.tickJob).each s.runningJobs State.retryKeys
  let s := s.each s.runningJobs fun s j => s.modJob j fun x => { x with paged := s.pageOut j x }
  (s.reportGuarantees.testSteps 0).modStart

/-- TICK (R96): from CONTROL on, in a warm reset too; the generator holds during a switch of source. -/
def execTick (s : State) : Outcome :=
  if s.live ∧ s.ticking ∧ s.clk.switching = .none then .next s.tickNow else .next s

/-- TICK_MESSAGE_SEND (R433): the master announces the next tick on all its links, with the period of the sheet that it begins (R95) and the
delay of the hop.
DEDUCED, unsafe (assumption 96). -/
def execTickMessageSend (s : State) : Outcome :=
  if !s.live ∨ ¬(s.tickGroup.role = 1 ∨ s.tickGroup.role = 3) then .next s
  else
    .next (s.each ((List.range 24).filter fun k => (s.link k).carries) fun s k =>
      s.enqueue k [{ cls := clsTick, dst := (s.link k).peer, src := s.self, span := 0, tag := 0, first := true, last := true,
                     payload := tickPayload s.tick s.periodNext 1 (s.link k).delay }])

end Sys2Proof.Machine
end

