-- ==== Sys2Proof/Machine/Hbm.lean ====
section
/-! DEFINITION. Correction storms and retirement of storage, retraining, migration, filling and scrubbing (R111, R299, R304, R356 to R362). -/

namespace Sys2Proof.Machine

/-! ### Correction storms (R111, R304) -/

/-- A storm's own error record (R477).
DEDUCED, unsafe (assumption 78). -/
def State.stormRec (s : State) (r : ResIx) : State := s.errRec { code := 0x0502, res := resCode r.res, cls := 5, index := r.index }

/-- CORRECTION_STORM for jobs that use a resource.
DEDUCED, unsafe (assumption 78). -/
def State.stormJobs (s : State) (js : List Nat) (r : ResIx) : State :=
  s.each js fun s j => s.beginReplay j { contained := false, code := 0x0502, res := r, detail := 0, tag := 0 }

/-- The lowest FREE group of a mill. -/
def State.freeGroup (s : State) (m : Nat) : Option Nat := (List.range 128).find? fun g => (s.group (128 * m + g)).st == .free

/-- A group retired in operation: a spare, else a FREE group of the mill, takes its number; data of the owner are evacuated to it while
its job replays, and a group that is wiped for a job is wiped there. With neither, the job stops (R304). -/
def State.retireGroup (s : State) (m x : Nat) : State :=
  let y := s.group x
  let r : ResIx := { res := .bankGroup, index := x }
  let used := Tbl.get 0 s.sparesUsed m
  let owned := y.st == .owned
  let move (spare : Bool) (s : State) : State :=
    let s := (s.retired 0x0512 2 x).modGroup x fun y => { y with st := if owned then .evacuating else y.st, storm := none, spare := spare }
    if owned then s.beginReplay y.owner { contained := true, code := 0x0512, res := r, detail := 0, tag := 0 } else s
  if used < 2 then move true { s with sparesUsed := Tbl.set s.sparesUsed m (used + 1) }
  else match (if y.owner ≠ 0 then s.freeGroup m else none) with
    | some f => move false (s.modGroup (128 * m + f) fun _ => { st := .retired })
    | none =>
      let s := (s.retired 0x0603 2 x).modGroup x fun _ => { st := .retired }
      s.stopJob y.owner { code := 0x0603, res := r }

/-- A storm in a bank group; a draining or dark one ignores it (R307).
DEDUCED, unsafe (assumption 78). -/
def State.groupStorm (s : State) (m g : Nat) : State :=
  let x := 128 * m + g
  let y := s.group x
  match y.st with
  | .owned | .free | .wiping | .evacuating =>
    let r : ResIx := { res := .bankGroup, index := x }
    let s := s.stormRec r
    if s.within16 y.storm ∧ y.st ≠ .evacuating then s.retireGroup m x
    else (s.modGroup x fun y => { y with storm := some s.now }).stormJobs [y.owner] r
  | _ => s

/-- A storm in a pseudo-channel; one that is being migrated is not retired again (R364).
DEDUCED, unsafe (assumption 78). -/
def State.pcStormNow (s : State) (pc : Nat) : State :=
  let x := s.stack (pc / 64)
  let moving := x.migrating.any fun c => c.1 == pc % 64
  if x.st = 3 ∨ (x.retired.contains (pc % 64) ∧ !moving) then s
  else
    let s := s.stormRec { res := .pseudoChannel, index := pc }
    if s.within16 (Tbl.get none s.pcStorm pc) ∧ !moving then State.retirePc { s with pcStorm := Tbl.set s.pcStorm pc none } pc
    else State.stormJobs { s with pcStorm := Tbl.set s.pcStorm pc (some s.now) } (s.unitJobs (pc / 192)) { res := .pseudoChannel, index := pc }

/-- CORRECTION_STORM (R111, R304, R357): the corrected errors are counted (R479), and 16 or more in a sheet are a storm. -/
def execCorrectionStorm (r : StormRes) (n : Nat) (s : State) : Outcome :=
  if !s.live then .next s
  else match r with
    | .group m g =>
      if 4 ≤ m ∨ 128 ≤ g then .next s
      else
        let s := s.bump (ctrModule (12 + m)) n
        .next (if n < 16 then s else s.groupStorm m g)
    | .pc p =>
      if 768 ≤ p then .next s
      else
        let s := s.bump (ctrModule (p / 64)) n
        .next (if n < 16 then s else s.pcStormNow p)

/-! ### What lies at a place of HBM (R178, R352, R358) -/

/-- The copies of a job's handles that hold a byte of HBM: handle, base and offset. -/
def State.holders (s : State) (x : Job) (key : Nat) : List (Nat × Nat × Nat) :=
  x.handles.flatMap fun c =>
    if c.2.space ≠ spHbm ∨ !(c.2.mode == 0x20 || (s.unitStacks (c.2.mode - 0x10) (unitAt key % 1536)).contains (key / 2 ^ 36)) then []
    else
      let a := s.hbmLinear c.2.mode key
      (c.2.bases.filter fun b => b ≤ a && a < b + c.2.bound).map fun b => (c.1, b, a - b)

/-- The job in whose key region a byte of HBM lies (R369).
DESIGN CHOICE, safe (assumption 81). -/
def State.regionAt (s : State) (key : Nat) : Option Nat :=
  let u := s.hunit (unitAt key)
  if u.use = .key ∧ (s.job u.owner).isSome then some u.owner else none

/-- The key of a job whose container holds a block of the key region. -/
def Job.keyAt (x : Job) (block : Nat) : Option (Bytes × Nat) :=
  x.sets.findSome? fun k => (k.placed.find? fun c => c.2.runs.any fun r => r.1 ≤ block && block < r.1 + r.2).map fun c => (k.id, c.1)

/-- An error in a sector of a job's key region: the key whose container lies there is DAMAGED (R178).
DESIGN CHOICE, safe (assumption 81). -/
def State.damageKey (s : State) (j key : Nat) : State :=
  match (s.job j).bind fun x => x.keyAt (s.regionOff j key / 4096) with
  | none => s
  | some (id, ix) => s.damage j id ix

/-- A copy with a base holds dry data at an offset of a handle. -/
def Job.dryAt (x : Job) (h base off : Nat) : Bool :=
  if (x.handle h).durable then (x.handle h).dryBase (x.blk h (off / 4096)) == base else x.zone h (x.handle h) off == .dry

/-- The job and handle whose dry data lie at a byte of HBM, if any, and whether the release in hand has still to write them. -/
def State.dryHolder (s : State) (key : Nat) : Option (Nat × Nat × Bool) :=
  let tag := s.storedTag key
  (s.job tag).bind fun x => ((s.holders x key).find? fun h => x.dryAt h.1 h.2.1 h.2.2).map fun h => (tag, h.1, x.inBegun h.1 h.2.2)

/-- The place of the REPULP table to whose units a byte of HBM belongs. -/
def State.tableAt (s : State) (key : Nat) : Option Nat := (List.range 7).find? fun i => (Tbl.get [] s.tableUnits i).contains (unitAt key)

/-- A sector of a lost granule that holds no dry data: refilled; a key that lay there is DAMAGED, and a table's block recomputed (R178,
R197, R358).
DEDUCED, unsafe (assumption 80). -/
def State.lostSector (s : State) (key : Nat) : State :=
  match s.tableAt key, s.regionAt key with
  | some i, _ => s.tableError i { res := .pseudoChannel, index := key / 2 ^ 30 }
  | none, some j => (s.refill key).damageKey j key
  | none, none => s.refill key

/-- A granule of a pseudo-channel that its migration could not read (R358): the jobs that hold dry data in it stop, or it is refilled.
DEDUCED, unsafe (assumption 80). -/
def State.lostGranule (s : State) (pc byte : Nat) : State :=
  let keys := (List.range 4).map fun i => hbmKey pc (byte / 256 * 256 + 64 * i)
  let dry := (keys.filterMap fun a => s.dryHolder a).dedup
  if dry.isEmpty then s.each keys State.lostSector
  else s.each dry fun s d => s.storageFault d.1 .dry { res := .pseudoChannel, index := pc } (.checkBits 0) 0xFF 0xFF 0 d.2.1 d.2.2

/-! ### Retraining and migration (R356, R358, R364) -/

/-- PC_RETRAIN (R356): one pseudo-channel of a stack at a time; one that is migrating waits for the end of its migration (R364). -/
def execPcRetrain (pc : Nat) (s : State) : Outcome :=
  let x := s.stack (pc / 64)
  let c := pc % 64
  let moving := x.migrating.any fun m => m.1 == c
  if !s.live ∨ 768 ≤ pc ∨ x.st ≠ 1 ∨ (x.retired.contains c ∧ !moving) ∨ x.retraining = some c then .next s
  else .next (s.modStack (pc / 64) fun x => (x.retrainDue [c]).startDue)

/-- PC_RETRAIN_DONE (R356): failed lanes take free spares, or the pseudo-channel is retired; the next one that waits follows. -/
def execPcRetrainDone (pc data cmd : Nat) (s : State) : Outcome :=
  let x := s.stack (pc / 64)
  if !s.live ∨ x.retraining ≠ some (pc % 64) then .next s
  else
    let s := s.modStack (pc / 64) fun x => { x with retraining := none, trainTemp := Tbl.set x.trainTemp (pc % 64) x.temp }
    let s := if x.repairs (pc % 64) data cmd then s.modStack (pc / 64) fun x => x.spend (pc % 64) data cmd else s.retirePc pc true
    .next (s.modStack (pc / 64) Stack.startDue)

/-- The migration in hand of a stack has ended: every granule of the pseudo-channel lies at its redirect (R358). -/
def State.endMigration (s : State) (pc : Nat) : State :=
  let s := s.modStack (pc / 64) fun x =>
    { x with migrating := x.migrating.drop 1, moved := x.moved.filter fun n => n / 2 ^ 22 != pc % 64,
             slowCopy := x.slowCopy.filter (· != pc % 64) }.startDue
  s.carry (fun a => a / 2 ^ 30 == pc && decide (a % 2 ^ 30 < pcBytes)) s.phys

/-- A granule of a pseudo-channel is still to be migrated: it was not written since the retirement (R358). -/
def State.unmigrated (s : State) (pc byte : Nat) : Bool := !(s.stack (pc / 64)).redirected (pc % 64) (byte / 256)

/-- MIGRATION_DONE (R358): the unmigrated granules that could not be read are lost, the migration in hand ends, and the next one of the
stack follows. A stack in self-refresh migrates nothing.
DEDUCED, unsafe (assumption 80). -/
def execMigrationDone (pc : Nat) (lost : List Nat) (s : State) : Outcome :=
  match (s.stack (pc / 64)).migrating with
  | [] => .next s
  | c :: _ =>
    if s.live ∧ c.1 = pc % 64 ∧ (s.stack (pc / 64)).st = 1 then
      .next (State.endMigration (s.each (lost.filter (s.unmigrated pc)) fun s b => s.lostGranule pc b) pc)
    else .next s

/-! ### Filling and refresh (R360, R362) -/

/-- The fill of a unit of a mill is held back: its stacks are in self-refresh, one of them retrains, or granules are still being migrated
(R364). -/
def State.fillHeld (s : State) (m : Nat) : Bool :=
  (s.millStacks m).any fun k => (s.stack k).st == 2 || (s.stack k).retraining.isSome || !(s.stack k).migrating.isEmpty

/-- UNIT_FILLED (R360, R377): the unit holds zeros with tag 0x00, and is free. -/
def execUnitFilled (m k : Nat) (s : State) : Outcome :=
  let x := 1536 * m + k
  let u := s.hunit x
  if !s.live ∨ !u.filling ∨ s.fillHeld m then .next s
  else .next (((s.fillUnit x).modUnit x fun _ => {}).modJob u.owner fun y => { y with wipeUnits := y.wipeUnits.erase x })

/-- No unit of a mill is owned, by a job or by the firmware. -/
def State.millIdle (s : State) (m : Nat) : Bool := s.units.all fun c => c.1 / 1536 != m || (c.2.owner == 0 && !c.2.filling)

/-- SELF_REFRESH_IDLE (R362). -/
def execSelfRefreshIdle (st : Nat) (s : State) : Outcome :=
  if s.live ∧ (s.stack st).st = 1 ∧ s.millIdle (st / 3) then .next (s.modStack st fun x => { x with st := 2 }) else .next s

/-! ### Patrol scrub (R361) -/

/-- An uncorrectable error that the scrub finds, by where it lies.
DESIGN CHOICE, safe (assumption 81). -/
def State.scrubError (s : State) (pc byte : Nat) : State :=
  let key := hbmKey pc (byte % 2 ^ 30 / 64 * 64)
  let tag := s.storedTag key
  let r : ResIx := { res := .pseudoChannel, index := pc }
  let log (s : State) : State := s.errRec { code := 0x0501, res := 3, cls := 1, detail := 1, index := pc }
  match s.tableAt key, s.regionAt key, s.dryHolder key with
  | some i, _, _ => log (s.tableError i r)
  | none, some j, _ => log ((s.refill key).damageKey j key)
  | none, none, some (_, h, rel) => s.storageFault tag .dry r (.checkBits 0) 0xFF 0xFF 0 h rel
  | none, none, none =>
    if (s.job tag).isSome then (s.refill key).storageFault tag .wet r (.checkBits 0) 0xFF 0xFF 0 0xFFFF else log (s.refill key)

/-- PATROL_SCRUB (R361): corrections are counted and written back; an uncorrectable error is handled by where it lies.
DESIGN CHOICE, safe (assumption 81). -/
def execPatrolScrub (pc byte corrected : Nat) (e : ReadErr) (s : State) : Outcome :=
  if !s.live ∨ 768 ≤ pc ∨ (s.stack (pc / 64)).st ≠ 1 then .next s
  else
    let s := s.bump (ctrModule (pc / 64)) corrected
    .next (if uncorrectable e then s.scrubError pc byte else s)

end Sys2Proof.Machine
end

