-- ==== Sys2Proof/Machine/Jobs.lean ====
section
/-! DEFINITION. Creating, loading, submitting and killing jobs, and module policy (R95, R198, R222 to R226, R365 to R381). -/

namespace Sys2Proof.Machine

/-! ### JOB_CREATE (R368 to R370, R408) -/

/-- The fields of JOB_CREATE, four entries for each list by mill. -/
structure JobReq where
  cores : List Nat
  groups : List Nat
  near : List Nat
  frames : Nat
  keyUnits : Nat
  home : Bool
  keySpread : Bool
  share : Nat
  keys : List Nat
  lat : Nat
  bytes : Nat
  deriving DecidableEq, Repr

def readJobReq (c : Bytes) : JobReq :=
  { cores := (List.range 4).map fun m => field c (0x18 + m) 1, groups := (List.range 4).map fun m => field c (0x1C + m) 1,
    near := (List.range 4).map fun m => field c (0x20 + 2 * m) 2, frames := field c 0x28 2, keyUnits := field c 0x2A 2,
    home := bit (field c 0x2D 1) 0, keySpread := bit (field c 0x2D 1) 1, share := field c 0x2C 1,
    keys := (List.range 4).map fun m => field c (0x30 + m) 1, lat := field c 0x34 1, bytes := field c 0x38 8 }

/-- A job with all three guarantees at 0 is best effort (R369). -/
def JobReq.bestEffort (q : JobReq) : Bool := q.share == 0 && q.lat == 0 && q.keys.all (· == 0)

/-- A logical core serves a test: as its stand-in, or as the tested core that nothing stands in for (R472). -/
def State.inTest (s : State) (n : Nat) : Bool :=
  (s.stest (s.millOf n)).under.any fun u => u.standIn == some n || (u.core == some n && !u.spare)

/-- The free logical cores of a mill, lowest first (R91, R369). -/
def State.freeCores (s : State) (m : Nat) : List Nat := (s.usableCores m).filter fun n => (s.core n).job == 0 && !s.inTest n

/-- The groups of a mill that JOB_CREATE may give, by number: FREE or OFF, in increasing number (R299). -/
def State.freeGroups (s : State) (m : Nat) : List Nat :=
  ((List.range 128).map (128 * m + ·)).filter fun g => (s.group g).st == .free || ((s.group g).st == .off && (s.group g).owner == 0)

/-- The home groups of a logical core (R289). -/
def State.homeGroups (s : State) (n : Nat) : List Nat :=
  (List.range 8).map (128 * s.millOf n + 8 * (n % s.grade.coresPerMill) + ·)

/-- What a job is given. -/
structure Grant where
  cores : List Nat := []
  groups : List Nat := []
  /-- The units with their uses. -/
  units : List (Nat × UnitUse) := []
  deriving DecidableEq, Repr

/-- The groups of one mill for a request: with HOME, those of its cores first.
DEDUCED, unsafe (assumption 87). -/
def State.pickGroups (s : State) (q : JobReq) (cores : List Nat) (m : Nat) : List Nat :=
  let free := s.freeGroups m
  let home := if q.home then ((cores.filter fun n => s.millOf n == m).flatMap s.homeGroups).filter free.contains else []
  (home ++ free.filter fun g => !home.contains g).take (q.groups.getD m 0)

/-- The NEAR units of one mill: none where all its stacks are retired (R355).
DEDUCED, unsafe (assumption 87). -/
def State.pickNear (s : State) (q : JobReq) (m : Nat) : List Nat :=
  if (s.millStacks m).isEmpty then [] else ((s.freeUnits m).take (q.near.getD m 0)).map (1536 * m + ·)

/-- The key units of a request that its own units cannot hold (R369, R408).
DEDUCED, unsafe (assumption 88). -/
def State.keysShort (s : State) (q : JobReq) (cores : List Nat) : Bool :=
  if q.keySpread then q.frames < q.keyUnits
  else match (List.range 4).find? fun m => cores.any fun n => s.millOf n == m with
    | none => q.keyUnits != 0
    | some m => q.near.getD m 0 < q.keyUnits

/-- The NEAR units of a request with their uses: the first ones of the lowest-numbered mill with cores form the key region, unless it is
SPREAD (R369, R408). -/
def JobReq.nearUse (q : JobReq) (keyMill : Nat) (m : Nat) (us : List Nat) : List (Nat × UnitUse) :=
  us.zipIdx.map fun c => (c.1, if m = keyMill ∧ !q.keySpread ∧ c.2 < q.keyUnits then .key else .near)

/-- The units of the frames of a request with their uses. -/
def JobReq.frameUse (q : JobReq) (ks : List Nat) : List (Nat × UnitUse) :=
  ks.zipIdx.flatMap fun c => (List.range 4).map fun m => (1536 * m + c.1, if q.keySpread ∧ c.2 < q.keyUnits then .key else .frame)

/-- NEAR units left for the image area after the key region (R408).
DEDUCED, unsafe (assumption 88). -/
def JobReq.imageUnits (q : JobReq) : Nat := q.near.foldl (· + ·) 0 - (if q.keySpread then 0 else q.keyUnits)

/-- The resources of a request, or the first short item in the order of R369.
DEDUCED, unsafe (assumption 87). -/
def State.allot (s : State) (q : JobReq) : Except Nat Grant :=
  let cores := (List.range 4).flatMap fun m => (s.freeCores m).take (q.cores.getD m 0)
  let groups := (List.range 4).flatMap fun m => s.pickGroups q cores m
  let near := (List.range 4).flatMap fun m => s.pickNear q m
  let frames := ((s.freeFrames.filter fun k => !(near.any fun u => u % 1536 == k)).take q.frames)
  if cores.length < q.cores.foldl (· + ·) 0 then .error 1
  else if groups.length < q.groups.foldl (· + ·) 0 then .error 2
  else if near.length < q.near.foldl (· + ·) 0 then .error 3
  else if frames.length < q.frames then .error 4
  else if s.keysShort q cores then .error 5
  else if !cores.isEmpty && q.imageUnits == 0 then .error 6
  else
    let keyMill := ((List.range 4).find? fun m => cores.any fun n => s.millOf n == m).getD 0
    .ok { cores := cores, groups := groups,
          units := ((List.range 4).flatMap fun m => q.nearUse keyMill m (s.pickNear q m)) ++ q.frameUse frames }

/-- The mills of some logical cores. -/
def State.millsOf (s : State) (cores : List Nat) : List Nat := (List.range 4).filter fun m => cores.any fun n => s.millOf n == m

/-- Port x may request guarantees (R366). -/
def State.admits (s : State) : Port → Bool
  | .a => s.admitA
  | .b => s.admitB

/-- The first guarantee asked for, with the mill of a key-stream share. -/
def JobReq.asks (q : JobReq) : Nat × Nat :=
  if q.share ≠ 0 then (1, 0)
  else match (List.range 4).find? fun m => q.keys.getD m 0 != 0 with
    | some m => (2, m)
    | none => (3, 0)

/-- The guarantee that a request is refused for (R366, R369, R373).
DEDUCED, unsafe (assumption 89). -/
def State.guaranteeFault (s : State) (p : Port) (q : JobReq) (cores : List Nat) : Option (Nat × Nat) :=
  if q.bestEffort then none
  else if !s.admits p then some q.asks
  else
    let mills := s.millsOf cores
    match s.admitFault p mills q.share q.keys q.lat q.bytes with
    | some f => some f
    | none => ((List.range 4).find? fun m => q.keys.getD m 0 != 0 && !mills.contains m).map fun m => (2, m)

/-- The quota of R366 refuses a request of the port; jobs being wiped count.
DEDUCED, unsafe (assumption 86). -/
def State.overQuota (s : State) (p : Port) (q : JobReq) : Bool :=
  let held := ((s.portJobs p).map fun j => ((s.job j).map fun x => x.cores.length).getD 0).foldl (· + ·) 0
  p != s.adminPort && (s.quotaJobs < (s.portJobs p).length + 1 || s.quotaCores < held + q.cores.foldl (· + ·) 0)

/-- The lowest free job number (R368).
DEDUCED, unsafe (assumption 87). -/
def State.freeJob (s : State) : Option Nat := ((List.range 16).map (· + 1)).find? fun j => (s.job j).isNone

/-- The counters of a core (R305, R479). -/
def coreCtr (n key : Nat) : Bool := (ctrCore n 0 ≤ key && key ≤ ctrCore n 3) || key == ctrStall n

/-- The counters for which `gone` holds are cleared, and in the ream's counts too. -/
def State.dropCtr (s : State) (gone : Nat → Bool) : State :=
  let keep (t : Tbl Nat) : Tbl Nat := t.filter fun c => !gone c.1
  { s with ctr := keep s.ctr, ream := keep s.ream, boundary := s.boundary.map keep }

/-- A job made: its groups are wiped for it, the counters of its cores begin at 0, its units and cores are its own, and its port's race bit is clear.
DESIGN CHOICE, unsafe (assumption 8). -/
def State.makeJob (s : State) (p : Port) (q : JobReq) (j : Nat) (g : Grant) : State :=
  let adm := if q.bestEffort then 0 else s.admissions + 1
  let x : Job :=
    { owner := p, adm := adm, cores := g.cores, coreShare := q.share, coreCur := q.share, seenCore := q.share,
      keyShare := q.keys, keyCur := q.keys, seenKey := q.keys, lat := q.lat, latCur := q.lat, seenLat := q.lat, relBytes := q.bytes,
      keySpread := q.keySpread, keyUnits := q.keyUnits, near := q.near }
  let s := State.setJob { s with admissions := if q.bestEffort then s.admissions else s.admissions + 1 } j (some x)
  let s := State.each (s.dropCtr fun key => g.cores.any fun n => coreCtr n key) g.cores.zipIdx fun s c =>
    s.setCore c.1 { job := j, index := c.2, lastCheck := (s.core c.1).lastCheck }
  let s := s.each g.groups fun s k => s.modGroup k fun y => { y with st := .wiping, owner := j, mapped := false, pend := none }
  let s := s.each g.units fun s u => s.modUnit u.1 fun y => { y with owner := j, use := u.2, onStacks := s.millStacks (u.1 / 1536) }
  let s := s.each ((List.range 4).filter fun m => g.units.any fun u => u.1 / 1536 == m) State.wakeStacks
  s.onPorts fun s p => s.modPort p fun y => { y with xcRace := y.xcRace &&& ~~~(1 <<< (j - 1) : BitVec 16) }

/-- JOB_CREATE (R368 to R370, R373, R440): all or nothing. -/
def execJobCreate (p : Port) (r : Nat) (s : State) : Outcome :=
  match s.command p r 0x01 with
  | none => .next s
  | some c =>
    let q := readJobReq c
    if s.sec.lifecycle < 2 then .next (s.refuse p r 0x0803)
    else match s.freeJob with
      | none => .next (s.refuse p r 0x0105)
      | some j =>
        if s.overQuota p q then .next (s.refuse p r 0x0108)
        else match s.allot q with
          | .error k => .next (s.complete p r { status := 0x0106, detail := k })
          | .ok g =>
            match s.guaranteeFault p q g.cores with
            | some (k, m) => .next (s.complete p r { status := 0x0107, detail := k, v0 := m })
            | none =>
              let adm := if q.bestEffort then 0 else s.admissions + 1
              .next ((s.makeJob p q j g).complete p r { v0 := j, v1 := adm, job := some j })

/-! ### JOB_KILL and the end of a wipe (R377, R417) -/

/-- JOB_KILL (R377, R379): its completion is posted first, then those of the commands it aborts (R417). -/
def execJobKill (p : Port) (r : Nat) (s : State) : Outcome :=
  match s.command p r 0x02 with
  | none => .next (s.turnAway p r 0x02)
  | some c => .next ((s.complete p r {}).endJob (field c 2 1) 0x0704 none)

/-- The counters of a job and of those of its cores that no other job has by then (R77, R305, R479).
DEDUCED, unsafe (assumption 90). -/
def State.jobCtr (s : State) (x : Job) (j key : Nat) : Bool :=
  key / 16 == j - 1 || (x.cores.filter fun n => (s.core n).job == 0).any fun n => coreCtr n key

/-- Every group and unit of a job is wiped, and none of its cores serves a test of another job. -/
def State.wiped (s : State) (x : Job) : Bool :=
  x.wipeUnits.isEmpty && (x.wipeGroups.all fun g => (s.group g).st != .wiping) &&
    (List.range 4).all fun m => (s.stest m).under.all fun u => u.standIn.all fun n => !x.cores.contains n

/-- JOB_WIPED (R377): after the last fill. The number is free; an accepted token may complete (R444), and with no job left
the reference is looked at again (R68).
DESIGN CHOICE, safe (assumption 2); DEDUCED, unsafe (assumption 90). -/
def execJobWiped (j : Nat) (s : State) : Outcome :=
  match s.job j with
  | none => .next s
  | some x =>
    if !s.live ∨ x.st ≠ .wiping ∨ !s.wiped x then .next s
    else
      let s := s.jobEvent j 6 0x0430 1 []
      let s := s.modPort x.owner fun y => { y with xcRace := y.xcRace &&& ~~~(1 <<< (j - 1) : BitVec 16) }
      let s := s.dropCtr (s.jobCtr x j)
      let s := ((s.setJob j none).tokenWiped j).reselectIdle
      .next ((s.testSteps 0).modStart)

/-! ### PROGRAM_LOAD (R223 to R226) -/

/-- The entries of a core table: code offset, code bytes, entry, home mill, and whether the reserved bytes are zero. -/
structure CoreEntry where
  off : Nat
  len : Nat
  entry : Nat
  home : Nat
  clean : Bool
  deriving DecidableEq, Repr

def coreEntries (b : Bytes) : List CoreEntry :=
  (List.range (field b 0x0D 1)).map fun i =>
    let e := b.drop (field b 0x20 4 + 16 * i)
    { off := field e 0 4, len := field e 4 4, entry := field e 8 4, home := field e 0xC 1, clean := field e 0xD 3 == 0 }

/-- The semaphore table: (semaphore, initial count). -/
def semTable (b : Bytes) : List (Nat × Nat) :=
  (List.range (field b 0x18 2)).map fun i => (field b (field b 0x14 4 + 4 * i) 2, field b (field b 0x14 4 + 4 * i + 2) 2)

/-- The barrier table: masks of core indices. -/
def barTable (b : Bytes) : List Nat := (List.range (field b 0x10 1)).map fun i => field b (field b 0x1C 4 + 8 * i) 8

/-- Step 1 of R226. -/
def imageFormed (b : Bytes) (bufBytes : Nat) : Bool :=
  let n := field b 0x24 4
  128 ≤ b.length && bufBytes == n && b.length == n && field b 0 4 == 0x49504A46 && field b 4 1 == 1 &&
    field b 0x7C 4 == crc32 (b.take 0x7C) && field b 0x1A 2 == 0 && (b.drop 0x58).take 36 == zeros 36 &&
    field b 0x14 4 + 4 * field b 0x18 2 ≤ n && field b 0x1C 4 + 8 * field b 0x10 1 ≤ n && field b 0x20 4 + 16 * field b 0x0D 1 ≤ n &&
    (coreEntries b).all (fun e => e.clean && e.off % 8 == 0 && e.len % 8 == 0 && 8 ≤ e.len && e.off + e.len ≤ n) &&
    (semTable b).all (fun c => c.1 < field b 0x0E 2) && ((semTable b).map Prod.fst).Nodup && (barTable b).all (fun k => k < 2 ^ field b 0x0D 1)

/-- The masks that an image uses and the fuses leave out: formats, then engines (R225). -/
def State.absentMasks (s : State) (b : Bytes) : Nat × Nat :=
  let f := field b 8 2
  let e := field b 0xA 2
  (f - Nat.land f s.grade.formatMask, e - Nat.land e s.grade.engineMask)

/-- Entry `i` of the table takes the next unassigned core in its pass (R224). -/
def State.assignPass (s : State) (homes : Bool) : List (CoreEntry × Nat) → List Nat → Option (List (Nat × Nat))
  | [], _ => some []
  | (e, i) :: es, free =>
    if (e.home == 0xFF) == homes then s.assignPass homes es free
    else match free.find? fun n => !homes || s.millOf n == e.home with
      | none => none
      | some n => (s.assignPass homes es (free.erase n)).map ((i, n) :: ·)

/-- The logical core of each entry, by its index, after both passes. -/
def State.assignCores (s : State) (es : List CoreEntry) (cores : List Nat) : Option (List Nat) :=
  match s.assignPass true es.zipIdx cores with
  | none => none
  | some a =>
    match s.assignPass false es.zipIdx (cores.filter fun n => !(a.any fun c => c.2 == n)) with
    | none => none
    | some b => some ((List.range es.length).map fun i => (((a ++ b).find? fun c => c.1 == i).map Prod.snd).getD 0)

/-- Step 8 of R226: sizes within their limits. -/
def imageSized (b : Bytes) : Bool :=
  (coreEntries b).all (fun e => e.len ≤ 262144) && (field b 0x11 1 == 0 || (paramSet (field b 0x11 1)).isSome) && field b 0x0E 2 ≤ 256 &&
    field b 0x10 1 ≤ 32 && 1 ≤ field b 0x12 2 && field b 0x12 2 ≤ 4096

/-- The NEAR units of a job after its key region, by number (R408).
DEDUCED, unsafe (assumption 88). -/
def State.imageUnits (s : State) (j : Nat) : List Nat := s.unitsFor j fun u => u == .near || u == .image

/-- The units that hold `n` bytes, from the first one on. -/
def State.unitsNeeded (s : State) : List Nat → Nat → List Nat
  | [], _ => []
  | u :: us, n => if n = 0 then [] else u :: State.unitsNeeded s us (n - s.unitSize u)

/-- The copy of an accepted image in the job's image area, with the firmware's tag (R226, R352).
DEDUCED, unsafe (assumption 88). -/
def State.placeImage (s : State) (j : Nat) (b : Bytes) : State :=
  let us := s.imageUnits j
  let used := s.unitsNeeded us b.length
  let s := s.each us fun s u => s.modUnit u fun y => { y with use := if used.contains u then .image else .near }
  s.writeSectors (s.nearPlace us) 0 b 0xF0

/-- The image that a load places, or its refusal with VALUE0, in the order of R226. -/
def State.loadImage (s : State) (j : Nat) (x : Job) (b : Bytes) (bufBytes : Nat) : Except (Nat × Nat) Image :=
  let (f, e) := s.absentMasks b
  let es := coreEntries b
  if !imageFormed b bufBytes ∨ field b 5 1 ≠ 1 then .error (0x0201, 0)
  else if field b 7 1 ≠ 0xB0 then .error (0x0203, 0)
  else if (b.drop 0x28).take 48 ≠ sha384 (b.drop 0x80) then .error (0x0201, 0)
  else if f ≠ 0 ∨ e ≠ 0 then .error (0x0202, f + 65536 * e)
  else if s.period < field b 0x0C 1 then .error (0x0205, 0)
  else if field b 0x0D 1 ≠ x.cores.length then .error (0x0206, 0)
  else match s.assignCores es x.cores with
    | none => .error (0x0206, 0)
    | some ns =>
      if !imageSized b ∨ s.unitsSize (s.imageUnits j) < b.length then .error (0x0204, 0)
      else .ok { bytes := b.length, digest := (b.drop 0x28).take 48, formats := field b 8 2, engines := field b 0xA 2,
                 semaphores := field b 0x0E 2, barriers := field b 0x10 1, paramSet := field b 0x11 1, handles := field b 0x12 2,
                 semInit := semTable b, barMask := barTable b,
                 cores := (es.zip ns).map fun c => (c.2, (b.drop c.1.off).take c.1.len, c.1.entry) }

/-- PROGRAM_LOAD (R226): an accepted image replaces the one loaded before it, and its cores take their indices (R224).
DESIGN CHOICE, safe (assumption 126). -/
def execProgramLoad (p : Port) (r : Nat) (img : Option Bytes) (s : State) : Outcome :=
  match s.command p r 0x10 with
  | none => .next (s.turnAway p r 0x10)
  | some c =>
    let j := field c 2 1
    match s.job j, img with
    | none, _ => .next s
    | some _, none => .next (s.refuse p r cBufferFault)
    | some x, some b =>
      match s.loadImage j x b (field c 0x10 4) with
      | .error (k, v) => .next (s.complete p r { status := k, v0 := v })
      | .ok g =>
        let s := s.each g.cores.zipIdx fun s a => s.modCore a.1.1 fun y => { y with index := a.2 }
        .next (((s.placeImage j b).modJob j fun x => { x with image := some g, st := .loaded }).complete p r { v0 := g.bytes })

/-! ### SUBMIT (R98, R198, R248, R435) -/

/-- The parameter sets of a job's bound key sets that hold the REPULP family. -/
def Job.familySets (x : Job) : List ParamSet :=
  x.sets.filterMap fun k => if k.slot.isSome && bit k.flags 0 then paramSet k.set else none

/-- One work area of a set: four raised bodies (R196). -/
def ParamSet.workArea (p : ParamSet) : Nat := 4 * p.bodyBytes 2 (p.l + p.k)

/-- A handle of SUBMIT holds at least `n` bytes and is durable (R198). -/
def Job.areaOk (x : Job) (h n : Nat) : Bool := h != 0xFFFF && (x.handle h).space != spEmpty && (x.handle h).durable && n ≤ (x.handle h).bound

/-- The work and save areas that a job with a REPULP family needs. -/
def Job.areasOk (x : Job) (work save : Nat) : Bool :=
  x.familySets.isEmpty ||
    (x.familySets.all (fun p => x.areaOk work p.workArea) && x.areaOk save (65536 * x.cores.length))

def optHandle (h : Nat) : Option Nat := if h = 0xFFFF then none else some h

/-- SUBMIT (R98): the first stride begins at the next tick. The SUBMIT of a job that spans modules waits for START (R435). -/
def execSubmit (p : Port) (r : Nat) (s : State) : Outcome :=
  match s.command p r 0x20 with
  | none => .next (s.turnAway p r 0x20)
  | some c =>
    let j := field c 2 1
    let trace := bit (field c 0x1A 1) 0
    match s.job j with
    | none => .next s
    | some x =>
      if trace ∧ !bit s.grade.engineMask 5 then .next (s.complete p r { status := 0x0202, v0 := 2 ^ 21 })
      else if !x.areasOk (field c 0x1C 2) (field c 0x1E 2) then .next (s.refuse p r 0x0240)
      else
        let s := s.modJob j fun x =>
          { x with stride := field c 0x18 1, auto := field c 0x19 1 == 1, nanTrace := trace, work := optHandle (field c 0x1C 2),
                   save := optHandle (field c 0x1E 2) }
        match x.span with
        | some i => .next ((s.modSpan i fun y => { y with submit := some (p, r) }).hold p r)
        | none => .next ((s.launch j).complete p r { v0 := s.tick })

/-! ### POLICY_SET (R95, R366, R367, R433) -/

/-- The first refusal among the items that VALID selects: an item out of range, a period at a follower, a period while this module or
another one of its tick group holds a job (R433).
DESIGN CHOICE, safe (assumption 91); DEDUCED, unsafe (assumption 92). -/
def State.policyFault (s : State) (c : Bytes) (groupJobs : Bool := false) : Option Nat :=
  let v := field c 0x18 2
  let off (i : Nat) (ok : Bool) : Bool := bit v i && !ok
  let within (lo hi x : Nat) : Bool := lo ≤ x && x ≤ hi
  if off 0 (within 20 250 (field c 0x1A 1)) || off 1 (1 ≤ field c 0x1C 2) || off 2 (within 1 10000 (field c 0x1E 2)) ||
      off 3 (within 1 168 (field c 0x1B 1)) || off 4 (capOk (field c 0x20 2)) || off 5 (field c 0x22 1 ≤ 3) ||
      off 6 (field c 0x23 1 ≤ 16 && field c 0x24 1 ≤ 64) || off 0 (s.tickGroup.role != 2) then some 0x0103
  else if off 0 (s.jobNums.isEmpty && !groupJobs) then some 0x0104
  else none

/-- The items of an accepted command, each from where R366 says.
DESIGN CHOICE, safe (assumption 91). -/
def State.applyPolicy (s : State) (c : Bytes) : State :=
  let v := field c 0x18 2
  let s := if bit v 0 then { s with periodNext := field c 0x1A 1, periodSet := true } else s
  let s := if bit v 1 then { s with reamNext := field c 0x1C 2 } else s
  let s := if bit v 2 then { s with timeoutMs := field c 0x1E 2 } else s
  let s := if bit v 3 then { s with selftestHours := field c 0x1B 1 } else s
  let s := if bit v 4 then { s with clk := { s.clk with adminCapNext := field c 0x20 2 } } else s
  let s := if bit v 5 then { s with admitA := bit (field c 0x22 1) 0, admitB := bit (field c 0x22 1) 1 } else s
  let s := if bit v 6 then { s with quotaJobs := field c 0x23 1, quotaCores := field c 0x24 1 } else s
  if bit v 7 then s.reselect else s

/-- A POLICY_SET whose first item is `item`: a refusal of any item refuses them all (R367). A command that selects none changes nothing.
DESIGN CHOICE, safe (assumption 91). -/
def State.policyCommand (s : State) (p : Port) (r item : Nat) (groupJobs : Bool := false) : Outcome :=
  match s.command p r 0x41 with
  | none => .next s
  | some c =>
    if ((List.range 8).find? (bit (field c 0x18 2))).getD 0 ≠ item then .next s
    else match s.policyFault c groupJobs with
      | some k => .next (s.refuse p r k)
      | none => .next ((s.applyPolicy c).complete p r {})

/-- POLICY_SET of the sheet period (R95, R433); `groupJobs`: another module of the tick group holds a job.
DEDUCED, unsafe (assumption 92). -/
def execPolicySetPeriod (p : Port) (r : Nat) (s : State) (groupJobs : Bool := false) : Outcome := s.policyCommand p r 0 groupJobs
/-- POLICY_SET of the ream length (R117). -/
def execPolicySetReam (p : Port) (r : Nat) (s : State) : Outcome := s.policyCommand p r 1
/-- POLICY_SET of the page-fault timeout (R340). -/
def execPolicySetTimeout (p : Port) (r : Nat) (s : State) : Outcome := s.policyCommand p r 2
/-- POLICY_SET of the self-test interval (R366). -/
def execPolicySetSelftestInterval (p : Port) (r : Nat) (s : State) : Outcome := s.policyCommand p r 3
/-- POLICY_SET of the administrative cap (R53, R366). -/
def execPolicySetAdminCap (p : Port) (r : Nat) (s : State) : Outcome := s.policyCommand p r 4
/-- POLICY_SET of ADMIT_A and ADMIT_B (R366). -/
def execPolicySetAdmission (p : Port) (r : Nat) (s : State) : Outcome := s.policyCommand p r 5
/-- POLICY_SET of the other port's quota (R366). -/
def execPolicySetQuota (p : Port) (r : Nat) (s : State) : Outcome := s.policyCommand p r 6
/-- CLOCK_RESELECT (R68). -/
def execClockReselect (p : Port) (r : Nat) (s : State) : Outcome := s.policyCommand p r 7

end Sys2Proof.Machine
end

