-- ==== Sys2Proof/Machine/Links.lean ====
section
/-! DEFINITION. The quire links: routes, training, lanes, flits received, retry, ticks across modules (R418 to R438). -/

namespace Sys2Proof.Machine

/-! ### Route tables (R431, R432) -/

def readRouteLink (b : Bytes) : RouteLink := { k := field b 0 1, peer := field b 1 1, peerLink := field b 2 1 }
def readForward (b : Bytes) : Nat × Nat := (field b 0 1, field b 1 3)
def readRouteSpan (b : Bytes) : RouteSpan :=
  { id := field b 0 2, job := field b 2 1, members := (List.range 128).filter (bit (field b 4 16)) }

/-- The parts of a table's buffer: the places of its link, forward and span entries. -/
def linkAt (i : Nat) : Nat := 16 + 4 * i
def forwardAt (b : Bytes) (i : Nat) : Nat := 16 + 4 * field b 4 1 + 4 * i
def spanAt (b : Bytes) (i : Nat) : Nat := 16 + 4 * field b 4 1 + 4 * field b 5 1 + 20 * i

def readRoute (b : Bytes) : Route :=
  { self := field b 0 1, master := field b 1 1, backup := field b 2 1, encrypt := bit (field b 3 1) 0,
    links := (List.range (field b 4 1)).map fun i => readRouteLink (b.drop (linkAt i)),
    forwards := (List.range (field b 5 1)).map fun i => readForward (b.drop (forwardAt b i)),
    spans := (List.range (field b 6 1)).map fun i => readRouteSpan (b.drop (spanAt b i)) }

/-- Detail 0x01: sizes, counts, ranges and reserved bytes. -/
def routeFormed (b : Bytes) (n : Nat) : Bool :=
  let r := readRoute b
  16 ≤ n && n == spanAt b (field b 6 1) && field b 4 1 ≤ 24 && field b 5 1 ≤ 127 && field b 6 1 ≤ 16 && field b 3 1 ≤ 1 && field b 7 9 == 0 &&
    r.self ≤ 127 && r.master ≤ 127 && (r.backup ≤ 127 || r.backup == 0xFF) &&
    (List.range (field b 4 1)).all (fun i => field b (linkAt i + 3) 1 == 0) && r.links.all (fun l => l.k ≤ 23 && l.peer ≤ 127 && l.peerLink ≤ 23) &&
    r.forwards.all (fun f => f.1 ≤ 127) && (List.range (field b 6 1)).all (fun i => field b (spanAt b i + 3) 1 == 0) &&
    r.spans.all (fun x => x.id != 0 && x.members.contains r.self)

/-- A forward entry leads to a module. -/
def Route.leads (r : Route) (m : Nat) : Bool := m == r.self || r.forwards.any fun f => f.1 == m

/-- The first cause of R432 for which a table is invalid.
DEDUCED, unsafe (assumption 94). -/
def State.routeInvalid (s : State) (b : Bytes) (n : Nat) : Option Nat :=
  let r := readRoute b
  let open_ (j : Nat) : Bool := (s.job j).any fun x => x.st == .created || x.st == .loaded
  if !routeFormed b n then some 1
  else if !decide (r.links.map RouteLink.k).Nodup then some 2
  else if !(r.forwards.all fun f => f.1 != r.self && (List.range 24).all fun k => !bit f.2 k || r.links.any fun l => l.k == k) ∨
      !decide (r.forwards.map Prod.fst).Nodup then some 3
  else if !(r.leads r.master && (r.backup == 0xFF || r.leads r.backup) && r.spans.all fun x => x.members.all r.leads) then some 4
  else if !(r.spans.all fun x => open_ x.job) ∨ !decide (r.spans.map RouteSpan.id).Nodup then some 5
  else none

/-- Links of a table that the grade leaves out, as a mask (R4, R410).
DEDUCED, unsafe (assumption 94). -/
def State.linksAbsent (s : State) (r : Route) : Nat :=
  (((r.links.map RouteLink.k).dedup.filter fun k => !s.grade.linkOn k).map (2 ^ ·)).foldl (· + ·) 0

/-- The modules that a job reaches: the members of its span and of the rings its key sets are bound to. -/
def State.reaches (s : State) (x : Job) : List Nat :=
  let sp := match x.span with
    | none => []
    | some i => s.members i
  (sp ++ x.sets.flatMap fun k => if k.slot.isSome then (k.ring.map KeyRing.members).getD [] else []).dedup.filter (· != s.self)

/-- A running spanning job, or one that is bound to a key ring. -/
def Job.holdsRoute (x : Job) : Bool := (x.st == .running && x.span.isSome) || x.sets.any fun k => k.slot.isSome && k.ring.isSome

/-- Jobs with a property. -/
def State.anyJob (s : State) (f : Job → Bool) : Bool := s.jobNums.any fun j => (s.job j).any f

/-- A table that would change what a running spanning job or a bound key ring uses (R432).
DEDUCED, unsafe (assumption 94). -/
def State.routeBusy (s : State) (new : Route) : Bool :=
  match s.route with
  | none => false
  | some old =>
    let uses (x : Job) : Bool :=
      (s.reaches x).any (fun m =>
        old.forwards.find? (fun f => f.1 == m) != new.forwards.find? (fun f => f.1 == m) ||
          (old.forwards.filter fun f => f.1 == m).any fun f => (List.range 24).any fun k =>
            bit f.2 k && old.links.find? (fun l => l.k == k) != new.links.find? (fun l => l.k == k)) ||
      (x.st == .running && x.span.any fun i => old.spans.find? (fun y => y.id == i) != new.spans.find? (fun y => y.id == i))
    s.anyJob (fun x => x.holdsRoute && uses x) ||
      ((old.master != new.master || old.backup != new.backup) && s.anyJob fun x => x.st == .running && x.span.isSome) ||
      (old.self != new.self && (!old.spans.isEmpty || s.anyJob fun x => x.sets.any fun k => k.slot.isSome && k.ring.isSome))

/-- What a new table makes of a link: an unchanged entry keeps a trained link, a changed one trains it anew, and a link with
no entry is off (R419, R431, R438). -/
def State.routeLink (s : State) (old : Option Route) (new : Route) (k : Nat) : State :=
  let x := s.link k
  match new.links.find? fun l => l.k == k with
  | none => if x.st = .off then s else (s.modLink k fun _ => {}).setReady (bitLink k) false
  | some l =>
    let same := old.any fun o => o.links.contains l && o.encrypt == new.encrypt
    if same ∧ (x.st = .up ∨ x.st = .recal ∨ x.st = .retrain ∨ x.st = .training) then s
    else if x.st = .retrain ∧ !s.limp then
      (s.modLink k fun y => { y with peer := l.peer, peerLink := l.peerLink, retry := [], used := [], owed := [] }).setReady (bitLink k) false
    else (s.modLink k fun _ => { st := if s.limp then .down else .training, peer := l.peer, peerLink := l.peerLink, session := x.session }).setReady
      (bitLink k) false

/-- The module's place in its group under a table (R433, R434). -/
def State.routeRole (s : State) (new : Route) : TickGroup :=
  if new.master = new.self then { s.tickGroup with role := 1, master := new.self, pathDelay := 0, hops := 0 }
  else { s.tickGroup with role := 2, master := new.master }

/-- A table put in force. -/
def State.applyRoute (s : State) (new : Route) : State :=
  let old := s.route
  let s := (s.each (List.range 24) fun s k => s.routeLink old new k).noteRefs
  let spans := s.spans.filter fun c => new.spans.any fun x => x.id == c.1
  let s := { s with route := some new, spans := spans, tickGroup := s.routeRole new }
  s.each s.jobNums fun s j => s.modJob j fun x =>
    if x.st = .created ∨ x.st = .loaded then { x with span := (new.spans.find? fun y => y.job == j).map RouteSpan.id } else x

/-- LINK_ROUTE (R431, R432).
DEDUCED, unsafe (assumption 93); DEDUCED, unsafe (assumption 95). -/
def execLinkRoute (p : Port) (r : Nat) (buf : Option Bytes) (s : State) : Outcome :=
  match s.command p r 0x60, buf with
  | none, _ => .next (s.turnAway p r 0x60)
  | some _, none => .next (s.refuse p r cBufferFault)
  | some c, some b =>
    let n := field c 0x10 4
    let b := fit n b
    match s.routeInvalid b n with
    | some k => .next (s.complete p r { status := 0x0260, detail := k })
    | none =>
      let t := readRoute b
      if s.linksAbsent t ≠ 0 then .next (s.complete p r { status := 0x0202, v1 := s.linksAbsent t })
      else if s.routeBusy t then .next (s.refuse p r 0x0261)
      else .next ((s.applyRoute t).complete p r {})

/-! ### Training (R418, R430) -/

def State.routeEntry (s : State) (k : Nat) : Option RouteLink :=
  match s.route with
  | none => none
  | some r => r.links.find? fun l => l.k == k

/-- The lanes of a mask that are good. -/
def lanesGood (lanes : BitVec 5) : List Nat := (List.range 5).filter fun i => lanes.getLsbD i

/-- The first data lane that failed. -/
def failedLane (lanes : BitVec 5) : Option Nat := (List.range 4).find? fun i => !lanes.getLsbD i

/-- A link that comes up after training: keys are agreed where the route asks for them. -/
def Link.trained (x : Link) (lanes : BitVec 5) (delay : Nat) (encrypt : Bool) : Link :=
  { x with st := .up, good := lanes, spareFor := failedLane lanes, delay := min 65535 delay, encrypted := encrypt,
           session := if encrypt then x.session + 1 else x.session, txCount := 0, rxCount := 0, txSeq := 0, rxSeq := 0, retry := [], used := [],
           owed := [] }

/-- LINK_TRAINED (R418, R430): a link with fewer than four good lanes, or with a peer that its route entry does not name, or
that differs in ENCRYPT, stays in training. -/
def execLinkTrained (k : Nat) (lanes : BitVec 5) (peer peerLink delay : Nat) (peerEncrypt : Bool) (s : State) (polarity : BitVec 5 := 0) : Outcome :=
  match s.route, s.routeEntry k with
  | some r, some l =>
    if !s.live ∨ s.limp ∨ (s.link k).st ≠ .training then .next s
    else if l.peer ≠ peer ∨ l.peerLink ≠ peerLink then .next (s.linkErr k 4)
    else if r.encrypt ≠ peerEncrypt ∨ (lanesGood lanes).length < 4 then .next (s.modLink k fun x => { x with good := lanes, polarity := polarity })
    else
      let s := (s.modLink k fun x => { x.trained lanes delay r.encrypt with polarity := polarity }).setReady (bitLink k) true
      .next (State.pump (s.link k).waiting.length s k)
  | _, _ => .next s

/-- LINK_TRAINING_RETRY (R418): a link in training goes on training, from its lanes on.
DEDUCED, unsafe (assumption 100). -/
def execLinkTrainingRetry (k : Nat) (s : State) : Outcome :=
  if s.live ∧ (s.link k).st = .training then .next (s.modLink k fun x => { x with good := 0 }) else .next s

/-! ### Jobs on a link, and links lost (R424, R425) -/

/-- The forward entries of a destination name a link. -/
def State.uses (s : State) (k m : Nat) : Bool :=
  match s.route with
  | none => false
  | some r => r.forwards.any fun f => f.1 == m && bit f.2 k

/-- The running jobs whose traffic takes a link (R421, R425). -/
def State.linkJobs (s : State) (k : Nat) : List Nat :=
  s.runningJobs.filter fun j => (s.job j).any fun x => (s.reaches x).any (s.uses k)

/-- The running jobs whose traffic used a link in the sheet in hand (R424). -/
def State.linkUsers (s : State) (k : Nat) : List Nat := s.runningJobs.filter fun j => (s.link k).users.contains j

/-- A member of a job's span has no route left. -/
def State.spanCut (s : State) (x : Job) : Bool :=
  x.span.any fun i => (s.members i).any fun m => m != s.self && (s.routesTo m).isEmpty

/-- The ring and key of a pass that a job awaits and that cannot arrive any more (R174): it has not come whole, and a member on its way
has no route left.
DEDUCED, unsafe (assumption 97). -/
def State.passCut (s : State) (j : Nat) (x : Job) : Option (KeyRing × Nat) :=
  s.passes.findSome? fun y =>
    if y.job ≠ j then none
    else (x.keySet y.set).bind fun k => k.ring.bind fun r =>
      if y.got.length ≠ ((k.entry y.index).map KeyEntry.bytes).getD 0 ∧ s.shardLost r y.index = true then some (r, y.index) else none

/-- A member of a key ring that a job's set is bound to has no route left.
DEDUCED, unsafe (assumption 97). -/
def State.ringCut (s : State) (x : Job) : Bool :=
  x.sets.any fun k => k.slot.isSome && k.ring.any fun r => r.members.any fun m => m != s.self && (s.routesTo m).isEmpty

/-- The jobs of a link replay. -/
def State.replayLink (s : State) (js : List Nat) (contained : Bool) (code lane : Nat) : State :=
  s.each js fun s j => s.beginReplay j { contained := contained, code := code, res := { res := .linkLane, index := lane }, detail := 0, tag := 0 }

/-- A link goes DOWN (R425): it leaves every forward entry, what waited on it or was not acknowledged takes the links that remain, and its
jobs replay. Where a member has no route left, a spanning job stops, and a job on a key ring stops where it awaits a pass that is cut or
used the link in the sheet in hand, and goes on otherwise.
DEDUCED, unsafe (assumption 97). -/
def State.downLink (s : State) (k : Nat) : State :=
  let js := s.linkJobs k
  let users := (s.link k).users
  let left := (s.link k).retry.map Prod.snd ++ (s.link k).waiting
  let s := (((s.modLink k Link.down).unroute k).setReady (bitLink k) false).noteRefs
  let s := s.each left fun s f => match s.routeTo f.dst f.span f.tag with
    | none => s
    | some k' => s.enqueue k' [f]
  s.each js fun s j =>
    match s.job j with
    | none => s
    | some x =>
      if s.spanCut x then s.stopJob j { code := 0x0602, res := { res := .linkLane, index := 8 * k } }
      else match s.passCut j x with
        | some (r, ix) => s.lostShard j r ix
        | none =>
          if !s.ringCut x then s.replayLink [j] false 0x0503 (8 * k)
          else if users.contains j then s.stopJob j { code := 0x0602, res := { res := .linkLane, index := 8 * k } }
          else s

/-! ### Lanes (R420, R421) -/

/-- Lane 4 is good and replaces no other. -/
def Link.spareFree (x : Link) : Bool := x.spareFor.isNone && x.good.getLsbD 4

/-- A lane in service: a data lane that is not retired, or lane 4. -/
def Link.serves (x : Link) (lane : Nat) : Bool := lane == 4 || (lane < 4 && x.spareFor != some lane)

/-- A lane retired (R421, R477): the link retrains with the spare in its place and its jobs replay, or it goes DOWN. A spare that
carries nothing is only no longer good.
DEDUCED, unsafe (assumption 98). -/
def State.retireLane (s : State) (k lane : Nat) : State :=
  let x := s.link k
  let s := (s.errRec { code := 0x0514, res := 4, cls := 5, index := 8 * k + lane }).linkErr k 1
  let s := s.modLink k fun y => { y with good := y.good &&& ~~~(1 <<< lane : BitVec 5) }
  if lane = 4 ∧ x.spareFor.isNone then s
  else if x.spareFree then
    let js := s.linkJobs k
    (s.modLink k fun y => { y with spareFor := some lane, st := .retrain }).replayLink js true 0x0514 (8 * k + lane)
  else s.downLink k

/-- LANE_RECALIBRATION (R419, R420): a lane's recalibration begins, and the link is in RECAL until it ends; one whose beginning is not told
comes whole.
DESIGN CHOICE, safe (assumption 99). -/
def execLaneRecalibration (k lane : Nat) (ok : Bool) (s : State) (begins : Bool := false) : Outcome :=
  if !s.live ∨ !(s.link k).carries ∨ !(s.link k).serves lane ∨ !(s.link k).good.getLsbD lane then .next s
  else if begins then .next (s.modLink k fun x => { x with st := .recal })
  else
    let s := s.modLink k fun x => { x with st := .up }
    if ok then .next (State.pump (s.link k).waiting.length (s.modLink k fun x => { x with good := x.good ||| (1 <<< lane : BitVec 5) }) k)
    else .next (s.retireLane k lane)

/-- LANE_RETIRED (R421): the corrected symbols are counted (R437), and more than 2^20 in a sheet retire the lane. -/
def execLaneRetired (k lane corrections : Nat) (s : State) : Outcome :=
  if !s.live ∨ !(s.link k).carries ∨ !(s.link k).serves lane ∨ !(s.link k).good.getLsbD lane then .next s
  else
    let s := s.bump (ctrLink k 0) corrections
    .next (if 2 ^ 20 < corrections then s.retireLane k lane else s)

/-! ### Retry (R424) -/

/-- LINK_RETRY_EXHAUSTED (R424). -/
def execLinkRetryExhausted (k resent quietUs : Nat) (s : State) : Outcome :=
  if !s.live ∨ !(s.link k).carries ∨ ¬(8 ≤ resent ∨ 100 ≤ quietUs) then .next s
  else
    let js := s.linkUsers k
    .next (((s.linkErr k 2).modLink k fun x => { x with st := .retrain }).replayLink js false 0x0503 (8 * k))

/-- Members of key rings are lost: a job that awaits a pass from one of them, or one cut short at it, stops (R174).
DEDUCED, unsafe (assumption 97). -/
def State.loseMembers (s : State) (lost : List Nat) : State :=
  let mark (k : KeySet) : KeySet := { k with ring := k.ring.map fun r => { r with lost := (r.lost ++ r.members.filter lost.contains).dedup } }
  let s := s.each s.jobNums fun s j => s.modJob j fun x => { x with sets := x.sets.map mark }
  s.each s.runningJobs fun s j => match (s.job j).bind (s.passCut j) with
    | none => s
    | some (r, ix) => s.lostShard j r ix

/-- A link that retrained comes up again: with new keys where the route asks for them, and what was not acknowledged is resent (R424, R430). -/
def Link.retrained (x : Link) (encrypt : Bool) (found : Option Training) : Link :=
  let y : Link := { x with st := .up, encrypted := encrypt, session := if encrypt then x.session + 1 else x.session, txCount := 0, rxCount := 0 }
  match found with
  | none => y
  | some t => { y with good := t.lanes, spareFor := failedLane t.lanes, delay := min 65535 t.delay }

/-- The retraining of a link ends: it returns UP, or goes DOWN; what it finds is compared with its route entry as at any training (R418,
R419). -/
def State.retrainEnd (s : State) (k : Nat) (ok : Bool) (found : Option Training) : State :=
  let encrypt := s.route.any Route.encrypt
  let other (t : Training) : Bool := (s.routeEntry k).any fun l => l.peer != t.peer || l.peerLink != t.peerLink
  if !ok ∨ found.any (fun t => (lanesGood t.lanes).length < 4) then s.downLink k
  else if found.any other then (s.linkErr k 4).modLink k fun x => { x with st := .training }
  else if found.any (fun t => t.encrypt != encrypt) then s.modLink k fun x => { x with st := .training }
  else
    let s := ((s.modLink k fun x => x.retrained encrypt found).resend k).setReady (bitLink k) true
    State.pump (s.link k).waiting.length s k

/-- LINK_RETRAIN_DONE (R174, R418, R419, R424, R430). -/
def execLinkRetrainDone (k : Nat) (ok : Bool) (s : State) (found : Option Training := none) (lost : List Nat := []) : Outcome :=
  if !s.live ∨ (s.link k).st ≠ .retrain then .next s
  else if lost.isEmpty then .next (s.retrainEnd k ok found)
  else .next ((s.retrainEnd k ok found).loseMembers lost)

/-- NAK (R424): every flit after the last good number is sent again. -/
def execNak (k seq : Nat) (s : State) : Outcome :=
  if !s.live ∨ !(s.link k).carries then .next s
  else .next ((s.modLink k fun x => { x with retry := afterAck x.retry seq }).resend k)

/-- IDLE (R422, R423, R426): it takes no sequence number. -/
def execIdle (k : Nat) (h : FlitHdr) (s : State) (line : FlitLine := .good) : Outcome :=
  if !s.live ∨ !(s.link k).carries then .next s
  else match line with
    | .codeword => .next ((s.linkErr k 0).badFlit k)
    | .hchk => .next (s.badFlit k)
    | .good | .tag => .next (s.takeAck k h)

/-! ### DATA (R423, R428) -/

/-- A DATA payload kept for a receive area of the span's job until its RELEASE_END; where a message ends, a block of its sender does (R330).
DEDUCED, unsafe (assumption 44); DEDUCED, unsafe (assumption 46). -/
def State.hide (s : State) (h : FlitHdr) (payload : Bytes) : State :=
  match s.spanJob h.span with
  | none => s
  | some j => s.modJob j fun x =>
      if x.st ≠ .running ∨ x.span ≠ some h.span then x
      else
        let a := x.area h.tag
        let b := Tbl.get [] x.rxHidden h.tag ++ payload
        let a := { a with ends := a.ends ++ if h.last then [a.flush + b.length] else [] }
        { x with rxHidden := Tbl.set x.rxHidden h.tag b, rxFrom := Tbl.set x.rxFrom h.tag h.src, areas := Tbl.set x.areas h.tag a }

/-- DATA_FLIT (R423, R428, R430).
DESIGN CHOICE, safe (assumption 114). -/
def execDataFlit (k : Nat) (h : FlitHdr) (payload : Bytes) (good auth : Bool) (s : State) (line : FlitLine := .good) (cls : Nat := 1) : Outcome :=
  if !s.live ∨ !(s.link k).carries then .next s
  else
    let line := if !good then .codeword else if line = .good ∧ !auth then .tag else line
    .next (s.takeIn k cls clsData h line payload fun s => s.hide h payload)

/-! ### Ticks across modules (R433, R434) -/

/-- A message of one flit to the peer of a link.
DESIGN CHOICE, unsafe (assumption 60). -/
def State.tell (s : State) (k cls tag : Nat) (payload : Bytes) : State :=
  s.enqueue k [{ cls := cls, dst := (s.link k).peer, src := s.self, span := 0, tag := tag, first := true, last := true, payload := payload }]

/-- The links that carry traffic. -/
def State.upLinks (s : State) : List Nat := (List.range 24).filter fun k => (s.link k).carries

/-- A follower takes the TICK that comes first, or by fewer hops, uses its number and period, and sends it on with the delay of the next hop
added. What it carries is the delay of the whole way that it has come (R433). -/
def State.tickIn (s : State) (k tickNo period hops delay : Nat) : State :=
  let g := s.tickGroup
  if !s.live ∨ !(s.link k).carries ∨ g.role ≠ 2 ∨ 16 < hops ∨ !(decide (g.next ≠ tickNo) || decide (hops < g.hops)) then s
  else
    let s := { s with tick := tickNo, periodNext := period, periodSet := s.periodSet || s.periodNext != period,
                      tickGroup := { g with next := tickNo, hops := hops, pathDelay := delay } }
    s.each (s.upLinks.filter (· != k)) fun s m => s.tell m clsTick 0 (tickPayload tickNo period (hops + 1) (delay + (s.link m).delay))

/-- TICK_MESSAGE (R433).
DEDUCED, unsafe (assumption 96). -/
def execTickMessage (k tickNo period hops delay : Nat) (s : State) (arr : Option Arrival := none) : Outcome :=
  .next (s.receive arr clsTick (tickPayload tickNo period hops delay) fun s => s.tickIn k tickNo period hops delay)

/-- A spanning job after its master is lost: it replays on the new one, or stops. -/
def State.spanAfterMaster (s : State) (lost : Nat) (reachable : List Nat) (kept : Bool) (j : Nat) : State :=
  match (s.job j).bind Job.span with
  | none => s
  | some i =>
    if kept ∧ (s.members i).all fun m => m == s.self || (m != lost && reachable.contains m) then
      s.beginReplay j { contained := false, code := 0x0504, res := {}, detail := 0, tag := 0 }
    else s.stopJob j { code := 0x0602, res := { res := .linkLane } }

/-- MASTER_LOST (R434): the backup is master; without one the module ticks alone. -/
def execMasterLost (reachable : List Nat) (s : State) : Outcome :=
  match s.route with
  | none => .next s
  | some r =>
    if !s.live ∨ s.tickGroup.role ≠ 2 then .next s
    else
      let lost := s.tickGroup.master
      let kept := r.backup != 0xFF && r.backup != lost
      let g : TickGroup := if !kept then {} else if r.backup = r.self then { role := 3, master := r.self } else { role := 2, master := r.backup }
      .next (State.each { s with tickGroup := g } s.runningJobs fun s j => s.spanAfterMaster lost reachable kept j)

/-- A PING is answered. -/
def State.pingIn (s : State) (k stamp : Nat) : State := if s.live ∧ (s.link k).carries then s.tell k clsControl kindPong (le 8 stamp) else s

/-- PING (R433). -/
def execPing (k stamp : Nat) (s : State) (arr : Option Arrival := none) : Outcome :=
  .next (s.receive arr clsControl (le 8 stamp) fun s => s.pingIn k stamp)

/-- A PONG gives the delay of its link. -/
def State.pongIn (s : State) (k delay : Nat) : State :=
  if s.live ∧ (s.link k).carries then s.modLink k fun x => { x with delay := min 65535 delay } else s

/-- PONG (R433, R437). -/
def execPong (k delay : Nat) (s : State) (arr : Option Arrival := none) : Outcome := .next (s.receive arr clsControl [] fun s => s.pongIn k delay)

/-- DELAY_MEASUREMENT (R433): a PING on every link that is UP; its time stamp is a free value.
DESIGN CHOICE, safe (assumption 101). -/
def execDelayMeasurement (s : State) : Outcome :=
  if !s.live then .next s
  else .next (s.each s.upLinks fun s k => s.draw.2.tell k clsControl kindPing (le 8 (Config.freeWord s.draw.1).toNat))

/-! ### Keys of a link (R430) -/

/-- LINK_REKEY (R430). -/
def execLinkRekey (k : Nat) (s : State) : Outcome :=
  let x := s.link k
  if s.live ∧ x.carries ∧ x.encrypted ∧ (2 ^ 40 ≤ x.txCount ∨ 2 ^ 40 ≤ x.rxCount) then
    .next (s.modLink k fun x => { x with session := x.session + 1, txCount := 0, rxCount := 0 })
  else .next s

/-- LINK_AUTH_DOWN (R430): sixteen tag failures in a sheet. -/
def execLinkAuthDown (k failures : Nat) (s : State) : Outcome :=
  if s.live ∧ (s.link k).carries ∧ (s.link k).encrypted ∧ 16 ≤ failures then .next ((s.linkErr k 3).downLink k) else .next s

end Sys2Proof.Machine
end

