-- ==== Sys2Proof/Machine/Rings.lean ====
section
/-! DEFINITION. The command rings and the event ring: their registers, the checks of every command, the queries and the posting of
records (R92, R126, R131, R402 to R416). -/

namespace Sys2Proof.Machine

/-! ### Ring registers (R402 to R404, R414) -/

/-- A write of SQ_TAIL: the doorbell. Before CONTROL sets it is discarded (R89). -/
def State.writeTail (s : State) (p : Port) (r : Nat) (v : Reg) : State :=
  if s.isReady bitControl then s.setRing p r { s.ring p r with sqTail := v.toNat % 4096 } else s

/-- A write of CQ_HEAD. -/
def State.writeCqHead (s : State) (p : Port) (r : Nat) (v : Reg) : State :=
  s.setRing p r { s.ring p r with cqHead := v.toNat % 4096 }

/-- The low half of RING_CFG. -/
def Ring.cfg (g : Ring) : Nat := b2n g.enable 32768 + g.cqLog2 * 256 + g.sqLog2

/-- The sizes of a ring let it be enabled. -/
def Ring.sized (g : Ring) : Bool := 4 ≤ g.sqLog2 && g.sqLog2 ≤ 12 && 4 ≤ g.cqLog2 && g.cqLog2 ≤ 12 && g.sqLog2 ≤ g.cqLog2

/-- A ring enabled: every index becomes 0, and the first pass carries PHASE 1 (R403, R405). -/
def Ring.start (g : Ring) : Ring := { g with enable := true, sqTail := 0, sqHead := 0, cqHead := 0, cqTail := 0, phase := true }

/-- A write of RING_CFG (R403): sizes change only while ENABLE is 0; a command under way completes after ENABLE clears. -/
def Ring.configure (g : Ring) (v : Reg) : Ring :=
  let n := masked g.cfg v
  if g.enable then (if bit n 15 then g else { g with enable := false })
  else
    let g := { g with cqLog2 := bits n 11 8, sqLog2 := bits n 3 0 }
    if bit n 15 && g.sized then g.start else g

def State.writeRingCfg (s : State) (p : Port) (r : Nat) (v : Reg) : State := s.setRing p r ((s.ring p r).configure v)

/-- DOORBELL (R404). -/
def execDoorbell (p : Port) (r : Nat) (v : Reg) (s : State) : Outcome := if s.regOk p ∧ r < 8 then .next (s.writeTail p r v) else .next s
/-- CQ_HEAD_WRITE (R404). -/
def execCqHeadWrite (p : Port) (r : Nat) (v : Reg) (s : State) : Outcome := if s.regOk p ∧ r < 8 then .next (s.writeCqHead p r v) else .next s
/-- RING_ENABLE (R403): a write of RING_CFG. -/
def execRingEnable (p : Port) (r : Nat) (v : Reg) (s : State) : Outcome := if s.regOk p ∧ r < 8 then .next (s.writeRingCfg p r v) else .next s
/-- RING_DISABLE (R403): a write of RING_CFG. -/
def execRingDisable (p : Port) (r : Nat) (v : Reg) (s : State) : Outcome := if s.regOk p ∧ r < 8 then .next (s.writeRingCfg p r v) else .next s

/-- The low half of EV_CFG. -/
def EvRing.cfg (e : EvRing) : Nat := b2n e.enable 32768 + e.log2

/-- A write of EV_CFG (R414), by the rules of R403. -/
def EvRing.configure (e : EvRing) (v : Reg) : EvRing :=
  let n := masked e.cfg v
  if e.enable then (if bit n 15 then e else { e with enable := false })
  else
    let e := { e with log2 := bits n 3 0 }
    if bit n 15 && 6 ≤ e.log2 && e.log2 ≤ 12 then { e with enable := true, head := 0, tail := 0, phase := true } else e

def State.writeEvCfg (s : State) (p : Port) (v : Reg) : State := s.modPort p fun q => { q with ev := q.ev.configure v }

/-- A write of EV_HEAD. -/
def State.writeEvHead (s : State) (p : Port) (v : Reg) : State := s.modPort p fun q => { q with ev := { q.ev with head := v.toNat % 4096 } }

/-- EV_ENABLE (R414): a write of EV_CFG. -/
def execEvEnable (p : Port) (v : Reg) (s : State) : Outcome := if s.regOk p then .next (s.writeEvCfg p v) else .next s
/-- EV_HEAD_WRITE (R415). -/
def execEvHeadWrite (p : Port) (v : Reg) (s : State) : Outcome := if s.regOk p then .next (s.writeEvHead p v) else .next s

/-! ### Fields of commands (R406, R408) -/

/-- A field of a command: its offset, its size, and the values it may hold. -/
structure FieldRule where
  off : Nat
  size : Nat
  ok : Nat → Bool

/-- A field that may hold anything, one of a range, and zero. -/
def anyField (off size : Nat) : FieldRule := ⟨off, size, fun _ => true⟩
def upTo (off size top : Nat) : FieldRule := ⟨off, size, fun v => v ≤ top⟩
def zeroField (off size : Nat) : FieldRule := ⟨off, size, fun v => v == 0⟩
/-- Bytes that a command does not use: each is checked, and named, by itself (R406).
DEDUCED, unsafe (assumption 26). -/
def unused (off n : Nat) : List FieldRule := (List.range n).map fun i => zeroField (off + i) 1

/-- The opcodes of R408. -/
def opcodes : List Nat :=
  [0x01, 0x02, 0x10, 0x11, 0x12, 0x13, 0x20, 0x21, 0x22, 0x30, 0x31, 0x32, 0x38, 0x40, 0x41, 0x50, 0x51, 0x60, 0x70]

/-- The opcodes of the administrative port. -/
def adminOpcodes : List Nat := [0x40, 0x41, 0x51, 0x60, 0x70]

/-- A set code of QUERY_PARAMSET, or 0 for all. -/
def setCodeOk (v : Nat) : Bool := v == 0 || (paramSet v).isSome

/-- A core that SELFTEST may name: one in service; 0 for a module-wide test.
DEDUCED, unsafe (assumption 105). -/
def State.testable (s : State) (scope n : Nat) : Bool :=
  if scope = 1 then n == 0 else (List.range 4).any fun m => (s.usableCores m).contains n

/-- The fields of the ARGS of an opcode, in increasing offset.
DEDUCED, unsafe (assumption 26). -/
def State.argRules (s : State) (c : Bytes) (op : Nat) : List FieldRule :=
  match op with
  | 0x01 =>
    (List.range 4).map (fun m => upTo (0x18 + m) 1 s.grade.coresPerMill) ++ (List.range 4).map (fun m => upTo (0x1C + m) 1 128) ++
      (List.range 4).map (fun m => upTo (0x20 + 2 * m) 2 1536) ++ [upTo 0x28 2 1536, anyField 0x2A 2, upTo 0x2C 1 16, upTo 0x2D 1 3] ++ unused 0x2E 2 ++
      (List.range 4).map (fun m => upTo (0x30 + m) 1 16) ++
      [upTo 0x34 1 64] ++ unused 0x35 3 ++ [if field c 0x34 1 = 0 then zeroField 0x38 8 else anyField 0x38 8]
  | 0x11 =>
    [anyField 0x18 16, anyField 0x28 1, upTo 0x29 1 1, ⟨0x2A, 1, fun v => v == 0 || (2 ≤ v && v ≤ 16)⟩,
     upTo 0x2B 1 (field c 0x2A 1 - 1)] ++ unused 0x2C 20
  | 0x12 =>
    let bar := field c 0x28 1 == 1
    [anyField 0x18 16, upTo 0x28 1 1, zeroField 0x29 1, if bar then upTo 0x2A 2 4095 else zeroField 0x2A 2] ++ unused 0x2C 4 ++
      [if bar then anyField 0x30 8 else zeroField 0x30 8] ++ unused 0x38 8
  | 0x13 => [anyField 0x18 32, anyField 0x38 2, anyField 0x3A 1, anyField 0x3B 1, anyField 0x3C 1] ++ unused 0x3D 3
  | 0x20 =>
    [⟨0x18, 1, fun v => 1 ≤ v && v ≤ 16⟩, upTo 0x19 1 1, upTo 0x1A 1 1, zeroField 0x1B 1, anyField 0x1C 2, anyField 0x1E 2] ++ unused 0x20 32
  | 0x22 => [upTo 0x18 1 1, upTo 0x19 1 3] ++ unused 0x1A 6 ++ [anyField 0x20 16] ++ unused 0x30 16
  | 0x30 => upTo 0x18 1 3 :: unused 0x19 39
  | 0x31 => ⟨0x18, 1, setCodeOk⟩ :: unused 0x19 39
  | 0x40 => [upTo 0x18 1 1, upTo 0x19 1 1, ⟨0x1A, 1, s.testable (field c 0x18 1)⟩] ++ unused 0x1B 37
  | 0x41 => [upTo 0x18 2 255, anyField 0x1A 11] ++ unused 0x25 27
  | 0x50 => [anyField 0x18 32, upTo 0x38 1 16] ++ unused 0x39 7
  | _ => unused 0x18 40

/-- The offset of the first field of a command that is reserved and not zero, or out of its range (R409 step 2).
DEDUCED, unsafe (assumption 26); DEDUCED, unsafe (assumption 103); DEDUCED, unsafe (assumption 104). -/
def State.fieldFault (s : State) (c : Bytes) : Option Nat :=
  let op := field c 0 1
  let names := jobOpcodes.contains op
  if 1 < field c 1 1 then some 1
  else if (if names then decide (16 < field c 2 1) else field c 2 1 != 0) then some 2
  else if field c 3 1 ≠ 0 then some 3
  else if op = 0x21 ∧ ¬(field c 0x10 4 % 40 = 0 ∧ 1 ≤ field c 0x10 4 / 40 ∧ field c 0x10 4 / 40 ≤ 16) then some 0x10
  else if bits (field c 0x14 4) 30 20 ≠ 0 then some 0x14
  else ((s.argRules c op).find? fun f => !f.ok (field c f.off f.size)).map FieldRule.off

/-! ### Ready bits (R92, R93) -/

/-- Every stack of a mill that still holds a region is in use.
DEDUCED, unsafe (assumption 102). -/
def State.nearReady (s : State) (m : Nat) : Bool := (s.millStacks m).all fun k => s.isReady (bitHbm k)
/-- SPREAD needs all twelve stacks.
DEDUCED, unsafe (assumption 102). -/
def State.spreadReady (s : State) : Bool := (List.range 12).all fun k => s.isReady (bitHbm k)
def State.millReady (s : State) (m : Nat) : Bool := s.isReady (bitCores m) && s.isReady (bitSram m)

/-- The bits that a request for resources needs. -/
def State.requestReady (s : State) (q : JobReq) : Bool :=
  (List.range 4).all (fun m => (q.cores.getD m 0 == 0 && q.groups.getD m 0 == 0) || s.millReady m) &&
    (List.range 4).all (fun m => q.near.getD m 0 == 0 || s.nearReady m) && (q.frames == 0 || s.spreadReady)

/-- The bits that the resources of a job need. -/
def State.resourcesReady (s : State) (j : Nat) (x : Job) : Bool :=
  (List.range 4).all (fun m => !((s.jobMills x).contains m || (s.groupsOf j).any fun g => g / 128 == m) || s.millReady m) &&
    (List.range 4).all (fun m => x.near.getD m 0 == 0 || s.nearReady m) &&
    ((s.unitsOf j).length ≤ x.near.foldl (· + ·) 0 || s.spreadReady)

/-- The bits that a job's key region needs. -/
def State.keysReady (s : State) (x : Job) : Bool :=
  s.isReady bitSecurity && (x.keyUnits == 0 || if x.keySpread then s.spreadReady else s.nearReady ((s.jobMills x).getD 0 0))

/-- LINK of every link on the routes of a job. -/
def State.linksReady (s : State) (x : Job) : Bool :=
  (List.range 24).all fun k => !((s.reaches x).any (s.uses k)) || s.isReady (bitLink k)

/-- REPULP of every set that a job is bound to with the family (R93). -/
def State.tablesReady (s : State) (x : Job) : Bool :=
  x.sets.all fun k => !(k.slot.isSome && bit k.flags 0) || (repulpPlace k.set).all fun i => s.isReady (bitRepulp i)

/-- Every bit that a command needs is set (R92).
DEDUCED, unsafe (assumption 102). -/
def State.bitsReady (s : State) (c : Bytes) : Bool :=
  let j := field c 2 1
  let forJob (f : Job → Bool) : Bool := (s.job j).all f
  match field c 0 1 with
  | 0x01 => s.requestReady (readJobReq c)
  | 0x10 | 0x21 | 0x22 => forJob (s.resourcesReady j)
  | 0x11 | 0x12 => forJob s.keysReady
  | 0x13 | 0x50 | 0x51 | 0x70 => s.isReady bitSecurity
  | 0x20 => forJob fun x => s.resourcesReady j x && s.linksReady x && s.tablesReady x
  | 0x40 =>
    if field c 0x18 1 = 1 then (List.range 4).all fun m => s.isReady (bitCores m) else s.isReady (bitCores (s.millOf (field c 0x1A 1)))
  | _ => true

/-! ### Sizes of buffers (R408) -/

/-- The primes that QUERY_PRIMES reports for its FAMILY field. -/
def queryFamilies (v : Nat) : List Family := [Family.z36, .z28, .z18].filter fun f => v == 0 || famCode f == v
def primeRecords (v : Nat) : List Bytes := (queryFamilies v).flatMap fun f => (List.range (famCount f)).map (primeRecord f)

/-- The records of QUERY_PARAMSET for its SET field. -/
def setRecords (v : Nat) : List Bytes := (paramSets.filter fun p => v == 0 || p.code == v).map ParamSet.record

/-- The number of the records, without the records themselves. -/
def primeCount (v : Nat) : Nat := ((queryFamilies v).map famCount).foldl (· + ·) 0
def setCount (v : Nat) : Nat := (paramSets.filter fun p => v == 0 || p.code == v).length

/-- The bytes that a command writes to its buffer.
DEDUCED, unsafe (assumption 104). -/
def State.writes (s : State) (c : Bytes) : Nat :=
  match field c 0 1 with
  | 0x13 => 528
  | 0x30 => 24 * primeCount (field c 0x18 1)
  | 0x31 => 128 * setCount (field c 0x18 1)
  | 0x32 => if field c 8 8 = 0 then 0 else 16 * s.boot.log.length
  | 0x50 => 5632
  | _ => 0

/-! ### Reading a command (R404, R409) -/

/-- The completion of a command that a check of R409 refuses, at the first of steps 1 to 7 that fails.
DEDUCED, unsafe (assumption 103). -/
def State.checkCommand (s : State) (p : Port) (c : Bytes) : Option Done :=
  let op := field c 0 1
  let j := field c 2 1
  let names := jobOpcodes.contains op
  if !opcodes.contains op then some { status := cOpcodeUnknown }
  else match s.fieldFault c with
    | some off => some { status := cFieldInvalid, detail := off }
    | none =>
      if adminOpcodes.contains op ∧ p ≠ s.adminPort then some { status := 0x0102 }
      else if names ∧ ¬((s.job j).any fun x => x.owner == p) then some { status := 0x0101 }
      else if !s.bitsReady c then some { status := cNotReady, v0 := s.ready.toNat }
      else if !s.jobTakes c then some { status := 0x0109 }
      else if field c 0x10 4 < s.writes c then some { status := cBufferSmall, v0 := s.writes c }
      else none

/-- The ring holds a command, executes none, and has room for its completion. -/
def Ring.mayFetch (g : Ring) : Bool :=
  g.enable && g.current.isNone && g.sqHead != g.sqTail % 2 ^ g.sqLog2 && (g.cqTail + 1) % 2 ^ g.cqLog2 != g.cqHead % 2 ^ g.cqLog2

/-- The firmware serves the rings of a port (R90). -/
def State.serves (s : State) (p : Port) : Bool := s.live && s.isReady bitControl && s.isReady (bitPort p) && !s.boot.warm

/-- COMMAND_FETCH (R404, R409): the command at the head of a ring is read and checked.
DEDUCED, safe (assumption 125). -/
def execCommandFetch (p : Port) (r : Nat) (bytes : Bytes) (s : State) : Outcome :=
  let g := s.ring p r
  if !s.serves p ∨ 8 ≤ r ∨ !g.mayFetch then .next s
  else
    let c := fit 64 bytes
    let s := s.setRing p r { g with current := some c, held := false, seq := s.lastRead p + 1, page := none, sent := 0, sqHead := (g.sqHead + 1) % 2 ^ g.sqLog2 }
    match s.checkCommand p c with
    | some d => .next (s.complete p r d)
    | none => .next s

/-! ### Queries (R126, R131, R412) -/

/-- QUERY_PRIMES (R126). -/
def execQueryPrimes (p : Port) (r : Nat) (ok : Bool) (s : State) (written : Nat := 0) : Outcome :=
  match s.command p r 0x30 with
  | none => .next s
  | some c => .next (s.writeBuffer p r ok (primeRecords (field c 0x18 1)).flatten { v0 := primeCount (field c 0x18 1) } written)

/-- QUERY_PARAMSET (R131). -/
def execQueryParamset (p : Port) (r : Nat) (ok : Bool) (s : State) (written : Nat := 0) : Outcome :=
  match s.command p r 0x31 with
  | none => .next s
  | some c => .next (s.writeBuffer p r ok (setRecords (field c 0x18 1)).flatten { v0 := setCount (field c 0x18 1) } written)

/-- The bytes of a failure record (R412). -/
def failBytes (f : Nat × Nat × Nat × Nat × Nat) : Bytes :=
  le 2 f.1 ++ le 1 f.2.1 ++ [0] ++ le 2 f.2.2.1 ++ le 2 0 ++ le 4 f.2.2.2.1 ++ le 4 f.2.2.2.2

/-- VALUE1 of QUERY_READY (R412). -/
def State.readyValue (s : State) : Nat :=
  let gone := (List.range 12).filter fun k => (s.stack k).st == 3
  let mask (ks : List Nat) : Nat := (ks.map (2 ^ ·)).foldl (· + ·) 0
  leVal (((List.range 4).flatMap fun m => le 1 (s.usableCores m).length) ++ le 1 (mask ((gone.filter (8 ≤ ·)).map (· - 8))) ++
    le 1 (mask (gone.filter (· < 8))) ++ le 1 (b2n s.boot.degraded 1) ++ le 1 (min 255 s.boot.log.length))

/-- QUERY_READY (R412): the failure records are written where the command has a buffer.
DEDUCED, unsafe (assumption 104). -/
def execQueryReady (p : Port) (r : Nat) (ok : Bool) (s : State) (written : Nat := 0) : Outcome :=
  match s.command p r 0x32 with
  | none => .next s
  | some c =>
    let d : Done := { v0 := s.ready.toNat, v1 := s.readyValue }
    if field c 8 8 = 0 then .next (s.complete p r d) else .next (s.writeBuffer p r ok (s.boot.log.flatMap failBytes) d written)

/-! ### The event ring (R414, R415) -/

/-- The bytes of a record. -/
def EvRec.bytes (e : EvRec) (phase : Bool) : Bytes :=
  let h := le 1 e.type ++ le 1 e.units ++ le 1 e.job ++ [0] ++ le 2 e.code ++ le 2 0 ++ le 8 e.tick
  fit (64 * e.units - 1) (h ++ e.body) ++ le 1 (b2n phase 1)

/-- The vector of a record. -/
def EvRec.vector (e : EvRec) : Nat := if e.type = 7 then 0 else 15 + e.job

/-- Units that a ring can take. -/
def EvRing.room (e : EvRing) : Nat := 2 ^ e.log2 - 1 - (e.tail + 2 ^ e.log2 - e.head % 2 ^ e.log2) % 2 ^ e.log2

/-- Units left before the end of the ring that a record of `n` units would cross. -/
def EvRing.pad (e : EvRing) (n : Nat) : Nat := if 2 ^ e.log2 < e.tail + n then 2 ^ e.log2 - e.tail else 0

/-- The tail after `n` units; PHASE inverts where it wraps. -/
def EvRing.advance (e : EvRing) (n : Nat) : EvRing :=
  let t := (e.tail + n) % 2 ^ e.log2
  { e with tail := t, phase := if t = 0 then !e.phase else e.phase }

/-- A record written at the tail. -/
def State.writeRecord (s : State) (p : Port) (e : EvRec) : State :=
  let g := (s.port p).ev
  (s.emit (.event p g.tail (e.bytes g.phase))).modPort p fun q => { q with ev := q.ev.advance e.units }

/-- The PAD record of `n` units before a record that would cross the end; its TICK is a free value.
DESIGN CHOICE, safe (assumption 101). -/
def State.padRing (s : State) (p : Port) (n : Nat) : State :=
  if n = 0 then s
  else s.draw.2.writeRecord p { type := 0x0F, units := n, job := 0, code := 0, tick := (Config.freeWord s.draw.1).toNat, body := [] }

/-- What a posted couch report does to its job: the final one ends it, and the next release may begin (R220, R371, R415).
DEDUCED, unsafe (assumption 67). -/
def State.reported (s : State) (e : EvRec) : State :=
  if e.type ≠ 1 then s
  else
    let fin := bit (field e.body 8 1) 0 && (s.job e.job).any fun x => x.st == .running && x.final
    let s := if fin then (s.closeWins e.job).modJob e.job fun x => { x with st := .done } else s
    s.startRelease e.job

/-- EVENT_RECORD_POST (R414, R415): the oldest record that waits is written once the ring has room for it, during a safe shutdown
where the link still permits (R58).
DEDUCED, unsafe (assumption 140). -/
def execEventRecordPost (p : Port) (s : State) : Outcome :=
  match (s.port p).ev.waiting with
  | [] => .next s
  | e :: es =>
    let g := (s.port p).ev
    let pad := g.pad e.units
    if !(s.serves p || (s.pins.power == .shutdown && (s.port p).linkUp)) ∨ !g.enable ∨ g.room < pad + e.units then .next s
    else
      let s := s.modPort p fun q => { q with ev := { q.ev with waiting := es } }
      .next ((((s.padRing p pad).writeRecord p e).raise p e.vector).reported e)

end Sys2Proof.Machine
end

