-- ==== Sys2Proof/Machine/Registers.lean ====
section
/-! DEFINITION. The registers of BAR0 as a port reads and writes them, bus errors, snapshots, BAR2 and MSI-X (R17, R385 to R400, and the
register tables of every chapter). -/

namespace Sys2Proof.Machine

/-! ### The map (R385, R387) -/

/-- The blocks of BAR0. -/
inductive RegBlock where
  | ess | door | port | clk | sheet | core | spad | copy | strm | hbm | job | stat | quire | sec | msix | pba | win
  deriving DecidableEq, Repr

/-- Base, size and name of each block. -/
def regBlocks : List (Nat × Nat × RegBlock) :=
  [(0x00000, 0x1000, .ess), (0x01000, 0x1000, .door), (0x02000, 0x1000, .port), (0x10000, 0x1000, .clk), (0x11000, 0x1000, .sheet),
   (0x12000, 0x1000, .core), (0x13000, 0x1000, .spad), (0x14000, 0x1000, .copy), (0x15000, 0x1000, .strm), (0x16000, 0x1000, .hbm),
   (0x17000, 0x1000, .job), (0x18000, 0x8000, .stat), (0x20000, 0x6000, .quire), (0x30000, 0x1000, .sec), (0x40000, 0x400, .msix),
   (0x41000, 8, .pba), (0x50000, 0x200, .win)]

/-- A register of the statistics block that holds a counter, in the holding or the ream set (R480). -/
def statCounter (o : Nat) : Bool :=
  let c := if 0x5000 ≤ o then o - 0x4000 else o
  (0x1000 ≤ c && c < 0x1800) || (0x2000 ≤ c && c < 0x2800) || (0x3000 ≤ c && c < 0x30B8)

/-- An offset of a block that its tables name. -/
def implemented (b : RegBlock) (o : Nat) : Bool :=
  match b with
  | .ess => [0x000, 0x004, 0x008, 0x00C, 0x010, 0x014, 0x018, 0x020, 0x024, 0x030, 0x034, 0x038, 0x040].contains o
  | .door => (o < 0x200 && o % 0x40 < 0x24 && o % 0x40 != 0x20) || (0x200 ≤ o && o ≤ 0x214)
  | .port => o < 0x010 || (0x040 ≤ o && o < 0x0C0)
  | .clk => [0x000, 0x020, 0x024, 0x030, 0x034].contains o || (0x010 ≤ o && o < 0x020)
  | .sheet => o ≤ 0x010 || (0x040 ≤ o && o < 0x080)
  | .core => o < 0x100
  | .spad => o < 0xB10
  | .copy => o < 0x044 || (0x080 ≤ o && o < 0x100)
  | .strm => o == 0 || (0x010 ≤ o && o < 0x050)
  | .hbm => o < 0x030 || (0x040 ≤ o && o < 0x0A0) || o == 0x100 || o == 0x104
  | .job => o ≤ 0x0C0
  | .stat => (o < 0x020 && o != 0x00C) || (0x100 ≤ o && o < 0x300) || statCounter o
  | .quire => [0x000, 0x004, 0x008, 0x00C, 0x010, 0x014, 0x0F0].contains (o % 0x400)
  | .sec => o ≤ 0x010
  | .msix | .pba | .win => true

/-- The block and the place in it of a register; none for a reserved location. -/
def decodeReg (off : Nat) : Option (RegBlock × Nat) :=
  let o := off / 4 * 4
  match regBlocks.find? fun b => b.1 ≤ o && o < b.1 + b.2.1 with
  | none => none
  | some b => if implemented b.2.2 (o - b.1) then some (b.2.2, o - b.1) else none

/-- The statistics of a mill are gated: before its MILL_CORES bit, and during a safe shutdown (R389). -/
def State.millGated (s : State) (m : Nat) : Bool := !s.isReady (bitCores m) || s.pins.power == .shutdown

/-- A block is gated at a place (R389): a warm reset was commanded and CONTROL has not set, a link is fused off or not routed, or the
mill of its statistics is down.
DEDUCED, unsafe (assumption 107). -/
def State.gated (s : State) (b : RegBlock) (o : Nat) : Bool :=
  match b with
  | .ess | .port | .msix | .pba => false
  | .quire => s.warmGated || !s.grade.linkOn (o / 0x400) || (s.routeEntry (o / 0x400)).isNone
  | .stat =>
    let c := if 0x5000 ≤ o then o - 0x4000 else o
    s.warmGated || (0x010 ≤ o && o < 0x020 && s.millGated ((o - 0x010) / 4)) ||
      (0x2000 ≤ c && c < 0x2800 && s.millGated (s.millOf ((c - 0x2000) / 0x20)))
  | _ => s.warmGated

/-- Half `h` (0 low, 1 high) of a 64-bit value. -/
def half (v h : Nat) : Nat := v / 2 ^ (32 * h) % 2 ^ 32

/-- A job of the port, by number. -/
def State.ownJob (s : State) (p : Port) (j : Nat) : Option Job := (s.job j).filter fun x => x.owner == p

/-- A logical core of a job of the port. -/
def State.ownCore (s : State) (p : Port) (n : Nat) : Bool := n < 4 * s.grade.coresPerMill && (s.ownJob p (s.core n).job).isSome

/-- A bank group of a job of the port. -/
def State.ownGroup (s : State) (p : Port) (g : Nat) : Bool := (s.ownJob p (s.group g).owner).isSome

/-! ### Essentials and port blocks (R392, R394 to R396) -/

/-- ESS_STATUS (R395).
DEDUCED, unsafe (assumption 108). -/
def State.essStatus (s : State) : Nat :=
  let hot := s.clk.hubHot || s.clk.regHot || (List.range 4).any fun m => (s.mill m).hot
  b2n (s.isReady bitControl) 1 + b2n (decide (s.cap < 1000)) 2 + b2n s.limp 4 + b2n s.clk.vinLow 8 + b2n hot 16 + b2n s.boot.degraded 32 +
    b2n (s.pins.power == .shutdown) 64 + b2n s.boot.warm 128 + b2n (s.isReady bitControl && decide (100000 < s.boot.hbAge.toNat)) 256

/-- ESS_IDENT (R395). -/
def State.essIdent (s : State) (p : Port) : Nat :=
  s.sec.fuses.grade.toNat * 2 ^ 24 + 0xB0 * 2 ^ 16 + s.sec.lifecycle * 2 ^ 13 + portNum p * 2 ^ 12 + portNum s.adminPort * 2 ^ 11

/-- ESS_JOBS: jobs of the port in WIPING, and in any other state. -/
def State.essJobs (s : State) (p : Port) : Nat :=
  ((List.range 16).map fun i => match s.ownJob p (i + 1) with
    | none => 0
    | some x => if x.st = .wiping then 2 ^ (16 + i) else 2 ^ i).foldl (· + ·) 0

def State.readEss (s : State) (p : Port) (o : Nat) : Nat :=
  match o with
  | 0x000 => s.essStatus
  | 0x004 => s.boot.cause % 65536
  | 0x008 => half s.ready.toNat 0
  | 0x00C => half s.ready.toNat 1
  | 0x010 => s.boot.heartbeat.toNat
  | 0x014 => s.boot.hbAge.toNat
  | 0x018 => s.essJobs p
  | 0x038 => (s.port p).armed
  | 0x040 => s.essIdent p
  | _ => 0

/-- The two registers of a log entry. -/
def ErrEntry.lo (e : ErrEntry) : Nat := e.off
def ErrEntry.hi (e : ErrEntry) : Nat := e.bar * 2 ^ 30 + b2n e.write (2 ^ 29) + e.kind * 2 ^ 24 + e.tick

def PortSt.readPort (q : PortSt) (o : Nat) : Nat :=
  match o with
  | 0x000 => q.errStatus.toNat
  | 0x004 => q.errTotal * 65536 + q.errs.length
  | 0x008 => b2n q.snapBusy 256
  | 0x00C => q.snapSeq.toNat
  | _ => match q.errs[(o - 0x040) / 8]? with
    | none => 0
    | some e => if o % 8 = 0 then e.lo else e.hi

/-! ### Doorbells (R402, R414) -/

def Ring.read (g : Ring) (o : Nat) : Nat :=
  match o with
  | 0x00 => g.sqLo.toNat
  | 0x04 => g.sqHi.toNat
  | 0x08 => g.cqLo.toNat
  | 0x0C => g.cqHi.toNat
  | 0x10 => g.cfg
  | 0x14 => g.sqTail
  | 0x18 => g.sqHead
  | 0x1C => g.cqHead
  | _ => 0

def EvRing.read (e : EvRing) (o : Nat) : Nat :=
  match o with
  | 0x200 => e.lo.toNat
  | 0x204 => e.hi.toNat
  | 0x208 => e.cfg
  | 0x20C => e.head
  | 0x210 => e.tail
  | 0x214 => e.lost
  | _ => 0

/-! ### Clocks, sheets and cores (R70 to R73, R119, R230) -/

def sourceCode : Source → Nat
  | .crystal => 0
  | .sysref => 1
  | .oscillator => 2

/-- MILL_OP_STATUS. -/
def State.millStatus (s : State) (m : Nat) : Nat :=
  let x := s.mill m
  (x.duty - 1) * 4096 + b2n s.limp 2048 + b2n (decide (16 < x.thermK) || x.thermLimit) 1024 + b2n (decide (16 < x.capK) || decide (x.capDuty < 16)) 512 +
    b2n x.limiter 256 + x.divK

def Fmc.result (f : Fmc) : Nat := b2n f.valid (2 ^ 31) + b2n f.targetStopped (2 ^ 30) + b2n f.selInvalid (2 ^ 29) + f.count

def State.readClk (s : State) (p : Port) (o : Nat) : Nat :=
  match o with
  | 0x000 => (s.port p).clkSticky.toNat * 256 + b2n s.clk.sysrefQualified 16 + b2n s.limp 8 + sourceCode s.clk.source
  | 0x020 => s.clk.inputPower % 65536 * 65536 + s.clk.vinSample % 65536
  | 0x024 => s.clk.adminCap * 65536 + s.integrator
  | 0x030 => (s.port p).fmc.ctrl
  | 0x034 => (s.port p).fmc.result
  | _ => s.millStatus ((o - 0x010) / 4)

/-- JOB_SHEET. -/
def Job.sheetReg (x : Job) : Nat :=
  b2n (x.st == .running) (2 ^ 31) + b2n x.replaying (2 ^ 30) + x.sheet % 2048 * 2 ^ 16 + (x.stride - 1) * 2 ^ 12 + min 0xFFF x.lateReam

/-- The key under which a snapshot holds the tick number. -/
def ctrTick : Nat := 4000

def State.readSheet (s : State) (p : Port) (o : Nat) : Nat :=
  match o with
  | 0x000 => s.period * 65536 + s.reamLen
  | 0x004 => s.sheetInReam % 65536
  | 0x008 => half (Tbl.get 0 (s.port p).hold ctrTick) 0
  | 0x00C => half (Tbl.get 0 (s.port p).hold ctrTick) 1
  | 0x010 => s.reams.toNat
  | _ => ((s.ownJob p ((o - 0x040) / 4 + 1)).map Job.sheetReg).getD 0

/-- STATE and SYNC_INDEX of a core. -/
def CoreMode.regs : CoreMode → Nat × Nat
  | .idle => (0, 0)
  | .issuing => (1, 0)
  | .wait sem _ => (2, sem)
  | .bar b => (3, b)
  | .couch => (4, 0)
  | .ended => (5, 0)
  | .halted => (6, 0)
  | .out => (7, 0)

/-- CORE_STATE (R230): a core of a job that is not RUNNING reads STATE 0. -/
def State.coreReg (s : State) (p : Port) (n : Nat) : Nat :=
  if !s.ownCore p n then 0
  else
    let c := s.core n
    let mode := if (s.job c.job).any fun x => x.st == .running then c.mode.regs else (0, 0)
    mode.1 * 2 ^ 29 + c.job * 2 ^ 24 + mode.2 * 2 ^ 16 + c.bundle / 8 % 65536

/-! ### Scratchpad, copies, streams, HBM (R306, R324, R345, R363) -/

def Group.code (g : Group) : Nat :=
  match g.st with
  | .off => 0
  | .wiping => 1
  | .free => 2
  | .owned => if g.spare then 8 else 3
  | .draining => 4
  | .dark => 5
  | .evacuating => 6
  | .retired => 7

def State.usableReg (s : State) (m : Nat) : Nat :=
  let gone := ((List.range 128).filter fun g => (s.group (128 * m + g)).st == .retired).length
  (2 - Tbl.get 0 s.sparesUsed m) * 65536 + 4 * (128 - gone)

def State.readSpad (s : State) (p : Port) (o : Nat) : Nat :=
  let hold := (s.port p).hold
  if o < 0x200 then
    if s.ownCore p (o / 8) then half (Tbl.get 0 hold (ctrStall (o / 8))) (o / 4 % 2) else 0
  else if o < 0xA00 then
    let g := (o - 0x200) / 4
    if s.ownGroup p g then min 0xFFFFFFFF (Tbl.get 0 hold (ctrConflict g)) else 0
  else if o < 0xB00 then
    let w := (o - 0xA00) / 4
    ((List.range 8).map fun i => (s.group (128 * (w / 16) + 8 * (w % 16) + i)).code * 16 ^ i).foldl (· + ·) 0
  else s.usableReg ((o - 0xB00) / 4)

def State.readCopy (s : State) (p : Port) (o : Nat) : Nat :=
  if o = 0 then (((List.range 16).filter fun i => (s.port p).xcRace.getLsbD i && (s.ownJob p (i + 1)).isSome).map (2 ^ ·)).foldl (· + ·) 0
  else if o < 0x080 then ((s.ownJob p (o / 4)).map Job.races).getD 0
  else ((s.ownJob p ((o - 0x080) / 8 + 1)).map fun x => half x.firstRace (o / 4 % 2)).getD 0

/-- STREAM_JOB. -/
def State.streamReg (s : State) (p : Port) (j : Nat) : Nat :=
  match s.ownJob p j with
  | none => 0
  | some x =>
    let halted := (x.cores.map fun n => ((s.core n).chans.filter fun c => c.2.any fun h => h.halt.isSome).length).foldl (· + ·) 0 + b2n x.relHalt.isSome 1
    let out := ((s.port p).pageReqs.filter (s.halted j)).length
    min 255 halted * 2 ^ 24 + min 255 out * 2 ^ 16 + min 0xFFFF x.uncounted

def Stack.reg (x : Stack) : Nat :=
  x.st * 2 ^ 30 + min 2 x.retired.length * 2 ^ 28 + b2n (!x.migrating.isEmpty) (2 ^ 27) + b2n x.retraining.isSome (2 ^ 26) + x.lanesUsed * 2 ^ 16 +
    x.temp % 256 * 256 + x.rate

/-- Retired pseudo-channels as a mask. -/
def Stack.mask (x : Stack) : Nat := (x.retired.dedup.map (2 ^ ·)).foldl (· + ·) 0

/-- HBM_MIGRATION: the migration of the lowest stack that has one, with the parts of 512 KiB that its engine has copied.
DESIGN CHOICE, unsafe (assumption 109); DESIGN CHOICE, unsafe (assumption 160). -/
def State.migrationReg (s : State) : Nat :=
  ((List.range 12).findSome? fun k => (s.stack k).migrating.head?.map fun c => (64 * k + c.1) * 2 ^ 22 + min 1536 (c.2 / 524288)).getD 0

/-- Some unit of a mill is being filled. -/
def State.millFills (s : State) (m : Nat) : Bool := s.units.any fun u => u.1 / 1536 == m && u.2.filling

/-- A stack is performing a fill: of all of it in a reset, or of its part of a unit that is not held back (R360, R363, R364).
DESIGN CHOICE, unsafe (assumption 160). -/
def State.stackFills (s : State) (k : Nat) : Bool :=
  let x := s.stack k
  (x.st == 0 && x.filling) || (x.st == 1 && s.millFills (k / 3) && !s.fillHeld (k / 3))

def State.fillReg (s : State) : Nat := (((List.range 12).filter s.stackFills).map (2 ^ ·)).foldl (· + ·) 0

def State.readHbm (s : State) (o : Nat) : Nat :=
  if o < 0x030 then (s.stack (o / 4)).reg
  else if o < 0x0A0 then half (s.stack ((o - 0x040) / 8)).mask (o / 4 % 2)
  else if o = 0x100 then s.migrationReg
  else s.fillReg

/-! ### Jobs (R380) -/

def JobSt.code : JobSt → Nat
  | .created => 1
  | .loaded => 2
  | .running => 3
  | .done => 4
  | .stopped => 5
  | .wiping => 6

def Job.statusReg (x : Job) : Nat := x.st.code * 2 ^ 29 + portNum x.owner * 2 ^ 28 + x.adm % 65536 * 256 + x.cores.length
def State.shareReg (s : State) (x : Job) : Nat := x.coreShare * 2 ^ 21 + s.coreNow x * 2 ^ 16 + x.lat * 128 + s.latNow x
def State.keyReg (s : State) (x : Job) : Nat := ((List.range 4).map fun m => s.keyNow x m * 32 ^ m).foldl (· + ·) 0

def State.readJob (s : State) (p : Port) (o : Nat) : Nat :=
  if o = 0x0C0 then portNum s.adminPort * 2 ^ 24 + s.selftestHours * 2 ^ 16 + b2n s.admitB 2 + b2n s.admitA 1
  else match s.ownJob p (o % 0x40 / 4 + 1) with
    | none => 0
    | some x => if o < 0x040 then x.statusReg else if o < 0x080 then s.shareReg x else s.keyReg x

/-! ### Statistics (R478 to R480) -/

/-- The key of a counter by its place in the holding or ream set, where the port sees it. -/
def State.statKey (s : State) (p : Port) (c : Nat) : Option Nat :=
  if c < 0x1800 then if (s.ownJob p ((c - 0x1000) / 0x80 + 1)).isSome then some ((c - 0x1000) / 8) else none
  else if c < 0x2800 then
    let n := (c - 0x2000) / 0x20
    if s.ownCore p n then some (ctrCore n ((c - 0x2000) % 0x20 / 8)) else none
  else
    let i := (c - 0x3000) / 8
    some (if i = 22 then ctrPages p else ctrModule i)

def STest.reg (t : STest) : Nat :=
  t.spare * 2 ^ 30 + min 255 t.queue.length * 2 ^ 16 +
    ((t.under.find? fun u => u.scanning && u.result.isNone).map SlotTest.slot).getD 0xFF * 256 + t.nextSlot

def PortSt.readRec (q : PortSt) (n i : Nat) : Nat :=
  if !q.recValid.getLsbD n then 0
  else
    let r := Tbl.get {} q.recs n
    match i with
    | 0 => r.code % 65536 * 65536 + r.res * 256 + r.cls * 32 + r.job
    | 1 => r.detail % 256 * 2 ^ 24 + r.index % 65536
    | 2 => r.tick
    | _ => r.info

def State.readStat (s : State) (p : Port) (o : Nat) : Nat :=
  let q := s.port p
  match o with
  | 0x000 => q.recValid.toNat % 65536
  | 0x004 => q.recValid.toNat / 65536
  | 0x008 => q.recLost
  | _ =>
    if o < 0x020 then (s.stest ((o - 0x010) / 4)).reg
    else if o < 0x300 then q.readRec ((o - 0x100) / 16) (o / 4 % 4)
    else if o < 0x5000 then ((s.statKey p o).map fun k => half (Tbl.get 0 q.hold k) (o / 4 % 2)).getD 0
    else ((s.statKey p (o - 0x4000)).map fun k => half (Tbl.get 0 s.ream k) (o / 4 % 2)).getD 0

/-! ### Links, security, MSI-X, windows (R398, R400, R437, R467) -/

def linkCode : LinkSt → Nat
  | .off => 0
  | .training => 1
  | .up => 2
  | .recal => 3
  | .retrain => 4
  | .down => 5

def Link.status (x : Link) : Nat :=
  linkCode x.st * 2 ^ 29 + b2n x.encrypted (2 ^ 28) + x.good.toNat * 2 ^ 23 + b2n x.spareFor.isSome (2 ^ 22) + x.peerLink * 256 + x.peer % 128

def State.readQuire (s : State) (p : Port) (o : Nat) : Nat :=
  let k := o / 0x400
  let hold := (s.port p).hold
  match o % 0x400 with
  | 0x000 => (s.link k).status
  | 0x004 => (Tbl.get 0 (s.port p).linkErr k).toNat
  | 0x008 => half (Tbl.get 0 hold (ctrLink k 0)) 0
  | 0x00C => half (Tbl.get 0 hold (ctrLink k 0)) 1
  | 0x010 => min 0xFFFFFFFF (Tbl.get 0 hold (ctrLink k 1))
  | 0x014 => (s.link k).delay
  | _ => s.tickGroup.role * 2 ^ 30 + s.tickGroup.master % 128 * 2 ^ 16 + min 0x3FFF s.tickGroup.pathDelay

/-- The inactive slot holds a VALID image with a higher SEQUENCE. -/
def Sec.pending (x : Sec) : Bool := (x.slot x.inactive).valid && decide ((x.slot (!x.inactive)).seq < (x.slot x.inactive).seq)

def State.readSec (s : State) (p : Port) (o : Nat) : Nat :=
  let x := s.sec
  let q := s.port p
  match o with
  | 0x000 =>
    x.lifecycle * 2 ^ 29 + b2n x.recovery (2 ^ 28) + b2n (x.running.any Running.slotB) (2 ^ 27) + b2n x.slotB.valid (2 ^ 26) + b2n x.slotA.valid (2 ^ 25) +
      b2n x.pending (2 ^ 24) + (x.running.map Running.svn).getD 0 * 256 + x.fuses.svn
  | 0x004 => x.fuses.unlockCount * 256 + x.fuses.adminChanges
  | 0x008 => x.journal % 65536 * 65536 + x.leaf % 1024
  | 0x00C => x.bucket
  | _ => q.sessions.length * 16 + b2n q.ideSel1.active 4 + b2n q.ideSel0.active 2 + b2n q.ideLink.active 1

/-- An entry of the MSI-X table: address, data and vector control. -/
def PortSt.readMsix (q : PortSt) (o : Nat) : Nat :=
  if o % 16 = 12 then b2n (q.msixMask.getLsbD (o / 16)) 1 else (Tbl.get 0 q.msixAddr (o / 4)).toNat

def Win.state (w : Win) : Nat := 2 ^ 31 + b2n w.keyStaging (2 ^ 30) + w.job * 2 ^ 24 + w.handle

/-- The window of a port that is open for a job of its own. -/
def State.window (s : State) (p : Port) (w : Nat) : Option Win := (Tbl.get none (s.port p).wins w).filter fun x => (s.ownJob p x.job).isSome

def State.readWin (s : State) (p : Port) (o : Nat) : Nat :=
  match s.window p (o / 8) with
  | none => 0
  | some w => if o % 8 = 0 then w.state else w.baseGib % 1024

/-! ### The view (R386, R388, R389) -/

/-- What a register of an implemented location reads as.
DESIGN CHOICE, safe (assumption 112). -/
def State.regValue (s : State) (p : Port) (b : RegBlock) (o : Nat) : Nat :=
  if s.gated b o then 0 else
  match b with
  | .ess => s.readEss p o
  | .door => if o < 0x200 then (s.ring p (o / 0x40)).read (o % 0x40) else (s.port p).ev.read o
  | .port => (s.port p).readPort o
  | .clk => s.readClk p o
  | .sheet => s.readSheet p o
  | .core => s.coreReg p (o / 4)
  | .spad => s.readSpad p o
  | .copy => s.readCopy p o
  | .strm => if o = 0 then s.timeoutMs else s.streamReg p ((o - 0x010) / 4 + 1)
  | .hbm => s.readHbm o
  | .job => s.readJob p o
  | .stat => s.readStat p o
  | .quire => s.readQuire p o
  | .sec => s.readSec p o
  | .msix => (s.port p).readMsix o
  | .pba => half (s.port p).msixPend.toNat (o / 4)
  | .win => s.readWin p o

/-- What a port reads at an offset of BAR0; none for a reserved location. -/
def State.readReg (s : State) (p : Port) (off : Nat) : Option Reg := (decodeReg off).map fun b => BitVec.ofNat 32 (s.regValue p b.1 b.2)

/-! ### Snapshots (R118, R390, R391) -/

/-- The port sees a live counter (R118, R306, R479). -/
def State.sees (s : State) (p : Port) (key : Nat) : Bool :=
  if key < 256 then (s.ownJob p (key / 16 + 1)).isSome
  else if key < 512 then s.ownCore p ((key - 256) / 4)
  else if key < 600 then key != ctrPages (otherPort p)
  else if key < 1000 then s.ownCore p (key - 600)
  else if key < 2000 then s.ownGroup p (key - 1000)
  else true

/-- A snapshot begun: the holding registers take every counter that the port sees and the tick number, at one edge. -/
def State.snapshot (s : State) (p : Port) : State :=
  let h := Tbl.set ((s.boundary.getD s.ctr).filter fun c => s.sees p c.1) ctrTick s.now
  s.modPort p fun q => { q with snapBusy := true, snapSeq := q.snapSeq + 1, hold := h }

/-- A write of SNAP_CTRL: one during BUSY is ignored. -/
def State.writeSnap (s : State) (p : Port) (v : Reg) : State :=
  if bit (masked 0 v) 0 ∧ !(s.port p).snapBusy then s.snapshot p else s

/-- SNAP_CTRL_WRITE (R391). -/
def execSnapCtrlWrite (p : Port) (v : Reg) (s : State) : Outcome := if s.essOk p then .next (s.writeSnap p v) else .next s

/-- STATS_SNAPSHOT (R118, R390): it waits while a fill is under way, and completes with its own.
DEDUCED, unsafe (assumption 106). -/
def execStatsSnapshot (p : Port) (r : Nat) (s : State) : Outcome :=
  match s.command p r 0x38 with
  | none => .next s
  | some _ =>
    if (s.port p).snapBusy then .next s
    else .next (((s.snapshot p).modPort p fun q => { q with snapRing := some r }).hold p r)

/-- SNAPSHOT_FILLED (R390): BUSY clears, and a command that took the snapshot completes. -/
def execSnapshotFilled (p : Port) (s : State) : Outcome :=
  let q := s.port p
  if !s.live ∨ !q.snapBusy then .next s
  else
    let s := s.modPort p fun q => { q with snapBusy := false, snapRing := none }
    match q.snapRing with
    | none => .next s
    | some r => .next (s.complete p r { v0 := q.snapSeq.toNat })

/-! ### Logs (R392, R478) -/

/-- A write of ERR_STATUS: a write that leaves every bit zero empties the log. -/
def State.writeErrStatus (s : State) (p : Port) (v : Reg) : State :=
  if v.toNat / 65536 = 0 then s
  else s.modPort p fun q =>
    let st := q.errStatus &&& ~~~(BitVec.ofNat 4 (w1c v))
    if st = 0 then { q with errStatus := 0, errTotal := 0, errs := [] } else { q with errStatus := st }

/-- ERR_STATUS_WRITE (R392). -/
def execErrStatusWrite (p : Port) (v : Reg) (s : State) : Outcome := if s.essOk p then .next (s.writeErrStatus p v) else .next s

/-- A write of ERRREC_VALID_LO or _HI: cleared bits free their records, and with none left LOST is zero. -/
def State.writeValid (s : State) (p : Port) (hi : Bool) (v : Reg) : State :=
  s.modPort p fun q =>
    let valid := q.recValid &&& ~~~(BitVec.ofNat 32 (w1c v * if hi then 65536 else 1))
    { q with recValid := valid, recLost := if valid = 0 then 0 else q.recLost }

/-- ERRREC_VALID_WRITE (R478). -/
def execErrrecValidWrite (p : Port) (hi : Bool) (v : Reg) (s : State) : Outcome := if s.regOk p then .next (s.writeValid p hi v) else .next s

/-! ### MSI-X (R400) -/

/-- A vector unmasked: it fires where its pending bit is set. -/
def State.unmask (s : State) (p : Port) (v : Nat) : State :=
  let m : BitVec 64 := 1 <<< v
  let pend := (s.port p).msixPend.getLsbD v
  let s := s.modPort p fun q => { q with msixMask := q.msixMask &&& ~~~m, msixPend := q.msixPend &&& ~~~m }
  if pend then s.emit (.msix p v) else s

/-- MSIX_UNMASK (R400). -/
def execMsixUnmask (p : Port) (vector : Nat) (s : State) : Outcome :=
  if s.essOk p ∧ vector < 64 then .next (s.unmask p vector) else .next s

/-- A write to the MSI-X table. -/
def State.writeMsix (s : State) (p : Port) (o : Nat) (v : Reg) : State :=
  if o % 16 ≠ 12 then s.modPort p fun q => { q with msixAddr := Tbl.set q.msixAddr (o / 4) v }
  else if v.getLsbD 0 then s.modPort p fun q => { q with msixMask := q.msixMask ||| (1 <<< (o / 16) : BitVec 64) }
  else s.unmask p (o / 16)

/-! ### Writes (R17, R386 to R388) -/

/-- A base register whose low bits are reserved. -/
def cutLow (v : Reg) (n : Nat) : Reg := BitVec.ofNat 32 (v.toNat / 2 ^ n * 2 ^ n)

/-- The bases of a ring, which change only while ENABLE is 0 (R403). -/
def Ring.setBase (g : Ring) (o : Nat) (v : Reg) : Ring :=
  if g.enable then g
  else match o with
    | 0x00 => { g with sqLo := cutLow v 6 }
    | 0x04 => { g with sqHi := v }
    | 0x08 => { g with cqLo := cutLow v 5 }
    | 0x0C => { g with cqHi := v }
    | _ => g

def EvRing.setBase (e : EvRing) (o : Nat) (v : Reg) : EvRing :=
  if e.enable then e else if o = 0x200 then { e with lo := cutLow v 6 } else if o = 0x204 then { e with hi := v } else e

/-- A write to the doorbell block. -/
def State.writeDoor (s : State) (p : Port) (o : Nat) (v : Reg) : State :=
  if o < 0x200 then
    let r := o / 0x40
    match o % 0x40 with
    | 0x10 => s.writeRingCfg p r v
    | 0x14 => s.writeTail p r v
    | 0x1C => s.writeCqHead p r v
    | b => s.setRing p r ((s.ring p r).setBase b v)
  else match o with
    | 0x208 => s.writeEvCfg p v
    | 0x20C => s.writeEvHead p v
    | b => s.modPort p fun q => { q with ev := q.ev.setBase b v }

/-- A write to the essentials page. -/
def State.writeEss (s : State) (p : Port) (o : Nat) (v : Reg) : State :=
  match o with
  | 0x020 => s.essKill p v
  | 0x024 => s.essFlr p v
  | 0x030 => s.essArm p v
  | 0x034 => s.essGo p v
  | _ => s

/-- A write of an implemented register, by its access code: a gated block and a read-only register ignore it. -/
def State.writeBlock (s : State) (p : Port) (b : RegBlock) (o : Nat) (v : Reg) : State :=
  if s.gated b o then s else
  match b with
  | .ess => s.writeEss p o v
  | .door => s.writeDoor p o v
  | .port => if o = 0x000 then s.writeErrStatus p v else if o = 0x008 then s.writeSnap p v else s
  | .clk =>
    if o = 0x000 then s.modPort p fun q => { q with clkSticky := q.clkSticky &&& ~~~(BitVec.ofNat 3 (w1c v / 256)) }
    else if o = 0x030 then s.fmcWrite p v else s
  | .copy => if o = 0 then s.xcRaceWrite p v else s
  | .stat => if o = 0x000 then s.writeValid p false v else if o = 0x004 then s.writeValid p true v else s
  | .quire =>
    if o % 0x400 = 0x004 then s.modPort p fun q =>
      { q with linkErr := Tbl.set q.linkErr (o / 0x400) (Tbl.get 0 q.linkErr (o / 0x400) &&& ~~~(BitVec.ofNat 16 (w1c v))) }
    else s
  | .msix => s.writeMsix p o v
  | .sheet | .core | .spad | .strm | .hbm | .job | .sec | .pba | .win => s

/-- A request ends with Completer Abort, which AER notes (R382, R387). -/
def State.abort (s : State) (p : Port) : State :=
  (s.modPort p fun q => { q with conf := { q.conf with caStatus := true } }).emit (.abort p)

/-- A bus error: logged, and completed or reported as Completer Abort (R387). -/
def State.busError (s : State) (p : Port) (off : Nat) (write : Bool) (kind : Nat) : State := (s.logErr p off 0 write kind).abort p

/-- REGISTER_WRITE (R388): a write of one word; to a reserved location it is a bus error (R387). -/
def execRegisterWrite (p : Port) (off : Nat) (v : Reg) (s : State) : Outcome :=
  if !s.essOk p then .next s
  else match decodeReg off with
    | none => .next (s.busError p off true 1)
    | some b => .next (s.writeBlock p b.1 b.2 v)

/-! ### Bus errors and reads (R386, R387) -/

/-- The locations of a request. -/
def reqPlaces (off : Nat) (q : Req) : List (Option (RegBlock × Nat)) := (List.range (max 1 q.dws)).map fun i => decodeReg (off + 4 * i)

/-- The form of a request is one that R386, or R400 for the MSI-X structures, lets through. -/
def reqFormOk (off : Nat) (q : Req) (msix : Bool) : Bool :=
  if q.write then q.byteEn == 0xF && (q.dws == 1 || (q.dws == 2 && msix && off % 8 == 0)) else q.dws == 1 || (q.dws == 2 && off % 8 == 0)

/-- The kind of the bus error that a request is: decode comes first.
DESIGN CHOICE, safe (assumption 112). -/
def busKind (off : Nat) (q : Req) : Option Nat :=
  let ps := reqPlaces off q
  let msix := ps.all fun b => b.any fun b => b.1 == .msix || b.1 == .pba
  if ps.any Option.isNone then some 1 else if !reqFormOk off q msix then some 2 else none

/-- A holding register, which is not read while the port's fill is under way (R390). -/
def holding (b : RegBlock × Nat) : Bool :=
  match b.1 with
  | .stat => 0x1000 ≤ b.2 && b.2 < 0x5000
  | .spad => b.2 < 0xA00
  | .sheet => b.2 == 0x008 || b.2 == 0x00C
  | .quire => 0x008 ≤ b.2 % 0x400 && b.2 % 0x400 ≤ 0x010
  | _ => false

/-- The registers still answer reads of a port in a safe shutdown, where SHUTDOWN shows and the mills are gated (R389, R394, R395).
DEDUCED, unsafe (assumption 108). -/
def State.shutdownRead (s : State) (p : Port) (q : Req) : Bool :=
  s.pins.power == .shutdown && (s.port p).linkUp && (s.port p).cfgReady && !q.write

/-- BUS_ERROR (R386, R387): a request in a refused form or to a reserved location is aborted and logged. A read that is none
returns its registers, once a fill of the holding registers it reads has ended; a write of the MSI-X structures, which may have 2 DW (R400),
acts on them in increasing address order with the `data` it carries. A write of one register elsewhere is REGISTER_WRITE.
DEDUCED, unsafe (assumption 106); DESIGN CHOICE, safe (assumption 112). -/
def execBusError (p : Port) (off : Nat) (q : Req) (s : State) (data : List Reg := []) : Outcome :=
  if !s.essOk p && !s.shutdownRead p q then .next s
  else match busKind off q with
    | some k => .next (s.busError p off q.write k)
    | none =>
      let ps := (reqPlaces off q).filterMap id
      if q.write then
        .next (if data.length = ps.length then
          s.each ((ps.zip data).filter fun w => w.1.1 == .msix) fun s w => s.writeMsix p w.1.2 w.2 else s)
      else if (s.port p).snapBusy ∧ ps.any holding then .next s
      else .next (s.emit (.data p (ps.flatMap fun b => le 4 (s.regValue p b.1 b.2))))

/-! ### BAR2 (R398, R399) -/

/-- A refused BAR2 request: logged and aborted. -/
def State.bar2Abort (s : State) (p : Port) (off : Nat) (write : Bool) (kind : Nat) : State := (s.logErr p off 1 write kind).abort p

/-- The window, handle offset and job of a BAR2 request of `n` bytes; none where the window is closed or the handle ends before it.
DEDUCED, unsafe (assumption 111). -/
def State.bar2Place (s : State) (p : Port) (off n : Nat) : Option (Win × Nat × Job) :=
  let x := off % 2 ^ 30
  match s.window p (off / 2 ^ 30) with
  | none => none
  | some w =>
    match s.job w.job with
    | none => none
    | some j =>
      let o := w.baseGib * 2 ^ 30 + x
      if x + n ≤ 2 ^ 30 ∧ o + n ≤ (j.handle w.handle).bound ∧ off < 2 ^ 36 then some (w, o, j) else none

/-- BAR2_READ (R399).
DEDUCED, unsafe (assumption 110). -/
def execBar2Read (p : Port) (off len : Nat) (e : ReadErr) (s : State) : Outcome :=
  if !s.essOk p then .next s
  else match s.bar2Place p off len with
    | none => .next (s.bar2Abort p off false 3)
    | some (w, o, _) =>
      match s.readOutcome w.job w.handle o len e with
      | .tag t k => .next ((s.bar2Abort p off false 4).tagRecord w.job w.handle (o + k) t)
      | .checkBits _ => .next (s.bar2Abort p off false 8)
      | .good => .next (s.emit (.data p (s.load w.job w.handle o len)))

/-- A write covers only part of a sector. -/
def partSector (o n : Nat) : Bool := o % 64 != 0 || n % 64 != 0

/-- BAR2_WRITE (R399): stored with the job's tag (R352).
DEDUCED, unsafe (assumption 111). -/
def execBar2Write (p : Port) (off : Nat) (data : Bytes) (e : ReadErr) (s : State) : Outcome :=
  if !s.essOk p then .next s
  else match s.bar2Place p off data.length with
    | none => .next (s.bar2Abort p off true 3)
    | some (w, o, x) =>
      if (x.handle w.handle).readonly ∨ ¬(x.st = .created ∨ x.st = .loaded ∨ w.keyStaging) then .next (s.bar2Abort p off true 5)
      else if uncorrectable e ∧ partSector o data.length then .next (s.bar2Abort p off true 8)
      else .next (s.store w.job w.handle o data)

end Sys2Proof.Machine
end

