-- ==== Sys2Proof/Machine/Dispatch.lean ====
section
/-! DEFINITION. The dispatch of the block: one arm for each row of the table of operations and events. -/

namespace Sys2Proof.Machine
open Sys2Proof

/-- The effect of a command on everything but the queue. -/
def exec (i : Instr) (s : State) : Host.Outcome State Fault Refusal :=
  match i with
  | .coldReset vin low => Sys2Proof.Machine.execColdReset vin low s
  | .pwrEnDeassert => Sys2Proof.Machine.execPwrEnDeassert s
  | .vinBelowSafeShutdown vin => Sys2Proof.Machine.execVinBelowSafeShutdown vin s
  | .vinLow vin => Sys2Proof.Machine.execVinLow vin s
  | .freeze ns => Sys2Proof.Machine.execFreeze ns s
  | .perstAssert p => Sys2Proof.Machine.execPerstAssert p s
  | .perstDeassert p refclk => Sys2Proof.Machine.execPerstDeassert p s refclk
  | .hotReset p => Sys2Proof.Machine.execHotReset p s
  | .flr p => Sys2Proof.Machine.execFlr p s
  | .d3hotEntry p => Sys2Proof.Machine.execD3hotEntry p s
  | .portLinkUp p gts width reversed polarity => Sys2Proof.Machine.execPortLinkUp p gts width s reversed polarity
  | .eepromWrite addr data dev => Sys2Proof.Machine.execEepromWrite addr data s dev
  | .integratorCapSet watts dev => Sys2Proof.Machine.execIntegratorCapSet watts s dev
  | .mctpEventRead dev => Sys2Proof.Machine.execMctpEventRead s dev
  | .jtagAccess t trstN => Sys2Proof.Machine.execJtagAccess t s trstN
  | .sensorSample r => Sys2Proof.Machine.execSensorSample r s
  | .thermalThrottleStep m => Sys2Proof.Machine.execThermalThrottleStep m s
  | .thermalRecoveryStep m => Sys2Proof.Machine.execThermalRecoveryStep m s
  | .regulatorCapStep => Sys2Proof.Machine.execRegulatorCapStep s
  | .regulatorCapRestore => Sys2Proof.Machine.execRegulatorCapRestore s
  | .sensorCalibration => Sys2Proof.Machine.execSensorCalibration s
  | .hardwareLimiter watts => Sys2Proof.Machine.execHardwareLimiter watts s
  | .limiterRelease watts => Sys2Proof.Machine.execLimiterRelease watts s
  | .firmwareCapEval watts ranks pt => Sys2Proof.Machine.execFirmwareCapEval watts ranks pt s
  | .firmwareRestore watts m byDuty => Sys2Proof.Machine.execFirmwareRestore watts m byDuty s
  | .dividerRampStep d => Sys2Proof.Machine.execDividerRampStep d s
  | .railRaised m => Sys2Proof.Machine.execRailRaised m s
  | .clockMonitorWindow count ref => Sys2Proof.Machine.execClockMonitorWindow count s ref
  | .referenceEdgeTimeout ref => Sys2Proof.Machine.execReferenceEdgeTimeout s ref
  | .pllRelock => Sys2Proof.Machine.execPllRelock s
  | .limpQuiesceComplete => Sys2Proof.Machine.execLimpQuiesceComplete s
  | .sysrefQualified => Sys2Proof.Machine.execSysrefQualified s
  | .clockReselect p r => Sys2Proof.Machine.execClockReselect p r s
  | .fmcStart p v => Sys2Proof.Machine.execFmcStart p v s
  | .fmcDone p count stopped => Sys2Proof.Machine.execFmcDone p count stopped s
  | .warmReset p v => Sys2Proof.Machine.execWarmReset p v s
  | .essArm p v => Sys2Proof.Machine.execEssArm p v s
  | .essArmLapse p => Sys2Proof.Machine.execEssArmLapse p s
  | .essFreeze p v => Sys2Proof.Machine.execEssFreeze p v s
  | .essPowerDown p v => Sys2Proof.Machine.execEssPowerDown p v s
  | .essKill p v => Sys2Proof.Machine.execEssKill p v s
  | .essFlr p v => Sys2Proof.Machine.execEssFlr p v s
  | .fusesSensed => Sys2Proof.Machine.execFusesSensed s
  | .eepromFieldsRead readable => Sys2Proof.Machine.execEepromFieldsRead readable s
  | .configSpaceReady p => Sys2Proof.Machine.execConfigSpaceReady p s
  | .millSramReady m badGroups => Sys2Proof.Machine.execMillSramReady m badGroups s
  | .firmwareVerified => Sys2Proof.Machine.execFirmwareVerified s
  | .recoveryImage img => Sys2Proof.Machine.execRecoveryImage img s
  | .securityReady => Sys2Proof.Machine.execSecurityReady s
  | .millCoresReady m badSlots => Sys2Proof.Machine.execMillCoresReady m badSlots s
  | .hbmReady st trained data cmd => Sys2Proof.Machine.execHbmReady st trained data cmd s
  | .linkTrained k lanes peer peerLink delay peerEncrypt polarity => Sys2Proof.Machine.execLinkTrained k lanes peer peerLink delay peerEncrypt s polarity
  | .repulpTableBuilt w => Sys2Proof.Machine.execRepulpTableBuilt w s
  | .tick => Sys2Proof.Machine.execTick s
  | .scheduleOverrun j => Sys2Proof.Machine.execScheduleOverrun j s
  | .reamBoundary => Sys2Proof.Machine.execReamBoundary s
  | .tickMessageSend => Sys2Proof.Machine.execTickMessageSend s
  | .couchCommit j => Sys2Proof.Machine.execCouchCommit j s
  | .roleFoldComplete j => Sys2Proof.Machine.execRoleFoldComplete j s
  | .releaseComplete j n e => Sys2Proof.Machine.execReleaseComplete j s n e
  | .replayQuiesceDone j => Sys2Proof.Machine.execReplayQuiesceDone j s
  | .correctionStorm r n => Sys2Proof.Machine.execCorrectionStorm r n s
  | .vote span m seq v divK duty dead arr => Sys2Proof.Machine.execVote span m seq v divK duty dead s arr
  | .decision span seq d arr lost => Sys2Proof.Machine.execDecision span seq d s arr lost
  | .voteTimeout span m => Sys2Proof.Machine.execVoteTimeout span m s
  | .decisionTimeout span => Sys2Proof.Machine.execDecisionTimeout span s
  | .decisionRequest span m seq arr => Sys2Proof.Machine.execDecisionRequest span m seq s arr
  | .start span tick hops agree arr => Sys2Proof.Machine.execStart span tick hops agree s arr
  | .spanSubmitTimeout span => Sys2Proof.Machine.execSpanSubmitTimeout span s
  | .releaseEnd span stream seq bytes arr => Sys2Proof.Machine.execReleaseEnd span stream seq bytes s arr
  | .stop span cause arr => Sys2Proof.Machine.execStop span cause s arr
  | .statsSnapshot p r => Sys2Proof.Machine.execStatsSnapshot p r s
  | .snapCtrlWrite p v => Sys2Proof.Machine.execSnapCtrlWrite p v s
  | .snapshotFilled p => Sys2Proof.Machine.execSnapshotFilled p s
  | .ciphertextAdd w a b dst e => Sys2Proof.Machine.execCiphertextAdd w a b dst e s
  | .ciphertextSubtract w a b dst e => Sys2Proof.Machine.execCiphertextSubtract w a b dst e s
  | .ciphertextNegate w a dst e => Sys2Proof.Machine.execCiphertextNegate w a dst e s
  | .addPlaintext w a pt dst e => Sys2Proof.Machine.execAddPlaintext w a pt dst e s
  | .multiplyPlaintext w a pt dst e => Sys2Proof.Machine.execMultiplyPlaintext w a pt dst e s
  | .multiplyConstant w a dst c e => Sys2Proof.Machine.execMultiplyConstant w a dst c e s
  | .tensorProduct w a b dst e => Sys2Proof.Machine.execTensorProduct w a b dst e s
  | .relinearise w a dst k e => Sys2Proof.Machine.execRelinearise w a dst k e s
  | .multiplyRelinearise w a b dst k e => Sys2Proof.Machine.execMultiplyRelinearise w a b dst k e s
  | .rotate w a dst r k e => Sys2Proof.Machine.execRotate w a dst r k e s
  | .hoistedRotate w a outs k e => Sys2Proof.Machine.execHoistedRotate w a outs k e s
  | .conjugate w a dst k e => Sys2Proof.Machine.execConjugate w a dst k e s
  | .rescale w a dst e => Sys2Proof.Machine.execRescale w a dst e s
  | .levelDrop w a dst k e => Sys2Proof.Machine.execLevelDrop w a dst k e s
  | .formConversion w a dst toEval e => Sys2Proof.Machine.execFormConversion w a dst toEval e s
  | .repulp w a slot e => Sys2Proof.Machine.execRepulp w a slot e s
  | .ciphertextOutputWritten core e => Sys2Proof.Machine.execCiphertextOutputWritten core e s
  | .coreHalted core => Sys2Proof.Machine.execCoreHalted core s
  | .interludeCouch j => Sys2Proof.Machine.execInterludeCouch j s
  | .macroSheetCouch j finished last bad => Sys2Proof.Machine.execMacroSheetCouch j finished last s bad
  | .interludeResume j => Sys2Proof.Machine.execInterludeResume j s
  | .keyIngest p r src => Sys2Proof.Machine.execKeyIngest p r src s
  | .keyIngestComplete p r => Sys2Proof.Machine.execKeyIngestComplete p r s
  | .keysetBind p r buf => Sys2Proof.Machine.execKeysetBind p r buf s
  | .keysetUnbind p r => Sys2Proof.Machine.execKeysetUnbind p r s
  | .keyringIncomplete p r => Sys2Proof.Machine.execKeyringIncomplete p r s
  | .keySelfcheck p r ok written => Sys2Proof.Machine.execKeySelfcheck p r ok s written
  | .keyStreamStart w slot index d0 d1 l0 l1 group => Sys2Proof.Machine.execKeyStreamStart w slot index d0 d1 l0 l1 group s
  | .keyBlockAcknowledged m stream core e => Sys2Proof.Machine.execKeyBlockAcknowledged m stream core e s
  | .passRequest link src keyset index d0 d1 arr => Sys2Proof.Machine.execPassRequest link src keyset index d0 d1 s arr
  | .keyMessage link h keyset payload line cls => Sys2Proof.Machine.execKeyMessage link h keyset payload s line cls
  | .add w d a b => Sys2Proof.Machine.execAdd w d a b s
  | .sub w d a b => Sys2Proof.Machine.execSub w d a b s
  | .and w d a b => Sys2Proof.Machine.execAnd w d a b s
  | .or w d a b => Sys2Proof.Machine.execOr w d a b s
  | .xor w d a b => Sys2Proof.Machine.execXor w d a b s
  | .shl w d a b => Sys2Proof.Machine.execShl w d a b s
  | .shr w d a b => Sys2Proof.Machine.execShr w d a b s
  | .sar w d a b => Sys2Proof.Machine.execSar w d a b s
  | .min w d a b => Sys2Proof.Machine.execMin w d a b s
  | .max w d a b => Sys2Proof.Machine.execMax w d a b s
  | .minu w d a b => Sys2Proof.Machine.execMinu w d a b s
  | .maxu w d a b => Sys2Proof.Machine.execMaxu w d a b s
  | .cmpeq w d a b => Sys2Proof.Machine.execCmpeq w d a b s
  | .cmplt w d a b => Sys2Proof.Machine.execCmplt w d a b s
  | .cmpltu w d a b => Sys2Proof.Machine.execCmpltu w d a b s
  | .sel w d a b c => Sys2Proof.Machine.execSel w d a b c s
  | .li w d imm => Sys2Proof.Machine.execLi w d imm s
  | .lui w d imm => Sys2Proof.Machine.execLui w d imm s
  | .mul w d a b => Sys2Proof.Machine.execMul w d a b s
  | .mulhu w d a b => Sys2Proof.Machine.execMulhu w d a b s
  | .mulhs w d a b => Sys2Proof.Machine.execMulhs w d a b s
  | .getid w d code => Sys2Proof.Machine.execGetid w d code s
  | .scalarResultWritten core => Sys2Proof.Machine.execScalarResultWritten core s
  | .br w dest => Sys2Proof.Machine.execBr w dest s
  | .brz w a dest => Sys2Proof.Machine.execBrz w a dest s
  | .brnz w a dest => Sys2Proof.Machine.execBrnz w a dest s
  | .call w dest => Sys2Proof.Machine.execCall w dest s
  | .ret w => Sys2Proof.Machine.execRet w s
  | .loop w n reg stopAt => Sys2Proof.Machine.execLoop w n reg stopAt s
  | .ldS w d l size signed => Sys2Proof.Machine.execLdS w d l size signed s
  | .stS w a l size => Sys2Proof.Machine.execStS w a l size s
  | .ldT w t f l form => Sys2Proof.Machine.execLdT w t f l form s
  | .stT w t f l form => Sys2Proof.Machine.execStT w t f l form s
  | .loadDataDelivered core e => Sys2Proof.Machine.execLoadDataDelivered core e s
  | .storeAcknowledged core e => Sys2Proof.Machine.execStoreAcknowledged core e s
  | .sig w sem k => Sys2Proof.Machine.execSig w sem k s
  | .sigApplied core => Sys2Proof.Machine.execSigApplied core s
  | .wait w sem k => Sys2Proof.Machine.execWait w sem k s
  | .sigMessage span sem k arr => Sys2Proof.Machine.execSigMessage span sem k s arr
  | .bar w b => Sys2Proof.Machine.execBar w b s
  | .couch w => Sys2Proof.Machine.execCouch w s
  | .endOp w => Sys2Proof.Machine.execEndOp w s
  | .programLoad p r img => Sys2Proof.Machine.execProgramLoad p r img s
  | .submit p r => Sys2Proof.Machine.execSubmit p r s
  | .mmaStart w m row col prime => Sys2Proof.Machine.execMmaStart w m row col prime s
  | .mmaCont w m => Sys2Proof.Machine.execMmaCont w m s
  | .mmaLastResult core o e => Sys2Proof.Machine.execMmaLastResult core o e s
  | .drain w d => Sys2Proof.Machine.execDrain w d s
  | .drainComplete core o e => Sys2Proof.Machine.execDrainComplete core o e s
  | .nttF w n => Sys2Proof.Machine.execNttF w n s
  | .nttI w n => Sys2Proof.Machine.execNttI w n s
  | .nttLimbWritten core e => Sys2Proof.Machine.execNttLimbWritten core e s
  | .vectorAdd w v a b => Sys2Proof.Machine.execVectorAdd w v a b s
  | .vectorSub w v a b => Sys2Proof.Machine.execVectorSub w v a b s
  | .vectorMul w v a b => Sys2Proof.Machine.execVectorMul w v a b s
  | .fma w v a b c => Sys2Proof.Machine.execFma w v a b c s
  | .neg w v a => Sys2Proof.Machine.execNeg w v a s
  | .abs w v a => Sys2Proof.Machine.execAbs w v a s
  | .vectorMin w v a b => Sys2Proof.Machine.execVectorMin w v a b s
  | .vectorMax w v a b => Sys2Proof.Machine.execVectorMax w v a b s
  | .vectorCmpeq w v a b => Sys2Proof.Machine.execVectorCmpeq w v a b s
  | .vectorCmplt w v a b => Sys2Proof.Machine.execVectorCmplt w v a b s
  | .cmple w v a b => Sys2Proof.Machine.execCmple w v a b s
  | .vectorSel w v a b c => Sys2Proof.Machine.execVectorSel w v a b c s
  | .vectorAnd w v a b => Sys2Proof.Machine.execVectorAnd w v a b s
  | .vectorOr w v a b => Sys2Proof.Machine.execVectorOr w v a b s
  | .vectorXor w v a b => Sys2Proof.Machine.execVectorXor w v a b s
  | .not w v a => Sys2Proof.Machine.execNot w v a s
  | .vectorShl w v a b => Sys2Proof.Machine.execVectorShl w v a b s
  | .vectorShr w v a b => Sys2Proof.Machine.execVectorShr w v a b s
  | .vectorSar w v a b => Sys2Proof.Machine.execVectorSar w v a b s
  | .exp2 w v a => Sys2Proof.Machine.execExp2 w v a s
  | .rcp w v a => Sys2Proof.Machine.execRcp w v a s
  | .rsqrt w v a => Sys2Proof.Machine.execRsqrt w v a s
  | .act w v a f => Sys2Proof.Machine.execAct w v a f s
  | .madd w v a b q => Sys2Proof.Machine.execMadd w v a b q s
  | .msub w v a b q => Sys2Proof.Machine.execMsub w v a b q s
  | .mneg w v a q => Sys2Proof.Machine.execMneg w v a q s
  | .mmul w v a b q => Sys2Proof.Machine.execMmul w v a b q s
  | .mfma w v a b c q => Sys2Proof.Machine.execMfma w v a b c q s
  | .msubmul w v a b c q => Sys2Proof.Machine.execMsubmul w v a b c q s
  | .mcentre w v a q q2 => Sys2Proof.Machine.execMcentre w v a q q2 s
  | .vcvt w v a df q q2 sigma => Sys2Proof.Machine.execVcvt w v a df q q2 sigma s
  | .vmov w d a => Sys2Proof.Machine.execVmov w d a s
  | .vred w v a df kind col q => Sys2Proof.Machine.execVred w v a df kind col q s
  | .vectorResultWritten core e => Sys2Proof.Machine.execVectorResultWritten core e s
  | .handleMap p r buf => Sys2Proof.Machine.execHandleMap p r buf s
  | .handleUnmap p r buf => Sys2Proof.Machine.execHandleUnmap p r buf s
  | .windowOpen p r buf => Sys2Proof.Machine.execWindowOpen p r buf s
  | .windowClose p r buf => Sys2Proof.Machine.execWindowClose p r buf s
  | .bankPowerDown p r => Sys2Proof.Machine.execBankPowerDown p r s
  | .bankPowerUp p r => Sys2Proof.Machine.execBankPowerUp p r s
  | .bankGroupDark m g => Sys2Proof.Machine.execBankGroupDark m g s
  | .bankGroupWiped m g => Sys2Proof.Machine.execBankGroupWiped m g s
  | .bankGroupOff m g => Sys2Proof.Machine.execBankGroupOff m g s
  | .evacuationDone m g ok => Sys2Proof.Machine.execEvacuationDone m g ok s
  | .xcopyMove w h src dst slices => Sys2Proof.Machine.execXcopyMove w h src dst slices s
  | .xcopyTranspose w h src dst slices => Sys2Proof.Machine.execXcopyTranspose w h src dst slices s
  | .xcopyGalois w h src dst n g limbs stride => Sys2Proof.Machine.execXcopyGalois w h src dst n g limbs stride s
  | .xcopyGather w h src dst index => Sys2Proof.Machine.execXcopyGather w h src dst index s
  | .xcopyStagingGranted core queue => Sys2Proof.Machine.execXcopyStagingGranted core queue s
  | .xcopyComplete core queue e => Sys2Proof.Machine.execXcopyComplete core queue e s
  | .xcRaceSeenWrite p v => Sys2Proof.Machine.execXcRaceSeenWrite p v s
  | .strm w f => Sys2Proof.Machine.execStrm w f s
  | .strmMark w channel mark outbound => Sys2Proof.Machine.execStrmMark w channel mark outbound s
  | .streamElementComplete core channel host e upTo => Sys2Proof.Machine.execStreamElementComplete core channel host e s upTo
  | .atsTranslationCompletion p pasid page x => Sys2Proof.Machine.execAtsTranslationCompletion p pasid page x s
  | .pageRequest p pasid page => Sys2Proof.Machine.execPageRequest p pasid page s
  | .pageResponse p pasid page r => Sys2Proof.Machine.execPageResponse p pasid page r s
  | .pageTimeout j stream ring => Sys2Proof.Machine.execPageTimeout j stream s ring
  | .atsInvalidation p pasid page len => Sys2Proof.Machine.execAtsInvalidation p pasid page len s
  | .pcRetrain pc => Sys2Proof.Machine.execPcRetrain pc s
  | .pcRetrainDone pc data cmd => Sys2Proof.Machine.execPcRetrainDone pc data cmd s
  | .migrationDone pc lost => Sys2Proof.Machine.execMigrationDone pc lost s
  | .unitFilled m k => Sys2Proof.Machine.execUnitFilled m k s
  | .patrolScrub pc byte corrected e => Sys2Proof.Machine.execPatrolScrub pc byte corrected e s
  | .selfRefreshIdle st => Sys2Proof.Machine.execSelfRefreshIdle st s
  | .jobCreate p r => Sys2Proof.Machine.execJobCreate p r s
  | .jobKill p r => Sys2Proof.Machine.execJobKill p r s
  | .jobWiped j => Sys2Proof.Machine.execJobWiped j s
  | .policySetPeriod p r groupJobs => Sys2Proof.Machine.execPolicySetPeriod p r s groupJobs
  | .policySetReam p r => Sys2Proof.Machine.execPolicySetReam p r s
  | .policySetTimeout p r => Sys2Proof.Machine.execPolicySetTimeout p r s
  | .policySetSelftestInterval p r => Sys2Proof.Machine.execPolicySetSelftestInterval p r s
  | .policySetAdminCap p r => Sys2Proof.Machine.execPolicySetAdminCap p r s
  | .policySetAdmission p r => Sys2Proof.Machine.execPolicySetAdmission p r s
  | .policySetQuota p r => Sys2Proof.Machine.execPolicySetQuota p r s
  | .busError p off q data => Sys2Proof.Machine.execBusError p off q s data
  | .registerWrite p off v => Sys2Proof.Machine.execRegisterWrite p off v s
  | .errStatusWrite p v => Sys2Proof.Machine.execErrStatusWrite p v s
  | .errrecValidWrite p hi v => Sys2Proof.Machine.execErrrecValidWrite p hi v s
  | .bar2Read p off len e => Sys2Proof.Machine.execBar2Read p off len e s
  | .bar2Write p off data e => Sys2Proof.Machine.execBar2Write p off data e s
  | .msixUnmask p vector => Sys2Proof.Machine.execMsixUnmask p vector s
  | .heartbeat => Sys2Proof.Machine.execHeartbeat s
  | .doorbell p r v => Sys2Proof.Machine.execDoorbell p r v s
  | .ringEnable p r v => Sys2Proof.Machine.execRingEnable p r v s
  | .ringDisable p r v => Sys2Proof.Machine.execRingDisable p r v s
  | .cqHeadWrite p r v => Sys2Proof.Machine.execCqHeadWrite p r v s
  | .commandFetch p r bytes => Sys2Proof.Machine.execCommandFetch p r bytes s
  | .evEnable p v => Sys2Proof.Machine.execEvEnable p v s
  | .evHeadWrite p v => Sys2Proof.Machine.execEvHeadWrite p v s
  | .eventRecordPost p => Sys2Proof.Machine.execEventRecordPost p s
  | .queryPrimes p r ok written => Sys2Proof.Machine.execQueryPrimes p r ok s written
  | .queryParamset p r ok written => Sys2Proof.Machine.execQueryParamset p r ok s written
  | .queryReady p r ok written => Sys2Proof.Machine.execQueryReady p r ok s written
  | .selftestCore p r => Sys2Proof.Machine.execSelftestCore p r s
  | .selftestModule p r => Sys2Proof.Machine.execSelftestModule p r s
  | .selftestTurn m => Sys2Proof.Machine.execSelftestTurn m s
  | .scanDone b pass sig => Sys2Proof.Machine.execScanDone b pass s sig
  | .attest p r ok torn => Sys2Proof.Machine.execAttest p r ok s torn
  | .fwUpdate p r img => Sys2Proof.Machine.execFwUpdate p r img s
  | .fwUpdateDone p r => Sys2Proof.Machine.execFwUpdateDone p r s
  | .linkRoute p r buf => Sys2Proof.Machine.execLinkRoute p r buf s
  | .debugUnlock p r token c => Sys2Proof.Machine.execDebugUnlock p r token c s
  | .adminPortChange p r token c => Sys2Proof.Machine.execAdminPortChange p r token c s
  | .retire p r token c => Sys2Proof.Machine.execRetire p r token c s
  | .svnAdvance blown => Sys2Proof.Machine.execSvnAdvance s blown
  | .hssBucketRefill torn => Sys2Proof.Machine.execHssBucketRefill s torn
  | .pkeOperationDone owner op operands arrived => Sys2Proof.Machine.execPkeOperationDone owner op operands arrived s
  | .getVersion p => Sys2Proof.Machine.execGetVersion p s
  | .getCapabilities p => Sys2Proof.Machine.execGetCapabilities p s
  | .negotiateAlgorithms p offered => Sys2Proof.Machine.execNegotiateAlgorithms p offered s
  | .getDigests p => Sys2Proof.Machine.execGetDigests p s
  | .getCertificate p slot => Sys2Proof.Machine.execGetCertificate p slot s
  | .challenge p slot nonce => Sys2Proof.Machine.execChallenge p slot nonce s
  | .getMeasurements p index nonce => Sys2Proof.Machine.execGetMeasurements p index nonce s
  | .keyExchange p peer => Sys2Proof.Machine.execKeyExchange p peer s
  | .finish p session => Sys2Proof.Machine.execFinish p session s
  | .spdmHeartbeat p session => Sys2Proof.Machine.execSpdmHeartbeat p session s
  | .keyUpdate p session => Sys2Proof.Machine.execKeyUpdate p session s
  | .endSession p session => Sys2Proof.Machine.execEndSession p session s
  | .ideKmKeyProg p session stream rx => Sys2Proof.Machine.execIdeKmKeyProg p session stream rx s
  | .kSetGo p session stream => Sys2Proof.Machine.execKSetGo p session stream s
  | .pcieEqualisation p => Sys2Proof.Machine.execPcieEqualisation p s
  | .linkTrainingRetry k => Sys2Proof.Machine.execLinkTrainingRetry k s
  | .laneRecalibration k lane ok begins => Sys2Proof.Machine.execLaneRecalibration k lane ok s begins
  | .laneRetired k lane corrections => Sys2Proof.Machine.execLaneRetired k lane corrections s
  | .linkRetryExhausted k resent quietUs => Sys2Proof.Machine.execLinkRetryExhausted k resent quietUs s
  | .linkRetrainDone k ok found lost => Sys2Proof.Machine.execLinkRetrainDone k ok s found lost
  | .dataFlit k h payload good auth line cls => Sys2Proof.Machine.execDataFlit k h payload good auth s line cls
  | .idle k h line => Sys2Proof.Machine.execIdle k h s line
  | .nak k seq => Sys2Proof.Machine.execNak k seq s
  | .grant span stream credits arr => Sys2Proof.Machine.execGrant span stream credits s arr
  | .tickMessage k tickNo period hops delay arr => Sys2Proof.Machine.execTickMessage k tickNo period hops delay s arr
  | .masterLost reachable => Sys2Proof.Machine.execMasterLost reachable s
  | .ping k stamp arr => Sys2Proof.Machine.execPing k stamp s arr
  | .pong k delay arr => Sys2Proof.Machine.execPong k delay s arr
  | .delayMeasurement => Sys2Proof.Machine.execDelayMeasurement s
  | .linkRekey k => Sys2Proof.Machine.execLinkRekey k s
  | .linkAuthDown k failures => Sys2Proof.Machine.execLinkAuthDown k failures s
  | .pwrGood moduleId freezeN => Sys2Proof.Machine.execPwrGood moduleId freezeN s
  | .vinInOperatingRange vin => Sys2Proof.Machine.execVinInOperatingRange vin s
  | .crystalRecovered => Sys2Proof.Machine.execCrystalRecovered s
  | .firmwareRestarted => Sys2Proof.Machine.execFirmwareRestarted s
  | .hbStale us => Sys2Proof.Machine.execHbStale us s
  | .keyringBindComplete p r => Sys2Proof.Machine.execKeyringBindComplete p r s
  | .priReset p ats pri pasid alloc => Sys2Proof.Machine.execPriReset p ats pri pasid s alloc

end Sys2Proof.Machine
end

