-- ==== Sys2Proof/Machine/Step.lean ====
section
/-! DEFINITION. One step of the block: the command at the front of the queue, or nothing. -/

namespace Sys2Proof.Machine
open Sys2Proof

/-- One step: the command at the front of the queue acts on the state with the rest of the queue; with an empty queue
the block idles, a safe shutdown ends, and a retirement that has begun goes on (assumption 1).
DESIGN CHOICE, safe (assumption 1); DESIGN CHOICE, safe (assumption 11); DEDUCED, unsafe (assumption 127). -/
def step (s : State) : Host.Outcome State Fault Refusal :=
  match s.pending with
  | [] => .next s.idle
  | c :: rest => exec c { s with pending := rest }

/-- The state with the command that a table word spells in front of its queue.
DESIGN CHOICE, safe (assumption 11). -/
def State.withFetchWord (s : State) (nbits w : Nat) : State :=
  match decodeTableWord nbits w with
  | some c => { s with pending := c :: s.pending }
  | none => s

end Sys2Proof.Machine
end

