-- ==== Sys2Proof/WellFormed.lean ====
section
/-! DEFINITION. Which commands the spec's encodings and rules can present: the ranges of the numbers a command carries.
`exec` gives every command an effect, well-formed or not; a number out of range meets the fault, the error or the
discard that the rules name for it, or names nothing. -/

namespace Sys2Proof

/-- A mill of the module (R3). -/
def wfMill (m : Nat) : Bool := m < 4
/-- A quire link Q0 to Q23 (R3). -/
def wfLink (k : Nat) : Bool := k < 24
/-- A job (R368). -/
def wfJob (j : Nat) : Bool := 1 ≤ j && j ≤ 16
/-- A logical core (R3). -/
def wfCore (n : Nat) : Bool := n < 64
/-- An expander of a headbox, of its sixteen (R178). -/
def wfHb : HbCheck → Bool
  | .expander i => i < 16
  | _ => true
/-- A bank group of a mill (R290). -/
def wfGroup (m g : Nat) : Bool := wfMill m && g < 128
/-- A command ring (R402). -/
def wfRing (r : Nat) : Bool := r < 8
/-- A pseudo-channel of the module (R347). -/
def wfPc (c : Nat) : Bool := c < 768
/-- A stack of HBM (R2). -/
def wfStack (k : Nat) : Bool := k < 12
/-- A module of a domain (R431). -/
def wfModule (m : Nat) : Bool := m < 128
/-- A span identifier (R431). -/
def wfSpan (i : Nat) : Bool := 1 ≤ i && i < 65536

/-- Where an operation issues: a logical core (R207). -/
def wfIssue (i : Issue) : Bool := wfCore i.core

/-- A handle number and a byte offset of 64 bits (R213, R416). -/
def wfLoc (l : Loc) : Bool := l.h < 65536 && l.off < 2 ^ 64

/-- A register offset of BAR0 (R386). -/
def wfOff (off : Nat) : Bool := off < 2 ^ 25 && off % 4 == 0

/-- A key slot and an index in its manifest (R163, R153). -/
def wfKey (k : KeyRef) : Bool := k.slot < 256 && k.index < 65536 && wfLoc k.scratch

/-- The header of a flit (R422). -/
def wfHdr (h : FlitHdr) : Bool :=
  wfModule h.dst && wfModule h.src && h.seq < 4096 && h.ack < 4096 && h.credClass < 8 && h.credits < 8192 &&
    h.span < 65536 && h.tag < 65536

/-- The flit that brings a message (R422): it comes on a link, or no flit of it is described. -/
def wfArr (a : Option Arrival) : Bool := a.all fun a => wfLink a.k && a.cls < 256 && wfHdr a.hdr

/-- What the training of a link finds (R418). -/
def wfTraining (t : Option Training) : Bool := t.all fun t => wfModule t.peer && wfLink t.peerLink

/-- A firmware image: its header has 4,096 bytes (R448). -/
def wfImage (i : FwImage) : Bool := i.header.length == 4096

/-- The operand of an array product (R233). -/
def wfMSrc : MSrc → Bool
  | .tile _ => true
  | .panel l _ => wfLoc l

/-- A resource that a storm can strike (R111). -/
def wfStorm : StormRes → Bool
  | .group m g => wfGroup m g
  | .pc c => wfPc c

/-- How a copied matrix lies (R315). -/
def wfMat (x : Mat) : Bool := wfLoc x.loc && x.rows < 2 ^ 32 && x.cols < 2 ^ 32

/-- A well-formed command. -/
def Instr.wf : Instr → Bool
  | .coldReset vin _ | .vinBelowSafeShutdown vin | .vinLow vin | .vinInOperatingRange vin => vin < 2 ^ 16
  | .portLinkUp _ _ width _ _ => [1, 2, 4, 8, 16].contains width
  | .eepromWrite addr _ dev => dev < 128 && addr < 8192
  | .mctpEventRead dev => dev < 128
  | .integratorCapSet w dev => dev < 128 && w < 2 ^ 16
  | .sensorSample r => r.mills.length == 4 && r.hbm.length == 12
  | .thermalThrottleStep m | .thermalRecoveryStep m => m ≤ 4
  | .dividerRampStep d => d ≤ 17
  | .railRaised m | .millSramReady m _ | .millCoresReady m _ | .selftestTurn m => wfMill m
  | .firmwareRestore _ m _ => wfMill m
  | .firmwareCapEval _ n pt => n ≤ 4 && pt.divK ≤ 64 && pt.duty ≤ 16
  | .hbmReady k _ data cmd => wfStack k && data.all (fun c => c.1 < 64) && cmd.all fun c => c.1 < 32
  | .selfRefreshIdle k => wfStack k
  | .linkTrained k _ peer peerLink _ _ _ => wfLink k && wfModule peer && wfLink peerLink
  | .repulpTableBuilt i => i < 64
  | .scheduleOverrun j | .couchCommit j | .roleFoldComplete j | .releaseComplete j _ _ | .replayQuiesceDone j
  | .interludeCouch j | .macroSheetCouch j _ _ _ | .interludeResume j | .jobWiped j => wfJob j
  | .pageTimeout j _ ring => wfJob j && ring.all fun r => wfRing r.2
  | .correctionStorm r _ => wfStorm r
  | .vote span m _ _ _ _ _ arr => wfSpan span && wfModule m && wfArr arr
  | .ciphertextAdd i a b d _ | .ciphertextSubtract i a b d _ | .tensorProduct i a b d _ | .addPlaintext i a b d _
  | .multiplyPlaintext i a b d _ => wfIssue i && wfLoc a && wfLoc b && wfLoc d
  | .ciphertextNegate i a d _ | .multiplyConstant i a d _ _ | .rescale i a d _ | .levelDrop i a d _ _
  | .formConversion i a d _ _ => wfIssue i && wfLoc a && wfLoc d
  | .relinearise i a d k _ | .rotate i a d _ k _ | .conjugate i a d k _ => wfIssue i && wfLoc a && wfLoc d && wfKey k
  | .multiplyRelinearise i a b d k _ => wfIssue i && wfLoc a && wfLoc b && wfLoc d && wfKey k
  | .hoistedRotate i a outs k _ => !outs.isEmpty && wfIssue i && wfLoc a && wfKey k && outs.all fun x => wfLoc x.1
  | .repulp i a slot _ => wfIssue i && wfLoc a && slot < 256
  | .ciphertextOutputWritten n _ | .coreHalted n | .scalarResultWritten n | .loadDataDelivered n _
  | .storeAcknowledged n _ | .sigApplied n | .mmaLastResult n _ _ | .drainComplete n _ _ | .nttLimbWritten n _
  | .vectorResultWritten n _ | .xcopyStagingGranted n _ | .xcopyComplete n _ _ => wfCore n
  | .streamElementComplete n c _ _ _ => wfCore n && c < 8
  | .keyIngest _ r _ | .keyIngestComplete _ r | .keysetBind _ r _ | .keysetUnbind _ r | .keyringIncomplete _ r
  | .keySelfcheck _ r _ _ | .programLoad _ r _ | .submit _ r | .handleMap _ r _ | .handleUnmap _ r _ | .windowOpen _ r _
  | .windowClose _ r _ | .bankPowerDown _ r | .bankPowerUp _ r | .jobCreate _ r | .jobKill _ r | .policySetPeriod _ r _
  | .policySetReam _ r | .policySetTimeout _ r | .policySetSelftestInterval _ r | .policySetAdminCap _ r
  | .policySetAdmission _ r | .policySetQuota _ r | .clockReselect _ r | .doorbell _ r _ | .ringEnable _ r _
  | .ringDisable _ r _ | .cqHeadWrite _ r _ | .queryPrimes _ r _ _ | .queryParamset _ r _ _ | .queryReady _ r _ _
  | .selftestCore _ r | .selftestModule _ r | .attest _ r _ _ | .fwUpdateDone _ r | .linkRoute _ r _
  | .debugUnlock _ r _ _ | .adminPortChange _ r _ _ | .retire _ r _ _ | .keyringBindComplete _ r
  | .statsSnapshot _ r => wfRing r
  | .fwUpdate _ r img => wfRing r && img.all wfImage
  | .recoveryImage img => wfImage img
  | .svnAdvance blown => blown ≤ 64
  | .commandFetch _ r b => wfRing r && b.length == 64
  | .keyBlockAcknowledged m st c e => wfMill m && st < 8 && wfCore c && wfHb e
  | .keyStreamStart i slot index _ _ _ _ group => wfIssue i && slot < 256 && index < 65536 && group.all wfCore
  | .passRequest k m set _ _ _ arr => wfArr arr && wfLink k && wfModule m && set.length == 16
  | .keyMessage k h set _ _ _ => wfLink k && wfHdr h && set.length == 16
  | .add i _ _ _ | .sub i _ _ _ | .and i _ _ _ | .or i _ _ _ | .xor i _ _ _ | .shl i _ _ _ | .shr i _ _ _
  | .sar i _ _ _ | .min i _ _ _ | .max i _ _ _ | .minu i _ _ _ | .maxu i _ _ _ | .cmpeq i _ _ _ | .cmplt i _ _ _
  | .cmpltu i _ _ _ | .sel i _ _ _ _ | .li i _ _ | .lui i _ _ | .mul i _ _ _ | .mulhu i _ _ _ | .mulhs i _ _ _
  | .ret i | .couch i | .endOp i => wfIssue i
  | .getid i _ code => wfIssue i && code ≤ 2
  | .br i d | .brz i _ d | .brnz i _ d | .call i d | .loop i _ _ d => wfIssue i && d < 2 ^ 18
  | .ldS i _ l n _ | .stS i _ l n => wfIssue i && wfLoc l && (n == 1 || n == 2 || n == 4 || n == 8)
  | .ldT i _ _ l _ | .stT i _ _ l _ => wfIssue i && wfLoc l
  | .sig i sem k | .wait i sem k => wfIssue i && sem < 256 && 1 ≤ k && k ≤ 255
  | .sigMessage span sem k arr => wfArr arr && wfSpan span && sem < 256 && 1 ≤ k && k ≤ 255
  | .bar i b => wfIssue i && b < 32
  | .mmaStart i m _ _ _ | .mmaCont i m => wfIssue i && wfMSrc m.a && wfMSrc m.b
  | .drain i _ => wfIssue i
  | .nttF i n | .nttI i n => wfIssue i && wfLoc n.src && wfLoc n.dst
  | .vectorAdd i _ _ _ | .vectorSub i _ _ _ | .vectorMul i _ _ _ | .fma i _ _ _ _ | .neg i _ _ | .abs i _ _
  | .vectorMin i _ _ _ | .vectorMax i _ _ _ | .vectorCmpeq i _ _ _ | .vectorCmplt i _ _ _ | .cmple i _ _ _
  | .vectorSel i _ _ _ _ | .vectorAnd i _ _ _ | .vectorOr i _ _ _ | .vectorXor i _ _ _ | .not i _ _
  | .vectorShl i _ _ _ | .vectorShr i _ _ _ | .vectorSar i _ _ _ | .exp2 i _ _ | .rcp i _ _ | .rsqrt i _ _
  | .act i _ _ _ | .madd i _ _ _ _ | .msub i _ _ _ _ | .mneg i _ _ _ | .mmul i _ _ _ _ | .mfma i _ _ _ _ _
  | .msubmul i _ _ _ _ _ | .mcentre i _ _ _ _ | .vcvt i _ _ _ _ _ _ | .vmov i _ _ => wfIssue i
  | .vred i _ _ _ kind _ _ => wfIssue i && kind ≤ 3
  | .bankGroupDark m g | .bankGroupWiped m g | .bankGroupOff m g | .evacuationDone m g _ => wfGroup m g
  | .xcopyMove i _ a b _ | .xcopyTranspose i _ a b _ | .xcopyGather i _ a b _ => wfIssue i && wfMat a && wfMat b
  | .xcopyGalois i _ a b _ _ _ _ => wfIssue i && wfMat a && wfMat b
  | .strm i f => wfIssue i && f.channel < 8 && wfLoc f.far && wfLoc f.buf && f.dims.length ≤ 5
  | .strmMark i c _ _ => wfIssue i && c < 8
  | .atsTranslationCompletion _ pasid _ _ | .pageRequest _ pasid _ | .pageResponse _ pasid _ _
  | .atsInvalidation _ pasid _ _ => pasid < 2 ^ 20
  | .pcRetrain c | .pcRetrainDone c _ _ | .patrolScrub c _ _ _ => wfPc c
  | .migrationDone c lost => wfPc c && lost.all fun b => b % 256 == 0 && b < 805306368
  | .unitFilled m _ => m ≤ 4
  | .busError _ off q _ => off < 2 ^ 25 && 1 ≤ q.dws
  | .registerWrite _ off _ => wfOff off
  | .msixUnmask _ v => v < 64
  | .linkTrainingRetry k | .linkRetryExhausted k _ _ | .idle k _ _
  | .nak k _ | .linkRekey k | .linkAuthDown k _ => wfLink k
  | .linkRetrainDone k _ found lost => wfLink k && wfTraining found && lost.all wfModule
  | .dataFlit k h _ _ _ _ cls => wfLink k && wfHdr h && cls < 256
  | .tickMessage k _ _ _ _ arr | .ping k _ arr | .pong k _ arr => wfLink k && wfArr arr
  | .laneRecalibration k lane _ _ | .laneRetired k lane _ => wfLink k && lane < 5
  | .masterLost l => l.all wfModule
  | .voteTimeout span m => wfSpan span && wfModule m
  | .decisionRequest span m _ arr => wfSpan span && wfModule m && wfArr arr
  | .decisionTimeout span | .spanSubmitTimeout span => wfSpan span
  | .decision span _ _ arr _ | .start span _ _ _ arr | .releaseEnd span _ _ _ arr | .stop span _ arr | .grant span _ _ arr =>
    wfSpan span && wfArr arr
  | .ideKmKeyProg _ _ k _ | .kSetGo _ _ k => k ≤ 2
  | .pwrEnDeassert | .freeze _ | .perstAssert _ | .perstDeassert _ _ | .hotReset _ | .flr _ | .d3hotEntry _
  | .jtagAccess _ _ | .regulatorCapStep | .regulatorCapRestore | .sensorCalibration
  | .hardwareLimiter _ | .limiterRelease _ | .clockMonitorWindow _ _ | .referenceEdgeTimeout _ | .pllRelock
  | .limpQuiesceComplete | .sysrefQualified | .fmcStart _ _ | .fmcDone _ _ _ | .warmReset _ _ | .essArm _ _
  | .essArmLapse _ | .essFreeze _ _ | .essPowerDown _ _ | .essKill _ _ | .essFlr _ _ | .fusesSensed
  | .eepromFieldsRead _ | .configSpaceReady _ | .firmwareVerified | .securityReady | .tick
  | .reamBoundary | .tickMessageSend | .snapCtrlWrite _ _ | .snapshotFilled _ | .xcRaceSeenWrite _ _
  | .errStatusWrite _ _ | .errrecValidWrite _ _ _ | .bar2Read _ _ _ _ | .bar2Write _ _ _ _ | .heartbeat
  | .evEnable _ _ | .evHeadWrite _ _ | .eventRecordPost _ | .scanDone _ _ _ | .hssBucketRefill _
  | .pkeOperationDone _ _ _ _ | .getVersion _ | .getCapabilities _ | .negotiateAlgorithms _ _ | .getDigests _
  | .getCertificate _ _ | .challenge _ _ _ | .getMeasurements _ _ _ | .keyExchange _ _ | .finish _ _
  | .spdmHeartbeat _ _ | .keyUpdate _ _ | .endSession _ _ | .pcieEqualisation _ | .delayMeasurement | .pwrGood _ _
  | .crystalRecovered | .firmwareRestarted | .hbStale _ | .priReset _ _ _ _ _ => true

end Sys2Proof
end

