-- ==== Sys2Proof/Safety.lean ====
section
/-! DEFINITION. What a claim may call safe: the states whose memories are in canonical form, and the steps that neither
fault nor refuse. -/

namespace Sys2Proof

/-- The memories of a state are in their one canonical form: rising addresses, no byte that reads as an unlisted one. -/
def Machine.State.memWf (s : Machine.State) : Bool := s.sram.wf && s.hbm.wf && s.eeprom.wf

/-- The invariant of the block: its memories are canonical. -/
abbrev Machine.State.Inv (s : Machine.State) : Prop := s.memWf = true

/-- A step that goes on. -/
def Goes (o : Host.Outcome Machine.State Machine.Fault Machine.Refusal) : Prop := ∃ t, o = .next t

/-- A safe state: the invariant holds, and the step from it goes on. -/
def Safe (s : Machine.State) : Prop := s.Inv ∧ Goes (Machine.step s)

end Sys2Proof
end

