-- ==== Sys2Proof/Certificates/Slice0/Obligations.lean ====
section
/-! DEFINITION. What is claimed of the block: one proposition for each obligation, after the few words that they share. -/

namespace Sys2Proof.Claims
open Sys2Proof.Machine

/-- The operation comes alone in its bundle and may issue (R199, R208, R228): the core runs, the program store reads well, the operation
writes no register twice, and its slot, its registers and its memory are free. -/
abbrev CanIssue (s : State) (i : Issue) (u : Uses) : Prop :=
  s.canIssue i.core = true ∧ (s.core i.core).staged = [] ∧ i.last = true ∧ i.good = true ∧ u.writes.Nodup ∧ s.blocked i.core u = false

/-- The core with the stamp of its next operation. -/
def began (s : State) (i : Issue) : State := s.modCore i.core fun c => { c with stamp := c.stamp + 1 }

/-- After its operations a bundle ends: the sequencer goes on, or waits as the bundle says (R208, R212). -/
def ended (i : Issue) (t : State) (b : Branch := .none) (m : CoreMode := .issuing) : State := t.endBundle i.core b m

/-- The grade has the formats and engines that an operation uses (R225, R227). -/
abbrev Present (s : State) (fs : List Fmt) (es : List Nat) : Prop := s.absentFmts fs = 0 ∧ s.absentEngines es = 0

/-- A ring holds a command of an opcode that the module has not accepted yet, and it may take effect now: the module runs and is not
retired, no command of the same job was read before it, the state of its job accepts it, and its buffer can be reached (R371, R402, R404,
R406, R445). -/
abbrev Holds (s : State) (p : Port) (r opcode : Nat) (c : Bytes) : Prop :=
  (s.ring p r).current = some c ∧ field c 0 1 = opcode ∧ (s.ring p r).held = false ∧ s.live = true ∧ s.sec.fuses.retired = false ∧
    s.turn p r c = true ∧ s.jobTakes c = true ∧ s.bufFirst p c = .go

end Sys2Proof.Claims

open Sys2Proof Sys2Proof.Machine Sys2Proof.Claims

/-! ### The whole machine -/

/-- A step takes the front of the queue and runs it on the state with the rest of the queue; with an empty queue the block
idles, a safe shutdown ends, and a retirement whose first fuse is blown blows the second (the model's choices, assumptions 1 and 174).
Choices of the model: assumptions 1 and 127. -/
def Obligations.StepRunsFront : Prop :=
  (∀ (c : Instr) (rest : List Instr) (s : State), s.pending = c :: rest → step s = exec c { s with pending := rest }) ∧
    ∀ s : State, s.pending = [] → step s = .next (if s.pins.power = .shutdown then s.lost .off else match s.sec.token with
      | some w => if w.retire = true ∧ s.sec.fuses.udsKill = true then s.retireNow w else s
      | none => s)

/-- Reset: the memories are empty and in canonical form, no job or link exists, the ready bitmap is zero, every MSI-X vector is masked, and the
policies and the sheet have their defaults (R17, R76, R88, R95, R117, R366, R400).
Choices of the model: assumption 10. -/
def Obligations.ResetState : Prop :=
  State.reset.Inv ∧ State.reset.ready = 0 ∧ State.reset.pending = [] ∧ State.reset.jobNums = [] ∧ State.reset.route = none ∧
    (∀ k, (State.reset.link k).st = .off) ∧ (∀ a, State.reset.sram.get a = 0 ∧ State.reset.hbm.get a = 0) ∧
    State.reset.period = 100 ∧ State.reset.reamLen = 10000 ∧ State.reset.timeoutMs = 50 ∧ State.reset.selftestHours = 24 ∧
    State.reset.clk.adminCap = 1000 ∧ State.reset.admitA = true ∧ State.reset.admitB = true ∧ State.reset.quotaJobs = 16 ∧
    State.reset.quotaCores = 64 ∧ State.reset.admissions = 0 ∧
    ∀ p, (State.reset.port p).msixMask = BitVec.allOnes 64 ∧ (State.reset.port p).linkUp = false ∧ (State.reset.port p).armed = 0 ∧
      ∀ r, (State.reset.ring p r).current = none

/-- Every step keeps the memories in their canonical form: addresses rise, and no byte is listed that reads as an unlisted
one.
Choices of the model: assumption 10. -/
def Obligations.StepKeepsCanonical : Prop := ∀ s t : State, s.Inv → step s = .next t → t.Inv

/-- No command stops the block: each one acts, waits, is refused by a completion or is discarded.
Choices of the model: assumptions 2, 3 and 4. -/
def Obligations.NoCommandStops : Prop := ∀ (c : Instr) (s : State), ∃ t, exec c s = .next t

/-- No command changes the queue, only a fuse blown through JTAG in lifecycle MANUFACTURE changes the grade, and only EEPROM_WRITE changes
the EEPROM. -/
def Sys2Proof.Claims.QueueGradeEeprom : Prop :=
  ∀ (c : Instr) (s t : State), exec c s = .next t →
    t.pending = s.pending ∧ (t.grade = s.grade ∨ s.sec.lifecycle = 0 ∧ ∃ x n, c = .jtagAccess (.grade x) n) ∧
      (t.eeprom = s.eeprom ∨ ∃ dev a d, c = .eepromWrite a d dev)

/-- The commands that may change the tick number or the sheet period: the tick itself, a TICK of the group's master, and what
removes power. -/
def Sys2Proof.Claims.movesTick : Instr → Bool
  | .tick | .tickMessage .. | .coldReset .. | .pwrEnDeassert | .vinBelowSafeShutdown .. | .sensorSample .. | .warmReset .. | .essFreeze ..
  | .essPowerDown .. | .registerWrite .. | .attest .. | .hssBucketRefill .. => true
  | _ => false

/-- The tick number and the period in use stay as they are under every other command. -/
def Sys2Proof.Claims.TickFrame : Prop :=
  ∀ (c : Instr) (s t : State), Claims.movesTick c = false → exec c s = .next t → t.tick = s.tick ∧ t.period = s.period

/-- The commands that may change a byte of SRAM or HBM, whatever stands before them in their bundle. -/
def Sys2Proof.Claims.writesMemory : Instr → Bool
  | .stS .. | .storeAcknowledged .. | .stT .. | .drain .. | .nttF .. | .nttI .. | .ciphertextOutputWritten .. | .xcopyMove .. | .xcopyTranspose .. | .xcopyGalois ..
  | .ciphertextAdd .. | .ciphertextSubtract .. | .ciphertextNegate .. | .addPlaintext ..
  | .multiplyPlaintext .. | .multiplyConstant .. | .tensorProduct .. | .relinearise .. | .multiplyRelinearise .. | .rotate .. | .hoistedRotate ..
  | .conjugate .. | .rescale .. | .levelDrop .. | .formConversion .. | .xcopyGather .. | .streamElementComplete .. | .releaseEnd .. | .bar2Write .. | .coreHalted .. | .interludeCouch .. | .macroSheetCouch ..
  | .interludeResume .. | .tick | .vote .. | .decision .. | .voteTimeout .. | .replayQuiesceDone .. | .limpQuiesceComplete
  | .bankGroupWiped .. | .unitFilled .. | .migrationDone .. | .patrolScrub .. | .coldReset .. | .pwrEnDeassert | .vinBelowSafeShutdown .. | .sensorSample ..
  | .warmReset .. | .essFreeze .. | .essPowerDown .. | .registerWrite .. | .keyIngestComplete .. | .keysetBind .. | .keysetUnbind ..
  | .keyringBindComplete .. | .programLoad .. | .couchCommit .. | .drainComplete .. | .xcopyComplete .. | .scanDone .. | .attest ..
  | .hssBucketRefill .. => true
  | _ => false

/-- Every byte of SRAM and HBM stays as it is under every other command, where no operation that stores waits in a bundle. -/
def Sys2Proof.Claims.MemoryFrame : Prop :=
  ∀ (c : Instr) (s t : State), Claims.writesMemory c = false → (∀ n, ∀ x ∈ (s.core n).staged, Claims.writesMemory x = false) → exec c s = .next t → ∀ a, t.sram.get a = s.sram.get a ∧ t.hbm.get a = s.hbm.get a

/-! ### Scalar unit -/

/-- A scalar operation of one cycle: its result is in its register when the bundle ends. -/
def Sys2Proof.Claims.oneCycle (s : State) (i : Issue) (d : SReg) (v : Word) : State :=
  ended i ((began s i).modCore i.core fun c => { c with sreg := Tbl.set c.sreg d.toNat v })

/-- The fifteen operations of two registers: the result of each, for every pair of operands (R211). -/
def Sys2Proof.Claims.ScalarAlu : Prop :=
  ∀ (s : State) (i : Issue) (d a b : SReg), CanIssue s i { reads := [rS a, rS b], writes := [rS d] } →
    let x := (s.core i.core).s a
    let y := (s.core i.core).s b
    let k := y.toNat % 64
    exec (.add i d a b) s = .next (oneCycle s i d (x + y)) ∧ exec (.sub i d a b) s = .next (oneCycle s i d (x - y)) ∧
    exec (.and i d a b) s = .next (oneCycle s i d (x &&& y)) ∧ exec (.or i d a b) s = .next (oneCycle s i d (x ||| y)) ∧
    exec (.xor i d a b) s = .next (oneCycle s i d (x ^^^ y)) ∧ exec (.shl i d a b) s = .next (oneCycle s i d (x <<< k)) ∧
    exec (.shr i d a b) s = .next (oneCycle s i d (x >>> k)) ∧ exec (.sar i d a b) s = .next (oneCycle s i d (x.sshiftRight k)) ∧
    exec (.min i d a b) s = .next (oneCycle s i d (if x.toInt < y.toInt then x else y)) ∧
    exec (.max i d a b) s = .next (oneCycle s i d (if x.toInt < y.toInt then y else x)) ∧
    exec (.minu i d a b) s = .next (oneCycle s i d (if x.toNat < y.toNat then x else y)) ∧
    exec (.maxu i d a b) s = .next (oneCycle s i d (if x.toNat < y.toNat then y else x)) ∧
    exec (.cmpeq i d a b) s = .next (oneCycle s i d (if x = y then 1 else 0)) ∧
    exec (.cmplt i d a b) s = .next (oneCycle s i d (if x.toInt < y.toInt then 1 else 0)) ∧
    exec (.cmpltu i d a b) s = .next (oneCycle s i d (if x.toNat < y.toNat then 1 else 0))

/-- SEL, LI, LUI and GETID (R211). -/
def Sys2Proof.Claims.ScalarMoves : Prop :=
  (∀ (s : State) (i : Issue) (d a b c : SReg), CanIssue s i { reads := [rS a, rS b, rS c], writes := [rS d] } →
    exec (.sel i d a b c) s = .next (oneCycle s i d (if (s.core i.core).s a ≠ 0 then (s.core i.core).s b else (s.core i.core).s c))) ∧
  (∀ (s : State) (i : Issue) (d : SReg) (imm : BitVec 32), CanIssue s i { writes := [rS d] } →
    exec (.li i d imm) s = .next (oneCycle s i d (imm.signExtend 64))) ∧
  (∀ (s : State) (i : Issue) (d : SReg) (imm : BitVec 32), CanIssue s i { reads := [rS d], writes := [rS d] } →
    exec (.lui i d imm) s = .next (oneCycle s i d (BitVec.ofNat 64 (imm.toNat * 2 ^ 32 + ((s.core i.core).s d).toNat % 2 ^ 32)))) ∧
  ∀ (s : State) (i : Issue) (d : SReg) (x : Job), CanIssue s i { writes := [rS d] } → s.job (s.core i.core).job = some x →
    exec (.getid i d 0) s = .next (oneCycle s i d (BitVec.ofNat 64 (s.core i.core).index)) ∧
    exec (.getid i d 1) s = .next (oneCycle s i d (BitVec.ofNat 64 x.cores.length)) ∧
    exec (.getid i d 2) s = .next (oneCycle s i d (BitVec.ofNat 64 (s.millOf i.core)))

/-- A result is in its register when the bundle has ended: an ADD leaves the sum in its register and every other register of its core
as it was, and the sequencer stands at the next bundle (R208, R211). The operations of one bundle read their registers before one of them
writes any (R208): with a MOVE of a tile beside it, the result is the same. An operation that is not the last of its bundle waits for it, and
nothing else happens (R207).
Choices of the model: assumption 123. -/
def Obligations.ScalarResultWritten : Prop :=
  (∀ (s : State) (i : Issue) (d a b : SReg), CanIssue s i { reads := [rS a, rS b], writes := [rS d] } →
    (s.core i.core).isBundle ((s.core i.core).nextPos .none).1 = true → s.haltsAt i.core = false →
    ∃ t, exec (.add i d a b) s = .next t ∧ (t.core i.core).s d = (s.core i.core).s a + (s.core i.core).s b ∧
      (t.core i.core).bundle = ((s.core i.core).nextPos .none).1 ∧ (t.core i.core).mode = .issuing ∧ (t.core i.core).staged = [] ∧
      ∀ r, r ≠ d → (t.core i.core).s r = (s.core i.core).s r) ∧
  (∀ (s : State) (i : Issue) (d a b : SReg), s.canIssue i.core = true → i.last = false →
    exec (.add i d a b) s = .next (s.modCore i.core fun c => { c with staged := c.staged ++ [.add i d a b] })) ∧
  ∀ (s : State) (i k : Issue) (d a b : SReg) (t u : TReg), s.canIssue i.core = true → k.core = i.core → i.last = true → i.good = true →
    (s.core i.core).staged = [.vmov k t u] → Present s [] [engVector] →
    s.blocked i.core { reads := [rS a, rS b], writes := [rS d] } = false → s.blocked i.core { reads := [rT u], writes := [rT t] } = false →
    let y := (began (began s i) i).modCore i.core fun c => { c with
      vecQ := c.vecQ ++ [{ stamp := (s.core i.core).stamp + 1, d := t, v := (s.core i.core).t u, status := none, word := emptyStatus, bundle := c.bundle }],
      sreg := Tbl.set c.sreg d.toNat ((s.core i.core).s a + (s.core i.core).s b) }
    exec (.add i d a b) s = .next (ended i y)

/-- MUL, MULHU and MULHS put the low, the unsigned high and the signed high half of the product in flight, and
SCALAR_RESULT_WRITTEN writes the oldest result to its register and nothing else (R211). -/
def Sys2Proof.Claims.ScalarMultiply : Prop :=
  (∀ (s : State) (i : Issue) (d a b : SReg), CanIssue s i { reads := [rS a, rS b], writes := [rS d] } →
    let x := (s.core i.core).s a
    let y := (s.core i.core).s b
    let fly (v : Word) : State :=
      ended i ((began s i).modCore i.core fun c => { c with scalarQ := c.scalarQ ++ [{ d := d, v := v }] })
    exec (.mul i d a b) s = .next (fly (BitVec.ofNat 64 (x.toNat * y.toNat))) ∧
    exec (.mulhu i d a b) s = .next (fly (BitVec.ofNat 64 (x.toNat * y.toNat / 2 ^ 64))) ∧
    exec (.mulhs i d a b) s = .next (fly (BitVec.ofInt 64 (x.toInt * y.toInt / 2 ^ 64)))) ∧
  ∀ (s : State) (n : Nat) (x : SRes) (xs : List SRes), s.live = true → (s.core n).scalarQ = x :: xs →
    exec (.scalarResultWritten n) s = .next (s.setCore n { s.core n with sreg := Tbl.set (s.core n).sreg x.d.toNat x.v, scalarQ := xs })

/-! ### Control flow and synchronisation -/

/-- Branches, calls, returns and loops choose the bundle that follows (R212); a target that names no bundle is
SEQUENCER_FAULT, detail 2, whether or not the branch is taken (R228).
Choices of the model: assumption 18. -/
def Obligations.ControlFlow : Prop :=
  let go (s : State) (i : Issue) (b : Branch) : Outcome := .next (ended i (began s i) b)
  (∀ (s : State) (i : Issue) (dest : Nat), CanIssue s i {} → (s.core i.core).isBundle dest = true →
    exec (.br i dest) s = go s i (.jump dest) ∧
    ((s.core i.core).stack.length < 16 →
      exec (.call i dest) s =
        .next (ended i ((began s i).modCore i.core fun c => { c with stack := c.after c.bundle :: c.stack }) (.jump dest))) ∧
    (16 ≤ (s.core i.core).stack.length → exec (.call i dest) s = .next (s.program i.core 0x030B 3 slotScalar))) ∧
  (∀ (s : State) (i : Issue) (a : SReg) (dest : Nat), CanIssue s i { reads := [rS a] } → (s.core i.core).isBundle dest = true →
    exec (.brz i a dest) s = go s i (if (s.core i.core).s a = 0 then .jump dest else .none) ∧
    exec (.brnz i a dest) s = go s i (if (s.core i.core).s a = 0 then .none else .jump dest)) ∧
  (∀ (s : State) (i : Issue) (dest : Nat), CanIssue s i {} → (s.core i.core).isBundle dest = false →
    exec (.br i dest) s = .next (s.program i.core 0x030B 2 slotScalar)) ∧
  (∀ (s : State) (i : Issue) (p : Nat) (ps : List Nat), CanIssue s i {} → (s.core i.core).stack = p :: ps →
    exec (.ret i) s = .next (ended i ((began s i).modCore i.core fun c => { c with stack := ps }) (.jump p))) ∧
  (∀ (s : State) (i : Issue), CanIssue s i {} → (s.core i.core).stack = [] → exec (.ret i) s = .next (s.program i.core 0x030B 3 slotScalar)) ∧
  ∀ (s : State) (i : Issue) (n stopAt : Nat) (reg : Option SReg), CanIssue s i { reads := (reg.map rS).toList } →
    (s.core i.core).isBundle stopAt = true → (s.core i.core).bundle < stopAt → (s.core i.core).loops.length < 4 →
    ((s.core i.core).loops.all fun l => stopAt ≤ l.stop) = true →
    let count := match reg with
      | none => n % 2 ^ 32
      | some r => ((s.core i.core).s r).toNat % 2 ^ 32
    exec (.loop i n reg stopAt) s = go s i (if count = 0 then .skip stopAt else .enter stopAt (count - 1))

/-- SIG, WAIT, BAR, COUCH and END (R215, R218 to R220): the SIG waits for the writes before it, a WAIT whose count is there
takes it and one whose count is not waits, and the others wait at the end of their bundle. -/
def Sys2Proof.Claims.Synchronisation : Prop :=
  let wait (s : State) (i : Issue) (m : CoreMode) : State := ended i (began s i) .none m
  (∀ (s : State) (i : Issue) (x : Job) (sem k : Nat), CanIssue s i {} → s.job (s.core i.core).job = some x → sem < x.semCount →
    1 ≤ k → k ≤ 255 →
    exec (.sig i sem k) s = .next (ended i ((began s i).modCore i.core fun c =>
      { c with sigQ := c.sigQ ++ [{ stamp := c.stamp, sem := sem, k := k, bundle := c.bundle }] })) ∧
    (k ≤ x.sem sem → exec (.wait i sem k) s = .next (ended i ((began s i).setJob (s.core i.core).job
      (some { x with sems := Tbl.set x.sems sem (x.sem sem - k) })))) ∧
    (x.sem sem < k → exec (.wait i sem k) s = .next (wait s i (.wait sem k)))) ∧
  (∀ (s : State) (i : Issue) (x : Job) (b : Nat), CanIssue s i {} → s.job (s.core i.core).job = some x → b < x.barCount →
    bit (x.mask b) (s.core i.core).index = true → exec (.bar i b) s = .next (wait s i (.bar b))) ∧
  ∀ (s : State) (i : Issue), CanIssue s i {} →
    exec (.couch i) s = .next (wait s i .couch) ∧ exec (.endOp i) s = .next (wait s i .ended)

/-- A SIG is applied once every write before it is acknowledged: the count rises by k, and waiting cores are looked at again;
a count past 65,535 stops the job with SEQUENCER_FAULT, detail 6, and stays (R215, R217). A SIG of another member is applied
in the same way (R216). -/
def Sys2Proof.Claims.SignalsApplied : Prop :=
  let raised (s : State) (j : Nat) (x : Job) (sem k : Nat) : State :=
    (s.setJob j (some { x with sems := Tbl.set x.sems sem (x.sem sem + k) })).settle j
  (∀ (s : State) (n : Nat) (q : SigQ) (qs : List SigQ) (x : Job), s.live = true → (s.core n).sigQ = q :: qs → (s.core n).owes q.stamp = false →
    s.job (s.core n).job = some x → x.span = none → x.st = .running → x.quiesce = none →
    let s' := s.setCore n { s.core n with sigQ := qs }
    (x.sem q.sem + q.k ≤ 65535 → exec (.sigApplied n) s = .next (raised s' (s.core n).job x q.sem q.k)) ∧
    (65535 < x.sem q.sem + q.k → exec (.sigApplied n) s =
      .next (s'.stopJob (s.core n).job { code := 0x030B, detail := 6, core := n, slot := slotSync, bundle := q.bundle }))) ∧
  ∀ (s : State) (i j sem k : Nat) (x : Job), s.live = true → s.spanJob i = some j → s.job j = some x → x.st = .running → x.quiesce = none →
    x.sem sem + k ≤ 65535 → exec (.sigMessage i sem k) s = .next (raised s j x sem k)

/-! ### Loads and stores of a core -/

/-- LD.S and ST.S (R213, R214): the bytes loaded are extended as the form says, and the bytes stored are the low ones of the
register; a misaligned offset is SEQUENCER_FAULT, detail 7, and an access that fails the address check is STALE_HANDLE with
its detail. -/
def Sys2Proof.Claims.ScalarMemory : Prop :=
  (∀ (s : State) (i : Issue) (d : SReg) (l : Loc) (size : Nat) (signed : Bool), CanIssue s i { writes := [rS d], mem := [l.h] } →
    size ∈ [1, 2, 4, 8] → l.off % size = 0 → s.accessFault (s.core i.core).job l.h l.off size false [spSram] = none →
    let v := leVal (s.load (s.core i.core).job l.h l.off size)
    exec (.ldS i d l size signed) s = .next (ended i ((began s i).modCore i.core fun c =>
      { c with loadQ := c.loadQ ++ [{ op := .scalar d (if signed then (BitVec.ofNat (8 * size) v).signExtend 64 else BitVec.ofNat 64 v),
                                      wet := s.wetBlocks (s.core i.core).job l.h l.off size, bundle := c.bundle, handle := l.h, off := l.off }] }))) ∧
  ∀ (s : State) (i : Issue) (a : SReg) (l : Loc) (size : Nat), CanIssue s i { reads := [rS a], mem := [l.h] } → size ∈ [1, 2, 4, 8] →
    let j := (s.core i.core).job
    (l.off % size = 0 → s.accessFault (s.core i.core).job l.h l.off size true [spSram] = none →
      exec (.stS i a l size) s = .next (ended i (((began s i).store (s.core i.core).job l.h l.off
        (le size ((s.core i.core).s a).toNat)).modCore i.core fun c =>
        { c with storeQ := c.storeQ ++ [{ stamp := c.stamp, bundle := c.bundle, wet := (began s i).wetBlocks j l.h l.off size, handle := l.h,
                                          off := l.off, part := size ≠ 8, old := [(l.off, (began s i).load j l.h l.off size)] }] }))) ∧
    (l.off % size ≠ 0 → exec (.stS i a l size) s = .next (s.program i.core 0x030B 7 slotStore)) ∧
    ∀ k, l.off % size = 0 → s.accessFault (s.core i.core).job l.h l.off size true [spSram] = some k →
      exec (.stS i a l size) s = .next (s.program i.core 0x0305 k slotStore (l.h % 65536) (le 8 l.off))

/-- Where ST.S writes: every byte that it stores reads as the byte of the register, and no other byte of SRAM changes and no
byte of HBM; the first store to a durable block since the couch may change the rest of that block's wet copy, which it fills
(R102, R213, R295).
Choices of the model: assumption 38. -/
def Obligations.StoreBytes : Prop :=
  ∀ (s : State) (i : Issue) (a : SReg) (l : Loc) (size : Nat) (x : Job), s.Inv → CanIssue s i { reads := [rS a], mem := [l.h] } →
    size ∈ [1, 2, 4, 8] → l.off % size = 0 → s.job (s.core i.core).job = some x →
    s.accessFault (s.core i.core).job l.h l.off size true [spSram] = none →
    let e := x.handle l.h
    let place (y : Nat) : Nat := sramAddr e.mode (x.writeBase l.h e l.off) y
    ∃ t, exec (.stS i a l size) s = .next t ∧
      (∀ k, k < size → t.sram.get (place (l.off + k)) = BitVec.ofNat 8 (((s.core i.core).s a).toNat / 256 ^ k)) ∧
      (e.durable = false ∨ (x.blk l.h (l.off / 4096)).written = true →
        ∀ b, (∀ k, k < size → b ≠ place (l.off + k)) → t.sram.get b = s.sram.get b) ∧
      (∀ b, (∀ y, y / 4096 = l.off / 4096 → b ≠ place y) → t.sram.get b = s.sram.get b) ∧ t.hbm = s.hbm

/-- LOAD_DATA_DELIVERED writes the oldest load's register, or where its read met an uncorrectable error begins what R110 and
R111 say; STORE_ACKNOWLEDGED frees the oldest store, and waiting cores are looked at again (R214). A store of whole words finds no error; one
of part of a word that does has not taken place (R111). -/
def Sys2Proof.Claims.MemoryCompletions : Prop :=
  (∀ (s : State) (n : Nat) (q : LoadQ) (qs : List LoadQ) (d : SReg) (v : Word), s.live = true → (s.core n).loadQ = q :: qs → q.op = .scalar d v →
    exec (.loadDataDelivered n .good) s = .next (s.setCore n { s.core n with sreg := Tbl.set (s.core n).sreg d.toNat v, loadQ := qs })) ∧
  (∀ (s : State) (n : Nat) (q : LoadQ) (qs : List LoadQ) (r : TReg) (v : Tile), s.live = true → (s.core n).loadQ = q :: qs → q.op = .tile r v →
    exec (.loadDataDelivered n .good) s = .next (s.setCore n { s.core n with treg := Tbl.set (s.core n).treg r.toNat v, loadQ := qs })) ∧
  (∀ (s : State) (n : Nat) (q : LoadQ) (qs : List LoadQ), s.live = true → (s.core n).loadQ = q :: qs →
    let s' := s.setCore n { s.core n with loadQ := qs }
    ∀ at_, exec (.loadDataDelivered n (.checkBits at_)) s =
      .next (s'.lateFault (s.core n).job q.handle q.off q.wet (.checkBits at_) n slotLoad q.bundle)) ∧
  ∀ (s : State) (n : Nat) (q : StoreQ) (qs : List StoreQ), s.live = true → (s.core n).storeQ = q :: qs →
    let s' := s.setCore n { s.core n with storeQ := qs }
    exec (.storeAcknowledged n .good) s = .next (s'.settle (s.core n).job) ∧
    ∀ at_, (q.part = false → exec (.storeAcknowledged n (.checkBits at_)) s = .next (s'.settle (s.core n).job)) ∧
      (q.part = true → exec (.storeAcknowledged n (.checkBits at_)) s =
        .next ((q.old.foldl (fun u o => u.store (s.core n).job q.handle o.1 o.2) s').lateFault (s.core n).job q.handle q.off q.wet
          (.checkBits at_) n slotStore q.bundle))

/-! ### Tiles -/

/-- LD.T reads a tile through its descriptor's layout and puts it in flight, ST.T writes one and MOV copies one (R281, R311,
R313): for a format that the grade has, an aligned offset, strides within their limits and an extent that passes the address
check. -/
def Sys2Proof.Claims.TileMemory : Prop :=
  (∀ (s : State) (i : Issue) (r : TReg) (f : Fmt) (l : Loc) (form : TileForm) (y : Layout), CanIssue s i { writes := [rT r], mem := [l.h] } →
    Present s [f] [] → s.tileLayout (s.core i.core).job l form = some y → misaligned f y l.off = false → badStrides f y false = false →
    s.extentFault (s.core i.core).job l.h (extentOf f y l.off 32 32) false [spSram] = none →
    exec (.ldT i r f l form) s = .next (ended i ((began s i).modCore i.core fun c =>
      { c with loadQ := c.loadQ ++ [{ op := .tile r (s.loadTile (s.core i.core).job f l y), wet := (s.tileWet (s.core i.core).job f l y).2,
                                      bundle := c.bundle, handle := l.h, off := (s.tileWet (s.core i.core).job f l y).1 }] }))) ∧
  (∀ (s : State) (i : Issue) (r : TReg) (f : Fmt) (l : Loc) (form : TileForm) (y : Layout), CanIssue s i { reads := [rT r], mem := [l.h] } →
    Present s [f] [] → s.tileLayout (s.core i.core).job l form = some y → misaligned f y l.off = false → badStrides f y true = false →
    s.extentFault (s.core i.core).job l.h (extentOf f y l.off 32 32) true [spSram] = none →
    let j := (s.core i.core).job
    let b := began s i
    let w := b.tileWet j f l y
    exec (.stT i r f l form) s = .next (ended i ((b.storeTile j f l y ((s.core i.core).t r)).modCore i.core fun c =>
      { c with storeQ := c.storeQ ++ [{ stamp := c.stamp, bundle := c.bundle, wet := w.2, handle := l.h, off := w.1, part := tilePart f l y,
                                        old := if tilePart f l y then (tileSpans f l y).map fun p => (p.1, b.load j l.h p.1 p.2) else [] }] }))) ∧
  ∀ (s : State) (i : Issue) (d a : TReg), CanIssue s i { reads := [rT a], writes := [rT d] } → Present s [] [engVector] →
    exec (.vmov i d a) s = .next (ended i ((began s i).modCore i.core fun c =>
      { c with vecQ := c.vecQ ++ [{ stamp := c.stamp, d := d, v := (s.core i.core).t a, status := none, word := emptyStatus, bundle := c.bundle }] }))

/-! ### Vector engine -/

/-- A vector operation may issue: registers and slot are free, its first operand is a tile, its operands have one format, and the grade
has the formats. -/
abbrev Sys2Proof.Claims.VectorIssue (s : State) (i : Issue) (v : VDst) (xs : List VSrc) (more : List Nat) (fs : List Fmt) : Prop :=
  CanIssue s i { reads := xs.flatMap srcRegs ++ maskRegs v.mask ++ more, writes := vdstWrites v } ∧
    xs.head?.any srcIsTile = true ∧ v.alt = none ∧ Present s fs [engVector]

/-- The operation with its result in flight: element `e` of the result is what `f` gives it. -/
def Sys2Proof.Claims.vector (s : State) (i : Issue) (v : VDst) (f : Nat → Nat × Hist) : State :=
  ended i ((began s i).vecTile i.core (s.core i.core) v f)

/-- The value that an operand gives to an element, as a number of a float format. -/
def Sys2Proof.Claims.floatOf (s : State) (i : Issue) (f : Fmt) (x : VSrc) (e : Nat) : FVal := (fSpec f).decode ((s.core i.core).elem f x e)

/-- The same as an integer. -/
def Sys2Proof.Claims.intOf (s : State) (i : Issue) (f : Fmt) (x : VSrc) (e : Nat) : Int := intRead f ((s.core i.core).elem f x e)

/-- On a float format the element-wise operations round the exact result once (R269, R279, R280), and the selections are
exact. Operands of two formats are OPERAND_INVALID, detail FORMAT_MISMATCH (R287).
Choices of the model: assumption 24. -/
def Obligations.VectorFloat : Prop :=
  ∀ (s : State) (i : Issue) (v : VDst) (a b c : VSrc), fmtClass v.fmt = .float →
    let x := floatOf s i v.fmt a
    let y := floatOf s i v.fmt b
    let z := floatOf s i v.fmt c
    let two (r : Nat → FRes) : Outcome :=
      .next (vector s i v fun e => floatElem v.fmt [x e, y e] (r e).v (r e).invalid (r e).ovf)
    let one (r : Nat → FRes) : Outcome := .next (vector s i v fun e => floatElem v.fmt [x e] (r e).v (r e).invalid (r e).ovf)
    let three (r : Nat → FRes) : Outcome :=
      .next (vector s i v fun e => floatElem v.fmt [x e, y e, z e] (r e).v (r e).invalid (r e).ovf)
    (VectorIssue s i v [a, b] [] [v.fmt] →
      exec (.vectorAdd i v a b) s = two (fun e => { v := (x e).add (y e), invalid := addEvent (x e) (y e) }) ∧
      exec (.vectorSub i v a b) s = two (fun e => { v := (x e).add (y e).negate, invalid := addEvent (x e) (y e).negate }) ∧
      exec (.vectorMul i v a b) s = two (fun e => { v := (x e).mul (y e), invalid := zeroInf (x e) (y e) }) ∧
      exec (.vectorMin i v a b) s = two (fun e => { v := fMin (x e) (y e) }) ∧
      exec (.vectorMax i v a b) s = two (fun e => { v := fMax (x e) (y e) }) ∧
      exec (.vectorCmpeq i v a b) s = two (fun e => { v := fTruth (fEq (x e) (y e)) }) ∧
      exec (.vectorCmplt i v a b) s = two (fun e => { v := fTruth (fLt (x e) (y e)) }) ∧
      exec (.cmple i v a b) s = two (fun e => { v := fTruth (fLe (x e) (y e)) })) ∧
    (VectorIssue s i v [a, b, c] [] [v.fmt] →
      exec (.fma i v a b c) s = three (fun e => fFma (x e) (y e) (z e)) ∧
      exec (.vectorSel i v a b c) s = three (fun e => { v := if (x e).isZero = true then z e else y e })) ∧
    (VectorIssue s i v [a] [] [v.fmt] →
      exec (.neg i v a) s = one (fun e => { v := (x e).negate }) ∧ exec (.abs i v a) s = one (fun e => { v := fAbs (x e) }) ∧
      exec (.exp2 i v a) s = one (fun e => { v := fnExp2 (x e) }) ∧
      exec (.rcp i v a) s = one (fun e => { v := fnRcp (x e), ovf := (x e).isZero }) ∧
      exec (.rsqrt i v a) s = one (fun e => fRsqrt (x e))) ∧
    (∀ g, g ≠ v.fmt → v.alt = some g → CanIssue s i { reads := [a, b].flatMap srcRegs ++ maskRegs v.mask, writes := vdstWrites v } →
      srcIsTile a = true → Present s [v.fmt, g] [engVector] →
      exec (.vectorAdd i v a b) s = .next (s.program i.core 0x030C 2 slotVector 0xFFFF (le 8 0)))

/-- On an integer format the element-wise operations give the exact result saturated to the format (R260, R279). -/
def Sys2Proof.Claims.VectorInteger : Prop :=
  ∀ (s : State) (i : Issue) (v : VDst) (a b c : VSrc), fmtClass v.fmt = .int →
    let x := intOf s i v.fmt a
    let y := intOf s i v.fmt b
    let z := intOf s i v.fmt c
    let gives (r : Nat → Int) : Outcome := .next (vector s i v fun e => intElem v.fmt (r e))
    (VectorIssue s i v [a, b] [] [v.fmt] →
      exec (.vectorAdd i v a b) s = gives (fun e => x e + y e) ∧ exec (.vectorSub i v a b) s = gives (fun e => x e - y e) ∧
      exec (.vectorMul i v a b) s = gives (fun e => x e * y e) ∧ exec (.vectorMin i v a b) s = gives (fun e => min (x e) (y e)) ∧
      exec (.vectorMax i v a b) s = gives (fun e => max (x e) (y e)) ∧
      exec (.vectorCmpeq i v a b) s = gives (fun e => if x e = y e then 1 else 0) ∧
      exec (.vectorCmplt i v a b) s = gives (fun e => if x e < y e then 1 else 0) ∧
      exec (.cmple i v a b) s = gives (fun e => if x e ≤ y e then 1 else 0)) ∧
    (VectorIssue s i v [a, b, c] [] [v.fmt] →
      exec (.fma i v a b c) s = gives (fun e => x e * y e + z e) ∧
      exec (.vectorSel i v a b c) s = gives (fun e => if x e = 0 then z e else y e)) ∧
    (VectorIssue s i v [a] [] [v.fmt] → v.fmt ≠ .u8 →
      exec (.neg i v a) s = gives (fun e => -x e) ∧ exec (.abs i v a) s = gives (fun e => (x e).natAbs))

/-- Bitwise operations and shifts of integer formats act on the fields; a shift takes the count of its second operand modulo
32, and the operations record no event (R280). -/
def Sys2Proof.Claims.VectorBits : Prop :=
  ∀ (s : State) (i : Issue) (v : VDst) (a b : VSrc), fmtClass v.fmt = .int →
    let w := fmtWidth v.fmt
    let x (e : Nat) : Nat := (s.core i.core).elem v.fmt a e
    let y (e : Nat) : Nat := (s.core i.core).elem v.fmt b e
    let gives (r : Nat → Nat) : Outcome := .next (vector s i v fun e => (r e % 2 ^ w, {}))
    (VectorIssue s i v [a, b] [] [v.fmt] →
      exec (.vectorAnd i v a b) s = gives (fun e => x e &&& y e) ∧ exec (.vectorOr i v a b) s = gives (fun e => x e ||| y e) ∧
      exec (.vectorXor i v a b) s = gives (fun e => x e ^^^ y e) ∧ exec (.vectorShl i v a b) s = gives (fun e => x e <<< (y e % 32)) ∧
      exec (.vectorShr i v a b) s = gives (fun e => x e >>> (y e % 32)) ∧
      exec (.vectorSar i v a b) s = gives (fun e => (intRead v.fmt (x e) / (2 : Int) ^ (y e % 32) % 2 ^ w).toNat)) ∧
    (VectorIssue s i v [a] [] [v.fmt] → exec (.not i v a) s = gives (fun e => 2 ^ w - 1 - x e))

/-- The modular operations give the exact residue of each element under its prime, operands reduced first, and MCENTRE the
centred representative modulo a second prime (R125, R277, R281). Of the work counter each counts 1024, and MFMA and MSUBMUL, of two
operations an element, 2048. -/
def Sys2Proof.Claims.VectorModular : Prop :=
  ∀ (s : State) (i : Issue) (v : VDst) (a b c : VSrc) (q q2 : PSel) (fam : Family), fmtFamily v.fmt = some fam →
    (s.core i.core).primesOk fam q = true →
    let p (e : Nat) : Nat := (s.core i.core).primeAt v.fmt (some q) e
    let x (e : Nat) : Nat := (s.core i.core).elem v.fmt a e % p e
    let y (e : Nat) : Nat := (s.core i.core).elem v.fmt b e % p e
    let z (e : Nat) : Nat := (s.core i.core).elem v.fmt c e % p e
    let gives (r : Nat → Nat) : Outcome :=
      .next (ended i (((began s i).work i.core 10 1024).vecTile i.core (s.core i.core) v fun e => (r e, {})))
    let gives2 (r : Nat → Nat) : Outcome :=
      .next (ended i (((began s i).work i.core 10 2048).vecTile i.core (s.core i.core) v fun e => (r e, {})))
    (VectorIssue s i v [a, b] (selRegs q) [v.fmt] →
      exec (.madd i v a b q) s = gives (fun e => (x e + y e) % p e) ∧ exec (.msub i v a b q) s = gives (fun e => subMod (p e) (x e) (y e)) ∧
      exec (.mmul i v a b q) s = gives (fun e => x e * y e % p e)) ∧
    (VectorIssue s i v [a] (selRegs q) [v.fmt] → exec (.mneg i v a q) s = gives (fun e => subMod (p e) 0 (x e))) ∧
    (VectorIssue s i v [a, b, c] (selRegs q) [v.fmt] →
      exec (.mfma i v a b c q) s = gives2 (fun e => (x e * y e + z e) % p e) ∧
      exec (.msubmul i v a b c q) s = gives2 (fun e => subMod (p e) (x e) (y e) * z e % p e)) ∧
    (VectorIssue s i v [a] (selRegs q ++ selRegs q2) [v.fmt] → (s.core i.core).primesOk fam q2 = true →
      exec (.mcentre i v a q q2) s = gives (fun e => intMod (centred (p e) (x e)) ((s.core i.core).primeAt v.fmt (some q2) e)))

/-- ACT applies its function to a float element and rounds once; VCVT converts each element, for two different formats, primes
within their families and a scale where one is needed; the result's masked elements follow the mask mode (R243, R279, R282, R284).
Choices of the model: assumptions 24 and 34. -/
def Obligations.VectorActConvert : Prop :=
  (∀ (s : State) (i : Issue) (v : VDst) (a : VSrc) (f : Act), VectorIssue s i v [a] (actRegs f) [v.fmt] → fmtClass v.fmt = .float →
    let p := (s.core i.core).actPar f
    f ≠ .unknown → badClamp f p true = false →
    exec (.act i v a f) s = .next (vector s i v fun e =>
      let x := floatOf s i v.fmt a e
      let r := applyAct f p x
      floatElem v.fmt (x :: actOperands f p x) r.1 0 false)) ∧
  ∀ (s : State) (i : Issue) (v : VDst) (a : VSrc) (df : Fmt) (q q2 : Option PSel) (sigma : Option SReg) (m : Nat) (z : Int),
    VectorIssue s i v [a] (selRegsFor v.fmt q ++ selRegsFor df q2 ++ (if scaled v.fmt df then (sigma.map rS).toList else [])) [v.fmt, df] →
    v.fmt ≠ df → selMissing v.fmt q = false → selMissing df q2 = false → (s.core i.core).selOk v.fmt q = true →
    (s.core i.core).selOk df q2 = true →
    (if scaled v.fmt df then sigma.bind (fun r => scaleOf ((s.core i.core).s r)) = some (m, z) else sigma = none ∧ m = 1 ∧ z = 0) →
    exec (.vcvt i v a df q q2 sigma) s = .next (ended i ((began s i).vecTile i.core (s.core i.core) { v with fmt := df } fun e =>
      let r := convert v.fmt df ((s.core i.core).primeAt v.fmt q e) ((s.core i.core).primeAt df q2 e) m z ((s.core i.core).elem v.fmt a e)
      let h := Hist.ofEvents r.2
      (r.1, if isFloat df && r.2 == [evOverflow] then h.see ((fSpec df).decode r.1) else h)))

/-- VRED puts one tile in flight: of each line that has an enabled element, the first element holds the sum of the enabled
ones, saturated for an integer and reduced for a residue; every other element is kept, or zero where the masks zero (R283, R284). -/
def Obligations.VectorReduce : Prop :=
  ∀ (s : State) (i : Issue) (v : VDst) (a : VSrc) (col : Bool) (q : Option PSel), 
    let c := s.core i.core
    let lines (l : Nat) : List Nat := ((List.range 32).map (lineElem col l)).filter (c.on v.mask)
    let line (e : Nat) : Nat := if col then colOf e else rowOf e
    let head (e : Nat) : Bool := if col then rowOf e == 0 else colOf e == 0
    let tile (val : Nat → Nat) (t : Tile) : Prop := ∀ e, e < 1024 → tileAt t e =
      if head e = true ∧ lines (line e) ≠ [] then BitVec.ofNat 36 (val (line e))
      else if maskZeroes v.mask then 0 else tileAt (c.t v.d) e
    (∀ df, VectorIssue s i v [a] [] [v.fmt, df] → fmtClass v.fmt = .int → fmtClass df = .int →
      ∃ t w, exec (.vred i v a df redSum col q) s = .next (ended i ((began s i).vecResult i.core v t w)) ∧
        tile (fun l => (intElem df ((lines l).map fun e => intRead v.fmt (c.elem v.fmt a e)).sum).1) t) ∧
    ∀ p fam, q = some p → VectorIssue s i v [a] (selRegs p) [v.fmt, v.fmt] → fmtClass v.fmt = .residue → fmtFamily v.fmt = some fam →
      c.primesOk fam p = true → msumAxis col p = true →
      ∃ t w, exec (.vred i v a v.fmt redMsum col q) s =
        .next (ended i ((began s i).vecResult i.core v t w)) ∧
        tile (fun l => ((lines l).map fun e => c.elem v.fmt a e).sum % c.primeAt v.fmt q (lineElem col l 0)) t

/-- What an element-wise operation puts in flight: an enabled element of the tile is the field of the result, and a masked one is the
former element, or zero where a mask is named and zeroes (R284). -/
def Sys2Proof.Claims.VectorMasks : Prop :=
  ∀ (s : State) (i : Issue) (v : VDst) (a b : VSrc), VectorIssue s i v [a, b] [] [v.fmt] → fmtClass v.fmt = .int →
    ∃ (m : State) (x : VecQ), exec (.vectorAdd i v a b) s = .next (ended i m) ∧ (m.core i.core).vecQ = (s.core i.core).vecQ ++ [x] ∧
      x.d = v.d ∧ x.status = v.status ∧ ∀ e, e < 1024 → tileAt x.v e =
        if (s.core i.core).on v.mask e then
          BitVec.ofNat 36 (intElem v.fmt (intOf s i v.fmt a e + intOf s i v.fmt b e)).1
        else if maskZeroes v.mask then 0 else tileAt ((s.core i.core).t v.d) e

/-- VECTOR_RESULT_WRITTEN writes the oldest result's tile and status register and nothing else of the core's registers (R274, R286). -/
def Sys2Proof.Claims.VectorResult : Prop :=
  ∀ (s : State) (n : Nat) (x : VecQ) (xs : List VecQ), s.live = true → (s.core n).vecQ = x :: xs →
    ∃ t, exec (.vectorResultWritten n .good) s = .next t ∧ (t.core n).vecQ = xs ∧ (t.core n).t x.d = x.v ∧
      (∀ r, r ≠ x.d → (t.core n).t r = (s.core n).t r) ∧ (∀ r, x.status = some r → (t.core n).s r = x.word) ∧
      ∀ r, x.status ≠ some r → (t.core n).s r = (s.core n).s r

/-! ### Matrix array and NTT engine -/

/-- The product's last result is on its way, with what the product read, and the group holds the sums over every leaf. -/
def Sys2Proof.Claims.product (s : State) (i : Issue) (m : Mma) (group : OBufSt) : State :=
  let a := s.leavesOf i.core m.fa m.k m.a
  let b := s.leavesOf i.core m.fb m.k m.b
  let g := group.addLeaves a.2 b.2 a.1 b.1
  let read := s.touched (s.core i.core).job (opndReads (m.k / 32) m.fa m.a ++ opndReads (m.k / 32) m.fb m.b)
  (s.work i.core (match fmtClass m.fa with | .residue => 8 | .float => 11 | .int => 12) (1024 * m.k)).modCore i.core fun c =>
    c.setObuf m.o { g with inFlight := group.inFlight ++ [{ bundle := c.bundle, mem := read }], draining := false }

/-- A product that passes the checks of R248 and R249: its formats, its depth, its panels. -/
abbrev Sys2Proof.Claims.productOk (s : State) (i : Issue) (m : Mma) : Prop :=
  Present s [m.fa, m.fb] (engArray :: if s.traceOn (s.core i.core).job m then [engTrace] else []) ∧ opndMisaligned m.a = false ∧
    opndMisaligned m.b = false ∧ m.fa ≠ .s32 ∧ m.fb ≠ .s32 ∧ pairOk m.fa m.fb = true ∧ m.k % 32 = 0 ∧ 32 ≤ m.k ∧ m.k ≤ 65536 ∧
    ((opndIsTile m.a || opndIsTile m.b) = true → m.k = 32) ∧ s.panelFault (s.core i.core).job (m.k / 32) m.fa m.a = none ∧
    s.panelFault (s.core i.core).job (m.k / 32) m.fb m.b = none

/-- MMA with START opens its buffer at zero with the masks and the primes of its columns and adds the product; with CONT it adds to
an open group of the same formats; MMA_LAST_RESULT takes the oldest product off the buffer, and an uncorrectable error in a panel that it
read is the storage fault of that place (R233 to R241, R251). -/
def Sys2Proof.Claims.MatrixProducts : Prop :=
  (∀ (s : State) (i : Issue) (m : Mma) (row col : Option SReg) (q : Option PSel), 
    CanIssue s i { reads := opndRegs m.a ++ opndRegs m.b ++ (row.map rS).toList ++ (col.map rS).toList,
                   mem := opndMem m.a ++ opndMem m.b, ready := !(s.core i.core).drains m.o } →
    fmtFamily m.fa = none → productOk s i m →
    exec (.mmaStart i m row col q) s = .next (ended i (product (began s i) i m
      { isOpen := true, fa := m.fa, fb := m.fb, trace := s.traceOn (s.core i.core).job m, row := (s.core i.core).maskBits row,
        col := (s.core i.core).maskBits col, inFlight := ((s.core i.core).obuf m.o).inFlight }))) ∧
  (∀ (s : State) (i : Issue) (m : Mma) (row col : Option SReg) (f : Family) (q : PSel), 
    CanIssue s i { reads := opndRegs m.a ++ opndRegs m.b ++ (row.map rS).toList ++ (col.map rS).toList ++ selRegs q,
                   mem := opndMem m.a ++ opndMem m.b, ready := !(s.core i.core).drains m.o } →
    fmtFamily m.fa = some f → (∀ t, q ≠ .perRow t) → (s.core i.core).primesOk f q = true → productOk s i m →
    exec (.mmaStart i m row col (some q)) s = .next (ended i (product (began s i) i m
      { isOpen := true, fa := m.fa, fb := m.fb, trace := s.traceOn (s.core i.core).job m, row := (s.core i.core).maskBits row,
        col := (s.core i.core).maskBits col, primes := (List.range 32).map (s.core i.core |>.primeIx q),
        inFlight := ((s.core i.core).obuf m.o).inFlight }))) ∧
  (∀ (s : State) (i : Issue) (m : Mma), 
    CanIssue s i { reads := opndRegs m.a ++ opndRegs m.b, mem := opndMem m.a ++ opndMem m.b, ready := !(s.core i.core).drains m.o } →
    productOk s i m →
    let g := (s.core i.core).obuf m.o
    g.isOpen = true → m.fa = g.fa → m.fb = g.fb → s.traceOn (s.core i.core).job m = g.trace →
    exec (.mmaCont i m) s = .next (ended i (product (began s i) i m g))) ∧
  ∀ (s : State) (n : Nat) (o : OBuf) (q : MmaQ) (qs : List MmaQ), s.live = true → ((s.core n).obuf o).inFlight = q :: qs →
    ((s.core n).obuf o).draining = false →
    let s' := s.setCore n ((s.core n).setObuf o { (s.core n).obuf o with inFlight := qs })
    exec (.mmaLastResult n o .good) s = .next s' ∧
    ∀ h off k, exec (.mmaLastResult n o (.read h off (.checkBits k))) s = .next (if q.mem.handles.contains h = true then
      s'.lateFault (s.core n).job h off q.mem.wet (.checkBits k) n slotMatrix q.bundle else s')

/-- The sums of a product: on S8 or U8 tiles an enabled element of the buffer that a START opens is the sum over the 32
products of its row and its column, which cannot saturate, and a masked one is zero (R235, R238, R241). -/
def Obligations.MatrixSums : Prop :=
  ∀ (s : State) (i : Issue) (m : Mma) (a b : TReg) (row col : Option SReg), m.a = .tile a → m.b = .tile b → isB8 m.fa = true → 
    CanIssue s i { reads := [rT a, rT b] ++ (row.map rS).toList ++ (col.map rS).toList, ready := !(s.core i.core).drains m.o } →
    productOk s i m →
    ∃ t : State, exec (.mmaStart i m row col none) s = .next (ended i t) ∧ ((t.core i.core).obuf m.o).isOpen = true ∧
      ∀ e, e < 1024 → (((t.core i.core).obuf m.o).acc.getD e {}).i =
        if enabled ((s.core i.core).maskBits row) ((s.core i.core).maskBits col) e then
          ((List.range 32).map fun n => intRead m.fa (fieldOf m.fa (tileAt ((s.core i.core).t a) (32 * rowOf e + n))) *
            intRead m.fb (fieldOf m.fb (tileAt ((s.core i.core).t b) (32 * n + colOf e)))).sum
        else 0

/-- DRAIN runs the epilogue over an open group whose products have arrived, into a tile or a leaf, and DRAIN_COMPLETE
writes the tile and the status word, and the buffer may be entered again (R241 to R244). -/
def Sys2Proof.Claims.MatrixDrain : Prop :=
  let out (s : State) (i : Issue) (d : Drain) : List (Nat × Hist) :=
    (List.range 1024).map fun e =>
      if ((s.core i.core).obuf d.o).on e then (s.core i.core).drainElem d ((s.core i.core).obuf d.o) e else (0, {})
  let word (s : State) (i : Issue) (d : Drain) : Word :=
    let b := (s.core i.core).obuf d.o
    if fmtClass b.fa = .residue then emptyStatus else statusWord (b.trace && fmtClass b.fa == .float) ((out s i d).map Prod.snd)
  let drains (s : State) (i : Issue) (d : Drain) (tile : Option (TReg × Tile)) (mem : Touched) (u : State) : State :=
    ended i (u.modCore i.core fun x =>
      let y := x.setObuf d.o { draining := true }
      { y with drainQ := y.drainQ ++ [{ o := d.o, tile := tile, status := d.status, word := word s i d, stamp := x.stamp, bundle := x.bundle,
                                        store := tile.isNone, mem := mem }] })
  (∀ (s : State) (i : Issue) (d : Drain),
    let b := (s.core i.core).obuf d.o
    CanIssue s i { reads := (d.scale.map epiRegs).getD [] ++ (d.bias.map epiRegs).getD [] ++ actRegs d.act,
                   writes := drainWrites d, mem := (match d.dst with | .tile _ => [] | .leaf l => [l.h]),
                   ready := b.inFlight.isEmpty && !b.draining } →
    Present s (drainFmts d b) [engArray] → b.isOpen = true → (s.core i.core).epiBad d b = false →
    (∀ t, d.dst = .tile t →
      exec (.drain i d) s = .next (drains s i d (some (t, drainTile d b (out s i d) ((s.core i.core).t t))) {} (began s i))) ∧
    ∀ l, d.dst = .leaf l → l.off % 64 = 0 → s.accessFault (s.core i.core).job l.h l.off (leafBytes d.fmt) true [spSram] = none →
      let kept := if d.zero then [] else (began s i).partOld (s.core i.core).job l.h
        (((List.range 1024).filter b.on).map fun e => (8 * l.off + fmtWidth d.fmt * e, fmtWidth d.fmt))
      let mem := (began s i).touched (s.core i.core).job (if kept.isEmpty then [] else [(l.h, l.off, leafBytes d.fmt)]) kept
      exec (.drain i d) s = .next (drains s i d none mem ((began s i).store (s.core i.core).job l.h l.off
        (packLeaf d.fmt (drainTile d b (out s i d) (unpackLeaf d.fmt (s.load (s.core i.core).job l.h l.off (leafBytes d.fmt)))))))) ∧
  ∀ (s : State) (n : Nat) (o : OBuf) (x : DrainQ), s.live = true → (s.core n).drainQ.find? (fun y => y.o == o) = some x →
    let d := match x.tile with
      | none => s.core n
      | some (t, v) => (s.core n).setT t v
    let d := ((d.writeStatus x.status x.word).noteStatus x.stamp x.o.toNat x.bundle x.word).setObuf o { d.obuf o with draining := false }
    exec (.drainComplete n o .good) s = .next (((s.setCore n { d with drainQ := d.drainQ.erase x }).work n 7
      (b2n (affectedOf x.word != 0) 1)).settle (s.core n).job)

/-- NTT.F and NTT.I transform every limb of their range, in order, each read whole before it is written, and
NTT_LIMB_WRITTEN acknowledges one limb of the oldest operation (R252 to R254).
Choices of the model: assumption 38. -/
def Obligations.NttLimbs : Prop :=
  (∀ (s : State) (i : Issue) (x : Ntt), CanIssue s i { mem := [x.src.h, x.dst.h] } → Present s [x.fmt] [engNtt] → x.src.off % 64 = 0 → x.dst.off % 64 = 0 →
    nttDetail x = none → s.accessFault (s.core i.core).job x.src.h x.src.off (nttSpan x) false [spSram] = none →
    s.accessFault (s.core i.core).job x.dst.h x.dst.off (nttSpan x) true [spSram] = none →
    let limbs (fwd : Bool) : State := ended i
      ((((List.range x.limbs).foldl (fun t l => t.nttLimb (s.core i.core).job x fwd l) (began s i)).work i.core 9
        (x.limbs * (x.n / 2 * Nat.log2 x.n))).modCore i.core fun c =>
          { c with nttQ := c.nttQ ++ [{ stamp := c.stamp, left := x.limbs, bundle := c.bundle,
                                        mem := (began s i).touched (s.core i.core).job [(x.src.h, x.src.off, nttSpan x)] }] })
    exec (.nttF i x) s = .next (limbs true) ∧ exec (.nttI i x) s = .next (limbs false)) ∧
  ∀ (s : State) (n : Nat) (x : NttQ) (xs : List NttQ), s.live = true → (s.core n).nttQ = x :: xs →
    exec (.nttLimbWritten n .good) s = .next ((s.setCore n { s.core n with
      nttQ := if x.left ≤ 1 then xs else { x with left := x.left - 1 } :: xs }).settle (s.core n).job)

/-! ### Ciphertexts -/

/-- The memory that a ciphertext operation accesses (R208). -/
abbrev Sys2Proof.Claims.ctUses (o : CtOp) : Uses := { mem := (o.srcs ++ o.dsts ++ o.scratch.toList).map Loc.h }

/-- An operation passes its checks: it names an output, its handles are current, the checks of R141 let it go with its headers and
prediction, and the grade has the engines that it uses. -/
abbrev Sys2Proof.Claims.CtGoes (s : State) (i : Issue) (o : CtOp) (e : ReadErr) (x : Job) (p : ParamSet) (hs : List CtHdr) (d : Pred) : Prop :=
  CanIssue s i (ctUses o) ∧ s.job (s.core i.core).job = some x ∧ o.dsts ≠ [] ∧ s.ctStale (s.core i.core).job x o = none ∧
    s.ctVerdict (s.millOf i.core) (s.core i.core).job x o e = .go p hs d ∧ Present s [] (engCt :: if o.kind.switches then [engKey] else [])

/-- The checks of R141 before the prediction pass, and the prediction exhausts: the outcome below the floor, or a rescale at one limb (R150). -/
abbrev Sys2Proof.Claims.Exhausts (s : State) (m j : Nat) (x : Job) (o : CtOp) (e : ReadErr) (p : ParamSet) : Prop :=
  let raw := o.srcs.map fun l => s.load j l.h l.off 64
  let hs := raw.map readHdr
  o.dsts ≠ [] ∧ s.ctStale j x o = none ∧ (∀ c ∈ o.srcs.zipIdx, s.readOutcome j c.1.h c.1.off 64 (headerErr e c.2) = .good) ∧
    (((o.srcs.zip raw).zipIdx).findSome? fun c =>
      (hdrDetail o.kind c.2 ((x.handle c.1.1.h).bound - c.1.1.off) c.1.2).map fun k => (k, c.1.1.h, c.2)) = none ∧
    compatDetail o.kind hs = none ∧ paramSet (hs.getD 0 (readHdr [])).set = some p ∧ keysetsDiffer o.kind hs = false ∧
    s.keyFault m j x o p (hs.getD 0 (readHdr [])) = none ∧ (predict p o.kind hs).badScale = false ∧ (predict p o.kind hs).exhaust ≠ 0

/-- The operation under way: its outputs, headers last, wait for the end of its sequence. -/
def Sys2Proof.Claims.performed (s : State) (i : Issue) (o : CtOp) (p : ParamSet) (hs : List CtHdr) (d : Pred) : State :=
  ended i ((began s i).ctStart i.core o p hs d)

/-- The ciphertext rows, each with the operation that it asks for. -/
inductive Sys2Proof.Claims.CtRow : Instr → Issue → CtOp → ReadErr → Prop where
  | add (i a b dst e) : Claims.CtRow (.ciphertextAdd i a b dst e) i { kind := .add, srcs := [a, b], dsts := [dst] } e
  | sub (i a b dst e) : Claims.CtRow (.ciphertextSubtract i a b dst e) i { kind := .sub, srcs := [a, b], dsts := [dst] } e
  | neg (i a dst e) : Claims.CtRow (.ciphertextNegate i a dst e) i { kind := .neg, srcs := [a], dsts := [dst] } e
  | addPt (i a b dst e) : Claims.CtRow (.addPlaintext i a b dst e) i { kind := .addPt, srcs := [a, b], dsts := [dst] } e
  | mulPt (i a b dst e) : Claims.CtRow (.multiplyPlaintext i a b dst e) i { kind := .mulPt, srcs := [a, b], dsts := [dst] } e
  | mulConst (i a dst c e) : Claims.CtRow (.multiplyConstant i a dst c e) i { kind := .mulConst c, srcs := [a], dsts := [dst] } e
  | tensor (i a b dst e) : Claims.CtRow (.tensorProduct i a b dst e) i { kind := .tensor, srcs := [a, b], dsts := [dst] } e
  | relin (i a dst k e) : Claims.CtRow (.relinearise i a dst k e) i
      { kind := .relin, srcs := [a], dsts := [dst], slot := k.slot, keys := [k.index], scratch := some k.scratch } e
  | mulRelin (i a b dst k e) : Claims.CtRow (.multiplyRelinearise i a b dst k e) i
      { kind := .mulRelin, srcs := [a, b], dsts := [dst], slot := k.slot, keys := [k.index], scratch := some k.scratch } e
  | rotate (i a dst r k e) : Claims.CtRow (.rotate i a dst r k e) i
      { kind := .rotate r, srcs := [a], dsts := [dst], slot := k.slot, keys := [k.index], scratch := some k.scratch } e
  | hoisted (i a outs k e) (h : outs ≠ []) : Claims.CtRow (.hoistedRotate i a outs k e) i
      { kind := .hoisted (outs.map fun y => y.2.1), srcs := [a], dsts := outs.map Prod.fst, slot := k.slot, keys := outs.map fun y => y.2.2,
        scratch := some k.scratch } e
  | conjugate (i a dst k e) : Claims.CtRow (.conjugate i a dst k e) i
      { kind := .conjugate, srcs := [a], dsts := [dst], slot := k.slot, keys := [k.index], scratch := some k.scratch } e
  | rescale (i a dst e) : Claims.CtRow (.rescale i a dst e) i { kind := .rescale, srcs := [a], dsts := [dst] } e
  | levelDrop (i a dst n e) : Claims.CtRow (.levelDrop i a dst n e) i { kind := .levelDrop n, srcs := [a], dsts := [dst] } e
  | form (i a dst f e) : Claims.CtRow (.formConversion i a dst f e) i { kind := .form f, srcs := [a], dsts := [dst] } e

/-- Each ciphertext operation that passes its checks is performed (R141, R147, R181, R188, R493). -/
def Sys2Proof.Claims.CiphertextOps : Prop :=
  ∀ (s : State) (c : Instr) (i : Issue) (o : CtOp) (e : ReadErr) (x : Job) (p : ParamSet) (hs : List CtHdr) (d : Pred), CtRow c i o e →
    CtGoes s i o e x p hs d → exec c s = .next (performed s i o p hs d)

/-- What CIPHERTEXT_ADD leaves to be written: every limb of its output holds the sums of the operands' residues modulo the
limb's prime, at its place after the header, and the header holds the fields predicted, with the GENERATION above both operands'
(R136, R141, R147).
Choices of the model: assumption 25. -/
def Obligations.CiphertextSums : Prop :=
  ∀ (s : State) (i : Issue) (a b dst : Loc) (e : ReadErr) (x : Job) (p : ParamSet) (h1 h2 : CtHdr) (d : Pred),
    CtGoes s i { kind := .add, srcs := [a, b], dsts := [dst] } e x p [h1, h2] d →
    ∃ (m : State) (q : CtQ), exec (.ciphertextAdd i a b dst e) s = .next (ended i m) ∧ (m.core i.core).ctQ = (s.core i.core).ctQ ++ [q] ∧
      d.limbs = min h1.limbs h2.limbs ∧
      (∀ c l, c < h1.comps → c < h2.comps → l < d.limbs → (⟨dst.h, dst.off + 64 + (c * d.limbs + l) * p.limbBytes⟩,
        packLimb (famFmt p.fam) p.n (limbMap2 (addMod (p.q l)) (ctLimb p (s.ctBytes (s.core i.core).job p a h1) h1 c l)
          (ctLimb p (s.ctBytes (s.core i.core).job p b h2) h2 c l)))
          ∈ q.writes) ∧
      (dst, ({ h1 with limbs := d.limbs, scale := d.scale.toNat, head := d.head, comps := max h1.comps h2.comps, form := 1,
                       gen := min 0xFFFFFFFF (max h1.gen h2.gen + 1) } : CtHdr).bytes p) ∈ q.writes

/-- CIPHERTEXT_OUTPUT_WRITTEN writes what the oldest operation computed, in order, and lets waiting cores go on (R144); one whose keys
have still to stream waits (R184). An uncorrectable error in an operand that it read is the storage fault of that place, and nothing is
written (R110, R142). -/
def Sys2Proof.Claims.CiphertextWritten : Prop :=
  ∀ (s : State) (n : Nat) (x : CtQ) (xs : List CtQ), s.live = true → (s.core n).ctQ = x :: xs →
    (x.keys = [] → exec (.ciphertextOutputWritten n .good) s =
      .next (((x.writes.foldl (fun t w => t.store (s.core n).job w.1.h w.1.off w.2) s).modCore n fun c => { c with ctQ := xs }).settle (s.core n).job)) ∧
    (∀ h off k, x.keys = [] → x.mem.handles.contains h = true → exec (.ciphertextOutputWritten n (.read h off (.checkBits k))) s =
      .next ((s.modCore n fun c => { c with ctQ := xs }).lateFault (s.core n).job h off x.mem.wet (.checkBits k) n slotMatrix x.bundle)) ∧
    (x.keys ≠ [] → ∀ e, exec (.ciphertextOutputWritten n e) s = .next s)

/-- The prediction of step 5: LIMBS, SCALE and HEADROOM of an output (R147 to R150).
Choices of the model: assumptions 25, 150 and 151. -/
def Obligations.Prediction : Prop :=
  (∀ (p : ParamSet) (a b : CtHdr), a.scheme = ckks →
    let limbs (k : CtKind) : Nat := (predict p k [a, b]).limbs
    let scale (k : CtKind) : Int := (predict p k [a, b]).scale
    limbs .add = min a.limbs b.limbs ∧ scale .add = a.scale ∧ limbs .neg = a.limbs ∧ scale .neg = a.scale ∧
    limbs .mulPt = a.limbs ∧ scale .mulPt = a.scale + b.scale ∧ limbs .tensor = min a.limbs b.limbs ∧ scale .tensor = a.scale + b.scale ∧
    limbs .mulRelin = min a.limbs b.limbs ∧ scale .mulRelin = a.scale + b.scale ∧ limbs .conjugate = a.limbs ∧ scale .conjugate = a.scale ∧
    limbs .rescale = a.limbs - 1 ∧ (∀ n, limbs (.levelDrop n) = a.limbs - n) ∧ limbs .repulp = p.repLimbs) ∧
  (∀ (p : ParamSet) (k : CtKind) (hs : List CtHdr), (predict p k hs).head ≤ 0xFFFF) ∧
  (∀ (p : ParamSet) (k : CtKind) (a b : CtHdr), ¬ (k = .rescale ∧ a.scheme = ckks ∧ a.limbs = 1) →
    ((predict p k [a, b]).exhaust = 2 ↔ (predict p k [a, b]).head < p.floor) ∧
    ((predict p k [a, b]).exhaust = 0 ↔ p.floor ≤ (predict p k [a, b]).head)) ∧
  ∀ (p : ParamSet) (a : CtHdr), a.scheme = ckks → a.limbs = 1 → (predict p .rescale [a]).exhaust = 1

/-! ### REPULP and its interlude -/

/-- REPULP asks for an interlude, and its core halts at the end of the bundle (R193, R199); a core that has completed all
it issued halts, and its image is saved; INTERLUDE_COUCH then begins the macro, MACRO_SHEET_COUCH couches each macro sheet and
defers one that is not finished, INTERLUDE_RESUME goes on with the program (R199 to R202), and REPULP_TABLE_BUILT sets the set's
bit in the ready bitmap (R93).
Choices of the model: assumption 77. -/
def Obligations.Interludes : Prop :=
  (∀ (s : State) (i : Issue) (a : Loc) (slot : Nat) (e : ReadErr) (x : Job) (p : ParamSet) (hs : List CtHdr) (d : Pred),
    let o : CtOp := { kind := .repulp, srcs := [a], dsts := [a], slot := slot }
    CanIssue s i (ctUses o) → s.job (s.core i.core).job = some x → Present s [] [engCt, engKey] → s.ctStale (s.core i.core).job x o = none →
    s.ctVerdict (s.millOf i.core) (s.core i.core).job x o e = .go p hs d →
    exec (.repulp i a slot e) s = .next (ended i (((began s i).requestRefresh i.core slot false [a]).modCore i.core fun c =>
      { c with before := .issuing }) .none .halted)) ∧
  (∀ (s : State) (n : Nat) (x : Job), s.live = true → s.job (s.core n).job = some x → x.st = .running → x.quiesce = none →
    x.inter.ph = .halting → x.inter.saved n = false → (s.core n).finished = true →
    ((s.core n).mode = .issuing →
      exec (.coreHalted n) s = .next (State.saveCore (s.setCore n { s.core n with mode := .halted, before := .issuing, resume := (s.core n).bundle, staged := [] })
        (s.core n).job n)) ∧
    ∀ sem k, (s.core n).mode = .wait sem k →
      exec (.coreHalted n) s = .next (State.saveCore (s.setCore n { s.core n with mode := .halted, before := .wait sem k }) (s.core n).job n)) ∧
  (∀ (s : State) (j : Nat) (x : Job), s.live = true → s.clk.switching = .none → s.job j = some x → x.st = .running → x.quiesce = none →
    x.span = none →
    (x.inter.ph = .couching → exec (.interludeCouch j) s = .next (s.interludeCommit j)) ∧
    (x.inter.ph = .working → x.couching = true →
      (∀ last, exec (.macroSheetCouch j true last) s = .next (s.macroCommit j last)) ∧
      exec (.macroSheetCouch j false false) s = .next (s.setJob j (some { x with couching := false }))) ∧
    (x.inter.ph = .resuming → exec (.interludeResume j) s = .next (s.resumeNow j))) ∧
  ∀ (s : State) (k : Nat), s.live = true → s.building.contains k = true → s.isReady (bitRepulp k) = false →
    ∃ t, exec (.repulpTableBuilt k) s = .next t ∧ t.building = s.building.erase k ∧ t.isReady (bitRepulp k) = true

/-! ### Transforming copies -/

/-- The two ends of a copy by cells: layouts, alignment, sizes, extents, and an overlap that can be staged. -/
abbrev Sys2Proof.Claims.CopyEnds (s : State) (i : Issue) (hd : CopyHead) (src dst : Mat) (ys yd : Layout) (rs ws : List Cell) : Prop :=
  let j := (s.core i.core).job
  s.matLayout j src = some ys ∧ s.matLayout j dst = some yd ∧ misaligned hd.fmt ys src.loc.off = false ∧
    misaligned hd.fmt yd dst.loc.off = false ∧ matBad src = false ∧ matBad dst = false ∧ badStrides hd.fmt ys false = false ∧
    badStrides hd.fmt yd true = false ∧ s.matFault j hd.fmt ys src rs false = none ∧ s.matFault j hd.fmt yd dst ws true = none

/-- No owner tag refuses a read of these bits (R353). -/
abbrev Sys2Proof.Claims.TagsLet (s : State) (j h : Nat) (runs : List (Nat × Nat)) : Prop :=
  ∀ p ∈ runs, s.tagRefuses j h (runBytes p).1 (runBytes p).2 = none

/-- A copy may issue: its queue has room, the grade has its format, and its semaphore, where it names one, exists. -/
abbrev Sys2Proof.Claims.CopyIssues (s : State) (i : Issue) (hd : CopyHead) (reads mem : List Nat) : Prop :=
  CanIssue s i { reads := reads, mem := mem, ready := decide (((s.core i.core).xq hd.queue).length < 8) } ∧ Present s [hd.fmt] [] ∧
    ∃ x, s.job (s.core i.core).job = some x ∧ ∀ k, hd.sem = some k → k < x.semCount

/-- XCOPY MOVE and TRANSPOSE write the deckle and then the data of each slice, every source element read before any is written, and
join their queue (R316, R318 to R320); GATHER does so for the elements that an index table names, with zeros for the edge elements of a
BLOCKED destination (R310). -/
def Sys2Proof.Claims.Copies : Prop :=
  (∀ (s : State) (i : Issue) (hd : CopyHead) (src dst : Mat) (xs : List Slice) (ys yd : Layout) (tr : Bool),
    let j := (s.core i.core).job
    let value (x : Slice) : Nat := match x.value with
      | none => 0
      | some r => ((s.core i.core).s r).toNat % 2 ^ fmtWidth hd.fmt
    let data := xs.flatMap (sliceData tr)
    let deckle := xs.flatMap fun x => (sliceDeckle tr yd dst x).map fun c => (c, value x)
    let ws := deckle.map Prod.fst ++ data.map Prod.snd
    let b := began s i
    let runs := cellRuns hd.fmt yd dst ws
    let reads := cellRuns hd.fmt ys src (data.map Prod.fst)
    let v := overlapOf (s.sectors j src.loc.h reads) (s.sectors j dst.loc.h runs)
    CopyIssues s i hd (xs.flatMap fun x => (x.value.map rS).toList) [src.loc.h, dst.loc.h] → xs ≠ [] → xs.length ≤ 8 →
    xs.any (sliceBad tr src dst) = false → CopyEnds s i hd src dst ys yd (data.map Prod.fst) ws → v ≤ maxStaging →
    TagsLet s j src.loc.h reads →
    exec (if tr then .xcopyTranspose i hd src dst xs else .xcopyMove i hd src dst xs) s = .next (ended i
      ((b.writeCells j hd.fmt yd dst (deckle ++ data.map fun c => (c.2, s.readCell j hd.fmt ys src c.1))).queueCopy i.core hd v dst.loc.h runs
        (b.copyTouched j [(src.loc.h, reads)] dst.loc.h runs)))) ∧
  ∀ (s : State) (i : Issue) (hd : CopyHead) (src dst : Mat) (index : Loc) (ys yd : Layout),
    let j := (s.core i.core).job
    let n := dst.rows * dst.cols
    let rs := rect 0 0 src.rows src.cols
    let deckle := gatherDeckle yd dst
    let ws := deckle.map Prod.fst ++ rect 0 0 dst.rows dst.cols
    let runs := cellRuns hd.fmt yd dst ws
    let v := overlapOf (s.sectors j src.loc.h (cellRuns hd.fmt ys src rs) ++ s.sectors j index.h [(8 * index.off, 32 * n)]).dedup
      (s.sectors j dst.loc.h runs)
    let entry (e : Nat) : Nat := leVal (s.load j index.h (index.off + 4 * e) 4)
    CopyIssues s i hd [] [src.loc.h, dst.loc.h, index.h] → CopyEnds s i hd src dst ys yd rs ws → n ≤ 2 ^ 20 → s.accessFault j index.h index.off (4 * n) false [spSram, spHbm] = none →
    v ≤ maxStaging → TagsLet s j index.h [(8 * index.off, 32 * n)] → TagsLet s j src.loc.h (cellRuns hd.fmt ys src rs) → (∀ e, e < n → entry e < src.rows * src.cols) →
    exec (.xcopyGather i hd src dst index) s = .next (ended i
      (((began s i).writeCells j hd.fmt yd dst (deckle ++ (List.range n).map fun e =>
        ((e / dst.cols, e % dst.cols), s.readCell j hd.fmt ys src (entry e / src.cols, entry e % src.cols)))).queueCopy i.core hd v dst.loc.h runs
        ((began s i).copyTouched j [(index.h, [(8 * index.off, 32 * n)]), (src.loc.h, cellRuns hd.fmt ys src rs)] dst.loc.h runs)))

/-- XCOPY_STAGING_GRANTED grants the staging of the oldest command of the mill that lacks it, within 4 MiB in all (R319);
XCOPY_COMPLETE frees the queue's oldest command, and signals its semaphore (R315, R321); either is progress of its job (R221, R314); a write of ones to XC_RACE_SEEN clears
the race flags of the port's jobs (R324). -/
def Sys2Proof.Claims.CopyProgress : Prop :=
  (∀ (s : State) (n : Nat) (k : BitVec 1) (x : XcQ), s.live = true → ((s.core n).xq k).find? (fun y => !y.granted) = some x →
    ((s.millCopies (s.millOf n)).all fun y => y.granted || decide (x.order ≤ y.order)) = true →
    (((s.millCopies (s.millOf n)).filter XcQ.granted).map XcQ.staging).sum + x.staging ≤ 4 * 2 ^ 20 →
    exec (.xcopyStagingGranted n k) s = .next ((s.setCore n ((s.core n).setXq k
      (((s.core n).xq k).map fun y => if y.order = x.order then { y with granted := true } else y))).copyMoves (s.core n).job)) ∧
  (∀ (s : State) (j : Nat) (x : Job), s.job j = some x → s.copyMoves j = s.setJob j (some { x with stuck := false })) ∧
  (∀ (s : State) (n : Nat) (k : BitVec 1) (x : XcQ) (xs : List XcQ), s.live = true → (s.core n).xq k = x :: xs → x.granted = true →
    let s' := ((s.setCore n ((s.core n).setXq k xs)).copyMoves (s.core n).job).settle (s.core n).job
    (x.sem = none → exec (.xcopyComplete n k .good) s = .next s') ∧
    ∀ m, x.sem = some m → exec (.xcopyComplete n k .good) s = .next (s'.sendSig (s.core n).job m 1 n slotStore x.bundle)) ∧
  ∀ (s : State) (p : Port) (v : Reg), s.regOk p = true →
    ∃ t, exec (.xcRaceSeenWrite p v) s = .next t ∧
      ∀ k, k < 16 → ∀ x, s.job (k + 1) = some x → x.owner = p →
        (t.port p).xcRace.getLsbD k = ((s.port p).xcRace.getLsbD k && !(v.getLsbD k && v.getLsbD (k + 16))) ∧
        ((v.getLsbD k && v.getLsbD (k + 16)) = true → ∃ y, t.job (k + 1) = some y ∧ y.races = 0 ∧ y.firstRace = 0)

/-! ### Evaluation keys -/

/-- KEY_INGEST takes its source, the command's buffer or a key staging window of its port, and holds its ring while no other ingest runs,
waits behind one that does, and is refused where the source cannot be read; KEY_INGEST_COMPLETE writes a valid source into the key region and
completes with its values, and a source that fails a check places nothing and completes with the check's status; the next ingest is then
taken (R158 to R162). -/
def Sys2Proof.Claims.KeyIngest : Prop :=
  (∀ (s : State) (p : Port) (r : Nat) (c b : Bytes), Holds s p r 0x12 c → s.ingest = none → s.ingestQ = [] → field c 0x28 1 ≠ 1 →
    let g : Ingest := { port := p, ring := r, job := field c 2 1, set := (c.drop 0x18).take 16, src := fit (field c 0x10 4) b }
    exec (.keyIngest p r (some b)) s = .next { s.hold p r with ingest := some g, ingestLast := p } ∧
    exec (.keyIngest p r none) s = .next (State.complete { s.hold p r with ingestLast := p } p r { status := 0x023A })) ∧
  (∀ (s : State) (p : Port) (r : Nat) (c : Bytes) (b : Option Bytes), Holds s p r 0x12 c → s.ingest = none → s.ingestQ = [] → field c 0x28 1 = 1 →
    (∀ d, State.stagingBytes { s.hold p r with ingestLast := p } p (field c 2 1) c = some d → exec (.keyIngest p r b) s = .next
      { s.hold p r with ingest := some { port := p, ring := r, job := field c 2 1, set := (c.drop 0x18).take 16, src := d }, ingestLast := p }) ∧
    (s.stages p (field c 2 1) (field c 0x2A 2) = false → exec (.keyIngest p r b) s = .next
      (State.complete { s.hold p r with ingestLast := p } p r { status := 0x023A }))) ∧
  (∀ (s : State) (p : Port) (r : Nat) (c : Bytes) (g : Ingest) (b : Option Bytes), Holds s p r 0x12 c → s.ingest = some g →
    exec (.keyIngest p r b) s = .next (State.hold
      { s with ingestQ := (s.ingestQ.filter fun w => !(w.port == p && w.ring == r)) ++ [{ port := p, ring := r, src := b }] } p r)) ∧
  ∀ (s : State) (g : Ingest) (x : Job), s.live = true → s.ingest = some g → s.job g.job = some x →
    let s' : State := { s with ingest := none }
    (∀ y v0 v1 runs, s'.place? g.job x g.set g.src = .done y v0 v1 none runs →
      exec (.keyIngestComplete g.port g.ring) s = .next
        (((s'.setJob g.job (some y)).placeKey g.job runs g.src).complete g.port g.ring { v0 := v0, v1 := v1 }).ingestStep) ∧
    (∀ y v0 v1 id ix runs, s'.place? g.job x g.set g.src = .done y v0 v1 (some (id, ix)) runs →
      exec (.keyIngestComplete g.port g.ring) s = .next
        ((((s'.setJob g.job (some y)).placeKey g.job runs g.src).markDir g.job id ix dirValid).complete g.port g.ring
          { v0 := v0, v1 := v1 }).ingestStep) ∧
    ∀ k, s'.place? g.job x g.set g.src = .refused k →
      exec (.keyIngestComplete g.port g.ring) s = .next (s'.complete g.port g.ring { status := k }).ingestStep

/-- The checks of an ingest, in their order: a manifest or a container that is not valid, a set that exists or is unknown, an entry
that does not list the container, a key present already, a full key region, a digest that differs (R155 to R160). -/
def Sys2Proof.Claims.KeyChecks : Prop :=
  (∀ (s : State) (j : Nat) (x : Job) (set b : Bytes), field b 0 4 = 0x4D4B4A46 →
    (manifestOk b = false → s.place? j x set b = .refused 0x0230) ∧
    (manifestOk b = true → (x.keySet (manifestId b)).isSome = true → s.place? j x set b = .refused 0x0235) ∧
    (manifestOk b = true → x.keySet (manifestId b) = none → (1024 ≤ s.allSets.length ∨ 256 ≤ x.sets.length) →
      s.place? j x set b = .refused 0x0237) ∧
    (manifestOk b = true → x.keySet (manifestId b) = none → s.allSets.length < 1024 → x.sets.length < 256 →
      s.keyFull j x b.length = true → s.place? j x set b = .refused 0x0236) ∧
    (manifestOk b = true → x.keySet (manifestId b) = none → s.allSets.length < 1024 → x.sets.length < 256 →
      s.keyFull j x b.length = false → ∃ y v0 v1, s.place? j x set b = .done y v0 v1 none (s.keyRuns x b.length) ∧ y.sets.length = x.sets.length + 1 ∧
        ∃ k, y.sets = x.sets ++ [k] ∧ k.id = (sha384 b).take 16 ∧ k.placed = [] ∧ k.slot = none ∧ k.entries = manifestEntries b ∧
          k.runs = s.keyRuns x b.length)) ∧
  ∀ (s : State) (j : Nat) (x : Job) (set b : Bytes) (k : KeySet), field b 0 4 = 0x594B4A46 → containerOk b = true → x.keySet set = some k →
    (k.lists b = false → s.place? j x set b = .refused 0x0233) ∧
    (k.lists b = true → k.remote (field b 8 2) = true → s.place? j x set b = .refused 0x023C) ∧
    (k.lists b = true → k.remote (field b 8 2) = false → k.present (field b 8 2) = true → s.place? j x set b = .refused 0x0235) ∧
    (k.lists b = true → k.remote (field b 8 2) = false → k.present (field b 8 2) = false →
      (k.damagedKey (field b 8 2) = false → s.keyFull j x b.length = true → s.place? j x set b = .refused 0x0236) ∧
      ((k.damagedKey (field b 8 2) = true ∨ s.keyFull j x b.length = false) →
        ∀ e, k.entry (field b 8 2) = some e →
          (e.digest ≠ sha384 b → s.place? j x set b = .refused 0x0234) ∧
          (e.digest = sha384 b → ∃ y v1 runs, s.place? j x set b = .done y (field b 8 2) v1
              (if k.damagedKey (field b 8 2) = true then some (set, field b 8 2) else none) runs ∧ y.sets.length = x.sets.length)))

/-- KEYSET_BIND and its unbinding: for a job that is not submitted they take effect at once, for a running job they wait for its
couch, and a bind over a ring of modules waits for every member; KEYRING_INCOMPLETE ends such a bind with its status (R163, R171). -/
def Sys2Proof.Claims.KeyBinding : Prop :=
  let bound (s : State) (p : Port) (r j slot : Nat) (id : Bytes) (ring : Option KeyRing) : State :=
    (s.modJob j fun x =>
      { x.modSet id (fun k => { k with binding := some (slot, p, r), ring := ring, joined := [] }) with
        binds := x.binds ++ [{ set := id, unbind := false }] }).hold p r
  (∀ (s : State) (p : Port) (r : Nat) (c : Bytes) (x : Job), Holds s p r 0x11 c → s.job (field c 2 1) = some x → field c 0x29 1 = 0 →
    field c 0x2A 1 = 0 →
    let id := (c.drop 0x18).take 16
    let slot := field c 0x28 1
    (∀ k, s.bindFault x id slot none = some k → exec (.keysetBind p r none) s = .next (s.complete p r { status := k })) ∧
    (s.bindFault x id slot none = none → x.st = .running → exec (.keysetBind p r none) s = .next (bound s p r (field c 2 1) slot id none)) ∧
    (s.bindFault x id slot none = none → x.st ≠ .running →
      exec (.keysetBind p r none) s = .next ((bound s p r (field c 2 1) slot id none).takeBinds (field c 2 1) []))) ∧
  (∀ (s : State) (p : Port) (r : Nat) (c buf : Bytes) (x : Job), Holds s p r 0x11 c → s.job (field c 2 1) = some x → field c 0x29 1 = 0 →
    field c 0x2A 1 ≠ 0 → 2 * field c 0x2A 1 ≤ field c 0x10 4 → x.st = .running →
    let id := (c.drop 0x18).take 16
    s.bindFault x id (field c 0x28 1) (ringOf c buf) = none →
    exec (.keysetBind p r (some buf)) s = .next (bound s p r (field c 2 1) (field c 0x28 1) id (ringOf c buf))) ∧
  (∀ (s : State) (p : Port) (r : Nat) (c : Bytes) (x : Job) (k : KeySet), Holds s p r 0x11 c → s.job (field c 2 1) = some x →
    field c 0x29 1 = 1 → x.keySet ((c.drop 0x18).take 16) = some k → k.slot = some (field c 0x28 1) → k.unbinding = none → x.st = .running →
    exec (.keysetUnbind p r) s = .next ((s.modJob (field c 2 1) fun x =>
      { x.modSet ((c.drop 0x18).take 16) (fun k => { k with unbinding := some (p, r) }) with
        binds := x.binds ++ [{ set := (c.drop 0x18).take 16, unbind := true }] }).hold p r)) ∧
  (∀ (s : State) (j : Nat) (x : Job) (keep : List Bytes), s.job j = some x →
    s.takeBinds j keep = s.each x.binds fun s o => s.takeBind j keep o) ∧
  (∀ (s : State) (p : Port) (r j : Nat) (k : KeySet), s.live = true → s.ringBind p r = some (j, k) →
    let s' := (s.modJob j fun x =>
      { x.modSet k.id (fun k => { k with binding := none, unbinding := none, ring := none }) with
        binds := x.binds.filter fun o => o.set != k.id }).complete p r { status := 0x023D }
    (k.unbinding = none → exec (.keyringIncomplete p r) s = .next s') ∧
    ∀ p' r', k.unbinding = some (p', r') → exec (.keyringIncomplete p r) s = .next (s'.complete p' r' { status := 0x0232 })) ∧
  ∀ (s : State) (p : Port) (r j : Nat) (k : KeySet) (x : Job), s.live = true → s.ringBind p r = some (j, k) → s.job j = some x → x.st = .running →
    let k' := { k with joined := (k.ring.map KeyRing.members).getD [] }
    exec (.keyringBindComplete p r) s = .next (s.setJob j (some (x.modSet k.id fun _ => k')))

/-- KEY_SELFCHECK regenerates the sixteen residues of a row of key halves, and completes with the rejections (R164, R165). -/
def Sys2Proof.Claims.KeySelfcheck : Prop :=
  ∀ (s : State) (p : Port) (r : Nat) (c : Bytes), Holds s p r 0x13 c →
    (¬ (field c 0x3B 1 = 1 ∧ field c 0x3C 1 < famCount .z36) → ¬ (field c 0x3B 1 = 2 ∧ field c 0x3C 1 < famCount .z28) →
      ∀ ok n, exec (.keySelfcheck p r ok n) s = .next (s.complete p r { status := 0x023B })) ∧
    ∀ f : Family, field c 0x3B 1 = (if f = .z36 then 1 else 2) → field c 0x3C 1 < famCount f →
      let q := primeOf f (field c 0x3C 1)
      let w := expandWords 64 (expandMsg ((c.drop 0x18).take 32) (field c 0x38 2) (field c 0x3A 1) (field c 0x3C 1)) q (fmtWidth (famFmt f)) 64 128
      ∀ ok n, exec (.keySelfcheck p r ok n) s = .next (s.writeBuffer p r ok
        (le 1 (famCode f) ++ le 1 (field c 0x3C 1) ++ le 2 w.2 ++ zeros 4 ++ le 8 q ++ w.1.flatMap (le 8)) { v0 := w.2 } n)

/-- KEY_STREAM_START opens a stream of its headbox over the ranges of digits and limbs, stops on a DAMAGED key and finds no stream for a
key that its directory lacks; a core's acknowledgement frees the blocks that the whole group has taken and gives their credits back, no
stream runs ahead of them by more than its pool, and the last acknowledgement ends the stream. A delivery that failed replays
the jobs it reached, a second failure of one expander within 16 sheets retires that expander, and an error in the key's container or
directory entry stops the job (R166, R167, R178). -/
def Sys2Proof.Claims.KeyStreams : Prop :=
  (∀ (s : State) (i : Issue) (slot index d0 d1 l0 l1 : Nat) (group : List Nat) (x : Job) (k : KeySet) (p : ParamSet) (e : DirEntry),
    CanIssue s i {} → Present s [] [engKey] →
    let j := (s.core i.core).job
    let m := s.millOf i.core
    s.job j = some x → x.boundSet slot = some k → paramSet k.set = some p → s.passFresh j k index = true → (s.headbox m).freeStream.isSome = true →
    ((s.headbox m).entry j slot index = none →
      exec (.keyStreamStart i slot index d0 d1 l0 l1 group) s = .next (s.program i.core 0x0301 1 3 0xFFFF (keyRef slot index 0 0))) ∧
    ((s.headbox m).entry j slot index = some e → d0 ≤ d1 → d1 < p.dnum → l0 ≤ l1 → l1 < p.l + p.k → group ≠ [] →
      (group.all fun c => x.cores.contains c && s.millOf c == m) = true →
      (e.state = 2 → exec (.keyStreamStart i slot index d0 d1 l0 l1 group) s = .next (s.stopJob j
        { code := 0x0601, core := i.core, slot := 3, bundle := (s.core i.core).bundle, data := zeros 3 ++ le 2 index ++ le 1 0 })) ∧
      (e.state ≠ 2 → ∀ q, (s.headbox m).freeStream = some q →
        let ls := fromTo l0 (l1 + 1)
        let t : KeyStream := { job := j, slot := slot, index := index, d0 := d0, d1 := d1, limbs := ls, group := group.dedup,
                               blocks := streamBlocks p d0 d1 ls.length, staged := 0, acked := [], ops := [], remote := k.remote index }
        exec (.keyStreamStart i slot index d0 d1 l0 l1 group) s = .next (ended i ((began s i).beginStream m q t k))))) ∧
  ∀ (s : State) (m q n : Nat) (t : KeyStream), s.live = true → Tbl.get none (s.headbox m).streams q = some t → t.group.contains n = true →
    Tbl.get 0 t.acked n < t.staged →
    let t' := { t with acked := Tbl.set t.acked n (Tbl.get 0 t.acked n + 1) }
    let freed (b : StageBlk) : StageBlk := if b.stream = q ∧ b.job = t.job ∧ b.block < t'.returned then { b with busy := false } else b
    let s' := (s.modHeadbox m fun h =>
      { h with streams := Tbl.set h.streams q (some t'), staging := h.staging.map fun (c : Nat × StageBlk) => (c.1, freed c.2) }).modJob
        t.job fun x => { x with stuck := false }
    (t'.returned < t.blocks → exec (.keyBlockAcknowledged m q n .good) s = .next (s'.grant m) ∧
      ∃ v, Tbl.get none ((s'.grant m).headbox m).streams q = some v ∧ v.acked = t'.acked ∧ t.staged ≤ v.staged ∧
        v.staged ≤ max t.staged (t'.returned + keyPool)) ∧
    (t.blocks ≤ t'.returned → exec (.keyBlockAcknowledged m q n .good) s = .next (s'.endStream m q t')) ∧
    exec (.keyBlockAcknowledged m q n .storage) s = .next (s.each (s.streamJobs m) fun s j =>
      s.beginReplay j { contained := false, code := 0x0501, res := { res := .headbox, index := m }, detail := 0, tag := 0 }) ∧
    (∀ i, (s.headbox m).retired.contains i = false → s.within16 (Tbl.get none (s.headbox m).lastCheck i) = false →
      exec (.keyBlockAcknowledged m q n (.expander i)) s = .next ((s.modHeadbox m fun h =>
        { h with lastCheck := Tbl.set h.lastCheck i (some s.now) }).each (s.jobsOnMill m) fun s j =>
          s.beginReplay j { contained := false, code := 0x0505, res := { res := .headbox, index := m }, detail := 0, tag := 0 })) ∧
    (∀ i, (s.headbox m).retired.contains i = false → s.within16 (Tbl.get none (s.headbox m).lastCheck i) = true →
      ∃ u, exec (.keyBlockAcknowledged m q n (.expander i)) s = .next u ∧ (u.headbox m).retired = (s.headbox m).retired ++ [i] ∧
        u.boot.degraded = true) ∧
    ∀ x k p, s.job t.job = some x → x.boundSet t.slot = some k → x.keySet k.id = some k → paramSet k.set = some p → m < 4 → q < 8 →
      ∀ e, (e = .container ∨ e = .directory) → exec (.keyBlockAcknowledged m q n e) s = .next (((s.modJob t.job fun x =>
        x.modSet k.id fun k => { k with placed := k.placed.map fun (c : Nat × KeyBody) =>
          if c.1 = t.index then (c.1, { c.2 with damaged := true }) else c }).markDir t.job k.id t.index 2).stopJob t.job
            { code := 0x0601, data := zeros 3 ++ le 2 t.index ++ le 1 0 })

/-- A pass request is answered by the module that holds the key, which sends it to its successor, and a key message that arrives is
taken and sent on round the ring (R172, R429). -/
def Sys2Proof.Claims.KeyPasses : Prop :=
  (∀ (s : State) (link src index d0 d1 : Nat) (keyset : Bytes) (j : Nat) (rest : List (Nat × KeySet)) (k : KeySet) (ring : KeyRing) (b : Nat × KeyBody),
    s.live = true → (s.link link).carries = true → src ≠ s.self → d0 ≤ d1 → s.boundBy keyset index = (j, k) :: rest → k.ring = some ring →
    (k.placed.find? fun c => c.1 == index && !c.2.damaged) = some b → k.remote index = false →
    exec (.passRequest link src keyset index d0 d1) s = .next (s.sendMsg ring.successor clsKey index (leVal (k.id.take 2))
      (k.id ++ b.2.header ++ b.2.body))) ∧
  ∀ (s : State) (link : Nat) (h : FlitHdr) (keyset payload : Bytes) (j : Nat) (rest : List (Nat × KeySet)) (k : KeySet) (ring : KeyRing),
    s.live = true → (s.link link).carries = true → s.flitBad link 2 clsKey h .good = none →
    let s' := s.takeFlit link h clsKey
    (h.dst ≠ s'.self → exec (.keyMessage link h keyset payload) s =
      .next (s'.forward h clsKey ((if h.first then keyset else []) ++ payload) (some link))) ∧
    (h.dst = s'.self → s'.boundBy keyset h.span = [] → exec (.keyMessage link h keyset payload) s = .next (s'.linkErr link 4)) ∧
    (h.dst = s'.self → s'.boundBy keyset h.span = (j, k) :: rest → k.ring = some ring →
      let t := (s'.passArrives keyset h.span h.first payload).each (List.range 4) State.grant
      exec (.keyMessage link h keyset payload) s = .next
        (if ring.successor = ring.holder h.span then t
         else t.forward { h with dst := ring.successor } clsKey ((if h.first then k.id else []) ++ payload)))
/-! ### Streams and host pages -/

/-- STRM opens its channel at element 0 with its first mark; STRM.MARK raises the mark of a MARK stream of its own direction and
leaves every other stream as it is (R326 to R331). -/
def Sys2Proof.Claims.StreamIssue : Prop :=
  (∀ (s : State) (i : Issue) (f : Strm) (x : Job),
    CanIssue s i { mem := [f.buf.h] ++ (if f.link then [] else [f.far.h]), ready := ((s.core i.core).chan f.channel).isNone } → s.job (s.core i.core).job = some x →
    Present s [] (if f.link then [engLink] else []) → f.full < x.semCount → f.empty < x.semCount → (∀ k, f.done = some k → k < x.semCount) →
    strmMisaligned f = false → strmBad f = false → x.badRelease f = false → s.strmStale (s.core i.core).job x f = none →
    exec (.strm i f) s = .next (ended i ((began s i).modCore i.core fun c =>
      c.setChan f.channel (some { f := f, bundle := c.bundle, pos := 0, sub := 0, mark := f.mark0, halt := none })))) ∧
  ∀ (s : State) (i : Issue) (channel mark : Nat) (outbound : Bool), CanIssue s i {} → channel ≤ 7 →
    let go (f : CoreSt → CoreSt) : Outcome := .next (ended i ((began s i).modCore i.core f))
    ((s.core i.core).chan channel = none → exec (.strmMark i channel mark outbound) s = go id) ∧
    ∀ h, (s.core i.core).chan channel = some h →
      (strmCredit h.f = false → h.f.outbound = outbound →
        exec (.strmMark i channel mark outbound) s = go fun c => c.setChan channel (some { h with mark := max h.mark mark })) ∧
      (strmCredit h.f = true ∨ h.f.outbound ≠ outbound → exec (.strmMark i channel mark outbound) s = go id)

/-- STREAM_ELEMENT_COMPLETE moves the next element, or the part of it up to a boundary of 64 bytes, in order: its bytes go from one side
to the other, the first bytes of a unit take one from its semaphore, the last element of a unit signals the other semaphore, and the last of
the stream frees the channel; a stream that is not ready moves nothing, and a handle change or a power-down that has taken effect refuses the
bytes (R297, R302, R331 to R333, R335). Choices of the model: assumption 145. -/
def Sys2Proof.Claims.StreamElements : Prop :=
  ∀ (s : State) (core k upTo : Nat) (x : Job) (c : Chan) (host : Bytes) (e : ReadErr), (s.core core).chan k = some c →
    s.job (s.core core).job = some x →
    let j := (s.core core).job
    let n := c.part upTo
    (x.strmReady c n = false → exec (.streamElementComplete core k host e upTo) s = .next s) ∧
    (s.enginesRun j = true → c.halt = none → 0 < n → x.strmReady c n = true →
      (∀ d l, s.elementStale j x c n = some (d, l) → exec (.streamElementComplete core k host e upTo) s = .next (s.stopJob j
        { code := 0x0305, detail := d, core := core, slot := strmSlot c.f.outbound, bundle := c.bundle, handle := l.h % 65536, data := le 8 l.off })) ∧
      (s.elementStale j x c n = none → s.strmAwaits x c = none → (x.readsHost c.f = true → (s.port x.owner).servesHost = true) →
        (x.readsHost c.f = true ∨ s.readOutcome j c.reads.h c.reads.off n e = .good) →
        let data := s.strmData j x c n host
        let moved := ((s.strmWrite j x c data).modJob j fun x => x.strmPay c n).work core 15 (if x.readsHost c.f then n else 0)
        (c.moved + n = c.f.e → exec (.streamElementComplete core k host e upTo) s = .next (State.strmSignal (moved.modCore core fun y =>
          y.setChan k (if c.pos + 1 = strmCount c.f then none else some { c with pos := c.pos + 1, sub := 0 })) j core c)) ∧
        (c.moved + n ≠ c.f.e → exec (.streamElementComplete core k host e upTo) s = .next (moved.modCore core fun y =>
          y.setChan k (some { c with sub := c.sub + n / 64 }))))) ∧
    (c.opens = true → (x.strmPay c n).sem (strmTakes c.f) = x.sem (strmTakes c.f) - 1) ∧
    (c.opens = false → (x.strmPay c n).sems = x.sems)

/-- The pages of a host handle: a translation that grants an access enters the cache, and the engines and the commands that wait for its
page look again; a page obtains one of 512 requests, or of as many as the host allots; a response frees its request, and a refusal, a
time-out or a port that no longer serves host handles stops the jobs that wait and ends the commands (R338 to R343, R346, R406).
Choices of the model: assumptions 47, 48 and 146. -/
def Obligations.HostPages : Prop :=
  (∀ (s : State) (p : Port) (pasid page : Nat) (y : Xlat), s.live = true → (s.port p).servesHost = true →
    (s.port p).atsReqs.contains (pasid, page) = true →
    let q : PortSt := { s.port p with atsReqs := (s.port p).atsReqs.erase (pasid, page) }
    let again (t : State) : State := (List.range 8).foldl (fun t r => t.retryRing p (pasid, page) r)
      (s.jobNums.foldl (fun t j => t.retryPage p (pasid, page) j) t)
    ((y.read || y.write) = true →
      exec (.atsTranslationCompletion p pasid page (some y)) s = .next (again (s.setPort p (q.cache (atsEntry pasid page y))))) ∧
    ((y.read || y.write) = false → exec (.atsTranslationCompletion p pasid page (some y)) s = .next (again (s.setPort p q))) ∧
    exec (.atsTranslationCompletion p pasid page none) s = .next (again (s.setPort p q))) ∧
  (∀ (s : State) (p : Port) (pasid page : Nat), s.live = true → (s.port p).servesHost = false →
    (∀ y, (s.port p).atsReqs.contains (pasid, page) = true → exec (.atsTranslationCompletion p pasid page y) s =
      .next ((s.setPort p { s.port p with atsReqs := (s.port p).atsReqs.erase (pasid, page) }).refuseAll 0x0308 p (pasid, page))) ∧
    ((s.port p).pageWait.contains (pasid, page) = true → exec (.pageRequest p pasid page) s =
      .next ((s.setPort p { s.port p with pageWait := (s.port p).pageWait.erase (pasid, page) }).refuseAll 0x0308 p (pasid, page)))) ∧
  (∀ (s : State) (p : Port) (pg : Nat × Nat), (s.port p).atsReqs.contains pg = false →
    ((s.askXlat p pg).port p).atsReqs = (s.port p).atsReqs ++ [pg] ∧ (s.askXlat p pg).out = .translate p pg.1 pg.2 :: s.out) ∧
  (∀ (s : State) (p : Port) (pasid page : Nat), s.live = true → (s.port p).servesHost = true → (s.port p).priFailed = false → (s.port p).pageReqs.length < min 512 (s.port p).pageAlloc →
    (s.port p).pageWait.contains (pasid, page) = true →
    ∃ t, exec (.pageRequest p pasid page) s = .next t ∧ (t.port p).pageReqs = (s.port p).pageReqs ++ [(pasid, page)] ∧
      (t.port p).pageWait = (s.port p).pageWait.erase (pasid, page) ∧ t.out = .page p pasid page :: s.out) ∧
  (∀ (s : State) (p : Port) (pasid page : Nat), s.live = true → (s.port p).pageReqs.contains (pasid, page) = true →
    let freed (b : Bool) : State := s.setPort p { s.port p with pageReqs := (s.port p).pageReqs.erase (pasid, page), priFailed := (s.port p).priFailed || b }
    ((s.port p).servesHost = true → exec (.pageResponse p pasid page .success) s =
      .next (if s.anyHalted p (pasid, page) = true then (freed false).askXlat p (pasid, page) else freed false)) ∧
    ((s.port p).servesHost = false → exec (.pageResponse p pasid page .success) s = .next ((freed false).refuseAll 0x0308 p (pasid, page))) ∧
    exec (.pageResponse p pasid page .invalid) s = .next ((freed false).refuseAll 0x0308 p (pasid, page)) ∧
    exec (.pageResponse p pasid page .failure) s = .next ((freed true).refuseAll 0x0308 p (pasid, page))) ∧
  (∀ (s : State) (p : Port) (pasid page : Nat) (r : PageResp), (s.port p).pageReqs.contains (pasid, page) = false →
    exec (.pageResponse p pasid page r) s = .next s) ∧
  (∀ (s : State) (j : Nat) (x : Job) (n k : Nat) (c : Chan) (pg : Nat × Nat), s.live = true → s.job j = some x →
    (s.core n).job = j → (s.core n).chan k = some c → c.halt = some pg →
    exec (.pageTimeout j (some (n, k))) s = .next (s.pageStop j 0x0309 n (strmSlot c.f.outbound) c.bundle c.f.far.h k c.pos (pg.2 * 4096) false)) ∧
  (∀ (s : State) (j : Nat) (x : Job) (pg : Nat × Nat), s.live = true → s.job j = some x → x.relHalt = some pg →
    exec (.pageTimeout j none) s = .next (s.pageStop j 0x0309 0xFF 0xFF 0 0xFFFF 0xFF 0 (pg.2 * 4096) true)) ∧
  (∀ (s : State) (j : Nat) (p : Port) (r : Nat) (c : Bytes) (y : BufPage), s.live = true → (s.ring p r).current = some c → (s.ring p r).page = some y →
    y.halted = true → exec (.pageTimeout j none (some (p, r))) s = .next (s.refuse p r (bufFault c))) ∧
  (∀ (s : State) (p : Port) (pasid page len : Nat), s.live = true → ∃ t, exec (.atsInvalidation p pasid page len) s = .next t ∧
    t.out = .invalidated p pasid page :: s.out ∧ ∀ e, e ∈ (t.port p).atc ↔ e ∈ (s.port p).atc ∧ ¬ (e.pasid = pasid ∧ e.page * 4096 < page * 4096 + len ∧ page * 4096 < e.page * 4096 + e.len)) ∧
  ∀ (s : State) (p : Port) (ats pri pasid : Bool) (alloc : Nat), s.live = true →
    exec (.priReset p ats pri pasid alloc) s = .next (s.setPort p
      { s.port p with ats := ats, pri := pri, pasidEn := pasid, priFailed := false, pageAlloc := alloc })

/-! ### Handles, windows and bank groups -/

/-- HANDLE_MAP with its four operations: the operations of a command are checked in order, one that fails refuses the whole command
with its position and detail, and otherwise windows change at once, and maps at once for a job not submitted or with its next couch for
a running one (R294, R296, R411). -/
def Sys2Proof.Claims.HandleCommands : Prop :=
  ∀ (s : State) (p : Port) (r : Nat) (c b : Bytes) (x : Job), Holds s p r 0x21 c → s.job (field c 2 1) = some x →
    let j := field c 2 1
    let n := field c 0x10 4 / 40
    let ops := readHOps (fit (40 * n) b) n
    let start : MapScan := { wins := (s.port p).wins, view := x.view, now := x.handles }
    let row (k : Nat) : Instr :=
      if k = 1 then .handleMap p r (some b) else if k = 2 then .handleUnmap p r (some b) else if k = 3 then .windowOpen p r (some b)
      else .windowClose p r (some b)
    ∀ k, 1 ≤ k → k ≤ 4 → ops.head?.map HOp.op = some k → hopsBad (fit (40 * n) b) n = none →
      (∀ st i d, s.scanOps j x 0 start ops = .error (st, i, d) → exec (row k) s = .next (s.complete p r { status := st, detail := i + 256 * d })) ∧
      ∀ m, s.scanOps j x 0 start ops = .ok m →
        let s' := s.modPort p fun q => { q with wins := m.wins }
        (x.st = .running → m.ops ≠ [] → exec (row k) s = .next ((s'.setJob j (some { x with
          maps := x.maps ++ [{ port := p, ring := r, ops := m.ops }] })).hold p r)) ∧
        (x.st ≠ .running ∨ m.ops = [] → exec (row k) s = .next ((s'.setJob j (some { x with
          handles := applyMaps x.handles m.ops })).complete p r {}))

/-- What one operation of a HANDLE_MAP comes to (R294, R398, R411): a window of a number in use is refused, a window needs an HBM
scratch handle, and an unmap or a map puts its entry in the table that later operations see. -/
def Sys2Proof.Claims.HandleOps : Prop :=
  ∀ (s : State) (j : Nat) (x : Job) (m : MapScan) (o : HOp),
    (o.op = 1 → (∀ k, s.entryFault j x m.view o.h (readHandle o.raw) = some k → s.scanOp j x m o = .error (0x0250, k)) ∧
      (s.entryFault j x m.view o.h (readHandle o.raw) = none → ∃ m', s.scanOp j x m o = .ok m' ∧
        Tbl.get {} m'.view o.h = readHandle o.raw ∧ (∀ h, h ≠ o.h → Tbl.get {} m'.view h = Tbl.get {} m.view h) ∧ m'.wins = m.wins)) ∧
    (o.op = 2 → o.h ≤ 4095 → ∃ m', s.scanOp j x m o = .ok m' ∧ Tbl.get {} m'.view o.h = {} ∧
      (∀ h, h ≠ o.h → Tbl.get {} m'.view h = Tbl.get {} m.view h) ∧ m'.wins = m.wins) ∧
    (o.op = 3 → o.h ≤ 4095 → ((Tbl.get none m.wins o.window).isSome = true → s.scanOp j x m o = .error (0x0254, 0)) ∧
      (Tbl.get none m.wins o.window = none → windowOk (Tbl.get {} m.now o.h) = true → ∃ m', s.scanOp j x m o = .ok m' ∧
        Tbl.get none m'.wins o.window = some { keyStaging := bit o.flags 0, job := j, handle := o.h, baseGib := o.gib } ∧
        m'.view = m.view ∧ m'.ops = m.ops)) ∧
    (o.op = 4 → o.h ≤ 4095 → ∃ m', s.scanOp j x m o = .ok m' ∧ m'.view = m.view ∧ m'.ops = m.ops ∧
      ∀ w, Tbl.get none m.wins o.window = some w → w.job = j → w.handle = o.h → Tbl.get none m'.wins o.window = none)

/-- BANK_POWER in either direction: groups that the job may not change refuse it; for a running job the change waits for a couch,
and otherwise its groups leave the bank map at once (R298, R300, R301). -/
def Sys2Proof.Claims.BankPower : Prop :=
  ∀ (s : State) (p : Port) (r : Nat) (c : Bytes) (x : Job) (up : Bool), Holds s p r 0x22 c → s.job (field c 2 1) = some x →
    (field c 0x18 1 = 1 ↔ up = true) →
    let j := field c 2 1
    let gs := powerGroups c
    let row : Instr := if up then .bankPowerUp p r else .bankPowerDown p r
    let w : PendPower := { port := p, ring := r, up := up, groups := gs, begun := decide (x.st ≠ .running) }
    let taken : State := ((gs.foldl (fun t g => t.modGroup g fun y => { y with pend := some up }) s).hold p r).setJob j
      (some { x with power := x.power ++ [w] })
    (∀ k, s.powerFault j x up gs = some k → exec row s = .next (s.complete p r { status := k })) ∧
    (s.powerFault j x up gs = none → x.st = .running → exec row s = .next taken) ∧
    (s.powerFault j x up gs = none → x.st ≠ .running → exec row s = .next ((taken.beginPower w).endPower j false))

/-- The life of a bank group: a drained one is DARK, a wiped one is FREE, or OWNED by the job it was wiped for, a FREE one goes OFF, and an
evacuated one is OWNED again (R299 to R304). -/
def Sys2Proof.Claims.BankGroups : Prop :=
  ∀ (s : State) (m g : Nat), s.live = true →
    let x := 128 * m + g
    ((s.group x).st = .draining → exec (.bankGroupDark m g) s = .next ((s.modGroup x fun y => { y with st := .dark }).endPower (s.group x).owner false)) ∧
    ((s.group x).st = .wiping → s.job (s.group x).owner = none → ∃ t, exec (.bankGroupWiped m g) s = .next t ∧
      (t.group x).st = .free ∧ (t.group x).owner = 0 ∧ (t.group x).mapped = false ∧
      (∀ y, y ≠ x → t.group y = s.group y) ∧ (∀ a, a / 2 ^ 22 = x → t.sram.get a = 0) ∧ ∀ a, a / 2 ^ 22 ≠ x → t.sram.get a = s.sram.get a) ∧
    (∀ k, (s.group x).st = .wiping → s.job (s.group x).owner = some k → k.st ≠ .wiping → exec (.bankGroupWiped m g) s =
      .next (((s.wipeGroup x).modGroup x fun y => { y with st := .owned, mapped := !k.waking x }).endPower (s.group x).owner false)) ∧
    ((s.group x).st = .free → exec (.bankGroupOff m g) s = .next (s.modGroup x fun y => { y with st := .off })) ∧
    ((s.group x).st = .evacuating → exec (.evacuationDone m g true) s = .next (s.modGroup x fun y => { y with st := .owned }))

/-! ### HBM -/

/-- A correction storm is 16 or more corrected errors of one resource in one sheet; below that they are only counted, and a first storm of a
pseudo-channel replays the jobs that use it, while a second within 16 sheets retires it (R111, R357). -/
def Sys2Proof.Claims.CorrectionStorms : Prop :=
  (∀ (s : State) (m g n : Nat), s.live = true → m < 4 → g < 128 →
    (n < 16 → exec (.correctionStorm (.group m g) n) s = .next (s.bump (ctrModule (12 + m)) n)) ∧
    (16 ≤ n → exec (.correctionStorm (.group m g) n) s = .next ((s.bump (ctrModule (12 + m)) n).groupStorm m g))) ∧
  ∀ (s : State) (pc n : Nat), s.live = true → pc < 768 →
    let s' := s.bump (ctrModule (pc / 64)) n
    (n < 16 → exec (.correctionStorm (.pc pc) n) s = .next s') ∧
    (16 ≤ n → (s.stack (pc / 64)).st ≠ 3 → (s.stack (pc / 64)).retired.contains (pc % 64) = false →
      ((s.stack (pc / 64)).migrating.any fun c => c.1 == pc % 64) = false →
      let r : ResIx := { res := .pseudoChannel, index := pc }
      (s.within16 (Tbl.get none s.pcStorm pc) = false → exec (.correctionStorm (.pc pc) n) s = .next
        (State.stormJobs { s'.stormRec r with pcStorm := Tbl.set s.pcStorm pc (some s.now) } (s.unitJobs (pc / 192)) r)) ∧
      (s.within16 (Tbl.get none s.pcStorm pc) = true → exec (.correctionStorm (.pc pc) n) s = .next
        (State.retirePc { s'.stormRec r with pcStorm := Tbl.set s.pcStorm pc none } pc)))

/-- Retraining of a pseudo-channel, one of a stack at a time, where others and one that migrates wait; its end with spare lanes for the
failed ones or the pseudo-channel retired; the end of a migration, with what becomes of the unmigrated granules lost in it; and self-refresh
of an idle mill's stacks (R356, R358, R362, R364). -/
def Sys2Proof.Claims.PseudoChannels : Prop :=
  (∀ (s : State) (pc : Nat), s.live = true → pc < 768 → (s.stack (pc / 64)).st = 1 → (s.stack (pc / 64)).retraining = none →
    ((s.stack (pc / 64)).migrating.any fun c => c.1 == pc % 64) = false → (s.stack (pc / 64)).retired.contains (pc % 64) = false →
    (s.stack (pc / 64)).due = [] →
    exec (.pcRetrain pc) s = .next (s.modStack (pc / 64) fun x => { x with retraining := some (pc % 64) })) ∧
  (∀ (s : State) (pc : Nat), s.live = true → pc < 768 → (s.stack (pc / 64)).st = 1 → (s.stack (pc / 64)).retraining ≠ some (pc % 64) →
    (s.stack (pc / 64)).due.contains (pc % 64) = false →
    ((∃ d, (s.stack (pc / 64)).retraining = some d) ∧ (s.stack (pc / 64)).retired.contains (pc % 64) = false ∨
      ((s.stack (pc / 64)).migrating.any fun c => c.1 == pc % 64) = true ∧ (s.stack (pc / 64)).due = []) →
    exec (.pcRetrain pc) s = .next (s.modStack (pc / 64) fun x => { x with due := x.due ++ [pc % 64] })) ∧
  (∀ (s : State) (pc : Nat), s.live = true → (s.stack (pc / 64)).retraining = some (pc % 64) →
    let x := s.stack (pc / 64)
    let c := pc % 64
    let used (t : Tbl Nat) (i : Nat) := Tbl.get 0 t i
    (∀ data cmd, used x.dataSpares c + data ≤ 2 → used x.cmdSpares (c / 2) + cmd ≤ 1 →
      exec (.pcRetrainDone pc data cmd) s = .next (s.modStack (pc / 64) fun y => Stack.startDue { y with
        retraining := none, trainTemp := Tbl.set y.trainTemp c y.temp
        dataSpares := Tbl.set y.dataSpares c (used y.dataSpares c + data), cmdSpares := Tbl.set y.cmdSpares (c / 2) (used y.cmdSpares (c / 2) + cmd) })) ∧
    ∀ data cmd, (2 < used x.dataSpares c + data ∨ 1 < used x.cmdSpares (c / 2) + cmd) →
      exec (.pcRetrainDone pc data cmd) s = .next (((s.modStack (pc / 64) fun y => { y with
        retraining := none, trainTemp := Tbl.set y.trainTemp c y.temp }).retirePc pc true).modStack (pc / 64) Stack.startDue)) ∧
  (∀ (s : State) (pc left : Nat) (cs : List (Nat × Nat)), s.live = true → (s.stack (pc / 64)).st = 1 →
    (s.stack (pc / 64)).migrating = (pc % 64, left) :: cs →
    (∀ lost : List Nat, exec (.migrationDone pc lost) s =
      .next (State.endMigration (s.each (lost.filter fun b => !(s.stack (pc / 64)).redirected (pc % 64) (b / 256)) fun s b => s.lostGranule pc b) pc)) ∧
    ∃ t, exec (.migrationDone pc []) s = .next t ∧ (t.stack (pc / 64)).migrating = cs ∧ (∀ n, n ∈ (t.stack (pc / 64)).moved → n / 2 ^ 22 ≠ pc % 64) ∧
      ∀ k, k ≠ pc / 64 → t.stack k = s.stack k) ∧
  ∀ (s : State) (k : Nat), s.live = true → (s.stack k).st = 1 → s.millIdle (k / 3) = true →
    exec (.selfRefreshIdle k) s = .next (s.modStack k fun x => { x with st := 2 })

/-- UNIT_FILLED, which waits for retraining and migration of the mill's stacks, leaves its unit with no owner and every byte of it zero,
those in the remap reserve too, and no other byte changed (R358, R360, R364, R377). -/
def Sys2Proof.Claims.UnitFilled : Prop :=
  ∀ (s : State) (m k : Nat), s.live = true → (s.hunit (1536 * m + k)).filling = true → s.fillHeld m = false →
    ∃ t, exec (.unitFilled m k) s = .next t ∧ t.hunit (1536 * m + k) = {} ∧ (∀ y, y ≠ 1536 * m + k → t.hunit y = s.hunit y) ∧
      (∀ a, inUnit (1536 * m + k) (s.logical a) = true → t.hbm.get a = 0) ∧ (∀ a, inUnit (1536 * m + k) (s.logical a) = false → t.hbm.get a = s.hbm.get a) ∧
      ∀ x, s.job (s.hunit (1536 * m + k)).owner = some x →
        t.job (s.hunit (1536 * m + k)).owner = some { x with wipeUnits := x.wipeUnits.erase (1536 * m + k) }

/-- PATROL_SCRUB counts what it corrects; an uncorrectable error in a job's key region damages the key that lies there, one in a sector
that no job owns is logged and the sector filled again, one in dry data stops the job that holds them, and one in what a stride has written
is filled again and replays the job (R178, R361). Choices of the
model: assumption 81. -/
def Sys2Proof.Claims.PatrolScrub : Prop :=
  ∀ (s : State) (pc byte corrected : Nat) (e : ReadErr), s.live = true → pc < 768 → (s.stack (pc / 64)).st = 1 →
    let s' := s.bump (ctrModule (pc / 64)) corrected
    let key := hbmKey pc (byte % 2 ^ 30 / 64 * 64)
    (uncorrectable e = false → exec (.patrolScrub pc byte corrected e) s = .next s') ∧
    (∀ j, uncorrectable e = true → s.tableAt key = none → s.regionAt key = some j → exec (.patrolScrub pc byte corrected e) s = .next
      (((s'.refill key).damageKey j key).errRec { code := 0x0501, res := 3, cls := 1, detail := 1, index := pc })) ∧
    (uncorrectable e = true → s.tableAt key = none → s.regionAt key = none →
      let tag := s.storedTag key
      let r : ResIx := { res := .pseudoChannel, index := pc }
      (s.job tag = none → exec (.patrolScrub pc byte corrected e) s = .next
        ((s'.refill key).errRec { code := 0x0501, res := 3, cls := 1, detail := 1, index := pc })) ∧
      (∀ j h rel, s.dryHolder key = some (j, h, rel) → exec (.patrolScrub pc byte corrected e) s = .next
        (s'.storageFault tag .dry r (.checkBits 0) 0xFF 0xFF 0 h rel)) ∧
      ((s.job tag).isSome = true → s.dryHolder key = none → exec (.patrolScrub pc byte corrected e) s = .next
        ((s'.refill key).storageFault tag .wet r (.checkBits 0) 0xFF 0xFF 0 0xFFFF)))

/-! ### Jobs -/

/-- JOB_CREATE gives everything asked for or nothing: a refusal has the status of the first check that fails, and a job that is made is
CREATED, belongs to its port, and has the cores of its grant, whose groups are wiped for it (R366, R368 to R370).
Choices of the model: assumptions 86, 87, 88 and 89. -/
def Obligations.JobCreate : Prop :=
  ∀ (s : State) (p : Port) (r : Nat) (c : Bytes), Holds s p r 0x01 c →
    let q := readJobReq c
    (s.sec.lifecycle < 2 → exec (.jobCreate p r) s = .next (s.complete p r { status := 0x0803 })) ∧
    (2 ≤ s.sec.lifecycle → s.freeJob = none → exec (.jobCreate p r) s = .next (s.complete p r { status := 0x0105 })) ∧
    ∀ j, 2 ≤ s.sec.lifecycle → s.freeJob = some j →
      (s.overQuota p q = true → exec (.jobCreate p r) s = .next (s.complete p r { status := 0x0108 })) ∧
      (s.overQuota p q = false →
        (∀ k, s.allot q = .error k → exec (.jobCreate p r) s = .next (s.complete p r { status := 0x0106, detail := k })) ∧
        ∀ g, s.allot q = .ok g →
          (∀ k m, s.guaranteeFault p q g.cores = some (k, m) →
            exec (.jobCreate p r) s = .next (s.complete p r { status := 0x0107, detail := k, v0 := m })) ∧
          (s.guaranteeFault p q g.cores = none → ∃ t y, exec (.jobCreate p r) s = .next t ∧ t.job j = some y ∧ y.st = .created ∧ y.owner = p ∧
            y.cores = g.cores ∧ y.adm = (if q.bestEffort then 0 else s.admissions + 1) ∧ y.coreShare = q.share ∧ y.image = none ∧
            (∀ n, n ∈ g.cores → (t.core n).job = j ∧ (t.core n).mode = .idle) ∧
            (∀ x, x ∈ g.groups → (t.group x).st = .wiping ∧ (t.group x).owner = j) ∧
            (∀ u, u ∈ g.units → (t.hunit u.1).owner = j) ∧ ∀ k, k ≠ j → t.job k = s.job k))

/-- JOB_KILL completes first and then ends its job; JOB_WIPED frees the number once every group and unit of the job is wiped; and an
image that passes the checks of R226 is loaded, its cores taking their indices and its copy the image area (R224, R226, R352, R377). -/
def Sys2Proof.Claims.JobLife : Prop :=
  (∀ (s : State) (p : Port) (r : Nat) (c : Bytes), Holds s p r 0x02 c →
    exec (.jobKill p r) s = .next ((s.complete p r {}).endJob (field c 2 1) 0x0704 none)) ∧
  (∀ (s : State) (j : Nat) (x : Job), s.live = true → s.job j = some x → x.st = .wiping →
    (s.wiped x = false → exec (.jobWiped j) s = .next s) ∧
    (s.wiped x = true →
      let s' := (s.jobEvent j 6 0x0430 1 []).modPort x.owner fun y => { y with xcRace := y.xcRace &&& ~~~(1 <<< (j - 1) : BitVec 16) }
      let mine (key : Nat) : Bool := key / 16 == j - 1 || (x.cores.filter fun n => (s.core n).job == 0).any fun n => coreCtr n key
      let keep (t : Tbl Nat) : Tbl Nat := t.filter fun c => !mine c.1
      let s'' : State := { s' with ctr := keep s'.ctr, ream := keep s'.ream, boundary := s'.boundary.map keep }
      exec (.jobWiped j) s = .next (((((s''.setJob j none).tokenWiped j).reselectIdle).testSteps 0).modStart))) ∧
  ∀ (s : State) (p : Port) (r : Nat) (c b : Bytes) (x : Job), Holds s p r 0x10 c → s.job (field c 2 1) = some x →
    (∀ k v, s.loadImage (field c 2 1) x b (field c 0x10 4) = .error (k, v) →
      exec (.programLoad p r (some b)) s = .next (s.complete p r { status := k, v0 := v })) ∧
    ∀ g, s.loadImage (field c 2 1) x b (field c 0x10 4) = .ok g →
      exec (.programLoad p r (some b)) s = .next (State.complete
        (State.setJob ((g.cores.zipIdx.foldl (fun t a => t.modCore a.1.1 fun y => { y with index := a.2 }) s).placeImage (field c 2 1) b) (field c 2 1)
          (some { x with image := some g, st := .loaded })) p r { v0 := b.length })

/-- SUBMIT of a job on one module launches it and completes with the number of the tick at which it begins; TRACE without its engine, or work
and save areas that do not fit, refuse it, and a job that spans modules waits for START (R98, R198, R248, R435). -/
def Sys2Proof.Claims.Submit : Prop :=
  ∀ (s : State) (p : Port) (r : Nat) (c : Bytes) (x : Job), Holds s p r 0x20 c → s.job (field c 2 1) = some x →
    let trace := bit (field c 0x1A 1) 0
    let none? (h : Nat) : Option Nat := if h = 0xFFFF then none else some h
    let y : Job := { x with stride := field c 0x18 1, auto := field c 0x19 1 == 1, nanTrace := trace, work := none? (field c 0x1C 2),
                            save := none? (field c 0x1E 2) }
    (trace = true → bit s.grade.engineMask 5 = false → exec (.submit p r) s = .next (s.complete p r { status := 0x0202, v0 := 2 ^ 21 })) ∧
    ((trace = true → bit s.grade.engineMask 5 = true) →
      (x.areasOk (field c 0x1C 2) (field c 0x1E 2) = false → exec (.submit p r) s = .next (s.complete p r { status := 0x0240 })) ∧
      (x.areasOk (field c 0x1C 2) (field c 0x1E 2) = true →
        (x.span = none → exec (.submit p r) s = .next (((s.setJob (field c 2 1) (some y)).launch (field c 2 1)).complete p r { v0 := s.tick })) ∧
        ∀ i, x.span = some i → exec (.submit p r) s = .next (((s.setJob (field c 2 1) (some y)).modSpan i fun z =>
          { z with submit := some (p, r) }).hold p r)))

/-- The row of POLICY_SET whose lowest item is `k`; `g`: another module of the tick group holds a job. -/
def Sys2Proof.Claims.policyRow (k : Nat) (p : Port) (r : Nat) (g : Bool) : Instr :=
  match k with
  | 0 => .policySetPeriod p r g
  | 1 => .policySetReam p r
  | 2 => .policySetTimeout p r
  | 3 => .policySetSelftestInterval p r
  | 4 => .policySetAdminCap p r
  | 5 => .policySetAdmission p r
  | 6 => .policySetQuota p r
  | _ => .clockReselect p r

/-- POLICY_SET takes every item that VALID selects, or none of them: the items of an accepted command hold their new values and the others
the ones they had; CLOCK_RESELECT also looks for a better reference (R366, R367, R68). The rows stand for the lowest item selected.
Choices of the model: assumptions 91 and 92. -/
def Obligations.PolicySet : Prop :=
  ∀ (s : State) (p : Port) (r k : Nat) (c : Bytes) (g : Bool), Holds s p r 0x41 c → k < 8 →
    ((List.range 8).find? (bit (field c 0x18 2))).getD 0 = k →
    let row := policyRow k p r g
    let fault := s.policyFault c (decide (k = 0) && g)
    let has := bit (field c 0x18 2)
    (∀ st, fault = some st → exec row s = .next (s.complete p r { status := st })) ∧
    (fault = none → has 7 = false → ∃ t, exec row s = .next t ∧
      t.periodNext = (if has 0 then field c 0x1A 1 else s.periodNext) ∧ t.periodSet = (s.periodSet || has 0) ∧ t.reamNext = (if has 1 then field c 0x1C 2 else s.reamNext) ∧
      t.timeoutMs = (if has 2 then field c 0x1E 2 else s.timeoutMs) ∧ t.selftestHours = (if has 3 then field c 0x1B 1 else s.selftestHours) ∧
      t.clk.adminCapNext = (if has 4 then field c 0x20 2 else s.clk.adminCapNext) ∧
      t.admitA = (if has 5 then bit (field c 0x22 1) 0 else s.admitA) ∧ t.admitB = (if has 5 then bit (field c 0x22 1) 1 else s.admitB) ∧
      t.quotaJobs = (if has 6 then field c 0x23 1 else s.quotaJobs) ∧ t.quotaCores = (if has 6 then field c 0x24 1 else s.quotaCores) ∧
      t.period = s.period ∧ t.clk.adminCap = s.clk.adminCap ∧ t.jobs = s.jobs ∧ t.cores = s.cores) ∧
    (fault = none → k = 7 → exec row s = .next (s.reselect.complete p r {}))

/-! ### Sheets, couches and releases -/

/-- A TICK counts by one and puts the period set before it in use, and at a boundary the ream length too (R95, R96, R117, R366); the
master's announcement of the next tick goes out on its links, with the period that it begins and the delay of the hop (R433). A module that does not run, that has not begun its ticks, or that switches its
source, has no tick (R66). -/
def Sys2Proof.Claims.Ticks : Prop :=
  (∀ s : State, s.live = true → s.ticking = true → s.clk.switching = .none →
    ∃ t, exec .tick s = .next t ∧ t.tick = s.tick + 1 ∧ t.period = s.periodNext ∧ t.periodNext = s.periodNext ∧ t.reamOn = true ∧
      (s.boundary = none → s.reamOn = true → (s.periodSet || decide (s.reamLen ≤ s.sheetInReam + 1)) = true →
        t.reamLen = s.reamNext ∧ t.boundary.isSome = true) ∧
      (s.boundary = none → s.reamOn = true → (s.periodSet || decide (s.reamLen ≤ s.sheetInReam + 1)) = false →
        t.reamLen = s.reamLen ∧ t.boundary = none)) ∧
  (∀ s : State, s.live = false ∨ s.ticking = false ∨ s.clk.switching ≠ .none → exec .tick s = .next s) ∧
  ∀ s : State, s.live = true → s.tickGroup.role = 1 ∨ s.tickGroup.role = 3 →
    exec .tickMessageSend s = .next (((List.range 24).filter fun k => (s.link k).carries).foldl (fun t k => t.enqueue k
      [{ cls := clsTick, dst := (t.link k).peer, src := t.self, span := 0, tag := 0, first := true, last := true,
         payload := le 8 s.tick ++ le 1 s.periodNext ++ le 1 1 ++ le 4 (t.link k).delay }]) s)

/-- What the end of a sheet does to a job on one module: before the last sheet of its stride the next sheet begins; at that sheet the
couch is due, and commits where every core is at COUCH; else the tick is late, and at sheet D the stride is overrun (R98, R100, R109).
Choices of the model: assumptions 74 and 138. -/
def Obligations.DueCouch : Prop :=
  ∀ (s : State) (j : Nat) (x : Job), s.job j = some x → x.span = none → (s.waitsNow j x && x.stuck && s.someWait x) = false →
    ∃ y, (s.endSheet j x).job j = some y ∧ y.elapsed = x.elapsed + 1 ∧ y.st = x.st ∧
      (x.elapsed + 1 < x.stride → (s.allCouched j x && s.allEnded x) = false →
        y.sheet = x.sheet + b2n (!x.paged) 1 ∧ y.late = x.late ∧ y.couching = x.couching ∧ y.overrun = x.overrun) ∧
      (x.stride ≤ x.elapsed + 1 → s.allCouched j x = true → y.couching = true ∧ y.late = x.late ∧ y.overrun = x.overrun) ∧
      (x.stride ≤ x.elapsed + 1 → s.allCouched j x = false →
        y.late = x.late + 1 ∧ y.couching = false ∧
        (x.paged = false → sheetD x.stride x.kMax x.dMin ≤ x.sheet → y.overrun = true) ∧
        (x.sheet < sheetD x.stride x.kMax x.dMin → y.overrun = x.overrun ∧ y.sheet = x.sheet + b2n (!x.paged) 1))

/-- A couch: COUCH_COMMIT makes the one that is due, which counts, commits every area up to what was written, records the state, and begins a
new stride; SCHEDULE_OVERRUN stops a job that did not couch by sheet D, and ROLE_FOLD_COMPLETE ends the folding of role bits (R56, R98, R101 to
R105).
Choices of the model: assumptions 67 and 68. -/
def Obligations.Couches : Prop :=
  (∀ (s : State) (j : Nat) (x : Job), s.live = true → s.clk.switching = .none → s.job j = some x → x.st = .running → x.couching = true →
    x.quiesce = none → x.inter.ph = .none → x.span = none →
    (s.allEnded x = true → exec (.couchCommit j) s = .next
      (((s.commit j true false []).modJob j fun y => { y with final := true }).abortWaiting j)) ∧
    (s.allEnded x = false → exec (.couchCommit j) s = .next ((((s.commit j false false []).suspendNow j).testSteps j).leaveCouch j))) ∧
  (∀ (s : State) (j : Nat) (x : Job) (final inter : Bool) (keep : List Bytes), s.job j = some x →
    ∃ y, (s.commit j final inter keep).job j = some y ∧ y.seq = x.seq + 1 ∧ y.sheet = 1 ∧ y.elapsed = 0 ∧ y.late = 0 ∧ y.couching = false ∧
      y.excCount = 0 ∧ y.exc = none ∧ y.snap.sems = x.sems ∧ y.snap.bars = x.bars ∧ y.snap.handles = y.handles ∧ y.undo = [] ∧
      y.areas = x.areas.map (fun c => (c.1, { c.2 with commit := c.2.write, staged := [], ends := c.2.ends.filter (c.2.write < ·) }))) ∧
  (∀ (s : State) (j : Nat) (x : Job), s.live = true → s.job j = some x → x.st = .running → x.overrun = true → x.quiesce = none →
    exec (.scheduleOverrun j) s = .next (s.stopJob j { code := 0x0306 })) ∧
  ∀ (s : State) (j : Nat) (x : Job), s.live = true → s.job j = some x →
    exec (.roleFoldComplete j) s = .next (s.setJob j (some { x with folding := false }))

/-- REAM_BOUNDARY latches the live counters as they stood at the boundary tick, which begin again from that instant, counts the ream, leaves
the length that the boundary tick put in use, and begins the jobs' late and uncounted sheets afresh; with no boundary to latch it does nothing (R117, R118). -/
def Sys2Proof.Claims.Reams : Prop :=
  (∀ (s : State) (b : Tbl Nat), s.live = true → s.boundary = some b →
    ∃ t, exec .reamBoundary s = .next t ∧ t.reams = s.reams + 1 ∧ t.sheetInReam = 0 ∧ t.boundary = none ∧ t.reamLen = s.reamLen ∧ t.reamNext = s.reamNext ∧
      t.ctr = s.since b ∧ t.ream = b ∧ ∀ j x, s.jobNums.contains j = true → s.job j = some x →
        ∃ y, t.job j = some y ∧ y.uncounted = 0 ∧ y.lateReam = b2n x.lateNow 1) ∧
  ∀ s : State, s.live = true → s.boundary = none → exec .reamBoundary s = .next s

/-- REPLAY_QUIESCE_DONE sets the job back to its last couch: semaphores, barriers and handles as recorded, nothing staged, and its stride
begins again at the next tick (R101, R103, R105, R112, R113).
Choices of the model: assumption 58. -/
def Obligations.Replays : Prop :=
  ∀ (s : State) (j : Nat) (x : Job) (q : Quiesce), s.live = true → s.clk.switching = .none → s.job j = some x → x.quiesce = some q →
    ((s.groupsOf j).all fun g => (s.group g).st != .evacuating) = true →
    ∃ t y, exec (.replayQuiesceDone j) s = .next t ∧ t.job j = some y ∧ y.sems = x.snap.sems ∧ y.bars = x.snap.bars ∧
      y.handles = x.snap.handles ∧ y.quiesce = none ∧ y.replaying = true ∧ y.begins = true ∧ y.seq = x.seq ∧ y.st = x.st ∧ y.sheet = 0 ∧
      y.areas = x.areas.map (fun c => (c.1, { c.2 with write := c.2.commit, staged := [] })) ∧ y.txCredits = putBack x.txCredits x.txSpent ∧
      y.blks = x.blks.map (fun c => (c.1, { c.2 with written := false }))

/-- Releases and receive areas: RELEASE_COMPLETE writes the entries of the release in hand in order, each to its destination, with FLUSH
passing it, asks for a page that is not translated and waits while it is halted, stops the job on a page that is refused or data that cannot be
reached or read, and ends the release after its last entry; RELEASE_END makes the bytes of a peer's release visible and moves FLUSH over them,
and GRANT adds credits for a stream (R105 to R107, R302, R336, R339, R427, R428).
Choices of the model: assumptions 44, 45, 46, 48 and 59. -/
def Obligations.ReleasesAndGrants : Prop :=
  (∀ (s : State) (j : Nat) (x : Job) (r : Release) (rs : List Release) (n : Nat) (e : ReadErr), s.live = true → s.clk.switching = .none →
    s.job j = some x → x.relHalt = none → x.rels = r :: rs → r.begun = true →
    (r.entries[r.done]? = none → exec (.releaseComplete j n e) s = .next (s.finishRelease j r)) ∧
    ∀ p, r.entries[r.done]? = some p →
      (s.entryGoes j p = true → exec (.releaseComplete j (n + 1) e) s = exec (.releaseComplete j n e) (s.sendEntry j p) ∧
        ∃ y, (s.sendEntry j p).job j = some y ∧ (y.area p.h).flush = (x.area p.h).flush + p.len ∧
          y.rels = { r with done := r.done + 1 } :: rs) ∧
      (∀ k, s.entryStale j p = some k → exec (.releaseComplete j n e) s = .next ((s.dropReleases j).stopJob j
        { code := 0x0305, detail := k, handle := p.h % 65536, data := le 8 p.off, inRelease := true })) ∧
      (∀ a, s.entryStale j p = none → s.entryRefused p = some a →
        exec (.releaseComplete j n e) s = .next (s.pageStop j 0x0308 0xFF 0xFF 0 0xFFFF 0xFF 0 a true)) ∧
      (∀ q pg, s.entryStale j p = none → s.entryRefused p = none → s.readOutcome j p.h p.off p.len e = .good → s.entryAwaits p = some (q, pg) →
        exec (.releaseComplete j n e) s = .next (s.askXlat q pg)) ∧
      (s.entryStale j p = none → s.entryRefused p = none → s.readOutcome j p.h p.off p.len e ≠ .good → exec (.releaseComplete j 0 e) s =
        .next (s.storageFault j .dry (s.resOf j p.h (p.off + readAt (s.readOutcome j p.h p.off p.len e)))
          (s.readOutcome j p.h p.off p.len e) 0xFF 0xFF 0 p.h true))) ∧
  (∀ (s : State) (j : Nat) (x : Job) (n : Nat) (e : ReadErr), s.job j = some x → x.relHalt.isSome = true →
    exec (.releaseComplete j n e) s = .next s) ∧
  (∀ (s : State) (span stream seq bytes j : Nat) (x : Job), s.live = true → s.spanJob span = some j → s.job j = some x →
    (x.handle stream).receive = true → seq ≠ 0 →
    let b := (Tbl.get [] x.rxHidden stream).take bytes
    let off := (x.area stream).flush % max 1 (x.handle stream).bound
    (∀ k, s.ringFault j stream off b.length true = some k → exec (.releaseEnd span stream seq bytes) s = .next (s.stopJob j
      { code := 0x0305, detail := k, handle := stream % 65536, data := le 8 off })) ∧
    (s.ringFault j stream off b.length true = none → ∃ t y, exec (.releaseEnd span stream seq bytes) s = .next t ∧ t.job j = some y ∧
      (y.area stream).flush = (x.area stream).flush + b.length ∧ (y.area stream).write = (x.area stream).write ∧
      (y.area stream).commit = (x.area stream).commit ∧ Tbl.get [] y.rxHidden stream = (Tbl.get [] x.rxHidden stream).drop bytes)) ∧
  ∀ (s : State) (span stream credits j : Nat) (x : Job), s.live = true → s.spanJob span = some j → s.job j = some x →
    exec (.grant span stream credits) s = .next (s.setJob j (some { x with
      txCredits := Tbl.set x.txCredits stream (Tbl.get 0 x.txCredits stream + credits) }))

/-! ### Spans -/

/-- Votes and decisions of a span: the master takes a member's vote once, and judges: ROLLBACK on a FAULT, COMMIT when every vote is
READY, and nothing before the last vote is there; a vote that does not come counts as FAULT, a member asks for a decision that does
not come, and a decision is repeated from the record of 16 sheets (R116, R436). -/
def Sys2Proof.Claims.SpanVotes : Prop :=
  (∀ (s : State) (i m seq : Nat) (v : Vote) (k d : Nat) (dead : Bool), s.live = true → s.masterNo = s.self → (s.spanEntry i).isSome = true →
    exec (.vote i m seq v k d dead) s = .next (s.takeVote i m seq v k d dead)) ∧
  (∀ (s : State) (i m seq : Nat) (v : Vote) (k d : Nat) (dead : Bool), (s.members i).contains m = true →
    ((s.span i).votes.any fun c => c.1 == m) = false → s.decided i = false → (((s.spanJob i).bind s.job).any fun x => x.seq != seq) = false →
    let s' := s.modSpan i fun y => { y with votes := y.votes ++ [(m, v)], voteSeq := seq, dead := y.dead && dead, kMax := max y.kMax k,
                                            dMin := min y.dMin d }
    let vs := (s.span i).votes ++ [(m, v)]
    (v = .fault → s.takeVote i m seq v k d dead = s'.decideAs i .rollback) ∧
    ((vs.any fun c => c.2 == .fault) = false → ((s.members i).all fun n => vs.any fun c => c.1 == n) = false → s.takeVote i m seq v k d dead = s') ∧
    ((vs.all fun c => c.2 == .ready) = true → ((s.members i).all fun n => vs.any fun c => c.1 == n) = true →
      s.takeVote i m seq v k d dead = s'.decideAs i .commit)) ∧
  (∀ (s : State) (i seq j : Nat) (d : Decision) (lost : Bool), s.live = true → s.masterNo ≠ s.self → s.spanJob i = some j →
    exec (.decision i seq d none lost) s = .next (s.takeDecision i j seq d lost)) ∧
  (∀ (s : State) (i m : Nat), s.live = true → s.masterNo = s.self → (s.span i).votes ≠ [] → (s.members i).contains m = true →
    ((s.span i).votes.any fun v => v.1 == m) = false →
    exec (.voteTimeout i m) s = .next ((s.modSpan i fun y => { y with voteSeq := (s.span i).voteSeq }).decideAs i .rollback)) ∧
  (∀ (s : State) (i m : Nat), s.live = true → s.masterNo = s.self → (s.span i).votes = [] → (s.members i).contains m = true →
    ((s.spanJob i).bind s.job) = none → ((s.span i).decisions.head?.any fun d => d.2.1 == s.now) = false →
    exec (.voteTimeout i m) s = .next ((s.modSpan i fun y => { y with voteSeq := s.seqInHand i }).decideAs i .rollback)) ∧
  (∀ (s : State) (i j : Nat) (x : Job), s.live = true → s.masterNo ≠ s.self → s.spanJob i = some j → s.job j = some x →
    (s.span i).mine = some .ready →
    exec (.decisionTimeout i) s = .next (s.sendMsg s.masterNo clsControl i kindDecisionRequest (le 4 x.seq))) ∧
  ∀ (s : State) (i m seq n : Nat) (d : Decision), s.live = true → s.masterNo = s.self →
    ((s.span i).decisions.find? fun d => d.1 == seq && s.now ≤ d.2.1 + 16) = some (seq, n, d) →
    exec (.decisionRequest i m seq) s = .next (s.sendMsg m clsCouch i kindDecision (decisionPayload seq d))

/-- A decision that a member takes: it commits what it voted READY for, defers as a late tick, or rolls back with PEER_ROLLBACK; one for another
stride does nothing (R109, R116, R428). -/
def Sys2Proof.Claims.SpanDecisions : Prop :=
  ∀ (s : State) (i j seq : Nat) (x : Job) (d : Decision), s.job j = some x → (s.span i).deferred = none →
    let s' := s.modSpan i fun y => { y with mine := none, deferred := none }
    (x.seq ≠ seq → s.takeDecision i j seq d = s) ∧
    (x.st = .running → x.seq = seq →
      ((s.span i).mine = some .ready → s.takeDecision i j seq .commit = s'.commitSpan j) ∧
      ((s.span i).mine ≠ some .ready → s.takeDecision i j seq .commit = s') ∧
      s.takeDecision i j seq .defer = s'.deferSpan j ∧ ∀ lost, s.takeDecision i j seq .rollback lost = s'.rollbackSpan i j lost)

/-- START completes the SUBMIT of a span with its first tick and launches the job, or refuses it with detail 6 or 7; a span that stays
incomplete for 1 s is refused, and STOP stops the job of a span with the cause it names (R82, R116, R379, R435). -/
def Sys2Proof.Claims.SpanStartStop : Prop :=
  (∀ (s : State) (i tick hops : Nat) (agree : Bool) (j : Nat) (p : Port) (r : Nat), s.live = true → s.masterNo ≠ s.self →
    s.waitingSubmit i = some (j, p, r) →
    let s' := s.modSpan i fun y => { y with submit := none }
    (4 < hops → exec (.start i tick hops agree) s = .next (s'.complete p r { status := 0x0260, detail := 7 })) ∧
    (hops ≤ 4 → agree = false → exec (.start i tick hops agree) s = .next (s'.complete p r { status := 0x0260, detail := 6 })) ∧
    (hops ≤ 4 → agree = true → exec (.start i tick hops agree) s = .next
      ((((s'.modSpan i fun _ => { firstTick := some tick }).launch j).complete p r { v0 := tick }).grantRoom j i))) ∧
  (∀ (s : State) (i j : Nat) (p : Port) (r : Nat), s.live = true → s.waitingSubmit i = some (j, p, r) →
    exec (.spanSubmitTimeout i) s = .next ((s.modSpan i fun y => { y with submit := none }).complete p r { status := 0x0260, detail := 6 })) ∧
  ∀ (s : State) (i cause j : Nat) (x : Job), s.live = true → s.spanJob i = some j → s.job j = some x → x.span = some i →
    (cause = 0x0304 → exec (.stop i cause) s = .next (s.deadlockStop j false)) ∧
    (cause = 0x0602 ∨ cause = 0x0306 → exec (.stop i cause) s = .next (s.stopJob j { code := cause } false)) ∧
    (cause = 0x0703 → exec (.stop i cause) s = .next (s.stopAny j { code := 0x0703, res := { res := .peer } } false)) ∧
    (cause ∉ [0x0304, 0x0306, 0x0602, 0x0703, 0x0704] →
      exec (.stop i cause) s = .next (s.stopJob j { code := 0x0704, res := { res := .peer } } false)) ∧
    (cause = 0x0704 → x.st = .running → exec (.stop i cause) s = .next
      (((s.stopJob j { code := 0x0704, res := { res := .peer } } false).abortAll x.owner j none).killJob j)) ∧
    (cause = 0x0704 → x.st ≠ .running → x.st ≠ .wiping → exec (.stop i cause) s = .next
      (((s.stopRec j { code := 0x0704, res := { res := .peer } }).abortAll x.owner j none).killJob j))

/-! ### Registers, logs and counters -/

/-- Snapshots: SNAP_CTRL and STATS_SNAPSHOT take every counter that the port sees at one edge, the fill ends BUSY, and a write during BUSY is
ignored (R118, R390, R391). -/
def Sys2Proof.Claims.Snapshots : Prop :=
  (∀ (s : State) (p : Port) (v : Reg), s.essOk p = true →
    ((v.getLsbD 0 && v.getLsbD 16) = true → (s.port p).snapBusy = false → ∃ t, exec (.snapCtrlWrite p v) s = .next t ∧
      (t.port p).snapBusy = true ∧ (t.port p).snapSeq = (s.port p).snapSeq + 1 ∧ Tbl.get 0 (t.port p).hold ctrTick = s.now ∧
      (∀ k, k < ctrTick → s.sees p k = true → Tbl.get 0 (t.port p).hold k = Tbl.get 0 (s.boundary.getD s.ctr) k) ∧ t.ctr = s.ctr) ∧
    ((v.getLsbD 0 && v.getLsbD 16) = false ∨ (s.port p).snapBusy = true → exec (.snapCtrlWrite p v) s = .next s)) ∧
  (∀ (s : State) (p : Port) (r : Nat) (c : Bytes), Holds s p r 0x38 c →
    ((s.port p).snapBusy = true → exec (.statsSnapshot p r) s = .next s) ∧
    ((s.port p).snapBusy = false → exec (.statsSnapshot p r) s =
      .next (((s.snapshot p).modPort p fun q => { q with snapRing := some r }).hold p r))) ∧
  ∀ (s : State) (p : Port), s.live = true → (s.port p).snapBusy = true →
    let s' := s.modPort p fun q => { q with snapBusy := false, snapRing := none }
    ((s.port p).snapRing = none → exec (.snapshotFilled p) s = .next s') ∧
    ∀ r, (s.port p).snapRing = some r → exec (.snapshotFilled p) s = .next (s'.complete p r { v0 := (s.port p).snapSeq.toNat })

/-- Logs and vectors: a write of ERR_STATUS clears the bits it selects, and empties the log with the last of them; a write of the VALID
registers frees error records; unmasking a vector fires it where it is pending; and a frequency measurement reports its count, unless its reference has
stopped, which a new START ends (R73, R74, R392, R400,
R478). -/
def Sys2Proof.Claims.LogsAndVectors : Prop :=
  (∀ (s : State) (p : Port) (v : Reg), s.essOk p = true →
    let left := (s.port p).errStatus &&& ~~~(BitVec.ofNat 4 (w1c v))
    (v.toNat / 65536 ≠ 0 → left ≠ 0 → exec (.errStatusWrite p v) s = .next (s.setPort p { s.port p with errStatus := left })) ∧
    (v.toNat / 65536 ≠ 0 → left = 0 →
      exec (.errStatusWrite p v) s = .next (s.setPort p { s.port p with errStatus := 0, errTotal := 0, errs := [] })) ∧
    (v.toNat / 65536 = 0 → exec (.errStatusWrite p v) s = .next s)) ∧
  (∀ (s : State) (p : Port) (hi : Bool) (v : Reg), s.regOk p = true →
    let left := (s.port p).recValid &&& ~~~(BitVec.ofNat 32 (w1c v * if hi then 65536 else 1))
    exec (.errrecValidWrite p hi v) s = .next (s.setPort p { s.port p with recValid := left, recLost := if left = 0 then 0 else (s.port p).recLost })) ∧
  (∀ (s : State) (p : Port) (v : Nat), s.essOk p = true → v < 64 → ∃ t, exec (.msixUnmask p v) s = .next t ∧
    (t.port p).msixMask.getLsbD v = false ∧ (t.port p).msixPend.getLsbD v = false ∧
    (∀ w, w ≠ v → w < 64 → (t.port p).msixMask.getLsbD w = (s.port p).msixMask.getLsbD w ∧
      (t.port p).msixPend.getLsbD w = (s.port p).msixPend.getLsbD w) ∧
    t.out = (if (s.port p).msixPend.getLsbD v then .msix p v :: s.out else s.out)) ∧
  (∀ (s : State) (p : Port) (v : Reg), s.regOk p = true → (v.getLsbD 31 && v.getLsbD 15) = true →
    (s.port p).fmc.start = false ∨ s.fmcHangs p = true →
    let w := masked (s.port p).fmc.ctrl v
    let f : Fmc := { windowExp := bits w 14 12, targetSel := bits w 11 6, refSel := bits w 5 0 }
    (clockCode f.targetSel = true → clockCode f.refSel = true →
      exec (.fmcStart p v) s = .next (s.setPort p { s.port p with fmc := { f with start := true } })) ∧
    (clockCode f.targetSel = false ∨ clockCode f.refSel = false →
      exec (.fmcStart p v) s = .next (s.setPort p { s.port p with fmc := { f with selInvalid := true } }))) ∧
  ∀ (s : State) (p : Port) (n : Nat), s.live = true → (s.port p).fmc.start = true → s.fmcHangs p = false →
    exec (.fmcDone p n false) s = .next (s.setPort p { s.port p with fmc :=
      { (s.port p).fmc with start := false, valid := true, targetStopped := false, count := n % 2 ^ 29 } }) ∧
    exec (.fmcDone p n true) s = .next (s.setPort p { s.port p with fmc :=
      { (s.port p).fmc with start := false, valid := true, targetStopped := true, count := 0 } })

/-- Accesses of the register space: a write of one word acts by its register, and one to a reserved location is an entry of the error log with
the request aborted, which AER notes; a read returns its registers, and waits for the fill where it reads holding registers; and a write of
the MSI-X structures writes each of its words (R382, R386 to R388, R390, R400). -/
def Sys2Proof.Claims.RegisterAccess : Prop :=
  (∀ (s : State) (p : Port) (off : Nat) (v : Reg), s.essOk p = true →
    (decodeReg off = none → exec (.registerWrite p off v) s = .next ((s.logErr p off 0 true 1).abort p)) ∧
    ∀ b o, decodeReg off = some (b, o) →
      exec (.registerWrite p off v) s = .next (s.writeBlock p b o v) ∧
      (s.gated b o = true → exec (.registerWrite p off v) s = .next s) ∧
      (b ∈ [RegBlock.sheet, .core, .spad, .strm, .hbm, .job, .sec, .pba, .win] → exec (.registerWrite p off v) s = .next s)) ∧
  ∀ (s : State) (p : Port) (off : Nat) (q : Req), s.essOk p = true →
    (∀ k, busKind off q = some k → exec (.busError p off q) s = .next ((s.logErr p off 0 q.write k).abort p)) ∧
    (busKind off q = none → q.write = false →
      let ps := (reqPlaces off q).filterMap id
      ((s.port p).snapBusy = false ∨ ps.any holding = false →
        exec (.busError p off q) s = .next (s.emit (.data p (ps.flatMap fun b => le 4 (s.regValue p b.1 b.2))))) ∧
      ((s.port p).snapBusy = true → ps.any holding = true → exec (.busError p off q) s = .next s)) ∧
    (∀ vs : List Reg, busKind off q = none → q.write = true →
      let ps := (reqPlaces off q).filterMap id
      vs.length = ps.length → (ps.all fun b => b.1 == .msix) = true →
      exec (.busError p off q vs) s = .next ((ps.zip vs).foldl (fun t w => t.writeMsix p w.1.2 w.2) s)) ∧
    ((s.abort p).out = .abort p :: s.out ∧ (s.abort p).port p = { s.port p with conf := { (s.port p).conf with caStatus := true } })

/-- BAR2: reads and writes of an open window act on its handle; a closed window, a read-only or running job and uncorrectable data abort the
request, which is logged with its kind (R398, R399). -/
def Sys2Proof.Claims.Bar2Access : Prop :=
  (∀ (s : State) (p : Port) (off len : Nat) (e : ReadErr), s.essOk p = true →
    (s.bar2Place p off len = none → exec (.bar2Read p off len e) s = .next (s.bar2Abort p off false 3)) ∧
    ∀ w o x, s.bar2Place p off len = some (w, o, x) →
      (s.readOutcome w.job w.handle o len e = .good → exec (.bar2Read p off len e) s = .next (s.emit (.data p (s.load w.job w.handle o len)))) ∧
      (∀ k, s.readOutcome w.job w.handle o len e = .checkBits k → exec (.bar2Read p off len e) s = .next (s.bar2Abort p off false 8)) ∧
      (∀ t k, s.readOutcome w.job w.handle o len e = .tag t k →
        exec (.bar2Read p off len e) s = .next ((s.bar2Abort p off false 4).tagRecord w.job w.handle (o + k) t))) ∧
  ∀ (s : State) (p : Port) (off : Nat) (data : Bytes) (e : ReadErr), s.essOk p = true →
    (s.bar2Place p off data.length = none → exec (.bar2Write p off data e) s = .next (s.bar2Abort p off true 3)) ∧
    ∀ w o x, s.bar2Place p off data.length = some (w, o, x) →
      ((x.handle w.handle).readonly = true ∨ (x.st ≠ .created ∧ x.st ≠ .loaded ∧ w.keyStaging = false) →
        exec (.bar2Write p off data e) s = .next (s.bar2Abort p off true 5)) ∧
      ((x.handle w.handle).readonly = false → x.st = .created ∨ x.st = .loaded ∨ w.keyStaging = true →
        (uncorrectable e = false ∨ partSector o data.length = false → exec (.bar2Write p off data e) s = .next (s.store w.job w.handle o data)) ∧
        (uncorrectable e = true → partSector o data.length = true → exec (.bar2Write p off data e) s = .next (s.bar2Abort p off true 8)))

/-! ### Command rings and events -/

/-- The registers of a ring and of the event ring: a doorbell moves the tail once CONTROL is set, a head write the head, an enabling
write with legal sizes sets every index to zero and PHASE to one, and a disabling write stops the ring (R89, R402 to R404, R414). -/
def Sys2Proof.Claims.RingRegisters : Prop :=
  ∀ (s : State) (p : Port) (r : Nat) (v : Reg), s.regOk p = true → r < 8 →
    let g := s.ring p r
    (s.isReady bitControl = true → exec (.doorbell p r v) s = .next (s.setRing p r { g with sqTail := v.toNat % 4096 })) ∧
    (s.isReady bitControl = false → exec (.doorbell p r v) s = .next s) ∧
    exec (.cqHeadWrite p r v) s = .next (s.setRing p r { g with cqHead := v.toNat % 4096 }) ∧
    (let n := masked g.cfg v
     (g.enable = false → bit n 15 = true → 4 ≤ bits n 3 0 → bits n 3 0 ≤ bits n 11 8 → bits n 11 8 ≤ 12 →
       exec (.ringEnable p r v) s = .next (s.setRing p r { g with enable := true, cqLog2 := bits n 11 8, sqLog2 := bits n 3 0,
                                                                   sqTail := 0, sqHead := 0, cqHead := 0, cqTail := 0, phase := true })) ∧
     (g.enable = true → bit n 15 = true → exec (.ringEnable p r v) s = .next (s.setRing p r g)) ∧
     (g.enable = true → bit n 15 = false → exec (.ringDisable p r v) s = .next (s.setRing p r { g with enable := false }))) ∧
    exec (.evHeadWrite p v) s = .next (s.modPort p fun q => { q with ev := { q.ev with head := v.toNat % 4096 } }) ∧
    (let n := masked (s.port p).ev.cfg v
     (s.port p).ev.enable = false → bit n 15 = true → 6 ≤ bits n 3 0 → bits n 3 0 ≤ 12 →
       exec (.evEnable p v) s = .next (s.modPort p fun q =>
         { q with ev := { q.ev with log2 := bits n 3 0, enable := true, head := 0, tail := 0, phase := true } }))

/-- COMMAND_FETCH reads the command at the head of a ring that has room for its completion: one that passes the checks stays in execution, and
one that fails completes at once with the status of the first check that fails (R404, R407, R409). -/
def Sys2Proof.Claims.CommandFetch : Prop :=
  ∀ (s : State) (p : Port) (r : Nat) (b : Bytes), s.serves p = true → r < 8 → (s.ring p r).mayFetch = true →
    let c := fit 64 b
    let s' := s.setRing p r { s.ring p r with current := some c, held := false, seq := s.lastRead p + 1, page := none, sent := 0, sqHead := ((s.ring p r).sqHead + 1) % 2 ^ (s.ring p r).sqLog2 }
    (s'.checkCommand p c = none → exec (.commandFetch p r b) s = .next s') ∧
    (∀ d, s'.checkCommand p c = some d → exec (.commandFetch p r b) s = .next (s'.complete p r d)) ∧
    (opcodes.contains (field c 0 1) = false → s'.checkCommand p c = some { status := 0x0001 }) ∧
    (opcodes.contains (field c 0 1) = true → ∀ off, s'.fieldFault c = some off → s'.checkCommand p c = some { status := 0x0002, detail := off }) ∧
    (opcodes.contains (field c 0 1) = true → s'.fieldFault c = none →
      (adminOpcodes.contains (field c 0 1) = true → p ≠ s.adminPort → s'.checkCommand p c = some { status := 0x0102 }) ∧
      (jobOpcodes.contains (field c 0 1) = true → adminOpcodes.contains (field c 0 1) = false →
        (s.job (field c 2 1) = none → s'.checkCommand p c = some { status := 0x0101 }) ∧
        ∀ x, s.job (field c 2 1) = some x → x.owner ≠ p → s'.checkCommand p c = some { status := 0x0101 }))

/-- A completion: 32 bytes at the tail of its ring, which goes on by one with PHASE inverted at the wrap; its vector is raised unless the
command's flag says not to (R405, R407). -/
def Sys2Proof.Claims.Completions : Prop :=
  ∀ (s : State) (p : Port) (r : Nat) (d : Done) (c : Bytes), (s.ring p r).current = some c →
    let g := s.ring p r
    let b := completionBytes (field c 4 4) d.status g.sqHead d.v0 d.v1 d.detail (d.job.getD (field c 2 1)) (field c 0 1) g.phase
    b.length = 32 ∧ ((s.complete p r d).ring p r).current = none ∧ ((s.complete p r d).ring p r).cqTail = (g.cqTail + 1) % 2 ^ g.cqLog2 ∧
      ((s.complete p r d).ring p r).phase = (if (g.cqTail + 1) % 2 ^ g.cqLog2 = 0 then !g.phase else g.phase) ∧
      (bit (field c 1 1) 0 = true → (s.complete p r d).out = .completion p r g.cqTail b :: s.out) ∧
      (bit (field c 1 1) 0 = false → (s.complete p r d) =
        ((s.setRing p r { g with current := none, held := false, page := none, sent := 0, cqTail := (g.cqTail + 1) % 2 ^ g.cqLog2,
                                 phase := if (g.cqTail + 1) % 2 ^ g.cqLog2 = 0 then !g.phase else g.phase }).emit (.completion p r g.cqTail b)).raise p (2 + r))

/-- The queries answer with the records they name (R126, R131, R412), and EVENT_RECORD_POST writes the oldest record that waits at the tail of
the event ring once it has room, after a PAD record where it would cross the end (R415). -/
def Sys2Proof.Claims.QueriesAndEvents : Prop :=
  (∀ (s : State) (p : Port) (r : Nat) (c : Bytes) (ok : Bool) (n : Nat),
    (Holds s p r 0x30 c → exec (.queryPrimes p r ok n) s =
      .next (s.writeBuffer p r ok (primeRecords (field c 0x18 1)).flatten { v0 := (primeRecords (field c 0x18 1)).length } n)) ∧
    (Holds s p r 0x31 c → exec (.queryParamset p r ok n) s =
      .next (s.writeBuffer p r ok (setRecords (field c 0x18 1)).flatten { v0 := (setRecords (field c 0x18 1)).length } n)) ∧
    (Holds s p r 0x32 c → field c 8 8 = 0 → exec (.queryReady p r ok n) s = .next (s.complete p r { v0 := s.ready.toNat, v1 := s.readyValue })) ∧
    (Holds s p r 0x32 c → field c 8 8 ≠ 0 → exec (.queryReady p r ok n) s =
      .next (s.writeBuffer p r ok (s.boot.log.flatMap failBytes) { v0 := s.ready.toNat, v1 := s.readyValue } n))) ∧
  ∀ (s : State) (p : Port) (e : EvRec) (es : List EvRec), s.serves p = true → (s.port p).ev.waiting = e :: es → (s.port p).ev.enable = true →
    let g := (s.port p).ev
    g.pad e.units + e.units ≤ g.room →
    exec (.eventRecordPost p) s = .next (((((s.modPort p fun q => { q with ev := { q.ev with waiting := es } }).padRing p (g.pad e.units)).writeRecord
      p e).raise p e.vector).reported e)

/-! ### Power, limits and operating points -/

/-- Power comes and goes: a qualified PWR_EN edge starts the module as after reset but for what R60 keeps; PWR_EN low or VIN below 40 V shuts it
down, with POWER_FAIL posted before power goes; PWR_GOOD starts the clocks; and a low FREEZE_N of 100 ns freezes the module (R30, R34, R36, R37, R58, R60, R76, R481). -/
def Sys2Proof.Claims.PowerUpAndDown : Prop :=
  (∀ (s : State) (vin : Nat), 42000 < vin → s.pins.power = .off ∨ s.pins.power = .shutdown ∨ s.pins.power = .tripped →
    ∃ t, exec (.coldReset vin true) s = .next t ∧ t.pins.power = .starting ∧ t.pins.vin = vin ∧ t.pins.pwrEn = true ∧ t.pins.pwrGood = false ∧
      t.pins.thermtrip = false ∧ t.jobs = [] ∧ t.cores = [] ∧ t.sram = [] ∧ t.hbm = [] ∧ t.ready = 0 ∧ t.eeprom = s.eeprom ∧ t.grade = s.grade ∧
      t.sec.fuses = s.sec.fuses ∧ t.sec.slotA = s.sec.slotA ∧ t.sec.slotB = s.sec.slotB ∧ t.sec.entries = s.sec.entries ∧
      t.sec.running = none ∧ t.sec.debug = false ∧ t.period = 100) ∧
  (∀ (s : State) (vin : Nat) (low : Bool), vin ≤ 42000 ∨ low = false ∨ s.pins.power = .on ∨ s.pins.power = .starting →
    exec (.coldReset vin low) s = .next { s with pins := { s.pins with vin := vin, pwrEn := true } }) ∧
  (∀ s : State, s.pins.power = .on →
    let u : State := (s.each s.jobNums fun s j => s.killJob j).powerFail
    (s.boot.frozen = false →
      exec .pwrEnDeassert s = .next { u with pins := { u.pins with power := .shutdown, pwrEn := false } } ∧ 0x0701 ∈ u.pins.mctp ∧
      ∀ vin, vin < 40000 → exec (.vinBelowSafeShutdown vin) s = .next { u with pins := { u.pins with power := .shutdown, vin := vin } }) ∧
    (s.boot.frozen = true → ∃ t, exec .pwrEnDeassert s = .next t ∧ t.pins.power = .off ∧ t.pins.pwrEn = false ∧ t.pins.pwrGood = false ∧
      t.jobs = [] ∧ t.sram = [] ∧ t.hbm = [] ∧ t.eeprom = s.eeprom)) ∧
  (∀ s : State, s.pins.power = .shutdown → s.idle.pins.power = .off ∧ s.idle.pins.pwrGood = false ∧ s.idle.jobs = [] ∧ s.idle.sram = [] ∧
    s.idle.hbm = [] ∧ s.idle.eeprom = s.eeprom ∧ s.idle.out = s.out) ∧
  (∀ (s : State) (vin : Nat), 40000 ≤ vin → exec (.vinBelowSafeShutdown vin) s = .next s) ∧
  (∀ (s : State) (k : BitVec 3), s.pins.power = .starting →
    let s' : State := { s with pins := { s.pins with pwrGood := true, power := .on, moduleId := k, freezeN := true },
                               clk := { s.clk with vinSample := s.pins.vin } }
    exec (.pwrGood k true) s = .next s') ∧
  ∀ (s : State) (ns : Nat), s.live = true →
    (ns < 50 → exec (.freeze ns) s = .next s) ∧
    (100 ≤ ns → ∃ t, exec (.freeze ns) s = .next t ∧ t.live = false ∧ t.jobs = s.jobs ∧ t.cores = s.cores ∧ t.sram = s.sram ∧ t.hbm = s.hbm ∧
      t.portA.linkUp = false ∧ t.portB.linkUp = false)

/-- The supply voltage and the management bus: between 40 V and 44 V the cap falls to 22.7 A × VIN rounded down to 10 W and VIN_LOW is
posted; from 44 V on it is lifted; an event read takes the oldest event; an EEPROM byte is written only while no job exists, and a cap only in its
range, each at the address that the module's strap gives (R30, R31, R37, R53, R57). -/
def Sys2Proof.Claims.ManagementBus : Prop :=
  (∀ (s : State) (vin : Nat), s.live = true → 40000 ≤ vin → vin < 44000 →
    ∃ t, exec (.vinLow vin) s = .next t ∧ t.clk.vinLow = true ∧ t.clk.vinSample = vin ∧ t.clk.vinCap = 227 * vin / 10000 / 10 * 10 ∧
      t.pins.mctp = (if s.clk.vinLow then s.pins.mctp else s.pins.mctp ++ [0x0706])) ∧
  (∀ (s : State) (vin : Nat), s.live = true → 44000 ≤ vin → exec (.vinInOperatingRange vin) s =
    .next { s with pins := { s.pins with vin := vin }, clk := { s.clk with vinLow := false, vinCap := 1000, vinSample := vin } }) ∧
  (∀ (s : State) (c dev : Nat) (cs : List Nat), s.pins.mctp = c :: cs →
    (dev = 0x58 + s.pins.moduleId.toNat → exec (.mctpEventRead dev) s = .next ({ s with pins := { s.pins with mctp := cs, alert := !cs.isEmpty } }.emit (.mctp c))) ∧
    (dev ≠ 0x58 + s.pins.moduleId.toNat → exec (.mctpEventRead dev) s = .next s)) ∧
  (∀ (s : State) (dev a : Nat) (b : Byte),
    (s.pins.power = .on → dev = 0x50 + s.pins.moduleId.toNat →
      (s.jobNums = [] → a < 8192 → exec (.eepromWrite a b dev) s = .next { s with eeprom := Mem.set s.eeprom a b }) ∧
      (s.jobNums ≠ [] ∨ 8192 ≤ a → exec (.eepromWrite a b dev) s = .next (s.emit .nack))) ∧
    (s.pins.power ≠ .on ∨ dev ≠ 0x50 + s.pins.moduleId.toNat → exec (.eepromWrite a b dev) s = .next s)) ∧
  ∀ (s : State) (dev w : Nat),
    (s.live = true → dev = 0x58 + s.pins.moduleId.toNat →
      (600 ≤ w → w ≤ 1000 → w % 10 = 0 → exec (.integratorCapSet w dev) s = .next { s with clk := { s.clk with integratorCap := w } }) ∧
      (w < 600 ∨ 1000 < w ∨ w % 10 ≠ 0 → exec (.integratorCapSet w dev) s = .next (s.emit .nack))) ∧
    (s.live = false ∨ dev ≠ 0x58 + s.pins.moduleId.toNat → exec (.integratorCapSet w dev) s = .next s)

/-- A sample of the sensors: a reading at its trip removes power with THERMTRIP_N asserted; else each mill and stack holds its reading, a mill at
100 °C or with a stack at 90 °C is hot, one at 105 °C or with a stack at 95 °C runs at duty 4 and divider 32, and a stack halves or
quarters its activations at 90 °C and 95 °C, once no switch of source is under way; in freeze the readings alone are held; and calibration
changes nothing (R35, R61, R62, R476, R481). -/
def Sys2Proof.Claims.SensorSamples : Prop :=
  (∀ (s : State) (r : Readings), s.pins.power = .on ∨ s.pins.power = .starting ∨ s.pins.power = .shutdown →
    (r.mills.any (110 ≤ ·) || 110 ≤ r.hub || r.hbm.any (100 ≤ ·) || 130 ≤ r.regs) = true →
    ∃ t, exec (.sensorSample r) s = .next t ∧ t.pins.power = .tripped ∧ t.pins.thermtrip = true ∧ t.jobs = [] ∧ t.sram = [] ∧ t.eeprom = s.eeprom) ∧
  (∀ (s : State) (r : Readings), s.live = true → (r.mills.any (110 ≤ ·) || 110 ≤ r.hub || r.hbm.any (100 ≤ ·) || 130 ≤ r.regs) = false →
    (s.clk.switching ≠ .none → exec (.sensorSample r) s = .next (s.sampled r)) ∧ (s.clk.switching = .none →
    ∃ t, exec (.sensorSample r) s = .next t ∧ t.clk.hubTemp = r.hub ∧ (t.clk.hubHot = true ↔ 100 ≤ r.hub) ∧ (t.clk.regHot = true ↔ 115 ≤ r.regs) ∧
      (∀ m, m < 4 → (t.mill m).temp = reading r.mills m ∧
        ((t.mill m).hot = true ↔ 100 ≤ reading r.mills m ∨ 90 ≤ stackMax r m) ∧
        ((t.mill m).thermLimit = true ↔ 105 ≤ reading r.mills m ∨ 95 ≤ stackMax r m) ∧
        ((t.mill m).thermLimit = true → 32 ≤ (t.mill m).thermK ∧ (t.mill m).duty ≤ 4) ∧ (t.mill m).divK = (s.mill m).divK) ∧
      ∀ k, k < 12 → (t.stack k).temp = reading r.hbm k ∧ ((t.stack k).refreshDoubled = true ↔ 85 ≤ reading r.hbm k) ∧
        (t.stack k).actTherm = (if 95 ≤ reading r.hbm k then 25 else if 90 ≤ reading r.hbm k then 50 else 100))) ∧
  (∀ (s : State) (r : Readings), s.pins.power = .on → s.boot.frozen = true →
    (r.mills.any (110 ≤ ·) || 110 ≤ r.hub || r.hbm.any (100 ≤ ·) || 130 ≤ r.regs) = false →
    ∃ t, exec (.sensorSample r) s = .next t ∧ t.clk.hubTemp = r.hub ∧ (∀ m, m < 4 → t.mill m = { s.mill m with temp := reading r.mills m }) ∧
      ∀ k, k < 12 → t.stack k = { s.stack k with temp := reading r.hbm k }) ∧
  ∀ s : State, exec .sensorCalibration s = .next s

/-- Throttling steps: a hot mill's divider rises by one and a cooled one's falls by one, never past 64 or 16, the hub and fabric likewise; a hot
regulator lowers the cap by a tenth, not below 600 W (R62). -/
def Sys2Proof.Claims.ThrottleSteps : Prop :=
  (∀ (s : State) (m : Nat), s.live = true → s.clk.switching = .none → m < 4 →
    ((s.mill m).hot = true → exec (.thermalThrottleStep m) s =
      .next (s.setMill m { s.mill m with thermK := min 64 (max (s.mill m).thermK (s.mill m).divK + 1) })) ∧
    ((s.mill m).hot = false → exec (.thermalThrottleStep m) s = .next s) ∧
    (s.cooled m = true → exec (.thermalRecoveryStep m) s = .next (s.setMill m { s.mill m with thermK := max 16 ((s.mill m).thermK - 1) })) ∧
    (s.cooled m = false → exec (.thermalRecoveryStep m) s = .next s)) ∧
  (∀ s : State, s.live = true → s.clk.switching = .none →
    (s.clk.hubHot = true → exec (.thermalThrottleStep 4) s = .next { s with clk := { s.clk with hubTherm := min 64 (max s.clk.hubTherm (max s.clk.hub s.clk.fabric) + 1) } }) ∧
    (s.clk.hubTemp ≤ 97 → exec (.thermalRecoveryStep 4) s = .next { s with clk := { s.clk with hubTherm := max 16 (s.clk.hubTherm - 1) } })) ∧
  ∀ s : State, s.live = true → s.clk.switching = .none →
    (s.clk.regHot = true → exec .regulatorCapStep s = .next { s with clk := { s.clk with regCap := max 600 (s.cap * 9 / 10) } }) ∧
    (s.clk.regHot = false → exec .regulatorCapRestore s = .next { s with clk := { s.clk with regCap := 1000 } })

/-- The power loops: above 1080 W the hardware limiter holds every mill at duty 8 until the input is below the cap; above the cap the
firmware lowers the mills of the first ranks to the edge of the floor and those of the last one by a step or more towards its point, and then, at
the floor, limits row activations and raises DIV_K; and 3% below it one mill of the last rank lowered rises by a step (R54, R55, R366). -/
def Sys2Proof.Claims.PowerLoops : Prop :=
  (∀ (s : State) (w : Nat), s.live = true →
    (1080 < w → ∃ t, exec (.hardwareLimiter w) s = .next t ∧ ∀ m, m < 4 → (t.mill m).limiter = true ∧ (t.mill m).duty ≤ 8 ∧
      (t.mill m).divK = (s.mill m).divK) ∧
    (w ≤ 1080 → exec (.hardwareLimiter w) s = .next s) ∧
    (w < s.cap → ∃ t, exec (.limiterRelease w) s = .next t ∧ ∀ m, m < 4 → t.mill m = { s.mill m with limiter := false }) ∧
    (s.cap ≤ w → exec (.limiterRelease w) s = .next s)) ∧
  (∀ (s : State) (w ranks : Nat) (pt : CapPoint), s.live = true → s.isReady bitControl = true → s.clk.switching = .none →
    let s' : State := { s with clk := { s.clk with inputPower := w, adminCap := s.clk.adminCapNext } }
    (w ≤ s'.cap → exec (.firmwareCapEval w ranks pt) s = .next s') ∧
    (s'.cap < w → s'.atFloorEdge = false → ∃ t, exec (.firmwareCapEval w ranks pt) s = .next t ∧ t.clk = s'.clk ∧
      (∀ m, m < 4 →
        let y := if s'.capPlace m < s'.lastPlace ranks then (s.mill m).toEdge
          else if s'.capPlace m = s'.lastPlace ranks then (s.mill m).lower pt else s.mill m
        (t.mill m).capK = y.capK ∧ (t.mill m).capDuty = y.capDuty ∧ (t.mill m).goal = y.goal) ∧
      ∀ k, k < 12 → t.stack k = s.stack k) ∧
    (s'.cap < w → s'.atFloorEdge = true → ∃ t, exec (.firmwareCapEval w ranks pt) s = .next t ∧ t.clk = s'.clk ∧
      (∀ m, m < 4 → (t.mill m).capK = min 64 (max ((s.mill m).capK + 1) pt.divK) ∧ (t.mill m).capDuty = (s.mill m).capDuty) ∧
      ∀ k, k < 12 → (t.stack k).actCap = (if (s.stack k).actCap = 100 then 50 else 25))) ∧
  (∀ (x : Mill) (pt : CapPoint), (1 < x.capDuty → (x.lower pt).capDuty < x.capDuty) ∧
    (x.capDuty ≤ 1 → x.capK < 32 → x.capK < (x.lower pt).capK)) ∧
  ∀ (s : State) (w m : Nat) (d : Bool), s.live = true → s.isReady bitControl = true → s.clk.switching = .none →
    (97 * s.cap ≤ 100 * w ∨ s.raisable m = false → exec (.firmwareRestore w m d) s = .next { s with clk := { s.clk with inputPower := w } }) ∧
    (100 * w < 97 * s.cap → s.raisable m = true → ∃ t, exec (.firmwareRestore w m d) s = .next t ∧
      t.mill m = (if d then { s.mill m with capDuty := min 16 ((s.mill m).capDuty + 1), goal := max (s.mill m).goal (min 16 ((s.mill m).capDuty + 1)) }
        else { s.mill m with capK := max 16 ((s.mill m).capK - 1) }) ∧
      ∀ n, n < 4 → n ≠ m → t.mill n = s.mill n)

/-- A ramp moves one divider by one unit towards its target: a mill that speeds up waits for its rail, and one that slows down lowers it last;
RAIL_RAISED gives a rail what its target needs (R51, R52, R63). -/
def Sys2Proof.Claims.Ramps : Prop :=
  (∀ (s : State) (m : Nat), s.live = true → m < 4 → ∃ t, exec (.dividerRampStep m) s = .next t ∧
    ((s.mill m).divK < s.targetDiv m → (t.mill m).divK = (s.mill m).divK + 1) ∧
    (s.targetDiv m < (s.mill m).divK → railFor (s.targetDiv m) ≤ (s.mill m).rail → (t.mill m).divK = (s.mill m).divK - 1) ∧
    (s.targetDiv m < (s.mill m).divK → (s.mill m).rail < railFor (s.targetDiv m) →
      (t.mill m).divK = (if s.clk.switching = .none then (s.mill m).divK else (s.mill m).divK - 1)) ∧
    (s.clk.switching ≠ .none → (t.mill m).rail = (s.mill m).rail) ∧
    ∀ n, n < 4 → n ≠ m → (t.mill n).divK = (s.mill n).divK ∧ (t.mill n).rail = (s.mill n).rail) ∧
  (∀ s : State, s.live = true →
    exec (.dividerRampStep 4) s = .next { s with clk := { s.clk with hub := stepTo s.clk.hub (s.targetOther s.clk.hubTherm) } } ∧
    exec (.dividerRampStep 5) s = .next { s with clk := { s.clk with fabric := stepTo s.clk.fabric (s.targetOther s.clk.hubTherm) } } ∧
    ∀ k, k < 12 → exec (.dividerRampStep (6 + k)) s = .next (s.modStack k fun x => { x with div := stepTo x.div (s.targetOther 16) })) ∧
  ∀ (s : State) (m : Nat), s.live = true → m < 4 → s.clk.switching = .none →
    exec (.railRaised m) s = .next (s.setMill m { s.mill m with rail := max (s.mill m).rail (railFor (s.targetDiv m)) })

/-! ### Clocks and resets -/

/-- The references: a count outside 940 to 1060, or no edge in time, fails one; where it is the active source, the next one in the order
SYSREF where it is qualified and used, crystal, oscillator is selected, and else it is only marked; relocking at half rate and the end of the
quiesce follow once every divider stands at its target; and a better source is taken at once while no job exists (R65, R66, R68, R69). -/
def Obligations.References : Prop :=
  (∀ (s : State) (n : Nat) (ref : Source), s.live = true →
    (940 ≤ n → n ≤ 1060 → exec (.clockMonitorWindow n ref) s = .next s) ∧
    (n < 940 ∨ 1060 < n → exec (.clockMonitorWindow n ref) s = .next (s.refFail ref)) ∧
    exec (.referenceEdgeTimeout ref) s = .next (s.refStops ref)) ∧
  (∀ s : State,
    let c : State := State.stick { s with clk := { s.clk with crystalOk := false } } 2
    let y : State := State.stick { s with clk := { s.clk with sysrefQualified := false } } 4
    s.refFail .oscillator = s ∧ (s.clk.crystalOk = false → s.refFail .crystal = s) ∧ (s.clk.sysrefQualified = false → s.refFail .sysref = s) ∧
    (s.clk.crystalOk = true → s.clk.source ≠ .crystal → s.refFail .crystal = c) ∧
    (s.clk.crystalOk = true → s.clk.source = .crystal →
      s.refFail .crystal = c.switchTo (if s.clk.sysrefQualified ∧ s.clk.sysrefUse then .sysref else .oscillator)) ∧
    (s.clk.sysrefQualified = true → s.clk.source ≠ .sysref → s.refFail .sysref = y) ∧
    (s.clk.sysrefQualified = true → s.clk.source = .sysref → s.refFail .sysref = y.switchTo (if s.clk.crystalOk then .crystal else .oscillator))) ∧
  (∀ s : State, s.live = true → s.clk.switching = .ramping →
    (s.atTargets = true → exec .pllRelock s = .next { s with
      clk := { s.clk with switching := .relocked }
      hbms := s.hbms.map fun c => (c.1, if c.2.st == 2 then { c.2 with st := 0 } else c.2) }) ∧
    (s.atTargets = false → exec .pllRelock s = .next s)) ∧
  (∀ s : State, s.live = true → s.clk.switching = .relocked →
    (s.atTargets = false → exec .limpQuiesceComplete s = .next s) ∧
    (s.atTargets = true → s.better = none → s.clk.warmWaits = false → s.runningJobs = [] →
      ∃ t, exec .limpQuiesceComplete s = .next t ∧ t.clk.switching = .none ∧ t.clk.source = s.clk.source ∧ t.jobs = s.jobs ∧
        ∀ k, k < 12 → (s.stack k).st ≠ 0 → (t.stack k).st = (s.stack k).st ∧ (t.stack k).rate = (s.stack k).rate)) ∧
  (∀ s : State, s.live = true → s.boot.fusesSensed = true →
    let s' : State := { s with clk := { s.clk with sysrefQualified := true, sysrefStopped := false } }
    (s.jobNums ≠ [] → exec .sysrefQualified s = .next s') ∧ (s.jobNums = [] → exec .sysrefQualified s = .next s'.reselect)) ∧
  ∀ s : State, s.live = true →
    let s' : State := { s with clk := { s.clk with crystalOk := true, crystalStopped := false } }
    (s.jobNums ≠ [] → exec .crystalRecovered s = .next s') ∧ (s.jobNums = [] → exec .crystalRecovered s = .next s'.reselect)

/-- Port resets: PERST and a hot reset take the link down, FLR and D3hot leave it up, and each ends the port's jobs and resets its rings; a
further FLR during a port reset is ignored, and PERST is ignored without PWR_GOOD; FLR and D3hot keep the BARs and the sticky bits of AER; a port whose link is up and whose configuration space answers
sets its PORT bit, and one that is not ready answers Request Retry Status (R25, R36, R48, R80, R87 to R89, R383). -/
def Sys2Proof.Claims.PortResets : Prop :=
  (∀ (s : State) (p : Port), s.live = true → s.pins.pwrGood = true →
    let s' : State := match p with
      | .a => { s with pins := { s.pins with perstA := false } }
      | .b => { s with pins := { s.pins with perstB := false } }
    exec (.perstAssert p) s = .next (((s'.portReset p).endSecure p).modPort p fun q =>
      { q with linkUp := false, gts := 0, width := 0, reversed := false, polarity := 0, cfgReady := false, pci := none, conf := {}, d3 := false }).noteRefs) ∧
  (∀ (s : State) (clk : Bool), s.pins.pwrGood = true →
    exec (.perstDeassert .a clk) s = .next { s with pins := { s.pins with perstA := true, refclkA := clk } } ∧
    exec (.perstDeassert .b clk) s = .next { s with pins := { s.pins with perstB := true, refclkB := clk } }) ∧
  (∀ (s : State) (p : Port) (clk : Bool), s.pins.pwrGood = false →
    exec (.perstAssert p) s = .next s ∧ exec (.perstDeassert p clk) s = .next s) ∧
  (∀ (s : State) (p : Port), s.live = true → (s.port p).linkUp = true →
    exec (.hotReset p) s = .next (((s.portReset p).endSecure p).modPort p fun q =>
      { q with linkUp := false, gts := 0, width := 0, reversed := false, polarity := 0, conf := {}, d3 := false }).noteRefs ∧
    ((s.port p).inReset = false → exec (.flr p) s = .next ((s.portReset p).modPort p fun q => { q with conf := { q.conf with caFatal := false, aspmL1 := false } }) ∧
      exec (.d3hotEntry p) s = .next ((s.portReset p).modPort p fun q => { q with conf := { q.conf with caFatal := false, aspmL1 := false }, d3 := true })) ∧
    ((s.port p).inReset = true → exec (.flr p) s = .next s)) ∧
  (∀ (s : State) (p : Port) (gts width : Nat) (rev : Bool) (pol : BitVec 16), s.live = true → s.perst p = true →
    ((width ∉ [16, 8, 4, 2, 1]) → exec (.portLinkUp p gts width rev pol) s = .next s) ∧
    (width ∈ [16, 8, 4, 2, 1] → s.limp = false ∨ s.refclk p = true → (s.port p).cfgReady = true →
      ∃ t, exec (.portLinkUp p gts width rev pol) s = .next t ∧ t.isReady (bitPort p) = true ∧ (t.port p).linkUp = true ∧
        (t.port p).gts = gts ∧ (t.port p).width = width ∧ (t.port p).reversed = rev ∧ (t.port p).polarity = pol ∧ (t.port p).inReset = false)) ∧
  ∀ (s : State) (p : Port), s.live = true → s.perst p = true →
    ((s.port p).linkUp = false → exec (.configSpaceReady p) s = .next (s.setPort p { s.port p with cfgReady := true, pci := some s.grade.pciId })) ∧
    ((s.port p).linkUp = true → (s.port p).cfgReady = false → s.configAnswer p = .retry)

/-- R78: the warm-reset sequence is accepted from the administrative port only: there the arm of action 1 holds and the GO that
follows performs the warm reset; on the other port both writes are discarded, with an entry in that port's log. -/
def Obligations.WarmResetSequence : Prop :=
  (∀ (s : State) (p : Port) (v : Reg), s.essOk p = true → p ≠ s.adminPort →
    exec (.essArm p v) s = .next (s.logErr p 0x030 0 true 6) ∧ exec (.warmReset p v) s = .next (s.logErr p 0x034 0 true 6)) ∧
  ∀ s : State, s.essOk s.adminPort = true → s.clk.switching = .none →
    let armed (k : Nat) : State := s.setPort s.adminPort { s.port s.adminPort with armed := k }
    exec (.essArm s.adminPort 0xA55A0001) s = .next (armed 1) ∧
    ((s.port s.adminPort).armed = 1 → exec (.warmReset s.adminPort 0x5AA50001) s = .next (armed 0).warmReset)

/-- The essentials page: an action is performed by a GO that follows its own arm, and is logged otherwise; the port's jobs are killed and the
port is reset by their own words only; and the heartbeat counts and ages (R394 to R397). A warm reset keeps the ports and SECURITY ready and
empties jobs, SRAM and HBM (R77, R79).
Choices of the model: assumption 85. -/
def Obligations.Essentials : Prop :=
  (∀ (s : State) (v : Reg), s.essOk s.adminPort = true →
    let p := s.adminPort
    let k := (s.port p).armed
    let s' := s.setPort p { s.port p with armed := 0 }
    (v.toNat / 256 = 0x5AA500 → v.toNat % 256 = 2 → k = 2 → exec (.essFreeze p v) s = .next s'.freezeNow) ∧
    (v.toNat / 256 = 0x5AA500 → v.toNat % 256 = 3 → k = 3 → exec (.essPowerDown p v) s = .next s'.safeShutdown) ∧
    (v.toNat / 256 ≠ 0x5AA500 ∨ k = 0 ∨ k ≠ v.toNat % 256 → exec (.essFreeze p v) s = .next (s'.logErr p 0x034 0 true 7))) ∧
  (∀ (s : State) (p : Port), s.live = true → exec (.essArmLapse p) s = .next (s.setPort p { s.port p with armed := 0 })) ∧
  (∀ (s : State) (p : Port), s.essOk p = true →
    exec (.essKill p 0x4B4C) s = .next ((s.portJobs p).foldl (fun t j => t.endJob j 0x0704 none) s) ∧
    exec (.essFlr p 0x464C) s = exec (.flr p) s ∧
    ((s.port p).inReset = false → exec (.essFlr p 0x464C) s =
      .next ((s.portReset p).modPort p fun q => { q with conf := { q.conf with caFatal := false, aspmL1 := false } })) ∧
    ((s.port p).inReset = true → exec (.essFlr p 0x464C) s = .next s) ∧
    ∀ v, (v ≠ 0x4B4C → exec (.essKill p v) s = .next (s.logErr p 0x020 0 true 7)) ∧
      (v ≠ 0x464C → exec (.essFlr p v) s = .next (s.logErr p 0x024 0 true 7))) ∧
  (∀ s : State, s.live = true →
    (s.isReady bitControl = true → exec .heartbeat s = .next { s with boot := { s.boot with heartbeat := s.boot.heartbeat + 1, hbAge := 0 } }) ∧
    ∀ us, exec (.hbStale us) s = .next { s with boot := { s.boot with hbAge := BitVec.ofNat 32 (min 0xFFFFFFFF us) } }) ∧
  ∀ s : State, s.warmReset.jobs = [] ∧ s.warmReset.cores = [] ∧ s.warmReset.sram = [] ∧ s.warmReset.hbm = [] ∧ (s.better = none → s.warmReset.ready = s.ready &&& 0xE) ∧
    s.warmReset.boot.warm = true ∧ s.warmReset.period = s.period ∧ s.warmReset.reamLen = s.reamNext ∧ s.warmReset.sec.fuses = s.sec.fuses

/-- Bring-up: fuses, EEPROM fields with their defaults, the SRAM, cores and stacks of the module with what fails its test retired, and the firmware
that runs again after a warm reset, each setting its bit of the ready bitmap (R69, R79, R88, R91, R94, R303, R354). -/
def Sys2Proof.Claims.BringUp : Prop :=
  (∀ s : State, s.live = true → exec .fusesSensed s = .next { s with boot := { s.boot with fusesSensed := true }, adminPort := s.sec.fuses.admin }) ∧
  (∀ s : State, s.live = true → s.boot.fusesSensed = true → s.boot.eepromRead = false →
    let cfg := (s.eeprom.get 0x40).toNat
    let dly := (s.eeprom.get 0x41).toNat
    let cap := leVal (s.eeprom.read 0x42 2)
    (cfg < 2 → dly ≤ 0x80 → (cap = 0 ∨ capOk cap = true) → exec (.eepromFieldsRead true) s = .next (State.reselectIdle { s with
      boot := { s.boot with eepromRead := true }
      clk := { s.clk with sysrefUse := cfg == 1, sysrefDelay := if dly ≠ 0 then dly else 20, integratorCap := if cap ≠ 0 then cap else 1000 } })) ∧
    ∃ t, exec (.eepromFieldsRead false) s = .next t ∧ t.clk.sysrefUse = false ∧ t.clk.sysrefDelay = 20 ∧ t.clk.integratorCap = 1000) ∧
  (∀ (s : State) (m : Nat), s.live = true → s.boot.fusesSensed = true → m < 4 → s.isReady (bitSram m) = false →
    ∃ t, exec (.millSramReady m []) s = .next t ∧ t.isReady (bitSram m) = true ∧ (t.mill m).ramped = true ∧
      ∀ g, g < 128 → (t.group (128 * m + g)).st = (if (s.group (128 * m + g)).st = .retired then .retired else .free)) ∧
  (∀ (s : State) (m : Nat), s.live = true → s.isReady bitControl = true → m < 4 → s.isReady (bitCores m) = false → s.boot.safe = false →
    s.usableCores m ≠ [] → exec (.millCoresReady m []) s = .next (s.setReady (bitCores m) true)) ∧
  (∀ (s : State) (k : Nat) (data cmd : List (Nat × Nat)), s.live = true → k < 12 → (s.stack k).st = 0 →
    exec (.hbmReady k false data cmd) s = .next ((s.failRec 0x0270 2 k).retireStack k) ∧
    ((∀ c, Tbl.get 0 data c ≤ 2) → (∀ c, Tbl.get 0 cmd c ≤ 1) → (s.stack k).retired = [] → ∃ t, exec (.hbmReady k true data cmd) s = .next t ∧
      t.isReady (bitHbm k) = true ∧ (t.stack k).st = 1 ∧ (t.stack k).retired = [] ∧ (t.stack k).rate = s.pinRate ∧
      (∀ c, c < 64 → Tbl.get 0 (t.stack k).dataSpares c = Tbl.get 0 data c) ∧ (∀ c, c < 32 → Tbl.get 0 (t.stack k).cmdSpares c = Tbl.get 0 cmd c)) ∧
    (2 < ((s.stack k).retired ++ (List.range 64).filter fun c => decide (2 < Tbl.get 0 data c) || decide (1 < Tbl.get 0 cmd (c / 2))).dedup.length →
      exec (.hbmReady k true data cmd) s = .next ((s.failRec 0x0270 2 k).retireStack k))) ∧
  ∀ s : State, s.live = true → s.boot.warm = true → s.sec.running.isSome = true →
    exec .firmwareRestarted s = .next (State.setReady { s with boot := { s.boot with warm := false } } bitControl true)

/-! ### Security -/

/-- The request is answered by ERROR with an error code. -/
def Sys2Proof.Claims.SpdmError (i : Instr) (s : State) (p : Port) (code : BitVec 8) : Prop := exec i s = .next (s.spdm p 0x7F [code, 0])

/-- Secure boot: of the valid slots the one of the greater SEQUENCE is tried first; an image that fits, is not rolled back and verifies is
started, an image below the SVN fuses loses its VALID mark, one whose header does not fit is passed over with 0x0201 and one that does not verify with 0x0801, and with none left the boot
ROM logs it and waits for a recovery image, which is programmed and, where it verifies, started (R94, R449, R451). -/
def Sys2Proof.Claims.SecureBoot : Prop :=
  (∀ s : State, s.live = true → s.boot.eepromRead = true → s.sec.fuses.retired = false → s.sec.running = none → s.sec.recovery = false →
    (∀ (b : Bool) (bs : List Bool) (i : FwImage), s.sec.candidates = b :: bs → (s.sec.slot b).img = some i → s.imageFits i = true →
      (i.svn < s.sec.fuses.svn → exec .firmwareVerified s = .next ((State.failRec { s with
        sec := s.sec.setSlot b { (s.sec.slot b) with valid := false } } 0x0802 1 (b2n b 1)).bootSlots bs)) ∧
      (s.sec.fuses.svn ≤ i.svn → (s.keysFused i = false ∨ imageVerifies i = false) →
        exec .firmwareVerified s = .next ((s.failRec 0x0801 1 (b2n b 1)).bootSlots bs)) ∧
      (s.sec.fuses.svn ≤ i.svn → s.keysFused i = true → imageVerifies i = true → ∃ t, exec .firmwareVerified s = .next t ∧
        t.sec.running = some { slotB := b, svn := i.svn, digest := i.digest, recovered := false } ∧ t.sec.locked = true ∧
        t.isReady bitControl = true ∧ t.boot.warm = false ∧ t.ticking = true ∧ t.sec.keys = s.sec.fuses.derive i ∧ t.jobs = s.jobs ∧
        t.sec.fuses = s.sec.fuses)) ∧
    (∀ (b : Bool) (bs : List Bool) (i : FwImage), s.sec.candidates = b :: bs → (s.sec.slot b).img = some i → s.imageFits i = false →
      exec .firmwareVerified s = .next ((s.failRec 0x0201 1 (b2n b 1)).bootSlots bs)) ∧
    (s.sec.slotA.valid = false → s.sec.slotB.valid = false →
      exec .firmwareVerified s = .next { s.failRec 0x0201 1 0 with sec := { s.sec with recovery := true } }) ∧
    (s.sec.slotA.valid = true → s.sec.slotB.valid = true →
      s.sec.candidates.head? = some (decide (s.sec.slotA.seq < s.sec.slotB.seq)))) ∧
  ∀ (s : State) (img : FwImage), s.live = true → s.sec.recovery = true → s.sec.slotA.valid = false → s.sec.slotB.valid = false →
    let ok := s.imageFits img && s.sec.fuses.svn ≤ img.svn && s.keysFused img && imageVerifies img
    ∃ t, exec (.recoveryImage img) s = .next t ∧ t.sec.slotA = { img := some img, valid := ok, seq := if ok then img.sequence else 0 } ∧ t.sec.slotB = s.sec.slotB ∧
      (ok = true → t.sec.running = some { slotB := false, svn := img.svn, digest := img.digest, recovered := true } ∧ t.sec.recovery = false) ∧
      (ok = false → t.sec.running = s.sec.running ∧ t.sec.recovery = true)

/-- Firmware updates: a header that does not fit is refused with 0x0201, a rolled-back image with 0x0802, a second update with 0x0805; an
accepted image leaves its slot not VALID until both signatures are checked (R85, R452). The SVN fuses follow the running image and every
image below them loses VALID once all of them are blown (R450); SECURITY becomes ready once CONTROL is (R88). -/
def Sys2Proof.Claims.Firmware : Prop :=
  (∀ (s : State) (p : Port) (r : Nat) (c : Bytes) (i : FwImage), Holds s p r 0x51 c →
    (s.sec.update.isSome = true → exec (.fwUpdate p r (some i)) s = .next (s.refuse p r 0x0805)) ∧
    (s.sec.update = none →
      ((s.imageFits i = false ∨ s.keysFused i = false) → exec (.fwUpdate p r (some i)) s = .next (s.refuse p r 0x0201)) ∧
      (s.imageFits i = true → s.keysFused i = true →
        (i.svn < s.sec.fuses.svn → exec (.fwUpdate p r (some i)) s = .next (s.refuse p r 0x0802)) ∧
        (s.sec.fuses.svn ≤ i.svn → ∃ t, exec (.fwUpdate p r (some i)) s = .next t ∧ t.sec.update = some (p, r, i) ∧
          (t.sec.slot s.sec.inactive).valid = false ∧ t.sec.slot (!s.sec.inactive) = s.sec.slot (!s.sec.inactive) ∧ t.jobs = s.jobs)))) ∧
  (∀ (s : State) (p : Port) (r : Nat) (i : FwImage), s.sec.update = some (p, r, i) →
    let s' : State := { s with sec := { s.sec with update := none } }
    (imageVerifies i = false → exec (.fwUpdateDone p r) s = .next (s'.refuse p r 0x0801)) ∧
    (imageVerifies i = true → exec (.fwUpdateDone p r) s = .next
      (State.complete { s' with sec := s'.sec.setSlot s'.sec.inactive { img := some i, valid := true, seq := i.sequence } } p r {}))) ∧
  (∀ (s : State) (run : Running) (blown : Nat), s.sec.running = some run → s.live = true → s.isReady bitControl = true →
    s.sec.fuses.svn < run.svn → run.svn ≤ 64 →
    ∃ t, exec (.svnAdvance blown) s = .next t ∧ t.sec.fuses = { s.sec.fuses with svn := min run.svn (s.sec.fuses.svn + blown) } ∧
      ∀ b i, (s.sec.slot b).img = some i → (t.sec.slot b).img = some i ∧
        (run.svn ≤ s.sec.fuses.svn + blown → (t.sec.slot b).valid = (decide (run.svn ≤ i.svn) && (s.sec.slot b).valid)) ∧
        (s.sec.fuses.svn + blown < run.svn → t.sec.slot b = s.sec.slot b)) ∧
  ∀ s : State, s.live = true → s.isReady bitControl = true → s.sec.fuses.udsKill = false → exec .securityReady s = .next (s.setReady bitSecurity true)

/-- Tokens: each kind acts only through its own row; the first failing check of R443 gives the status; an UNLOCK counts and wipes every job, and
once the last is wiped ends the sessions of both ports and the IDE streams that were keyed in them, and puts the module in DEBUG with the debug
alias key (R444, R489); an ADMIN_PORT token changes the administrative port by a fuse (R446); a RETIRE token blows UDS_KILL once no job remains,
and then RETIRED, and the firmware stops (R445). -/
def Sys2Proof.Claims.Tokens : Prop :=
  (∀ (s : State) (p : Port) (r : Nat) (c t : Bytes) (k : Checks), Holds s p r 0x70 c → s.sec.update = none → s.sec.token = none →
    let st := s.tokenStatus (field c 0x10 4) t k
    (field t 5 1 = 1 → (st ≠ cSuccess → exec (.debugUnlock p r (some t) k) s = .next (s.refuse p r st)) ∧
      (st = cSuccess → ∃ u, exec (.debugUnlock p r (some t) k) s = .next u ∧
        u.sec.fuses = { s.sec.fuses with unlockCount := s.sec.fuses.unlockCount + 1 } ∧ (∀ j y, j < 17 → u.job j = some y → y.st = .wiping) ∧
        (s.jobNums ≠ [] → u.sec.debug = s.sec.debug ∧ u.sec.token = some { port := p, ring := r, retire := false, jobs := s.jobNums }) ∧
        (s.jobNums = [] → u.sec.debug = true ∧ u.sec.token = none ∧ u.sec.keys = s.sec.keys.map KeySlots.unlocked ∧
          ∀ q, (u.port q).sessions = [] ∧ ((s.port q).ideLink.session.isSome = true → (u.port q).ideLink = {}) ∧
            ((s.port q).ideLink.session = none → (u.port q).ideLink = (s.port q).ideLink)))) ∧
    (field t 5 1 = 2 → (st ≠ cSuccess → exec (.adminPortChange p r (some t) k) s = .next (s.refuse p r st)) ∧
      (st = cSuccess → ∃ u, exec (.adminPortChange p r (some t) k) s = .next u ∧
        u.sec.fuses = { s.sec.fuses with adminChanges := s.sec.fuses.adminChanges + 1 } ∧ u.adminPort = u.sec.fuses.admin)) ∧
    (field t 5 1 = 3 → (st ≠ cSuccess → exec (.retire p r (some t) k) s = .next (s.refuse p r st)) ∧
      (st = cSuccess → ∃ u, exec (.retire p r (some t) k) s = .next u ∧ u.sec.fuses.retired = false ∧
        u.sec.token = some { port := p, ring := r, retire := true, jobs := s.jobNums } ∧
        (s.jobNums ≠ [] → u.sec.fuses = s.sec.fuses) ∧ (s.jobNums = [] → u.sec.fuses = { s.sec.fuses with udsKill := true })))) ∧
  (∀ (s : State) (j : Nat) (x : Job) (w : TokenWait), s.job j = some x → s.live = true → x.st = .wiping → s.wiped x = true →
    s.sec.token = some w → w.jobs = [j] → ∃ u, exec (.jobWiped j) s = .next u ∧
      (w.retire = true → u.sec = { s.sec with token := some { w with jobs := [] }, fuses := { s.sec.fuses with udsKill := true } }) ∧
      (w.retire = false → u.sec.debug = true ∧ u.sec.token = none ∧ u.sec.fuses = s.sec.fuses ∧ u.sec.keys = s.sec.keys.map KeySlots.unlocked ∧
        ∀ q, (u.port q).sessions = [])) ∧
  (∀ (s : State) (w : TokenWait), s.pending = [] → s.pins.power ≠ .shutdown → s.sec.token = some w → w.retire = true → s.sec.fuses.udsKill = true →
    ∃ u, step s = .next u ∧ u.sec.fuses = { s.sec.fuses with retired := true } ∧ u.sec.token = none ∧ u.sec.running = none ∧
      u.isReady bitControl = false ∧ u.isReady bitSecurity = false) ∧
  ∀ (s : State) (n : Nat) (t : Bytes) (k : Checks),
    ((n ≠ 3584 ∨ tokenFormed t = false) → s.tokenStatus n t k = 0x0804) ∧
    (n = 3584 → tokenFormed t = true →
      ((tokenKeys t ≠ s.sec.fuses.tokenKeyHash ∨ k.ecdsa = false ∨ k.hss = false) → s.tokenStatus n t k = 0x0801) ∧
      (tokenKeys t = s.sec.fuses.tokenKeyHash → k.ecdsa = true → k.hss = true →
        ((t.drop 8).take 12 ≠ s.sec.fuses.serial → s.tokenStatus n t k = 0x0804) ∧
        (field t 0x14 4 ≠ s.sec.tokenCount (field t 5 1) → s.tokenStatus n t k = 0x0804) ∧
        ((t.drop 8).take 12 = s.sec.fuses.serial → field t 0x14 4 = s.sec.tokenCount (field t 5 1) →
          s.tokenStatus n t k = if s.tokenAllowed t then cSuccess else 0x0803)))

/-- Attestation: each report takes the next leaf of the HSS device key, never one used before, and one of the bucket, which refills by one up to
256; an ATTEST that finds the bucket empty waits for a refill; one about a job of another port gets 0x0101 and one without a leaf or without an
identity 0x0803. Each block taken leaves its entry in the journal, and a loss of power while the entry is programmed uses the block up (R454 to
R457). -/
def Sys2Proof.Claims.Attestation : Prop :=
  (∀ (s : State) (p : Port) (r : Nat) (ok : Bool) (c : Bytes), Holds s p r 0x50 c →
    let j := field c 0x38 1
    ((j ≠ 0 ∧ ¬((s.job j).any fun x => x.owner = p) = true) → exec (.attest p r ok) s = .next (s.refuse p r 0x0101)) ∧
    (j = 0 ∨ ((s.job j).any fun x => x.owner = p) = true →
      ((s.sec.keys = none ∨ s.sec.takeLeaf = none) → exec (.attest p r ok) s = .next (s.refuse p r 0x0803)) ∧
      (s.sec.keys.isSome = true → s.sec.takeLeaf.isSome = true → s.sec.bucket = 0 →
        exec (.attest p r ok) s = .next (State.hold { s with sec := { s.sec with attestQ := s.sec.attestQ ++ [(p, r, ok, s.attestDigest j)] } } p r)) ∧
      (s.sec.keys.isSome = true → s.sec.takeLeaf.isSome = true → s.sec.bucket ≠ 0 →
        exec (.attest p r ok) s = .next (s.attestNow p r ok (s.attestDigest j) c) ∧
        ∀ e, s.sec.needsBlock = true → ∃ t, exec (.attest p r ok (some e)) s = .next t ∧ t.sec.entries = s.sec.entries ++ [fit 64 e] ∧
          t.pins.power = .off ∧ t.sec.block = none))) ∧
  (∀ (s : State) (p : Port) (r : Nat) (c digest : Bytes) (i : Nat) (x : Sec), s.sec.keys.isSome = true → s.sec.fuses.retired = false →
    s.sec.takeLeaf = some (i, x) → (s.attestNow p r true digest c).sec = { x with bucket := x.bucket - 1 }) ∧
  (∀ (x y z : Sec) (i k : Nat), (∀ b, x.block = some b → b < x.journal) → x.journal ≤ 32768 → x.takeLeaf = some (i, y) → y.takeLeaf = some (k, z) →
    i < k ∧ k < 2 ^ 25 ∧ y.journal ≤ 32768 ∧ (∀ b, y.block = some b → b < y.journal) ∧
    y.entries = if x.needsBlock then x.entries ++ [journalEntry x.journal] else x.entries) ∧
  ∀ s : State, s.live = true → s.sec.fuses.retired = false → s.sec.attestQ = [] →
    exec .hssBucketRefill s = .next { s with sec := { s.sec with bucket := min 256 (s.sec.bucket + 1) } }

/-- The public-key engine: requests start in arrival order, each after no more than three dummy operations; an operation's result, which is what
R462 makes of its inputs, and its operands stay in the 8 KiB operand memory, which is wiped for a new owner (R460 to R462, R464, R465). -/
def Sys2Proof.Claims.PublicKeyEngine : Prop :=
  (∀ (s : State) (q : PkeReq) (arrived : List PkeReq), s.live = true →
    (∀ qs, s.sec.pkeQ = [] ∧ qs = [] ∨ s.sec.pkeQ = q :: qs → ∃ t, exec (.pkeOperationDone q.owner q.op q.operands arrived) s = .next t ∧
      t.sec.owner = q.owner ∧ t.sec.result = s.sec.pkeResult q.op ∧ t.sec.pkeQ = qs ++ arrived ∧
      t.sec.dummies < 4 ∧ (t.sec.dummies = 0 → t.sec.dummyStore = s.sec.dummyStore) ∧ (t.sec.dummies ≠ 0 → t.sec.dummyStore.length = 1024) ∧
      (s.sec.owner ≠ q.owner → t.sec.opMem = q.operands.take 8192) ∧
      (s.sec.owner = q.owner → t.sec.opMem = q.operands.take 8192 ++ s.sec.opMem.drop q.operands.length) ∧
      t.sec.fuses = s.sec.fuses ∧ t.out = s.out ∧ t.jobs = s.jobs) ∧
    ∀ y ys, s.sec.pkeQ = y :: ys → y ≠ q → exec (.pkeOperationDone q.owner q.op q.operands arrived) s = .next s) ∧
  (∀ (x : Sec) (pub : PkePoint) (r v d : Nat) (m : Bool),
    x.pkeResult (.ecdsaVerify false pub r v m) = .invalidInput ∧
    (badPoint pub = true → x.pkeResult (.ecdsaVerify true pub r v m) = .invalidKey) ∧
    (badPoint pub = false → (badScalar r = true ∨ badScalar v = true ∨ m = false) → x.pkeResult (.ecdsaVerify true pub r v m) = .invalidSignature) ∧
    (badPoint pub = false → badScalar r = false → badScalar v = false → x.pkeResult (.ecdsaVerify true pub r v true) = .ok) ∧
    (badScalar d = true → x.pkeResult (.ecdsaSign true d) = .invalidKey) ∧ (badScalar d = false → x.pkeResult (.ecdsaSign true d) = .ok) ∧
    (badPoint pub = true → x.pkeResult (.ecdh true d pub) = .invalidInput) ∧
    (badPoint pub = false → badScalar d = false → x.pkeResult (.ecdh true d pub) = .ok)) ∧
  ∀ (x : Sec) (set key : LmsSet) (leaf : Nat) (m : Bool),
    (lmsKnown set = false → x.pkeResult (.lmsVerify true set key leaf m) = .invalidInput) ∧
    (lmsKnown set = true → key ≠ set → x.pkeResult (.lmsVerify true set key leaf m) = .invalidKey) ∧
    (lmsKnown set = true → (2 ^ set.h ≤ leaf ∨ m = false) → x.pkeResult (.lmsVerify true set set leaf m) = .invalidSignature) ∧
    (lmsKnown set = true → leaf < 2 ^ set.h → x.pkeResult (.lmsVerify true set set leaf true) = .ok)

/-- SPDM: after GET_VERSION, GET_CAPABILITIES and NEGOTIATE_ALGORITHMS in their order a port answers every other request; slots 0 and 1 have
certificates; a request that needs a signature is answered ResponseNotReady while operations of the public-key engine wait; four sessions at
most are open; and IDE keys are programmed and started inside an established session, in their own stream only
(R458, R459). Equalisation of a link changes nothing else (R476). -/
def Sys2Proof.Claims.SpdmAndIde : Prop :=
  (∀ (s : State) (p : Port), s.spdmReady p = true →
    (∃ t, exec (.getVersion p) s = .next t ∧ (t.port p).agreed = 1 ∧ t.out = .spdm p [0x04, 0x00, 0x12] :: s.out) ∧
    ((s.port p).agreed = 0 → SpdmError (.getCapabilities p) s p 4 ∧ SpdmError (.getDigests p) s p 4 ∧
      SpdmError (.negotiateAlgorithms p true) s p 4) ∧
    (1 ≤ (s.port p).agreed → ∃ t, exec (.getCapabilities p) s = .next t ∧ (t.port p).agreed = max 2 (s.port p).agreed ∧ t.out = .spdm p (le 1 0x61 ++ capabilities s.draw.1) :: s.out) ∧
    (2 ≤ (s.port p).agreed → SpdmError (.negotiateAlgorithms p false) s p 1 ∧
      ∃ t, exec (.negotiateAlgorithms p true) s = .next t ∧ (t.port p).agreed = 3 ∧ t.out = .spdm p (le 1 0x63 ++ algorithms) :: s.out)) ∧
  (∀ (s : State) (p : Port), s.spdmReady p = true → 3 ≤ (s.port p).agreed →
    exec (.getDigests p) s = .next (s.spdm p 0x01 (fit 48 (Config.certDigest s.identity 0) ++ fit 48 (Config.certDigest s.identity 1))) ∧
    (∀ slot, slot < 2 → exec (.getCertificate p slot) s = .next (s.spdm p 0x02 (Config.certificate s.identity slot)) ∧
      ∀ nonce, s.sec.pkeQ = [] → exec (.challenge p slot nonce) s =
        .next (s.spdm p 0x03 (s.measurements ++ nonce ++ s.aliasSign (s.measurements ++ nonce)))) ∧
    (∀ slot, 2 ≤ slot → SpdmError (.getCertificate p slot) s p 1 ∧ ∀ nonce, SpdmError (.challenge p slot nonce) s p 1) ∧
    (∀ nonce,
      (s.sec.pkeQ = [] → exec (.getMeasurements p 0 nonce) s = .next (s.spdm p 0x60 ([4] ++ nonce ++ s.aliasSign ([4] ++ nonce))) ∧
        ∀ i, 1 ≤ i → i ≤ 4 → exec (.getMeasurements p i nonce) s =
          .next (s.spdm p 0x60 (s.measurement i ++ nonce ++ s.aliasSign (s.measurement i ++ nonce)))) ∧
      (s.sec.pkeQ ≠ [] → ∀ i, i ≤ 4 → exec (.getMeasurements p i nonce) s = .next (s.spdm p 0x7F ([0x42, 0] ++ le 4 290))) ∧
      ∀ i, 5 ≤ i → i ≠ 255 → SpdmError (.getMeasurements p i nonce) s p 1) ∧
    (∀ peer, (4 ≤ (s.port p).sessions.length → SpdmError (.keyExchange p peer) s p 3) ∧
      ((s.port p).sessions.length < 4 → s.sec.pkeQ = [] → ∃ t x, exec (.keyExchange p peer) s = .next t ∧ (t.port p).sessions = (s.port p).sessions ++ [x] ∧
        x.finished = false ∧ x.id < 4 ∧ ∀ y ∈ (s.port p).sessions, y.id ≠ x.id))) ∧
  (∀ (s : State) (p : Port) (id : Nat), s.spdmReady p = true → 3 ≤ (s.port p).agreed →
    (((s.port p).sessions.any fun x => x.id == id) = true → ∃ t, exec (.finish p id) s = .next t ∧
      (t.port p).sessions = (s.port p).sessions.map fun x => if x.id == id then { x with finished := true } else x) ∧
    (((s.port p).sessions.any fun x => x.id == id && x.finished) = true →
      exec (.spdmHeartbeat p id) s = .next (s.spdm p 0x68 (le 2 id)) ∧
      (∃ t, exec (.keyUpdate p id) s = .next t ∧
        (t.port p).sessions = (s.port p).sessions.map fun x => if x.id == id then { x with updates := x.updates + 1 } else x) ∧
      (∃ t, exec (.endSession p id) s = .next t ∧ (t.port p).sessions = ((s.port p).sessions.filter fun x => x.id != id) ∧
        (s.sec.owner = .session p id → t.sec.owner = .none ∧ t.sec.opMem = []) ∧ (s.sec.owner ≠ .session p id → t.sec = s.sec)) ∧
      (∃ t, exec (.ideKmKeyProg p id 0 true) s = .next t ∧
        (t.port p).ideLink = { (s.port p).ideLink with rx := (t.port p).ideLink.rx, session := some id } ∧
        (t.port p).ideLink.rx.isSome = true ∧ (t.port p).ideSel0 = (s.port p).ideSel0 ∧ (t.port p).ideSel1 = (s.port p).ideSel1) ∧
      (∀ a b, (s.port p).ideLink.rx = some a → (s.port p).ideLink.tx = some b → ∃ t, exec (.kSetGo p id 0) s = .next t ∧
        (t.port p).ideLink = { (s.port p).ideLink with rx := none, tx := none, live := some (a, b) })) ∧
    (((s.port p).sessions.any fun x => x.id == id && x.finished) = false →
      SpdmError (.spdmHeartbeat p id) s p 0x0B ∧ SpdmError (.keyUpdate p id) s p 0x0B ∧ SpdmError (.endSession p id) s p 0x0B ∧
      SpdmError (.kSetGo p id 0) s p 0x0B ∧ ∀ rx, SpdmError (.ideKmKeyProg p id 0 rx) s p 0x0B)) ∧
  ∀ (s : State) (p : Port), exec (.pcieEqualisation p) s = .next s
/-! ### Self-test -/

/-- No test is under way or asked for on a mill, and no module-wide test. -/
def Sys2Proof.Claims.NoTest (s : State) (m : Nat) : Prop := (s.stest m).under = [] ∧ (s.stest m).queue = [] ∧ s.modTest = none

/-- Self-test: a request for a core that is under test, or during a module-wide test, is refused with 0x0271, and another is queued, where FORCE takes a stand-in core
whose job is suspended (R472); a turn tests the next
slot of the rotation with the spare in its place, at the couch of its job (R469 to R472). A scan that passes hands the core back and frees the
spare; one that fails retires the slot, and with the spare in its place nothing stops (R471). The module-wide test asks every job to suspend and
refuses to run beside another test (R473). -/
def Sys2Proof.Claims.SelfTests : Prop :=
  (∀ (s : State) (p : Port) (r : Nat) (c : Bytes), Holds s p r 0x40 c → field c 0x18 1 = 0 →
    let n := field c 0x1A 1
    let m := s.millOf n
    (s.modTest.isSome = true ∨ ((s.stest m).under.any fun u => u.core == some n) = true →
      exec (.selftestCore p r) s = .next (s.refuse p r 0x0271)) ∧
    (s.modTest = none → m < 4 → (s.stest m).queue = [] → (s.stest m).turn = false → (s.stest m).spare ≠ 0 →
      (∀ u ∈ (s.stest m).under, u.core ≠ some n ∧ u.scanning = true ∧ u.result = none) →
      (field c 0x19 1 ≠ 1 → exec (.selftestCore p r) s = .next ((s.modStest m fun t => { t with queue := [(n, false, p, r)] }).hold p r)) ∧
      (field c 0x19 1 = 1 → ∀ i, s.jobOn n ≠ 0 → s.standIn m n = some i → s.jobOn i ≠ s.jobOn n → ∃ t u, exec (.selftestCore p r) s = .next t ∧
        (t.stest m).under = (s.stest m).under ++ [u] ∧ u.core = some n ∧ u.slot = s.slotOf n ∧ u.standIn = some i ∧ u.suspended = s.jobOn i ∧
        u.asker = some (p, r) ∧ u.spare = false))) ∧
  (∀ (s : State) (p : Port) (r : Nat) (c : Bytes), Holds s p r 0x40 c → field c 0x18 1 = 1 →
    (s.modTest.isSome = true → exec (.selftestModule p r) s = .next (s.refuse p r 0x0271)) ∧
    ((∀ m, m < 4 → NoTest s m) → s.jobNums = [] → ∃ t x, exec (.selftestModule p r) s = .next t ∧ t.modTest = some x ∧
      x = { asker := some (p, r), scanning := true, left := s.testBlocks, failed := false, unit := s.imageUnit } ∧ t.boot = s.boot ∧
      t.ready = s.ready) ∧
    ((∀ m, m < 4 → NoTest s m) → ∃ t, exec (.selftestModule p r) s = .next t ∧ t.modTest.isSome = true ∧ ∀ j x, j < 17 → s.job j = some x →
      t.job j = some (if x.st = .running then { x with suspend := true } else { x with suspended := true }))) ∧
  (∀ (s : State) (m k : Nat), s.live = true → s.isReady bitControl = true → m < 4 → NoTest s m → (s.stest m).spare = 0 →
    s.slotFrom m (s.stest m).nextSlot = some k → k < 16 → s.jobOn (m * s.grade.coresPerMill + k) = 0 →
    ∃ t u, exec (.selftestTurn m) s = .next t ∧ (t.stest m).under = [u] ∧ u.slot = k ∧ u.scanning = true ∧ (t.stest m).spare = 1 ∧
      (t.stest m).turn = false ∧ (t.stest m).nextSlot = (s.slotFrom m (k + 1)).getD 0 ∧ ∀ m', m' ≠ m → t.stest m' = s.stest m') ∧
  (∀ (s : State) (m : Nat), s.live = true → s.isReady bitControl = true → m < 4 →
    (s.stest m).queue = [] → (s.stest m).under ≠ [] → (∀ u ∈ (s.stest m).under, s.testReady u 0 = false) → exec (.selftestTurn m) s = .next (s.modStest m fun t => { t with turn := true })) ∧
  (∀ (s : State) (m k : Nat) (u : SlotTest), s.live = true → s.modTest = none → (s.stest m).under = [u] → u.scanning = true → u.slot = k →
    u.result = none → (s.stest m).queue = [] → (s.stest m).turn = false →
    (u.asker = none → u.suspended = 0 → s.testReady { u with result := some true } 0 = true → ∃ t, exec (.scanDone (.core m k) true) s = .next t ∧
      (t.stest m).under = [] ∧ (t.stest m).spare = (if u.spare = true ∧ (s.stest m).spare = 1 then 0 else (s.stest m).spare) ∧
      (t.stest m).retiredSlots = (s.stest m).retiredSlots ∧ t.jobs = s.jobs ∧ t.boot = s.boot) ∧
    (k < 16 → k ∉ (s.stest m).retiredSlots → (s.stest m).spare < 2 → u.spare = true → u.suspended = 0 →
      ∀ sig, ∃ t, exec (.scanDone (.core m k) false sig) s = .next t ∧
      k ∈ (t.stest m).retiredSlots ∧ (t.stest m).spareFor = some k ∧ (t.stest m).under = [] ∧ t.jobs = s.jobs ∧ t.boot = s.boot) ∧
    ∀ k', k' ≠ k → ∀ pass sig, exec (.scanDone (.core m k') pass sig) s = .next s) ∧
  (∀ (s : State) (x : ModTest) (b : Block), s.live = true → s.modTest = some x → x.scanning = true → b ∈ x.left → (x.left.erase b).isEmpty = false →
    (∀ sig, exec (.scanDone b true sig) s = .next { s with modTest := some { x with left := x.left.erase b } }) ∧
    ∀ b', b' ∉ x.left → ∀ pass sig, exec (.scanDone b' pass sig) s = .next s)

/-- JTAG: a retired module shows its boundary scan only, a PRODUCTION module shows zeros for what tenants may own or have owned, and
otherwise a word or sector as stored; the key slots are never shown; the fuses of R439 are written in their lifecycle and no other; nothing is answered while TRST_N is low;
and in PRODUCTION and later nothing but a free value's draw and the answer changes (R28, R29, R439, R441, R447, R482). -/
def Sys2Proof.Claims.Jtag : Prop :=
  ∀ (s : State), s.pins.power = .on →
    let s' : State := { s with pins := { s.pins with trstN := true } }
    (∀ t, exec (.jtagAccess t false) s = .next { s with pins := { s.pins with trstN := false } }) ∧
    exec (.jtagAccess .keySlots true) s = .next (s'.emit (.jtag [])) ∧
    (s.sec.lifecycle = 4 → ∀ t, t ≠ .boundary → exec (.jtagAccess t true) s = .next (s'.emit (.jtag []))) ∧
    (∃ u b, exec (.jtagAccess .boundary true) s = .next u ∧ u.out = .jtag b :: s.out) ∧
    (s.sec.lifecycle ≠ 4 → s.sec.lifecycle ≠ 2 →
      (∀ a, a < 2 ^ 31 → a % 8 = 0 → exec (.jtagAccess (.sram a) true) s = .next (s'.emit (.jtag (s.sram.read a 8)))) ∧
      ∀ pc a, a < 2 ^ 30 → a % 64 = 0 → exec (.jtagAccess (.hbm pc a) true) s = .next (s'.emit (.jtag (s.hbm.read (hbmKey pc a) 64)))) ∧
    (s.sec.lifecycle = 2 →
      (∀ a, a < 2 ^ 31 → a % 8 = 0 → (s.group (a / 2 ^ 22)).st ≠ .free → exec (.jtagAccess (.sram a) true) s = .next (s'.emit (.jtag (zeros 8)))) ∧
      (∀ pc a, a < 2 ^ 30 → a % 64 = 0 → s.placeTag (hbmKey pc a) ≠ 0 →
        exec (.jtagAccess (.hbm pc a) true) s = .next (s'.emit (.jtag (zeros 64)))) ∧
      exec (.jtagAccess (.scan false true) true) s = .next (s'.emit (.jtag (zeros 8))) ∧
      ∀ jobData, exec (.jtagAccess (.scan true jobData) true) s = .next (s'.emit (.jtag []))) ∧
    (s.sec.lifecycle < 2 → ∀ pc a, a < 2 ^ 30 → a % 64 = 0 → exec (.jtagAccess (.hbmSide pc a) true) s =
      .next (s'.emit (.jtag (sideBits (s.hbm.read (hbmKey pc a) 64) (s.placeTag (hbmKey pc a)))))) ∧
    (s.sec.lifecycle = 0 →
      (∀ v, exec (.jtagAccess (.uds v) true) s = .next { s' with sec := { s.sec with fuses := { s.sec.fuses with uds := blow s.sec.fuses.uds v } } }) ∧
      ∀ c, ∃ u, exec (.jtagAccess (.grade c) true) s = .next u ∧ u.sec = { s.sec with fuses := { s.sec.fuses with grade := s.sec.fuses.grade ||| c } }) ∧
    (s.sec.lifecycle = 1 → exec (.jtagAccess .production true) s =
      .next { s' with sec := { s.sec with fuses := { s.sec.fuses with production := true } } }) ∧
    (2 ≤ s.sec.lifecycle → ∀ t, ∃ u, exec (.jtagAccess t true) s = .next u ∧ { u with out := s.out, freeCtr := s.freeCtr } = s')
/-! ### Quire links -/

/-- A link carries traffic and its module runs. -/
def Sys2Proof.Claims.Carries (s : State) (k : Nat) : Prop := s.live = true ∧ (s.link k).carries = true

/-- LINK_ROUTE: a table that is invalid, names links the grade leaves out, or would change what a running spanning job uses is refused with 0x0260, 0x0202
or 0x0261; another is put in force (R431, R432). -/
def Sys2Proof.Claims.LinkRoute : Prop :=
  ∀ (s : State) (p : Port) (r : Nat) (c b : Bytes), Holds s p r 0x60 c →
    exec (.linkRoute p r none) s = .next (s.refuse p r cBufferFault) ∧
    let n := field c 0x10 4
    let t := readRoute (fit n b)
    (∀ k, s.routeInvalid (fit n b) n = some k → exec (.linkRoute p r (some b)) s = .next (s.complete p r { status := 0x0260, detail := k })) ∧
    (s.routeInvalid (fit n b) n = none →
      (s.linksAbsent t ≠ 0 → exec (.linkRoute p r (some b)) s = .next (s.complete p r { status := 0x0202, v1 := s.linksAbsent t })) ∧
      (s.linksAbsent t = 0 → s.routeBusy t = true → exec (.linkRoute p r (some b)) s = .next (s.refuse p r 0x0261)) ∧
      (s.linksAbsent t = 0 → s.routeBusy t = false → ∃ u, exec (.linkRoute p r (some b)) s = .next u ∧ u.route = some t ∧
        u.tickGroup.role = (if t.master = t.self then 1 else 2) ∧ u.tickGroup.master = t.master ∧
        ∀ k, k < 24 → (t.links.find? fun l => l.k == k) = none → (u.link k).st = .off ∧
          ((s.link k).st ≠ .off → u.isReady (bitLink k) = false)))

/-- Training and lanes: a link with four good lanes whose peer is the one of its route entry comes up with fresh sequence numbers, and stays in training
otherwise (R418, R430, R431); a lane that fails recalibration, or corrects more than 2^20 symbols in a sheet, is retired: the spare takes its
place in a retraining, or the link goes DOWN (R420, R421); a recalibration shows as RECAL while it lasts (R419); a retraining resends from the last acknowledged flit or the link goes DOWN (R424, R425), and what it finds is compared with the route entry (R418,
R438). -/
def Sys2Proof.Claims.LinkLanes : Prop :=
  (∀ (s : State) (k : Nat) (r : Route) (l : RouteLink) (lanes pol : BitVec 5) (delay : Nat), s.live = true → s.limp = false → (s.link k).st = .training →
    s.route = some r → s.routeEntry k = some l →
    (4 ≤ (lanesGood lanes).length → (s.link k).waiting = [] → ∃ t, exec (.linkTrained k lanes l.peer l.peerLink delay r.encrypt pol) s = .next t ∧
      t.link k = { (s.link k).trained lanes delay r.encrypt with polarity := pol } ∧ t.isReady (bitLink k) = true ∧ t.jobs = s.jobs ∧ t.out = s.out) ∧
    ((lanesGood lanes).length < 4 → exec (.linkTrained k lanes l.peer l.peerLink delay r.encrypt pol) s =
      .next (s.modLink k fun x => { x with good := lanes, polarity := pol })) ∧
    (∀ peer link enc, (l.peer ≠ peer ∨ l.peerLink ≠ link) → exec (.linkTrained k lanes peer link delay enc pol) s = .next (s.linkErr k 4)) ∧
    exec (.linkTrainingRetry k) s = .next (s.modLink k fun x => { x with good := 0 })) ∧
  (∀ (s : State) (k lane : Nat), Carries s k → (s.link k).serves lane = true → (s.link k).good.getLsbD lane = true →
    exec (.laneRecalibration k lane true true) s = .next (s.modLink k fun x => { x with st := .recal }) ∧
    ((s.link k).waiting = [] → ∃ t, exec (.laneRecalibration k lane true) s = .next t ∧ t.link k = { (s.link k) with st := .up } ∧
      (∀ k', k' ≠ k → t.link k' = s.link k') ∧ { t with links := s.links } = s) ∧
    exec (.laneRecalibration k lane false) s = .next ((s.modLink k fun x => { x with st := .up }).retireLane k lane) ∧
    (∀ n, n ≤ 2 ^ 20 → exec (.laneRetired k lane n) s = .next (s.bump (ctrLink k 0) n)) ∧
    (∀ n, 2 ^ 20 < n → exec (.laneRetired k lane n) s = .next ((s.bump (ctrLink k 0) n).retireLane k lane)) ∧
    (lane < 4 → (s.link k).spareFree = true → s.linkJobs k = [] → ((s.retireLane k lane).link k).st = .retrain ∧
      ((s.retireLane k lane).link k).spareFor = some lane ∧ ((s.retireLane k lane).link k).good.getLsbD lane = false) ∧
    (lane < 4 → (s.link k).spareFree = false → s.linkJobs k = [] → (s.link k).waiting = [] → ((s.retireLane k lane).link k).st = .down ∧
      (s.retireLane k lane).isReady (bitLink k) = false)) ∧
  (∀ (s : State) (k resent us : Nat), Carries s k → 
    (resent < 8 → us < 100 → exec (.linkRetryExhausted k resent us) s = .next s) ∧
    (8 ≤ resent ∨ 100 ≤ us → s.linkUsers k = [] →
      exec (.linkRetryExhausted k resent us) s = .next ((s.linkErr k 2).modLink k fun x => { x with st := .retrain }))) ∧
  ∀ (s : State) (k : Nat), s.live = true → (s.link k).st = .retrain →
    (∀ found, exec (.linkRetrainDone k false found) s = .next (s.downLink k)) ∧
    (∀ f, (lanesGood f.lanes).length < 4 → exec (.linkRetrainDone k true (some f)) s = .next (s.downLink k)) ∧
    (∀ f l, 4 ≤ (lanesGood f.lanes).length → s.routeEntry k = some l → (l.peer ≠ f.peer ∨ l.peerLink ≠ f.peerLink) →
      exec (.linkRetrainDone k true (some f)) s = .next ((s.linkErr k 4).modLink k fun x => { x with st := .training })) ∧
    (∀ f l, 4 ≤ (lanesGood f.lanes).length → s.routeEntry k = some l → l.peer = f.peer → l.peerLink = f.peerLink → f.encrypt ≠ s.route.any Route.encrypt →
      exec (.linkRetrainDone k true (some f)) s = .next (s.modLink k fun x => { x with st := .training })) ∧
    (∀ ok found m ms, exec (.linkRetrainDone k ok found (m :: ms)) s = .next ((s.retrainEnd k ok found).loseMembers (m :: ms))) ∧
    ((s.link k).waiting = [] → (s.link k).retry = [] → ∃ t, exec (.linkRetrainDone k true) s = .next t ∧ (t.link k).st = .up ∧ t.isReady (bitLink k) = true ∧
      (t.link k).encrypted = s.route.any Route.encrypt ∧
      (t.link k).session = (if s.route.any Route.encrypt then (s.link k).session + 1 else (s.link k).session) ∧ (t.link k).txSeq = (s.link k).txSeq)

/-- The rows that are messages, with the flit that brings them and its class (R427). -/
def Sys2Proof.Claims.arrives : Instr → Option (Arrival × Nat)
  | .vote _ _ _ _ _ _ _ a | .decision _ _ _ a _ | .start _ _ _ _ a | .releaseEnd _ _ _ _ a => a.map (·, clsCouch)
  | .decisionRequest _ _ _ a | .stop _ _ a | .passRequest _ _ _ _ _ _ a | .sigMessage _ _ _ a | .grant _ _ _ a | .ping _ _ a | .pong _ _ a =>
    a.map (·, clsControl)
  | .tickMessage _ _ _ _ _ a => a.map (·, clsTick)
  | _ => none

/-- Flits received: only the next good flit in order is taken, everything else is answered with a NAK of the last good number; a taken flit for
another module is forwarded, of whatever class (R432); an acknowledgement frees the retry buffer up to its number; a NAK, as a flit of its own, resends what follows it
(R422 to R426). -/
def Sys2Proof.Claims.LinkFlits : Prop :=
  (∀ (s : State) (k : Nat) (h : FlitHdr) (payload : Bytes), Carries s k →
    (∀ auth line cls, exec (.dataFlit k h payload false auth line cls) s = .next ((s.linkErr k 0).badFlit k)) ∧
    ((s.link k).encrypted = true → exec (.dataFlit k h payload true false) s = .next ((s.linkErr k 3).badFlit k)) ∧
    (∀ auth line cls, line = .hchk ∨ line ≠ .codeword ∧ cls ≠ 1 → exec (.dataFlit k h payload true auth line cls) s = .next (s.badFlit k)) ∧
    (h.seq ≠ (s.link k).rxSeq → exec (.dataFlit k h payload true true) s = .next (s.badFlit k)) ∧
    (h.seq = (s.link k).rxSeq → (s.link k).waiting = [] → h.nak = false → ∃ t, exec (.dataFlit k h payload true true) s = .next t ∧
      (h.dst ≠ s.self → s.routeTo h.dst h.span h.tag = none → (t.link k).rxSeq = (h.seq + 1) % 4096 ∧ (t.link k).retry = afterAck (s.link k).retry h.ack ∧
        t.jobs = s.jobs ∧ ∀ k', k' ≠ k → t.link k' = s.link k') ∧
      (h.dst = s.self → ∀ j x, s.spanJob h.span = some j → s.job j = some x → x.st = .running → x.span = some h.span → ∃ y, t.job j = some y ∧
        Tbl.get [] y.rxHidden h.tag = Tbl.get [] x.rxHidden h.tag ++ payload ∧ y.area h.tag = { (x.area h.tag) with
          ends := (x.area h.tag).ends ++ if h.last then [(x.area h.tag).flush + (Tbl.get [] y.rxHidden h.tag).length] else [] }))) ∧
  (∀ (s : State) (i : Instr) (a : Arrival) (w : Nat), arrives i = some (a, w) → Carries s a.k →
    (∀ bits, s.flitBad a.k a.cls w a.hdr a.line = some bits → exec i s = .next ((s.each bits fun s b => s.linkErr a.k b).badFlit a.k)) ∧
    (s.flitBad a.k a.cls w a.hdr a.line = none → a.hdr.dst ≠ (s.takeFlit a.k a.hdr w).self →
      ∃ payload, exec i s = .next ((s.takeFlit a.k a.hdr w).forward a.hdr w payload (some a.k)))) ∧
  (∀ (s : State) (k : Nat) (h : FlitHdr), Carries s k → exec (.idle k h) s = .next (s.takeAck k h) ∧
    exec (.idle k h .codeword) s = .next ((s.linkErr k 0).badFlit k) ∧ exec (.idle k h .hchk) s = .next (s.badFlit k) ∧
    ∀ seq, exec (.nak k seq) s = .next ((s.modLink k fun x => { x with retry := afterAck x.retry seq }).resend k)) ∧
  (∀ (r : List (Nat × Flit)) (n : Nat), ∃ l, r = l ++ afterAck r n ∧ ((∃ c ∈ r, c.1 = n) → ∃ l' c, l = l' ++ [c] ∧ c.1 = n) ∧
    ((∀ c ∈ r, c.1 ≠ n) → l = [])) ∧
  ∀ (s : State) (k : Nat), Carries s k →
    (∀ d, exec (.ping k d) s = .next (s.tell k clsControl kindPong (le 8 d))) ∧
    ∀ d, exec (.pong k d) s = .next (s.modLink k fun x => { x with delay := min 65535 d })

/-- Ticks across modules: a follower adopts the number and the period of the TICK that comes first or by fewer hops, keeps the delay of the way it came, and
ignores one of more than 16 hops; with its master lost the backup is master, and without one the module ticks alone (R433, R434). A delay
measurement pings every link that carries traffic. -/
def Sys2Proof.Claims.TickGroups : Prop :=
  (∀ (s : State) (k n period hops delay : Nat), Carries s k → s.tickGroup.role = 2 →
    (hops ≤ 16 → (s.tickGroup.next ≠ n ∨ hops < s.tickGroup.hops) → ∃ t, exec (.tickMessage k n period hops delay) s = .next t ∧ t.tick = n ∧
      t.periodNext = period ∧ t.periodSet = (s.periodSet || s.periodNext != period) ∧ t.period = s.period ∧ t.tickGroup = { s.tickGroup with next := n, hops := hops, pathDelay := delay } ∧
      t.jobs = s.jobs ∧ t.portA = s.portA ∧ t.portB = s.portB) ∧
    (16 < hops ∨ (s.tickGroup.next = n ∧ s.tickGroup.hops ≤ hops) → exec (.tickMessage k n period hops delay) s = .next s)) ∧
  (∀ (s : State) (r : Route) (reach : List Nat), s.live = true → s.route = some r → s.tickGroup.role = 2 → s.runningJobs = [] →
    exec (.masterLost reach) s = .next { s with tickGroup :=
      if r.backup = 0xFF ∨ r.backup = s.tickGroup.master then {}
      else if r.backup = r.self then { role := 3, master := r.self } else { role := 2, master := r.backup } }) ∧
  ∀ s : State, s.live = true → ∃ t, exec .delayMeasurement s = .next t ∧ t.jobs = s.jobs ∧ t.tick = s.tick ∧ t.route = s.route ∧
    ∀ k, k < 24 → ((s.link k).carries = false → t.link k = s.link k) ∧
      ((s.link k).carries = true → (s.link k).paused = false → (s.link k).waiting = [] → (s.link k).retry.length < 512 → Tbl.get 0 (s.link k).used clsControl < 128 →
        ∃ f, (t.link k).retry = (s.link k).retry ++ [((s.link k).txSeq, f)] ∧ f.cls = clsControl ∧ f.tag = kindPing ∧ f.dst = (s.link k).peer)

/-- Keys of a link: new keys after 2^40 flits of either direction, and a link whose authentication fails sixteen times in a sheet goes DOWN (R430). -/
def Sys2Proof.Claims.LinkKeys : Prop :=
  ∀ (s : State) (k : Nat), Carries s k → (s.link k).encrypted = true →
    ((s.link k).txCount < 2 ^ 40 → (s.link k).rxCount < 2 ^ 40 → exec (.linkRekey k) s = .next s) ∧
    ((2 ^ 40 ≤ (s.link k).txCount ∨ 2 ^ 40 ≤ (s.link k).rxCount) →
      exec (.linkRekey k) s = .next (s.modLink k fun x => { x with session := x.session + 1, txCount := 0, rxCount := 0 })) ∧
    (∀ n, n < 16 → exec (.linkAuthDown k n) s = .next s) ∧
    ∀ n, 16 ≤ n → exec (.linkAuthDown k n) s = .next ((s.linkErr k 3).downLink k)
/-! ### Rules stated whole -/

/-- R137: a limb is stored packed, eight residues in 36 bytes or in 28, residue i of a group in bits 36i to 36i+35, or 28i to 28i+27, of the group
read as one little-endian number; and a limb read back from its bytes is what was packed. -/
def Obligations.LimbPacking : Prop :=
  ∀ (f : Fmt) (w : Nat), (f = .z36 ∧ w = 36) ∨ (f = .z28 ∧ w = 28) → ∀ (n : Nat) (xs : List Nat), n % 8 = 0 → xs.length = n → (∀ x ∈ xs, x < 2 ^ w) →
    let b := packLimb f n xs
    b.length = n / 8 * w ∧ 8 * b.length = w * n ∧
    (∀ j i, j < n / 8 → i < 8 → bytesVal ((b.drop (w * j)).take w) / 2 ^ (w * i) % 2 ^ w = xs.getD (8 * j + i) 0) ∧
    unpackLimb f n b = xs ∧ ∀ c, c.length = n / 8 * w → packLimb f n (unpackLimb f n c) = c

/-- R187: for odd g the automorphism is a permutation of the N positions of a limb in evaluation form, with out[k] = in[brv(((g · (2·brv(k) + 1)) mod
2N − 1) / 2)] and brv the reversal of log2 N bits; the copy engine's GALOIS performs it on each limb. -/
def Obligations.Galois : Prop :=
  (∀ (logN g : Nat) (a : List Nat), g % 2 = 1 → a.length = 2 ^ logN →
    (galoisLimb logN g a).Perm a ∧ ∀ k, k < 2 ^ logN → (galoisLimb logN g a).getD k 0 =
      a.getD (bitRev logN (((g * (2 * bitRev logN k + 1)) % (2 * 2 ^ logN) - 1) / 2)) 0) ∧
  (∀ n k j, j < n → (bitRev n k).testBit j = k.testBit (n - 1 - j)) ∧
  (∀ (s : State) (i : Issue) (hd : CopyHead) (src dst : Mat) (n g limbs stride k : Nat) (ys yd : Layout),
    let j := (s.core i.core).job
    let w := n / 8 * fmtWidth hd.fmt
    let run (l : Loc) (x : Nat) : List (Nat × Nat) := [(8 * (l.off + x * stride), 8 * w)]
    let v := ((List.range limbs).map fun x => overlapOf (s.sectors j src.loc.h (run src.loc x)) (s.sectors j dst.loc.h (run dst.loc x))).foldl max 0
    CopyIssues s i hd [] [src.loc.h, dst.loc.h] → src.loc.off % 64 = 0 → dst.loc.off % 64 = 0 → s.matLayout j src = some ys →
    s.matLayout j dst = some yd → misaligned hd.fmt ys src.loc.off = false → misaligned hd.fmt yd dst.loc.off = false → matBad src = false →
    matBad dst = false → badStrides hd.fmt ys false = false → badStrides hd.fmt yd true = false → galoisDetail hd.fmt n g limbs stride = none →
    sizeLog n = some k → s.limbFault j src.loc limbs stride w false = none → s.limbFault j dst.loc limbs stride w true = none → v ≤ maxStaging →
    TagsLet s j src.loc.h ((List.range limbs).flatMap (run src.loc)) →
    exec (.xcopyGalois i hd src dst n g limbs stride) s = .next (ended i
      (((List.range limbs).foldl (fun t x => t.store j dst.loc.h (dst.loc.off + x * stride)
        (packLimb hd.fmt n (galoisLimb k g (unpackLimb hd.fmt n (t.load j src.loc.h (src.loc.off + x * stride) w))))) (began s i)).queueCopy
          i.core hd v dst.loc.h ((List.range limbs).flatMap (run dst.loc))
          ((began s i).copyTouched j [(src.loc.h, (List.range limbs).flatMap (run src.loc))] dst.loc.h []))))

/-- R189, R191: an operation whose prediction exhausts is not performed. Under STRICT the job takes the PROGRAM fault 0x0302; under AUTO a BGV
or BFV operation takes 0x0303.
Choices of the model: assumption 151. -/
def Obligations.Exhaustion : Prop :=
  ∀ (s : State) (c : Instr) (i : Issue) (o : CtOp) (e : ReadErr) (x : Job) (p : ParamSet), 
    (CtRow c i o e ∨ ∃ a slot, c = .repulp i a slot e ∧ o = { kind := .repulp, srcs := [a], dsts := [a], slot := slot }) → CanIssue s i (ctUses o) →
    s.job (s.core i.core).job = some x →
    Present s [] (engCt :: if o.kind.switches ∨ o.kind = .repulp then [engKey] else []) →
    Exhausts s (s.millOf i.core) (s.core i.core).job x o e p →
    let hs := o.srcs.map fun l => readHdr (s.load (s.core i.core).job l.h l.off 64)
    let d := predict p o.kind hs
    let scheme := (hs.getD 0 (readHdr [])).scheme
    let fault (code detail : Nat) : State := s.program i.core code detail slotMatrix (o.srcs.getD 0 ⟨0, 0⟩).h
      (le 2 d.head ++ le 2 p.floor ++ le 1 d.exhaust)
    (x.auto = false → exec c s = .next (fault 0x0302 d.exhaust)) ∧
    (x.auto = true → scheme ≠ ckks → exec c s = .next (fault 0x0303 2)) ∧
    ∀ code k, (∃ y, (fault code k).job (s.core i.core).job = some y ∧ y.st = .stopped) ∧
      (fault code k).sram = s.sram ∧ (fault code k).hbm = s.hbm

/-- R367: POLICY_SET from the other port is refused with 0x0102, a value outside its range with 0x0103, and a period while a job exists with 0x0104;
one command may carry several items, and a refusal of any item refuses them all. -/
def Obligations.PolicyRefusals : Prop :=
  (∀ (s : State) (p : Port) (r : Nat) (b : Bytes), s.serves p = true → r < 8 → (s.ring p r).mayFetch = true → p ≠ s.adminPort → field b 0 1 = 0x41 →
    b.length = 64 →
    let s' := s.setRing p r { s.ring p r with current := some b, held := false, seq := s.lastRead p + 1, page := none, sent := 0, sqHead := ((s.ring p r).sqHead + 1) % 2 ^ (s.ring p r).sqLog2 }
    s'.fieldFault b = none → exec (.commandFetch p r b) s = .next (s'.complete p r { status := 0x0102 })) ∧
  (∀ (s : State) (c : Bytes) (g : Bool),
    let has := bit (field c 0x18 2)
    let outside : Prop := (has 0 = true ∧ (field c 0x1A 1 < 20 ∨ 250 < field c 0x1A 1)) ∨ (has 1 = true ∧ field c 0x1C 2 = 0) ∨
      (has 2 = true ∧ (field c 0x1E 2 = 0 ∨ 10000 < field c 0x1E 2)) ∨ (has 3 = true ∧ (field c 0x1B 1 = 0 ∨ 168 < field c 0x1B 1)) ∨
      (has 4 = true ∧ (field c 0x20 2 < 600 ∨ 1000 < field c 0x20 2 ∨ field c 0x20 2 % 10 ≠ 0)) ∨ (has 5 = true ∧ 3 < field c 0x22 1) ∨
      (has 6 = true ∧ (16 < field c 0x23 1 ∨ 64 < field c 0x24 1))
    (outside → s.policyFault c g = some 0x0103) ∧
    (¬outside → has 0 = true → s.tickGroup.role ≠ 2 → (s.jobNums ≠ [] ∨ g = true) → s.policyFault c g = some 0x0104) ∧
    (s.policyFault c g = none ↔ ¬outside ∧ (has 0 = true → s.tickGroup.role ≠ 2 ∧ s.jobNums = [] ∧ g = false))) ∧
  ∀ (s : State) (p : Port) (r k : Nat) (c : Bytes) (g : Bool) (st : Nat), Holds s p r 0x41 c → k < 8 →
    ((List.range 8).find? (bit (field c 0x18 2))).getD 0 = k → s.policyFault c (decide (k = 0) && g) = some st →
    exec (policyRow k p r g) s = .next (s.complete p r { status := st })

/-- R262: the nine storable float formats, with the places of sign, exponent and fraction, the bias, what the top exponent stands for, the
written NaN and +∞. The value of a finite code is sign × 2^(exponent − bias) × (1 + fraction / 2^F) (R261). -/
def Obligations.FloatLayouts : Prop :=
  (fSpec .f12e5).decode 0x5A3 = (FVal.fin false 198 0).canon ∧
  ∀ row ∈ [(Fmt.f4e2s, 2, 1, 1, 2, 0, 0), (.f8e4, 4, 3, 7, 0, 0x7C, 0x78), (.f8e4s, 4, 3, 7, 1, 0x7F, 0), (.f8e5, 5, 2, 15, 0, 0x7E, 0x7C),
      (.f12e5, 5, 6, 15, 0, 0x7E0, 0x7C0), (.f16e5, 5, 10, 15, 0, 0x7E00, 0x7C00), (.f16e8, 8, 7, 127, 0, 0x7FC0, 0x7F80),
      (.f24e8, 8, 15, 127, 0, 0x7FC000, 0x7F8000), (.f32e8, 8, 23, 127, 0, 0x7FC00000, 0x7F800000)],
    let p := fSpec row.1
    let E := row.2.1
    let F := row.2.2.1
    let bias := row.2.2.2.1
    let top := row.2.2.2.2.1
    let nan := row.2.2.2.2.2.1
    let inf := row.2.2.2.2.2.2
    fmtWidth row.1 = 1 + E + F ∧ (top ≠ 2 → p.write .nan = (nan, false)) ∧
    (top = 0 → p.write (.inf false) = (inf, false) ∧ p.write (.inf true) = (inf + 2 ^ (E + F), false)) ∧
    ∀ (sign : Bool) (x f : Nat), x < 2 ^ E → f < 2 ^ F →
      let c := (if sign then 2 ^ (E + F) else 0) + x * 2 ^ F + f
      let special : Prop := x = 2 ^ E - 1 ∧ (top = 0 ∨ (top = 1 ∧ f = 7))
      (special → f = 0 → p.decode c = .inf sign) ∧ (special → f ≠ 0 → p.decode c = .nan) ∧
      (¬special → 1 ≤ x → p.decode c = (FVal.fin sign (2 ^ F + f) ((x : Int) - bias - F)).canon ∧ p.write (p.decode c) = (c, false))
/-! ### The parts taken together -/

/-- What no command changes: the queue, the grade, and, but for the commands named, the EEPROM, the tick and period, and every byte of SRAM and HBM.
Choices of the model: assumptions 10 and 38. -/
def Obligations.Frames : Prop := Claims.QueueGradeEeprom ∧ Claims.TickFrame ∧ Claims.MemoryFrame

/-- The scalar unit: arithmetic, moves and multiplications each issue, and write what R211 gives.
Choices of the model: assumption 3. -/
def Obligations.ScalarUnit : Prop := Claims.ScalarAlu ∧ Claims.ScalarMoves ∧ Claims.ScalarMultiply

/-- Semaphores and barriers: the operations and the signals applied.
Choices of the model: assumption 21. -/
def Obligations.SynchronisationUnit : Prop := Claims.Synchronisation ∧ Claims.SignalsApplied

/-- Scalar loads and stores, tile loads and stores, and the completions of memory operations.
Choices of the model: assumptions 38, 39 and 41. -/
def Obligations.LoadsAndStores : Prop := Claims.ScalarMemory ∧ Claims.MemoryCompletions ∧ Claims.TileMemory

/-- Integer, bitwise and modular vector operations.
Choices of the model: assumption 33. -/
def Obligations.VectorExact : Prop := Claims.VectorInteger ∧ Claims.VectorBits ∧ Claims.VectorModular

/-- Masks, and the results that the vector unit writes. -/
def Obligations.VectorWrites : Prop := Claims.VectorMasks ∧ Claims.VectorResult

/-- The matrix array: products and the drain of an accumulator.
Choices of the model: assumptions 35 and 36. -/
def Obligations.MatrixUnit : Prop := Claims.MatrixProducts ∧ Claims.MatrixDrain

/-- Ciphertext operations, and the writing of their outputs.
Choices of the model: assumptions 22, 23, 25, 124, 149, 150, 152, 153 and 154. -/
def Obligations.Ciphertexts : Prop := Claims.CiphertextOps ∧ Claims.CiphertextWritten

/-- Transforming copies and streams: issue, progress and effect.
Choices of the model: assumptions 32, 38, 40, 43, 145 and 147. -/
def Obligations.CopiesAndStreams : Prop := Claims.Copies ∧ Claims.CopyProgress ∧ Claims.StreamIssue ∧ Claims.StreamElements

/-- Key ingest and its checks.
Choices of the model: assumption 82. -/
def Obligations.KeyLoading : Prop := Claims.KeyIngest ∧ Claims.KeyChecks

/-- Binding of key sets and the selfcheck of keys.
Choices of the model: assumption 118. -/
def Obligations.KeyUse : Prop := Claims.KeyBinding ∧ Claims.KeySelfcheck

/-- Key streams between cores and key passes between modules.
Choices of the model: assumptions 49, 50, 84 and 148. -/
def Obligations.KeyMovement : Prop := Claims.KeyStreams ∧ Claims.KeyPasses

/-- Handles: the commands that map them and the operations that move them.
Choices of the model: assumptions 51, 52 and 53. -/
def Obligations.Handles : Prop := Claims.HandleCommands ∧ Claims.HandleOps

/-- Bank groups: power and wiping.
Choices of the model: assumptions 54 and 55. -/
def Obligations.Banks : Prop := Claims.BankPower ∧ Claims.BankGroups

/-- HBM: correction storms, retirement, fills and the patrol scrub.
Choices of the model: assumptions 78, 79, 80 and 81. -/
def Obligations.HbmHealth : Prop := Claims.CorrectionStorms ∧ Claims.PseudoChannels ∧ Claims.UnitFilled ∧ Claims.PatrolScrub

/-- The life of a job: load, submit, kill and the end of its wipe.
Choices of the model: assumptions 90 and 93. -/
def Obligations.JobRuns : Prop := Claims.JobLife ∧ Claims.Submit

/-- The tick, sheets and reams.
Choices of the model: assumptions 74, 75 and 96. -/
def Obligations.SheetsAndReams : Prop := Claims.Ticks ∧ Claims.Reams

/-- Jobs over several modules: votes, decisions, start and stop.
Choices of the model: assumptions 68, 69, 70, 71 and 72. -/
def Obligations.Spans : Prop := Claims.SpanVotes ∧ Claims.SpanDecisions ∧ Claims.SpanStartStop

/-- Snapshots, logs and vectors.
Choices of the model: assumptions 106, 107 and 139. -/
def Obligations.Statistics : Prop := Claims.Snapshots ∧ Claims.LogsAndVectors

/-- Register accesses of BAR0 and windows of BAR2.
Choices of the model: assumptions 108, 110, 111 and 112. -/
def Obligations.Registers : Prop := Claims.RegisterAccess ∧ Claims.Bar2Access

/-- Command rings: registers and the fetch of commands.
Choices of the model: assumptions 125 and 126. -/
def Obligations.Rings : Prop := Claims.RingRegisters ∧ Claims.CommandFetch

/-- Completions, queries and events.
Choices of the model: assumptions 12 and 101. -/
def Obligations.Answers : Prop := Claims.Completions ∧ Claims.QueriesAndEvents

/-- Power up and down and the management bus.
Choices of the model: assumptions 14, 130, 131, 132 and 140. -/
def Obligations.Power : Prop := Claims.PowerUpAndDown ∧ Claims.ManagementBus

/-- Sensor samples and throttling.
Choices of the model: assumptions 136, 137 and 140. -/
def Obligations.Sensors : Prop := Claims.SensorSamples ∧ Claims.ThrottleSteps

/-- The power loops, ramps and caps.
Choices of the model: assumptions 133, 134, 135 and 137. -/
def Obligations.PowerControl : Prop := Claims.PowerLoops ∧ Claims.Ramps

/-- Port resets and bring-up.
Choices of the model: assumptions 120, 121 and 143. -/
def Obligations.PortsAndBringUp : Prop := Claims.PortResets ∧ Claims.BringUp

/-- Secure boot, firmware updates and tokens.
Choices of the model: assumptions 19, 115, 122 and 144. -/
def Obligations.Security : Prop := Claims.SecureBoot ∧ Claims.Firmware ∧ Claims.Tokens

/-- Attestation, the public-key engine, SPDM and IDE.
Choices of the model: assumptions 19, 20, 116, 117, 141 and 155. -/
def Obligations.Attestations : Prop := Claims.Attestation ∧ Claims.PublicKeyEngine ∧ Claims.SpdmAndIde

/-- Self-test and JTAG.
Choices of the model: assumptions 61, 62, 63, 64, 66 and 142. -/
def Obligations.SelfTest : Prop := Claims.SelfTests ∧ Claims.Jtag

/-- Quire links: routes, training, lanes, flits, keys and ticks.
Choices of the model: assumptions 94, 95, 96, 97, 98, 99, 100 and 113. -/
def Obligations.QuireLinks : Prop := Claims.LinkRoute ∧ Claims.LinkLanes ∧ Claims.LinkFlits ∧ Claims.LinkKeys ∧ Claims.TickGroups
end

