-- ==== Sys2Proof/Laws/State.lean ====
section
/-! SUPPORT. For each named update of the state, what it leaves of each field: no later proof unfolds a record update. -/

namespace Sys2Proof.Machine

/-! ### `setPort` -/

@[simp] theorem State.setPort_pins (s : State) (p : Port) (x : PortSt) : (s.setPort p x).pins = s.pins := by cases p <;> rfl
@[simp] theorem State.setPort_clk (s : State) (p : Port) (x : PortSt) : (s.setPort p x).clk = s.clk := by cases p <;> rfl
@[simp] theorem State.setPort_mills (s : State) (p : Port) (x : PortSt) : (s.setPort p x).mills = s.mills := by cases p <;> rfl
@[simp] theorem State.setPort_hbms (s : State) (p : Port) (x : PortSt) : (s.setPort p x).hbms = s.hbms := by cases p <;> rfl
@[simp] theorem State.setPort_boot (s : State) (p : Port) (x : PortSt) : (s.setPort p x).boot = s.boot := by cases p <;> rfl
@[simp] theorem State.setPort_sec (s : State) (p : Port) (x : PortSt) : (s.setPort p x).sec = s.sec := by cases p <;> rfl
@[simp] theorem State.setPort_grade (s : State) (p : Port) (x : PortSt) : (s.setPort p x).grade = s.grade := by cases p <;> rfl
@[simp] theorem State.setPort_ready (s : State) (p : Port) (x : PortSt) : (s.setPort p x).ready = s.ready := by cases p <;> rfl
@[simp] theorem State.setPort_eeprom (s : State) (p : Port) (x : PortSt) : (s.setPort p x).eeprom = s.eeprom := by cases p <;> rfl
@[simp] theorem State.setPort_period (s : State) (p : Port) (x : PortSt) : (s.setPort p x).period = s.period := by cases p <;> rfl
@[simp] theorem State.setPort_periodNext (s : State) (p : Port) (x : PortSt) : (s.setPort p x).periodNext = s.periodNext := by cases p <;> rfl
@[simp] theorem State.setPort_periodSet (s : State) (p : Port) (x : PortSt) : (s.setPort p x).periodSet = s.periodSet := by cases p <;> rfl
@[simp] theorem State.setPort_reamLen (s : State) (p : Port) (x : PortSt) : (s.setPort p x).reamLen = s.reamLen := by cases p <;> rfl
@[simp] theorem State.setPort_reamNext (s : State) (p : Port) (x : PortSt) : (s.setPort p x).reamNext = s.reamNext := by cases p <;> rfl
@[simp] theorem State.setPort_sheetInReam (s : State) (p : Port) (x : PortSt) : (s.setPort p x).sheetInReam = s.sheetInReam := by cases p <;> rfl
@[simp] theorem State.setPort_boundary (s : State) (p : Port) (x : PortSt) : (s.setPort p x).boundary = s.boundary := by cases p <;> rfl
@[simp] theorem State.setPort_reamOn (s : State) (p : Port) (x : PortSt) : (s.setPort p x).reamOn = s.reamOn := by cases p <;> rfl
@[simp] theorem State.setPort_ticking (s : State) (p : Port) (x : PortSt) : (s.setPort p x).ticking = s.ticking := by cases p <;> rfl
@[simp] theorem State.setPort_tick (s : State) (p : Port) (x : PortSt) : (s.setPort p x).tick = s.tick := by cases p <;> rfl
@[simp] theorem State.setPort_reams (s : State) (p : Port) (x : PortSt) : (s.setPort p x).reams = s.reams := by cases p <;> rfl
@[simp] theorem State.setPort_timeoutMs (s : State) (p : Port) (x : PortSt) : (s.setPort p x).timeoutMs = s.timeoutMs := by cases p <;> rfl
@[simp] theorem State.setPort_selftestHours (s : State) (p : Port) (x : PortSt) : (s.setPort p x).selftestHours = s.selftestHours := by cases p <;> rfl
@[simp] theorem State.setPort_admitA (s : State) (p : Port) (x : PortSt) : (s.setPort p x).admitA = s.admitA := by cases p <;> rfl
@[simp] theorem State.setPort_admitB (s : State) (p : Port) (x : PortSt) : (s.setPort p x).admitB = s.admitB := by cases p <;> rfl
@[simp] theorem State.setPort_quotaJobs (s : State) (p : Port) (x : PortSt) : (s.setPort p x).quotaJobs = s.quotaJobs := by cases p <;> rfl
@[simp] theorem State.setPort_quotaCores (s : State) (p : Port) (x : PortSt) : (s.setPort p x).quotaCores = s.quotaCores := by cases p <;> rfl
@[simp] theorem State.setPort_adminPort (s : State) (p : Port) (x : PortSt) : (s.setPort p x).adminPort = s.adminPort := by cases p <;> rfl
@[simp] theorem State.setPort_admissions (s : State) (p : Port) (x : PortSt) : (s.setPort p x).admissions = s.admissions := by cases p <;> rfl
@[simp] theorem State.setPort_jobs (s : State) (p : Port) (x : PortSt) : (s.setPort p x).jobs = s.jobs := by cases p <;> rfl
@[simp] theorem State.setPort_cores (s : State) (p : Port) (x : PortSt) : (s.setPort p x).cores = s.cores := by cases p <;> rfl
@[simp] theorem State.setPort_groups (s : State) (p : Port) (x : PortSt) : (s.setPort p x).groups = s.groups := by cases p <;> rfl
@[simp] theorem State.setPort_sparesUsed (s : State) (p : Port) (x : PortSt) : (s.setPort p x).sparesUsed = s.sparesUsed := by cases p <;> rfl
@[simp] theorem State.setPort_units (s : State) (p : Port) (x : PortSt) : (s.setPort p x).units = s.units := by cases p <;> rfl
@[simp] theorem State.setPort_sram (s : State) (p : Port) (x : PortSt) : (s.setPort p x).sram = s.sram := by cases p <;> rfl
@[simp] theorem State.setPort_hbm (s : State) (p : Port) (x : PortSt) : (s.setPort p x).hbm = s.hbm := by cases p <;> rfl
@[simp] theorem State.setPort_hbmTag (s : State) (p : Port) (x : PortSt) : (s.setPort p x).hbmTag = s.hbmTag := by cases p <;> rfl
@[simp] theorem State.setPort_headboxes (s : State) (p : Port) (x : PortSt) : (s.setPort p x).headboxes = s.headboxes := by cases p <;> rfl
@[simp] theorem State.setPort_ingest (s : State) (p : Port) (x : PortSt) : (s.setPort p x).ingest = s.ingest := by cases p <;> rfl
@[simp] theorem State.setPort_ingestQ (s : State) (p : Port) (x : PortSt) : (s.setPort p x).ingestQ = s.ingestQ := by cases p <;> rfl
@[simp] theorem State.setPort_ingestLast (s : State) (p : Port) (x : PortSt) : (s.setPort p x).ingestLast = s.ingestLast := by cases p <;> rfl
@[simp] theorem State.setPort_passes (s : State) (p : Port) (x : PortSt) : (s.setPort p x).passes = s.passes := by cases p <;> rfl
@[simp] theorem State.setPort_building (s : State) (p : Port) (x : PortSt) : (s.setPort p x).building = s.building := by cases p <;> rfl
@[simp] theorem State.setPort_tableUnits (s : State) (p : Port) (x : PortSt) : (s.setPort p x).tableUnits = s.tableUnits := by cases p <;> rfl
@[simp] theorem State.setPort_xcOrder (s : State) (p : Port) (x : PortSt) : (s.setPort p x).xcOrder = s.xcOrder := by cases p <;> rfl
@[simp] theorem State.setPort_links (s : State) (p : Port) (x : PortSt) : (s.setPort p x).links = s.links := by cases p <;> rfl
@[simp] theorem State.setPort_route (s : State) (p : Port) (x : PortSt) : (s.setPort p x).route = s.route := by cases p <;> rfl
@[simp] theorem State.setPort_spans (s : State) (p : Port) (x : PortSt) : (s.setPort p x).spans = s.spans := by cases p <;> rfl
@[simp] theorem State.setPort_tickGroup (s : State) (p : Port) (x : PortSt) : (s.setPort p x).tickGroup = s.tickGroup := by cases p <;> rfl
@[simp] theorem State.setPort_ctr (s : State) (p : Port) (x : PortSt) : (s.setPort p x).ctr = s.ctr := by cases p <;> rfl
@[simp] theorem State.setPort_ream (s : State) (p : Port) (x : PortSt) : (s.setPort p x).ream = s.ream := by cases p <;> rfl
@[simp] theorem State.setPort_pcStorm (s : State) (p : Port) (x : PortSt) : (s.setPort p x).pcStorm = s.pcStorm := by cases p <;> rfl
@[simp] theorem State.setPort_pcTag (s : State) (p : Port) (x : PortSt) : (s.setPort p x).pcTag = s.pcTag := by cases p <;> rfl
@[simp] theorem State.setPort_stests (s : State) (p : Port) (x : PortSt) : (s.setPort p x).stests = s.stests := by cases p <;> rfl
@[simp] theorem State.setPort_modTest (s : State) (p : Port) (x : PortSt) : (s.setPort p x).modTest = s.modTest := by cases p <;> rfl
@[simp] theorem State.setPort_freeCtr (s : State) (p : Port) (x : PortSt) : (s.setPort p x).freeCtr = s.freeCtr := by cases p <;> rfl
@[simp] theorem State.setPort_out (s : State) (p : Port) (x : PortSt) : (s.setPort p x).out = s.out := by cases p <;> rfl
@[simp] theorem State.setPort_pending (s : State) (p : Port) (x : PortSt) : (s.setPort p x).pending = s.pending := by cases p <;> rfl

/-! ### `modPort` -/

@[simp] theorem State.modPort_pins (s : State) (p : Port) (f : PortSt → PortSt) : (s.modPort p f).pins = s.pins := by cases p <;> rfl
@[simp] theorem State.modPort_clk (s : State) (p : Port) (f : PortSt → PortSt) : (s.modPort p f).clk = s.clk := by cases p <;> rfl
@[simp] theorem State.modPort_mills (s : State) (p : Port) (f : PortSt → PortSt) : (s.modPort p f).mills = s.mills := by cases p <;> rfl
@[simp] theorem State.modPort_hbms (s : State) (p : Port) (f : PortSt → PortSt) : (s.modPort p f).hbms = s.hbms := by cases p <;> rfl
@[simp] theorem State.modPort_boot (s : State) (p : Port) (f : PortSt → PortSt) : (s.modPort p f).boot = s.boot := by cases p <;> rfl
@[simp] theorem State.modPort_sec (s : State) (p : Port) (f : PortSt → PortSt) : (s.modPort p f).sec = s.sec := by cases p <;> rfl
@[simp] theorem State.modPort_grade (s : State) (p : Port) (f : PortSt → PortSt) : (s.modPort p f).grade = s.grade := by cases p <;> rfl
@[simp] theorem State.modPort_ready (s : State) (p : Port) (f : PortSt → PortSt) : (s.modPort p f).ready = s.ready := by cases p <;> rfl
@[simp] theorem State.modPort_eeprom (s : State) (p : Port) (f : PortSt → PortSt) : (s.modPort p f).eeprom = s.eeprom := by cases p <;> rfl
@[simp] theorem State.modPort_period (s : State) (p : Port) (f : PortSt → PortSt) : (s.modPort p f).period = s.period := by cases p <;> rfl
@[simp] theorem State.modPort_periodNext (s : State) (p : Port) (f : PortSt → PortSt) : (s.modPort p f).periodNext = s.periodNext := by cases p <;> rfl
@[simp] theorem State.modPort_periodSet (s : State) (p : Port) (f : PortSt → PortSt) : (s.modPort p f).periodSet = s.periodSet := by cases p <;> rfl
@[simp] theorem State.modPort_reamLen (s : State) (p : Port) (f : PortSt → PortSt) : (s.modPort p f).reamLen = s.reamLen := by cases p <;> rfl
@[simp] theorem State.modPort_reamNext (s : State) (p : Port) (f : PortSt → PortSt) : (s.modPort p f).reamNext = s.reamNext := by cases p <;> rfl
@[simp] theorem State.modPort_sheetInReam (s : State) (p : Port) (f : PortSt → PortSt) : (s.modPort p f).sheetInReam = s.sheetInReam := by cases p <;> rfl
@[simp] theorem State.modPort_boundary (s : State) (p : Port) (f : PortSt → PortSt) : (s.modPort p f).boundary = s.boundary := by cases p <;> rfl
@[simp] theorem State.modPort_reamOn (s : State) (p : Port) (f : PortSt → PortSt) : (s.modPort p f).reamOn = s.reamOn := by cases p <;> rfl
@[simp] theorem State.modPort_ticking (s : State) (p : Port) (f : PortSt → PortSt) : (s.modPort p f).ticking = s.ticking := by cases p <;> rfl
@[simp] theorem State.modPort_tick (s : State) (p : Port) (f : PortSt → PortSt) : (s.modPort p f).tick = s.tick := by cases p <;> rfl
@[simp] theorem State.modPort_reams (s : State) (p : Port) (f : PortSt → PortSt) : (s.modPort p f).reams = s.reams := by cases p <;> rfl
@[simp] theorem State.modPort_timeoutMs (s : State) (p : Port) (f : PortSt → PortSt) : (s.modPort p f).timeoutMs = s.timeoutMs := by cases p <;> rfl
@[simp] theorem State.modPort_selftestHours (s : State) (p : Port) (f : PortSt → PortSt) : (s.modPort p f).selftestHours = s.selftestHours := by cases p <;> rfl
@[simp] theorem State.modPort_admitA (s : State) (p : Port) (f : PortSt → PortSt) : (s.modPort p f).admitA = s.admitA := by cases p <;> rfl
@[simp] theorem State.modPort_admitB (s : State) (p : Port) (f : PortSt → PortSt) : (s.modPort p f).admitB = s.admitB := by cases p <;> rfl
@[simp] theorem State.modPort_quotaJobs (s : State) (p : Port) (f : PortSt → PortSt) : (s.modPort p f).quotaJobs = s.quotaJobs := by cases p <;> rfl
@[simp] theorem State.modPort_quotaCores (s : State) (p : Port) (f : PortSt → PortSt) : (s.modPort p f).quotaCores = s.quotaCores := by cases p <;> rfl
@[simp] theorem State.modPort_adminPort (s : State) (p : Port) (f : PortSt → PortSt) : (s.modPort p f).adminPort = s.adminPort := by cases p <;> rfl
@[simp] theorem State.modPort_admissions (s : State) (p : Port) (f : PortSt → PortSt) : (s.modPort p f).admissions = s.admissions := by cases p <;> rfl
@[simp] theorem State.modPort_jobs (s : State) (p : Port) (f : PortSt → PortSt) : (s.modPort p f).jobs = s.jobs := by cases p <;> rfl
@[simp] theorem State.modPort_cores (s : State) (p : Port) (f : PortSt → PortSt) : (s.modPort p f).cores = s.cores := by cases p <;> rfl
@[simp] theorem State.modPort_groups (s : State) (p : Port) (f : PortSt → PortSt) : (s.modPort p f).groups = s.groups := by cases p <;> rfl
@[simp] theorem State.modPort_sparesUsed (s : State) (p : Port) (f : PortSt → PortSt) : (s.modPort p f).sparesUsed = s.sparesUsed := by cases p <;> rfl
@[simp] theorem State.modPort_units (s : State) (p : Port) (f : PortSt → PortSt) : (s.modPort p f).units = s.units := by cases p <;> rfl
@[simp] theorem State.modPort_sram (s : State) (p : Port) (f : PortSt → PortSt) : (s.modPort p f).sram = s.sram := by cases p <;> rfl
@[simp] theorem State.modPort_hbm (s : State) (p : Port) (f : PortSt → PortSt) : (s.modPort p f).hbm = s.hbm := by cases p <;> rfl
@[simp] theorem State.modPort_hbmTag (s : State) (p : Port) (f : PortSt → PortSt) : (s.modPort p f).hbmTag = s.hbmTag := by cases p <;> rfl
@[simp] theorem State.modPort_headboxes (s : State) (p : Port) (f : PortSt → PortSt) : (s.modPort p f).headboxes = s.headboxes := by cases p <;> rfl
@[simp] theorem State.modPort_ingest (s : State) (p : Port) (f : PortSt → PortSt) : (s.modPort p f).ingest = s.ingest := by cases p <;> rfl
@[simp] theorem State.modPort_ingestQ (s : State) (p : Port) (f : PortSt → PortSt) : (s.modPort p f).ingestQ = s.ingestQ := by cases p <;> rfl
@[simp] theorem State.modPort_ingestLast (s : State) (p : Port) (f : PortSt → PortSt) : (s.modPort p f).ingestLast = s.ingestLast := by cases p <;> rfl
@[simp] theorem State.modPort_passes (s : State) (p : Port) (f : PortSt → PortSt) : (s.modPort p f).passes = s.passes := by cases p <;> rfl
@[simp] theorem State.modPort_building (s : State) (p : Port) (f : PortSt → PortSt) : (s.modPort p f).building = s.building := by cases p <;> rfl
@[simp] theorem State.modPort_tableUnits (s : State) (p : Port) (f : PortSt → PortSt) : (s.modPort p f).tableUnits = s.tableUnits := by cases p <;> rfl
@[simp] theorem State.modPort_xcOrder (s : State) (p : Port) (f : PortSt → PortSt) : (s.modPort p f).xcOrder = s.xcOrder := by cases p <;> rfl
@[simp] theorem State.modPort_links (s : State) (p : Port) (f : PortSt → PortSt) : (s.modPort p f).links = s.links := by cases p <;> rfl
@[simp] theorem State.modPort_route (s : State) (p : Port) (f : PortSt → PortSt) : (s.modPort p f).route = s.route := by cases p <;> rfl
@[simp] theorem State.modPort_spans (s : State) (p : Port) (f : PortSt → PortSt) : (s.modPort p f).spans = s.spans := by cases p <;> rfl
@[simp] theorem State.modPort_tickGroup (s : State) (p : Port) (f : PortSt → PortSt) : (s.modPort p f).tickGroup = s.tickGroup := by cases p <;> rfl
@[simp] theorem State.modPort_ctr (s : State) (p : Port) (f : PortSt → PortSt) : (s.modPort p f).ctr = s.ctr := by cases p <;> rfl
@[simp] theorem State.modPort_ream (s : State) (p : Port) (f : PortSt → PortSt) : (s.modPort p f).ream = s.ream := by cases p <;> rfl
@[simp] theorem State.modPort_pcStorm (s : State) (p : Port) (f : PortSt → PortSt) : (s.modPort p f).pcStorm = s.pcStorm := by cases p <;> rfl
@[simp] theorem State.modPort_pcTag (s : State) (p : Port) (f : PortSt → PortSt) : (s.modPort p f).pcTag = s.pcTag := by cases p <;> rfl
@[simp] theorem State.modPort_stests (s : State) (p : Port) (f : PortSt → PortSt) : (s.modPort p f).stests = s.stests := by cases p <;> rfl
@[simp] theorem State.modPort_modTest (s : State) (p : Port) (f : PortSt → PortSt) : (s.modPort p f).modTest = s.modTest := by cases p <;> rfl
@[simp] theorem State.modPort_freeCtr (s : State) (p : Port) (f : PortSt → PortSt) : (s.modPort p f).freeCtr = s.freeCtr := by cases p <;> rfl
@[simp] theorem State.modPort_out (s : State) (p : Port) (f : PortSt → PortSt) : (s.modPort p f).out = s.out := by cases p <;> rfl
@[simp] theorem State.modPort_pending (s : State) (p : Port) (f : PortSt → PortSt) : (s.modPort p f).pending = s.pending := by cases p <;> rfl

/-! ### `setRing` -/

@[simp] theorem State.setRing_pins (s : State) (p : Port) (r : Nat) (x : Ring) : (s.setRing p r x).pins = s.pins := by cases p <;> rfl
@[simp] theorem State.setRing_clk (s : State) (p : Port) (r : Nat) (x : Ring) : (s.setRing p r x).clk = s.clk := by cases p <;> rfl
@[simp] theorem State.setRing_mills (s : State) (p : Port) (r : Nat) (x : Ring) : (s.setRing p r x).mills = s.mills := by cases p <;> rfl
@[simp] theorem State.setRing_hbms (s : State) (p : Port) (r : Nat) (x : Ring) : (s.setRing p r x).hbms = s.hbms := by cases p <;> rfl
@[simp] theorem State.setRing_boot (s : State) (p : Port) (r : Nat) (x : Ring) : (s.setRing p r x).boot = s.boot := by cases p <;> rfl
@[simp] theorem State.setRing_sec (s : State) (p : Port) (r : Nat) (x : Ring) : (s.setRing p r x).sec = s.sec := by cases p <;> rfl
@[simp] theorem State.setRing_grade (s : State) (p : Port) (r : Nat) (x : Ring) : (s.setRing p r x).grade = s.grade := by cases p <;> rfl
@[simp] theorem State.setRing_ready (s : State) (p : Port) (r : Nat) (x : Ring) : (s.setRing p r x).ready = s.ready := by cases p <;> rfl
@[simp] theorem State.setRing_eeprom (s : State) (p : Port) (r : Nat) (x : Ring) : (s.setRing p r x).eeprom = s.eeprom := by cases p <;> rfl
@[simp] theorem State.setRing_period (s : State) (p : Port) (r : Nat) (x : Ring) : (s.setRing p r x).period = s.period := by cases p <;> rfl
@[simp] theorem State.setRing_periodNext (s : State) (p : Port) (r : Nat) (x : Ring) : (s.setRing p r x).periodNext = s.periodNext := by cases p <;> rfl
@[simp] theorem State.setRing_periodSet (s : State) (p : Port) (r : Nat) (x : Ring) : (s.setRing p r x).periodSet = s.periodSet := by cases p <;> rfl
@[simp] theorem State.setRing_reamLen (s : State) (p : Port) (r : Nat) (x : Ring) : (s.setRing p r x).reamLen = s.reamLen := by cases p <;> rfl
@[simp] theorem State.setRing_reamNext (s : State) (p : Port) (r : Nat) (x : Ring) : (s.setRing p r x).reamNext = s.reamNext := by cases p <;> rfl
@[simp] theorem State.setRing_sheetInReam (s : State) (p : Port) (r : Nat) (x : Ring) : (s.setRing p r x).sheetInReam = s.sheetInReam := by cases p <;> rfl
@[simp] theorem State.setRing_boundary (s : State) (p : Port) (r : Nat) (x : Ring) : (s.setRing p r x).boundary = s.boundary := by cases p <;> rfl
@[simp] theorem State.setRing_reamOn (s : State) (p : Port) (r : Nat) (x : Ring) : (s.setRing p r x).reamOn = s.reamOn := by cases p <;> rfl
@[simp] theorem State.setRing_ticking (s : State) (p : Port) (r : Nat) (x : Ring) : (s.setRing p r x).ticking = s.ticking := by cases p <;> rfl
@[simp] theorem State.setRing_tick (s : State) (p : Port) (r : Nat) (x : Ring) : (s.setRing p r x).tick = s.tick := by cases p <;> rfl
@[simp] theorem State.setRing_reams (s : State) (p : Port) (r : Nat) (x : Ring) : (s.setRing p r x).reams = s.reams := by cases p <;> rfl
@[simp] theorem State.setRing_timeoutMs (s : State) (p : Port) (r : Nat) (x : Ring) : (s.setRing p r x).timeoutMs = s.timeoutMs := by cases p <;> rfl
@[simp] theorem State.setRing_selftestHours (s : State) (p : Port) (r : Nat) (x : Ring) : (s.setRing p r x).selftestHours = s.selftestHours := by cases p <;> rfl
@[simp] theorem State.setRing_admitA (s : State) (p : Port) (r : Nat) (x : Ring) : (s.setRing p r x).admitA = s.admitA := by cases p <;> rfl
@[simp] theorem State.setRing_admitB (s : State) (p : Port) (r : Nat) (x : Ring) : (s.setRing p r x).admitB = s.admitB := by cases p <;> rfl
@[simp] theorem State.setRing_quotaJobs (s : State) (p : Port) (r : Nat) (x : Ring) : (s.setRing p r x).quotaJobs = s.quotaJobs := by cases p <;> rfl
@[simp] theorem State.setRing_quotaCores (s : State) (p : Port) (r : Nat) (x : Ring) : (s.setRing p r x).quotaCores = s.quotaCores := by cases p <;> rfl
@[simp] theorem State.setRing_adminPort (s : State) (p : Port) (r : Nat) (x : Ring) : (s.setRing p r x).adminPort = s.adminPort := by cases p <;> rfl
@[simp] theorem State.setRing_admissions (s : State) (p : Port) (r : Nat) (x : Ring) : (s.setRing p r x).admissions = s.admissions := by cases p <;> rfl
@[simp] theorem State.setRing_jobs (s : State) (p : Port) (r : Nat) (x : Ring) : (s.setRing p r x).jobs = s.jobs := by cases p <;> rfl
@[simp] theorem State.setRing_cores (s : State) (p : Port) (r : Nat) (x : Ring) : (s.setRing p r x).cores = s.cores := by cases p <;> rfl
@[simp] theorem State.setRing_groups (s : State) (p : Port) (r : Nat) (x : Ring) : (s.setRing p r x).groups = s.groups := by cases p <;> rfl
@[simp] theorem State.setRing_sparesUsed (s : State) (p : Port) (r : Nat) (x : Ring) : (s.setRing p r x).sparesUsed = s.sparesUsed := by cases p <;> rfl
@[simp] theorem State.setRing_units (s : State) (p : Port) (r : Nat) (x : Ring) : (s.setRing p r x).units = s.units := by cases p <;> rfl
@[simp] theorem State.setRing_sram (s : State) (p : Port) (r : Nat) (x : Ring) : (s.setRing p r x).sram = s.sram := by cases p <;> rfl
@[simp] theorem State.setRing_hbm (s : State) (p : Port) (r : Nat) (x : Ring) : (s.setRing p r x).hbm = s.hbm := by cases p <;> rfl
@[simp] theorem State.setRing_hbmTag (s : State) (p : Port) (r : Nat) (x : Ring) : (s.setRing p r x).hbmTag = s.hbmTag := by cases p <;> rfl
@[simp] theorem State.setRing_headboxes (s : State) (p : Port) (r : Nat) (x : Ring) : (s.setRing p r x).headboxes = s.headboxes := by cases p <;> rfl
@[simp] theorem State.setRing_ingest (s : State) (p : Port) (r : Nat) (x : Ring) : (s.setRing p r x).ingest = s.ingest := by cases p <;> rfl
@[simp] theorem State.setRing_ingestQ (s : State) (p : Port) (r : Nat) (x : Ring) : (s.setRing p r x).ingestQ = s.ingestQ := by cases p <;> rfl
@[simp] theorem State.setRing_ingestLast (s : State) (p : Port) (r : Nat) (x : Ring) : (s.setRing p r x).ingestLast = s.ingestLast := by cases p <;> rfl
@[simp] theorem State.setRing_passes (s : State) (p : Port) (r : Nat) (x : Ring) : (s.setRing p r x).passes = s.passes := by cases p <;> rfl
@[simp] theorem State.setRing_building (s : State) (p : Port) (r : Nat) (x : Ring) : (s.setRing p r x).building = s.building := by cases p <;> rfl
@[simp] theorem State.setRing_tableUnits (s : State) (p : Port) (r : Nat) (x : Ring) : (s.setRing p r x).tableUnits = s.tableUnits := by cases p <;> rfl
@[simp] theorem State.setRing_xcOrder (s : State) (p : Port) (r : Nat) (x : Ring) : (s.setRing p r x).xcOrder = s.xcOrder := by cases p <;> rfl
@[simp] theorem State.setRing_links (s : State) (p : Port) (r : Nat) (x : Ring) : (s.setRing p r x).links = s.links := by cases p <;> rfl
@[simp] theorem State.setRing_route (s : State) (p : Port) (r : Nat) (x : Ring) : (s.setRing p r x).route = s.route := by cases p <;> rfl
@[simp] theorem State.setRing_spans (s : State) (p : Port) (r : Nat) (x : Ring) : (s.setRing p r x).spans = s.spans := by cases p <;> rfl
@[simp] theorem State.setRing_tickGroup (s : State) (p : Port) (r : Nat) (x : Ring) : (s.setRing p r x).tickGroup = s.tickGroup := by cases p <;> rfl
@[simp] theorem State.setRing_ctr (s : State) (p : Port) (r : Nat) (x : Ring) : (s.setRing p r x).ctr = s.ctr := by cases p <;> rfl
@[simp] theorem State.setRing_ream (s : State) (p : Port) (r : Nat) (x : Ring) : (s.setRing p r x).ream = s.ream := by cases p <;> rfl
@[simp] theorem State.setRing_pcStorm (s : State) (p : Port) (r : Nat) (x : Ring) : (s.setRing p r x).pcStorm = s.pcStorm := by cases p <;> rfl
@[simp] theorem State.setRing_pcTag (s : State) (p : Port) (r : Nat) (x : Ring) : (s.setRing p r x).pcTag = s.pcTag := by cases p <;> rfl
@[simp] theorem State.setRing_stests (s : State) (p : Port) (r : Nat) (x : Ring) : (s.setRing p r x).stests = s.stests := by cases p <;> rfl
@[simp] theorem State.setRing_modTest (s : State) (p : Port) (r : Nat) (x : Ring) : (s.setRing p r x).modTest = s.modTest := by cases p <;> rfl
@[simp] theorem State.setRing_freeCtr (s : State) (p : Port) (r : Nat) (x : Ring) : (s.setRing p r x).freeCtr = s.freeCtr := by cases p <;> rfl
@[simp] theorem State.setRing_out (s : State) (p : Port) (r : Nat) (x : Ring) : (s.setRing p r x).out = s.out := by cases p <;> rfl
@[simp] theorem State.setRing_pending (s : State) (p : Port) (r : Nat) (x : Ring) : (s.setRing p r x).pending = s.pending := by cases p <;> rfl

/-! ### `setJob` -/

@[simp] theorem State.setJob_pins (s : State) (j : Nat) (x : Option Job) : (s.setJob j x).pins = s.pins := rfl
@[simp] theorem State.setJob_clk (s : State) (j : Nat) (x : Option Job) : (s.setJob j x).clk = s.clk := rfl
@[simp] theorem State.setJob_mills (s : State) (j : Nat) (x : Option Job) : (s.setJob j x).mills = s.mills := rfl
@[simp] theorem State.setJob_hbms (s : State) (j : Nat) (x : Option Job) : (s.setJob j x).hbms = s.hbms := rfl
@[simp] theorem State.setJob_boot (s : State) (j : Nat) (x : Option Job) : (s.setJob j x).boot = s.boot := rfl
@[simp] theorem State.setJob_sec (s : State) (j : Nat) (x : Option Job) : (s.setJob j x).sec = s.sec := rfl
@[simp] theorem State.setJob_grade (s : State) (j : Nat) (x : Option Job) : (s.setJob j x).grade = s.grade := rfl
@[simp] theorem State.setJob_ready (s : State) (j : Nat) (x : Option Job) : (s.setJob j x).ready = s.ready := rfl
@[simp] theorem State.setJob_portA (s : State) (j : Nat) (x : Option Job) : (s.setJob j x).portA = s.portA := rfl
@[simp] theorem State.setJob_portB (s : State) (j : Nat) (x : Option Job) : (s.setJob j x).portB = s.portB := rfl
@[simp] theorem State.setJob_eeprom (s : State) (j : Nat) (x : Option Job) : (s.setJob j x).eeprom = s.eeprom := rfl
@[simp] theorem State.setJob_period (s : State) (j : Nat) (x : Option Job) : (s.setJob j x).period = s.period := rfl
@[simp] theorem State.setJob_periodNext (s : State) (j : Nat) (x : Option Job) : (s.setJob j x).periodNext = s.periodNext := rfl
@[simp] theorem State.setJob_periodSet (s : State) (j : Nat) (x : Option Job) : (s.setJob j x).periodSet = s.periodSet := rfl
@[simp] theorem State.setJob_reamLen (s : State) (j : Nat) (x : Option Job) : (s.setJob j x).reamLen = s.reamLen := rfl
@[simp] theorem State.setJob_reamNext (s : State) (j : Nat) (x : Option Job) : (s.setJob j x).reamNext = s.reamNext := rfl
@[simp] theorem State.setJob_sheetInReam (s : State) (j : Nat) (x : Option Job) : (s.setJob j x).sheetInReam = s.sheetInReam := rfl
@[simp] theorem State.setJob_boundary (s : State) (j : Nat) (x : Option Job) : (s.setJob j x).boundary = s.boundary := rfl
@[simp] theorem State.setJob_reamOn (s : State) (j : Nat) (x : Option Job) : (s.setJob j x).reamOn = s.reamOn := rfl
@[simp] theorem State.setJob_ticking (s : State) (j : Nat) (x : Option Job) : (s.setJob j x).ticking = s.ticking := rfl
@[simp] theorem State.setJob_tick (s : State) (j : Nat) (x : Option Job) : (s.setJob j x).tick = s.tick := rfl
@[simp] theorem State.setJob_reams (s : State) (j : Nat) (x : Option Job) : (s.setJob j x).reams = s.reams := rfl
@[simp] theorem State.setJob_timeoutMs (s : State) (j : Nat) (x : Option Job) : (s.setJob j x).timeoutMs = s.timeoutMs := rfl
@[simp] theorem State.setJob_selftestHours (s : State) (j : Nat) (x : Option Job) : (s.setJob j x).selftestHours = s.selftestHours := rfl
@[simp] theorem State.setJob_admitA (s : State) (j : Nat) (x : Option Job) : (s.setJob j x).admitA = s.admitA := rfl
@[simp] theorem State.setJob_admitB (s : State) (j : Nat) (x : Option Job) : (s.setJob j x).admitB = s.admitB := rfl
@[simp] theorem State.setJob_quotaJobs (s : State) (j : Nat) (x : Option Job) : (s.setJob j x).quotaJobs = s.quotaJobs := rfl
@[simp] theorem State.setJob_quotaCores (s : State) (j : Nat) (x : Option Job) : (s.setJob j x).quotaCores = s.quotaCores := rfl
@[simp] theorem State.setJob_adminPort (s : State) (j : Nat) (x : Option Job) : (s.setJob j x).adminPort = s.adminPort := rfl
@[simp] theorem State.setJob_admissions (s : State) (j : Nat) (x : Option Job) : (s.setJob j x).admissions = s.admissions := rfl
@[simp] theorem State.setJob_cores (s : State) (j : Nat) (x : Option Job) : (s.setJob j x).cores = s.cores := rfl
@[simp] theorem State.setJob_groups (s : State) (j : Nat) (x : Option Job) : (s.setJob j x).groups = s.groups := rfl
@[simp] theorem State.setJob_sparesUsed (s : State) (j : Nat) (x : Option Job) : (s.setJob j x).sparesUsed = s.sparesUsed := rfl
@[simp] theorem State.setJob_units (s : State) (j : Nat) (x : Option Job) : (s.setJob j x).units = s.units := rfl
@[simp] theorem State.setJob_sram (s : State) (j : Nat) (x : Option Job) : (s.setJob j x).sram = s.sram := rfl
@[simp] theorem State.setJob_hbm (s : State) (j : Nat) (x : Option Job) : (s.setJob j x).hbm = s.hbm := rfl
@[simp] theorem State.setJob_hbmTag (s : State) (j : Nat) (x : Option Job) : (s.setJob j x).hbmTag = s.hbmTag := rfl
@[simp] theorem State.setJob_headboxes (s : State) (j : Nat) (x : Option Job) : (s.setJob j x).headboxes = s.headboxes := rfl
@[simp] theorem State.setJob_ingest (s : State) (j : Nat) (x : Option Job) : (s.setJob j x).ingest = s.ingest := rfl
@[simp] theorem State.setJob_ingestQ (s : State) (j : Nat) (x : Option Job) : (s.setJob j x).ingestQ = s.ingestQ := rfl
@[simp] theorem State.setJob_ingestLast (s : State) (j : Nat) (x : Option Job) : (s.setJob j x).ingestLast = s.ingestLast := rfl
@[simp] theorem State.setJob_passes (s : State) (j : Nat) (x : Option Job) : (s.setJob j x).passes = s.passes := rfl
@[simp] theorem State.setJob_building (s : State) (j : Nat) (x : Option Job) : (s.setJob j x).building = s.building := rfl
@[simp] theorem State.setJob_tableUnits (s : State) (j : Nat) (x : Option Job) : (s.setJob j x).tableUnits = s.tableUnits := rfl
@[simp] theorem State.setJob_xcOrder (s : State) (j : Nat) (x : Option Job) : (s.setJob j x).xcOrder = s.xcOrder := rfl
@[simp] theorem State.setJob_links (s : State) (j : Nat) (x : Option Job) : (s.setJob j x).links = s.links := rfl
@[simp] theorem State.setJob_route (s : State) (j : Nat) (x : Option Job) : (s.setJob j x).route = s.route := rfl
@[simp] theorem State.setJob_spans (s : State) (j : Nat) (x : Option Job) : (s.setJob j x).spans = s.spans := rfl
@[simp] theorem State.setJob_tickGroup (s : State) (j : Nat) (x : Option Job) : (s.setJob j x).tickGroup = s.tickGroup := rfl
@[simp] theorem State.setJob_ctr (s : State) (j : Nat) (x : Option Job) : (s.setJob j x).ctr = s.ctr := rfl
@[simp] theorem State.setJob_ream (s : State) (j : Nat) (x : Option Job) : (s.setJob j x).ream = s.ream := rfl
@[simp] theorem State.setJob_pcStorm (s : State) (j : Nat) (x : Option Job) : (s.setJob j x).pcStorm = s.pcStorm := rfl
@[simp] theorem State.setJob_pcTag (s : State) (j : Nat) (x : Option Job) : (s.setJob j x).pcTag = s.pcTag := rfl
@[simp] theorem State.setJob_stests (s : State) (j : Nat) (x : Option Job) : (s.setJob j x).stests = s.stests := rfl
@[simp] theorem State.setJob_modTest (s : State) (j : Nat) (x : Option Job) : (s.setJob j x).modTest = s.modTest := rfl
@[simp] theorem State.setJob_freeCtr (s : State) (j : Nat) (x : Option Job) : (s.setJob j x).freeCtr = s.freeCtr := rfl
@[simp] theorem State.setJob_out (s : State) (j : Nat) (x : Option Job) : (s.setJob j x).out = s.out := rfl
@[simp] theorem State.setJob_pending (s : State) (j : Nat) (x : Option Job) : (s.setJob j x).pending = s.pending := rfl

/-! ### `modJob` -/

@[simp] theorem State.modJob_pins (s : State) (j : Nat) (f : Job → Job) : (s.modJob j f).pins = s.pins := by unfold State.modJob; split <;> rfl
@[simp] theorem State.modJob_clk (s : State) (j : Nat) (f : Job → Job) : (s.modJob j f).clk = s.clk := by unfold State.modJob; split <;> rfl
@[simp] theorem State.modJob_mills (s : State) (j : Nat) (f : Job → Job) : (s.modJob j f).mills = s.mills := by unfold State.modJob; split <;> rfl
@[simp] theorem State.modJob_hbms (s : State) (j : Nat) (f : Job → Job) : (s.modJob j f).hbms = s.hbms := by unfold State.modJob; split <;> rfl
@[simp] theorem State.modJob_boot (s : State) (j : Nat) (f : Job → Job) : (s.modJob j f).boot = s.boot := by unfold State.modJob; split <;> rfl
@[simp] theorem State.modJob_sec (s : State) (j : Nat) (f : Job → Job) : (s.modJob j f).sec = s.sec := by unfold State.modJob; split <;> rfl
@[simp] theorem State.modJob_grade (s : State) (j : Nat) (f : Job → Job) : (s.modJob j f).grade = s.grade := by unfold State.modJob; split <;> rfl
@[simp] theorem State.modJob_ready (s : State) (j : Nat) (f : Job → Job) : (s.modJob j f).ready = s.ready := by unfold State.modJob; split <;> rfl
@[simp] theorem State.modJob_portA (s : State) (j : Nat) (f : Job → Job) : (s.modJob j f).portA = s.portA := by unfold State.modJob; split <;> rfl
@[simp] theorem State.modJob_portB (s : State) (j : Nat) (f : Job → Job) : (s.modJob j f).portB = s.portB := by unfold State.modJob; split <;> rfl
@[simp] theorem State.modJob_eeprom (s : State) (j : Nat) (f : Job → Job) : (s.modJob j f).eeprom = s.eeprom := by unfold State.modJob; split <;> rfl
@[simp] theorem State.modJob_period (s : State) (j : Nat) (f : Job → Job) : (s.modJob j f).period = s.period := by unfold State.modJob; split <;> rfl
@[simp] theorem State.modJob_periodNext (s : State) (j : Nat) (f : Job → Job) : (s.modJob j f).periodNext = s.periodNext := by unfold State.modJob; split <;> rfl
@[simp] theorem State.modJob_periodSet (s : State) (j : Nat) (f : Job → Job) : (s.modJob j f).periodSet = s.periodSet := by unfold State.modJob; split <;> rfl
@[simp] theorem State.modJob_reamLen (s : State) (j : Nat) (f : Job → Job) : (s.modJob j f).reamLen = s.reamLen := by unfold State.modJob; split <;> rfl
@[simp] theorem State.modJob_reamNext (s : State) (j : Nat) (f : Job → Job) : (s.modJob j f).reamNext = s.reamNext := by unfold State.modJob; split <;> rfl
@[simp] theorem State.modJob_sheetInReam (s : State) (j : Nat) (f : Job → Job) : (s.modJob j f).sheetInReam = s.sheetInReam := by unfold State.modJob; split <;> rfl
@[simp] theorem State.modJob_boundary (s : State) (j : Nat) (f : Job → Job) : (s.modJob j f).boundary = s.boundary := by unfold State.modJob; split <;> rfl
@[simp] theorem State.modJob_reamOn (s : State) (j : Nat) (f : Job → Job) : (s.modJob j f).reamOn = s.reamOn := by unfold State.modJob; split <;> rfl
@[simp] theorem State.modJob_ticking (s : State) (j : Nat) (f : Job → Job) : (s.modJob j f).ticking = s.ticking := by unfold State.modJob; split <;> rfl
@[simp] theorem State.modJob_tick (s : State) (j : Nat) (f : Job → Job) : (s.modJob j f).tick = s.tick := by unfold State.modJob; split <;> rfl
@[simp] theorem State.modJob_reams (s : State) (j : Nat) (f : Job → Job) : (s.modJob j f).reams = s.reams := by unfold State.modJob; split <;> rfl
@[simp] theorem State.modJob_timeoutMs (s : State) (j : Nat) (f : Job → Job) : (s.modJob j f).timeoutMs = s.timeoutMs := by unfold State.modJob; split <;> rfl
@[simp] theorem State.modJob_selftestHours (s : State) (j : Nat) (f : Job → Job) : (s.modJob j f).selftestHours = s.selftestHours := by unfold State.modJob; split <;> rfl
@[simp] theorem State.modJob_admitA (s : State) (j : Nat) (f : Job → Job) : (s.modJob j f).admitA = s.admitA := by unfold State.modJob; split <;> rfl
@[simp] theorem State.modJob_admitB (s : State) (j : Nat) (f : Job → Job) : (s.modJob j f).admitB = s.admitB := by unfold State.modJob; split <;> rfl
@[simp] theorem State.modJob_quotaJobs (s : State) (j : Nat) (f : Job → Job) : (s.modJob j f).quotaJobs = s.quotaJobs := by unfold State.modJob; split <;> rfl
@[simp] theorem State.modJob_quotaCores (s : State) (j : Nat) (f : Job → Job) : (s.modJob j f).quotaCores = s.quotaCores := by unfold State.modJob; split <;> rfl
@[simp] theorem State.modJob_adminPort (s : State) (j : Nat) (f : Job → Job) : (s.modJob j f).adminPort = s.adminPort := by unfold State.modJob; split <;> rfl
@[simp] theorem State.modJob_admissions (s : State) (j : Nat) (f : Job → Job) : (s.modJob j f).admissions = s.admissions := by unfold State.modJob; split <;> rfl
@[simp] theorem State.modJob_cores (s : State) (j : Nat) (f : Job → Job) : (s.modJob j f).cores = s.cores := by unfold State.modJob; split <;> rfl
@[simp] theorem State.modJob_groups (s : State) (j : Nat) (f : Job → Job) : (s.modJob j f).groups = s.groups := by unfold State.modJob; split <;> rfl
@[simp] theorem State.modJob_sparesUsed (s : State) (j : Nat) (f : Job → Job) : (s.modJob j f).sparesUsed = s.sparesUsed := by unfold State.modJob; split <;> rfl
@[simp] theorem State.modJob_units (s : State) (j : Nat) (f : Job → Job) : (s.modJob j f).units = s.units := by unfold State.modJob; split <;> rfl
@[simp] theorem State.modJob_sram (s : State) (j : Nat) (f : Job → Job) : (s.modJob j f).sram = s.sram := by unfold State.modJob; split <;> rfl
@[simp] theorem State.modJob_hbm (s : State) (j : Nat) (f : Job → Job) : (s.modJob j f).hbm = s.hbm := by unfold State.modJob; split <;> rfl
@[simp] theorem State.modJob_hbmTag (s : State) (j : Nat) (f : Job → Job) : (s.modJob j f).hbmTag = s.hbmTag := by unfold State.modJob; split <;> rfl
@[simp] theorem State.modJob_headboxes (s : State) (j : Nat) (f : Job → Job) : (s.modJob j f).headboxes = s.headboxes := by unfold State.modJob; split <;> rfl
@[simp] theorem State.modJob_ingest (s : State) (j : Nat) (f : Job → Job) : (s.modJob j f).ingest = s.ingest := by unfold State.modJob; split <;> rfl
@[simp] theorem State.modJob_ingestQ (s : State) (j : Nat) (f : Job → Job) : (s.modJob j f).ingestQ = s.ingestQ := by unfold State.modJob; split <;> rfl
@[simp] theorem State.modJob_ingestLast (s : State) (j : Nat) (f : Job → Job) : (s.modJob j f).ingestLast = s.ingestLast := by unfold State.modJob; split <;> rfl
@[simp] theorem State.modJob_passes (s : State) (j : Nat) (f : Job → Job) : (s.modJob j f).passes = s.passes := by unfold State.modJob; split <;> rfl
@[simp] theorem State.modJob_building (s : State) (j : Nat) (f : Job → Job) : (s.modJob j f).building = s.building := by unfold State.modJob; split <;> rfl
@[simp] theorem State.modJob_tableUnits (s : State) (j : Nat) (f : Job → Job) : (s.modJob j f).tableUnits = s.tableUnits := by unfold State.modJob; split <;> rfl
@[simp] theorem State.modJob_xcOrder (s : State) (j : Nat) (f : Job → Job) : (s.modJob j f).xcOrder = s.xcOrder := by unfold State.modJob; split <;> rfl
@[simp] theorem State.modJob_links (s : State) (j : Nat) (f : Job → Job) : (s.modJob j f).links = s.links := by unfold State.modJob; split <;> rfl
@[simp] theorem State.modJob_route (s : State) (j : Nat) (f : Job → Job) : (s.modJob j f).route = s.route := by unfold State.modJob; split <;> rfl
@[simp] theorem State.modJob_spans (s : State) (j : Nat) (f : Job → Job) : (s.modJob j f).spans = s.spans := by unfold State.modJob; split <;> rfl
@[simp] theorem State.modJob_tickGroup (s : State) (j : Nat) (f : Job → Job) : (s.modJob j f).tickGroup = s.tickGroup := by unfold State.modJob; split <;> rfl
@[simp] theorem State.modJob_ctr (s : State) (j : Nat) (f : Job → Job) : (s.modJob j f).ctr = s.ctr := by unfold State.modJob; split <;> rfl
@[simp] theorem State.modJob_ream (s : State) (j : Nat) (f : Job → Job) : (s.modJob j f).ream = s.ream := by unfold State.modJob; split <;> rfl
@[simp] theorem State.modJob_pcStorm (s : State) (j : Nat) (f : Job → Job) : (s.modJob j f).pcStorm = s.pcStorm := by unfold State.modJob; split <;> rfl
@[simp] theorem State.modJob_pcTag (s : State) (j : Nat) (f : Job → Job) : (s.modJob j f).pcTag = s.pcTag := by unfold State.modJob; split <;> rfl
@[simp] theorem State.modJob_stests (s : State) (j : Nat) (f : Job → Job) : (s.modJob j f).stests = s.stests := by unfold State.modJob; split <;> rfl
@[simp] theorem State.modJob_modTest (s : State) (j : Nat) (f : Job → Job) : (s.modJob j f).modTest = s.modTest := by unfold State.modJob; split <;> rfl
@[simp] theorem State.modJob_freeCtr (s : State) (j : Nat) (f : Job → Job) : (s.modJob j f).freeCtr = s.freeCtr := by unfold State.modJob; split <;> rfl
@[simp] theorem State.modJob_out (s : State) (j : Nat) (f : Job → Job) : (s.modJob j f).out = s.out := by unfold State.modJob; split <;> rfl
@[simp] theorem State.modJob_pending (s : State) (j : Nat) (f : Job → Job) : (s.modJob j f).pending = s.pending := by unfold State.modJob; split <;> rfl

/-! ### `setCore` -/

@[simp] theorem State.setCore_pins (s : State) (n : Nat) (x : CoreSt) : (s.setCore n x).pins = s.pins := rfl
@[simp] theorem State.setCore_clk (s : State) (n : Nat) (x : CoreSt) : (s.setCore n x).clk = s.clk := rfl
@[simp] theorem State.setCore_mills (s : State) (n : Nat) (x : CoreSt) : (s.setCore n x).mills = s.mills := rfl
@[simp] theorem State.setCore_hbms (s : State) (n : Nat) (x : CoreSt) : (s.setCore n x).hbms = s.hbms := rfl
@[simp] theorem State.setCore_boot (s : State) (n : Nat) (x : CoreSt) : (s.setCore n x).boot = s.boot := rfl
@[simp] theorem State.setCore_sec (s : State) (n : Nat) (x : CoreSt) : (s.setCore n x).sec = s.sec := rfl
@[simp] theorem State.setCore_grade (s : State) (n : Nat) (x : CoreSt) : (s.setCore n x).grade = s.grade := rfl
@[simp] theorem State.setCore_ready (s : State) (n : Nat) (x : CoreSt) : (s.setCore n x).ready = s.ready := rfl
@[simp] theorem State.setCore_portA (s : State) (n : Nat) (x : CoreSt) : (s.setCore n x).portA = s.portA := rfl
@[simp] theorem State.setCore_portB (s : State) (n : Nat) (x : CoreSt) : (s.setCore n x).portB = s.portB := rfl
@[simp] theorem State.setCore_eeprom (s : State) (n : Nat) (x : CoreSt) : (s.setCore n x).eeprom = s.eeprom := rfl
@[simp] theorem State.setCore_period (s : State) (n : Nat) (x : CoreSt) : (s.setCore n x).period = s.period := rfl
@[simp] theorem State.setCore_periodNext (s : State) (n : Nat) (x : CoreSt) : (s.setCore n x).periodNext = s.periodNext := rfl
@[simp] theorem State.setCore_periodSet (s : State) (n : Nat) (x : CoreSt) : (s.setCore n x).periodSet = s.periodSet := rfl
@[simp] theorem State.setCore_reamLen (s : State) (n : Nat) (x : CoreSt) : (s.setCore n x).reamLen = s.reamLen := rfl
@[simp] theorem State.setCore_reamNext (s : State) (n : Nat) (x : CoreSt) : (s.setCore n x).reamNext = s.reamNext := rfl
@[simp] theorem State.setCore_sheetInReam (s : State) (n : Nat) (x : CoreSt) : (s.setCore n x).sheetInReam = s.sheetInReam := rfl
@[simp] theorem State.setCore_boundary (s : State) (n : Nat) (x : CoreSt) : (s.setCore n x).boundary = s.boundary := rfl
@[simp] theorem State.setCore_reamOn (s : State) (n : Nat) (x : CoreSt) : (s.setCore n x).reamOn = s.reamOn := rfl
@[simp] theorem State.setCore_ticking (s : State) (n : Nat) (x : CoreSt) : (s.setCore n x).ticking = s.ticking := rfl
@[simp] theorem State.setCore_tick (s : State) (n : Nat) (x : CoreSt) : (s.setCore n x).tick = s.tick := rfl
@[simp] theorem State.setCore_reams (s : State) (n : Nat) (x : CoreSt) : (s.setCore n x).reams = s.reams := rfl
@[simp] theorem State.setCore_timeoutMs (s : State) (n : Nat) (x : CoreSt) : (s.setCore n x).timeoutMs = s.timeoutMs := rfl
@[simp] theorem State.setCore_selftestHours (s : State) (n : Nat) (x : CoreSt) : (s.setCore n x).selftestHours = s.selftestHours := rfl
@[simp] theorem State.setCore_admitA (s : State) (n : Nat) (x : CoreSt) : (s.setCore n x).admitA = s.admitA := rfl
@[simp] theorem State.setCore_admitB (s : State) (n : Nat) (x : CoreSt) : (s.setCore n x).admitB = s.admitB := rfl
@[simp] theorem State.setCore_quotaJobs (s : State) (n : Nat) (x : CoreSt) : (s.setCore n x).quotaJobs = s.quotaJobs := rfl
@[simp] theorem State.setCore_quotaCores (s : State) (n : Nat) (x : CoreSt) : (s.setCore n x).quotaCores = s.quotaCores := rfl
@[simp] theorem State.setCore_adminPort (s : State) (n : Nat) (x : CoreSt) : (s.setCore n x).adminPort = s.adminPort := rfl
@[simp] theorem State.setCore_admissions (s : State) (n : Nat) (x : CoreSt) : (s.setCore n x).admissions = s.admissions := rfl
@[simp] theorem State.setCore_jobs (s : State) (n : Nat) (x : CoreSt) : (s.setCore n x).jobs = s.jobs := rfl
@[simp] theorem State.setCore_groups (s : State) (n : Nat) (x : CoreSt) : (s.setCore n x).groups = s.groups := rfl
@[simp] theorem State.setCore_sparesUsed (s : State) (n : Nat) (x : CoreSt) : (s.setCore n x).sparesUsed = s.sparesUsed := rfl
@[simp] theorem State.setCore_units (s : State) (n : Nat) (x : CoreSt) : (s.setCore n x).units = s.units := rfl
@[simp] theorem State.setCore_sram (s : State) (n : Nat) (x : CoreSt) : (s.setCore n x).sram = s.sram := rfl
@[simp] theorem State.setCore_hbm (s : State) (n : Nat) (x : CoreSt) : (s.setCore n x).hbm = s.hbm := rfl
@[simp] theorem State.setCore_hbmTag (s : State) (n : Nat) (x : CoreSt) : (s.setCore n x).hbmTag = s.hbmTag := rfl
@[simp] theorem State.setCore_headboxes (s : State) (n : Nat) (x : CoreSt) : (s.setCore n x).headboxes = s.headboxes := rfl
@[simp] theorem State.setCore_ingest (s : State) (n : Nat) (x : CoreSt) : (s.setCore n x).ingest = s.ingest := rfl
@[simp] theorem State.setCore_ingestQ (s : State) (n : Nat) (x : CoreSt) : (s.setCore n x).ingestQ = s.ingestQ := rfl
@[simp] theorem State.setCore_ingestLast (s : State) (n : Nat) (x : CoreSt) : (s.setCore n x).ingestLast = s.ingestLast := rfl
@[simp] theorem State.setCore_passes (s : State) (n : Nat) (x : CoreSt) : (s.setCore n x).passes = s.passes := rfl
@[simp] theorem State.setCore_building (s : State) (n : Nat) (x : CoreSt) : (s.setCore n x).building = s.building := rfl
@[simp] theorem State.setCore_tableUnits (s : State) (n : Nat) (x : CoreSt) : (s.setCore n x).tableUnits = s.tableUnits := rfl
@[simp] theorem State.setCore_xcOrder (s : State) (n : Nat) (x : CoreSt) : (s.setCore n x).xcOrder = s.xcOrder := rfl
@[simp] theorem State.setCore_links (s : State) (n : Nat) (x : CoreSt) : (s.setCore n x).links = s.links := rfl
@[simp] theorem State.setCore_route (s : State) (n : Nat) (x : CoreSt) : (s.setCore n x).route = s.route := rfl
@[simp] theorem State.setCore_spans (s : State) (n : Nat) (x : CoreSt) : (s.setCore n x).spans = s.spans := rfl
@[simp] theorem State.setCore_tickGroup (s : State) (n : Nat) (x : CoreSt) : (s.setCore n x).tickGroup = s.tickGroup := rfl
@[simp] theorem State.setCore_ctr (s : State) (n : Nat) (x : CoreSt) : (s.setCore n x).ctr = s.ctr := rfl
@[simp] theorem State.setCore_ream (s : State) (n : Nat) (x : CoreSt) : (s.setCore n x).ream = s.ream := rfl
@[simp] theorem State.setCore_pcStorm (s : State) (n : Nat) (x : CoreSt) : (s.setCore n x).pcStorm = s.pcStorm := rfl
@[simp] theorem State.setCore_pcTag (s : State) (n : Nat) (x : CoreSt) : (s.setCore n x).pcTag = s.pcTag := rfl
@[simp] theorem State.setCore_stests (s : State) (n : Nat) (x : CoreSt) : (s.setCore n x).stests = s.stests := rfl
@[simp] theorem State.setCore_modTest (s : State) (n : Nat) (x : CoreSt) : (s.setCore n x).modTest = s.modTest := rfl
@[simp] theorem State.setCore_freeCtr (s : State) (n : Nat) (x : CoreSt) : (s.setCore n x).freeCtr = s.freeCtr := rfl
@[simp] theorem State.setCore_out (s : State) (n : Nat) (x : CoreSt) : (s.setCore n x).out = s.out := rfl
@[simp] theorem State.setCore_pending (s : State) (n : Nat) (x : CoreSt) : (s.setCore n x).pending = s.pending := rfl

/-! ### `modCore` -/

@[simp] theorem State.modCore_pins (s : State) (n : Nat) (f : CoreSt → CoreSt) : (s.modCore n f).pins = s.pins := rfl
@[simp] theorem State.modCore_clk (s : State) (n : Nat) (f : CoreSt → CoreSt) : (s.modCore n f).clk = s.clk := rfl
@[simp] theorem State.modCore_mills (s : State) (n : Nat) (f : CoreSt → CoreSt) : (s.modCore n f).mills = s.mills := rfl
@[simp] theorem State.modCore_hbms (s : State) (n : Nat) (f : CoreSt → CoreSt) : (s.modCore n f).hbms = s.hbms := rfl
@[simp] theorem State.modCore_boot (s : State) (n : Nat) (f : CoreSt → CoreSt) : (s.modCore n f).boot = s.boot := rfl
@[simp] theorem State.modCore_sec (s : State) (n : Nat) (f : CoreSt → CoreSt) : (s.modCore n f).sec = s.sec := rfl
@[simp] theorem State.modCore_grade (s : State) (n : Nat) (f : CoreSt → CoreSt) : (s.modCore n f).grade = s.grade := rfl
@[simp] theorem State.modCore_ready (s : State) (n : Nat) (f : CoreSt → CoreSt) : (s.modCore n f).ready = s.ready := rfl
@[simp] theorem State.modCore_portA (s : State) (n : Nat) (f : CoreSt → CoreSt) : (s.modCore n f).portA = s.portA := rfl
@[simp] theorem State.modCore_portB (s : State) (n : Nat) (f : CoreSt → CoreSt) : (s.modCore n f).portB = s.portB := rfl
@[simp] theorem State.modCore_eeprom (s : State) (n : Nat) (f : CoreSt → CoreSt) : (s.modCore n f).eeprom = s.eeprom := rfl
@[simp] theorem State.modCore_period (s : State) (n : Nat) (f : CoreSt → CoreSt) : (s.modCore n f).period = s.period := rfl
@[simp] theorem State.modCore_periodNext (s : State) (n : Nat) (f : CoreSt → CoreSt) : (s.modCore n f).periodNext = s.periodNext := rfl
@[simp] theorem State.modCore_periodSet (s : State) (n : Nat) (f : CoreSt → CoreSt) : (s.modCore n f).periodSet = s.periodSet := rfl
@[simp] theorem State.modCore_reamLen (s : State) (n : Nat) (f : CoreSt → CoreSt) : (s.modCore n f).reamLen = s.reamLen := rfl
@[simp] theorem State.modCore_reamNext (s : State) (n : Nat) (f : CoreSt → CoreSt) : (s.modCore n f).reamNext = s.reamNext := rfl
@[simp] theorem State.modCore_sheetInReam (s : State) (n : Nat) (f : CoreSt → CoreSt) : (s.modCore n f).sheetInReam = s.sheetInReam := rfl
@[simp] theorem State.modCore_boundary (s : State) (n : Nat) (f : CoreSt → CoreSt) : (s.modCore n f).boundary = s.boundary := rfl
@[simp] theorem State.modCore_reamOn (s : State) (n : Nat) (f : CoreSt → CoreSt) : (s.modCore n f).reamOn = s.reamOn := rfl
@[simp] theorem State.modCore_ticking (s : State) (n : Nat) (f : CoreSt → CoreSt) : (s.modCore n f).ticking = s.ticking := rfl
@[simp] theorem State.modCore_tick (s : State) (n : Nat) (f : CoreSt → CoreSt) : (s.modCore n f).tick = s.tick := rfl
@[simp] theorem State.modCore_reams (s : State) (n : Nat) (f : CoreSt → CoreSt) : (s.modCore n f).reams = s.reams := rfl
@[simp] theorem State.modCore_timeoutMs (s : State) (n : Nat) (f : CoreSt → CoreSt) : (s.modCore n f).timeoutMs = s.timeoutMs := rfl
@[simp] theorem State.modCore_selftestHours (s : State) (n : Nat) (f : CoreSt → CoreSt) : (s.modCore n f).selftestHours = s.selftestHours := rfl
@[simp] theorem State.modCore_admitA (s : State) (n : Nat) (f : CoreSt → CoreSt) : (s.modCore n f).admitA = s.admitA := rfl
@[simp] theorem State.modCore_admitB (s : State) (n : Nat) (f : CoreSt → CoreSt) : (s.modCore n f).admitB = s.admitB := rfl
@[simp] theorem State.modCore_quotaJobs (s : State) (n : Nat) (f : CoreSt → CoreSt) : (s.modCore n f).quotaJobs = s.quotaJobs := rfl
@[simp] theorem State.modCore_quotaCores (s : State) (n : Nat) (f : CoreSt → CoreSt) : (s.modCore n f).quotaCores = s.quotaCores := rfl
@[simp] theorem State.modCore_adminPort (s : State) (n : Nat) (f : CoreSt → CoreSt) : (s.modCore n f).adminPort = s.adminPort := rfl
@[simp] theorem State.modCore_admissions (s : State) (n : Nat) (f : CoreSt → CoreSt) : (s.modCore n f).admissions = s.admissions := rfl
@[simp] theorem State.modCore_jobs (s : State) (n : Nat) (f : CoreSt → CoreSt) : (s.modCore n f).jobs = s.jobs := rfl
@[simp] theorem State.modCore_groups (s : State) (n : Nat) (f : CoreSt → CoreSt) : (s.modCore n f).groups = s.groups := rfl
@[simp] theorem State.modCore_sparesUsed (s : State) (n : Nat) (f : CoreSt → CoreSt) : (s.modCore n f).sparesUsed = s.sparesUsed := rfl
@[simp] theorem State.modCore_units (s : State) (n : Nat) (f : CoreSt → CoreSt) : (s.modCore n f).units = s.units := rfl
@[simp] theorem State.modCore_sram (s : State) (n : Nat) (f : CoreSt → CoreSt) : (s.modCore n f).sram = s.sram := rfl
@[simp] theorem State.modCore_hbm (s : State) (n : Nat) (f : CoreSt → CoreSt) : (s.modCore n f).hbm = s.hbm := rfl
@[simp] theorem State.modCore_hbmTag (s : State) (n : Nat) (f : CoreSt → CoreSt) : (s.modCore n f).hbmTag = s.hbmTag := rfl
@[simp] theorem State.modCore_headboxes (s : State) (n : Nat) (f : CoreSt → CoreSt) : (s.modCore n f).headboxes = s.headboxes := rfl
@[simp] theorem State.modCore_ingest (s : State) (n : Nat) (f : CoreSt → CoreSt) : (s.modCore n f).ingest = s.ingest := rfl
@[simp] theorem State.modCore_ingestQ (s : State) (n : Nat) (f : CoreSt → CoreSt) : (s.modCore n f).ingestQ = s.ingestQ := rfl
@[simp] theorem State.modCore_ingestLast (s : State) (n : Nat) (f : CoreSt → CoreSt) : (s.modCore n f).ingestLast = s.ingestLast := rfl
@[simp] theorem State.modCore_passes (s : State) (n : Nat) (f : CoreSt → CoreSt) : (s.modCore n f).passes = s.passes := rfl
@[simp] theorem State.modCore_building (s : State) (n : Nat) (f : CoreSt → CoreSt) : (s.modCore n f).building = s.building := rfl
@[simp] theorem State.modCore_tableUnits (s : State) (n : Nat) (f : CoreSt → CoreSt) : (s.modCore n f).tableUnits = s.tableUnits := rfl
@[simp] theorem State.modCore_xcOrder (s : State) (n : Nat) (f : CoreSt → CoreSt) : (s.modCore n f).xcOrder = s.xcOrder := rfl
@[simp] theorem State.modCore_links (s : State) (n : Nat) (f : CoreSt → CoreSt) : (s.modCore n f).links = s.links := rfl
@[simp] theorem State.modCore_route (s : State) (n : Nat) (f : CoreSt → CoreSt) : (s.modCore n f).route = s.route := rfl
@[simp] theorem State.modCore_spans (s : State) (n : Nat) (f : CoreSt → CoreSt) : (s.modCore n f).spans = s.spans := rfl
@[simp] theorem State.modCore_tickGroup (s : State) (n : Nat) (f : CoreSt → CoreSt) : (s.modCore n f).tickGroup = s.tickGroup := rfl
@[simp] theorem State.modCore_ctr (s : State) (n : Nat) (f : CoreSt → CoreSt) : (s.modCore n f).ctr = s.ctr := rfl
@[simp] theorem State.modCore_ream (s : State) (n : Nat) (f : CoreSt → CoreSt) : (s.modCore n f).ream = s.ream := rfl
@[simp] theorem State.modCore_pcStorm (s : State) (n : Nat) (f : CoreSt → CoreSt) : (s.modCore n f).pcStorm = s.pcStorm := rfl
@[simp] theorem State.modCore_pcTag (s : State) (n : Nat) (f : CoreSt → CoreSt) : (s.modCore n f).pcTag = s.pcTag := rfl
@[simp] theorem State.modCore_stests (s : State) (n : Nat) (f : CoreSt → CoreSt) : (s.modCore n f).stests = s.stests := rfl
@[simp] theorem State.modCore_modTest (s : State) (n : Nat) (f : CoreSt → CoreSt) : (s.modCore n f).modTest = s.modTest := rfl
@[simp] theorem State.modCore_freeCtr (s : State) (n : Nat) (f : CoreSt → CoreSt) : (s.modCore n f).freeCtr = s.freeCtr := rfl
@[simp] theorem State.modCore_out (s : State) (n : Nat) (f : CoreSt → CoreSt) : (s.modCore n f).out = s.out := rfl
@[simp] theorem State.modCore_pending (s : State) (n : Nat) (f : CoreSt → CoreSt) : (s.modCore n f).pending = s.pending := rfl

/-! ### `setMill` -/

@[simp] theorem State.setMill_pins (s : State) (m : Nat) (x : Mill) : (s.setMill m x).pins = s.pins := rfl
@[simp] theorem State.setMill_clk (s : State) (m : Nat) (x : Mill) : (s.setMill m x).clk = s.clk := rfl
@[simp] theorem State.setMill_hbms (s : State) (m : Nat) (x : Mill) : (s.setMill m x).hbms = s.hbms := rfl
@[simp] theorem State.setMill_boot (s : State) (m : Nat) (x : Mill) : (s.setMill m x).boot = s.boot := rfl
@[simp] theorem State.setMill_sec (s : State) (m : Nat) (x : Mill) : (s.setMill m x).sec = s.sec := rfl
@[simp] theorem State.setMill_grade (s : State) (m : Nat) (x : Mill) : (s.setMill m x).grade = s.grade := rfl
@[simp] theorem State.setMill_ready (s : State) (m : Nat) (x : Mill) : (s.setMill m x).ready = s.ready := rfl
@[simp] theorem State.setMill_portA (s : State) (m : Nat) (x : Mill) : (s.setMill m x).portA = s.portA := rfl
@[simp] theorem State.setMill_portB (s : State) (m : Nat) (x : Mill) : (s.setMill m x).portB = s.portB := rfl
@[simp] theorem State.setMill_eeprom (s : State) (m : Nat) (x : Mill) : (s.setMill m x).eeprom = s.eeprom := rfl
@[simp] theorem State.setMill_period (s : State) (m : Nat) (x : Mill) : (s.setMill m x).period = s.period := rfl
@[simp] theorem State.setMill_periodNext (s : State) (m : Nat) (x : Mill) : (s.setMill m x).periodNext = s.periodNext := rfl
@[simp] theorem State.setMill_periodSet (s : State) (m : Nat) (x : Mill) : (s.setMill m x).periodSet = s.periodSet := rfl
@[simp] theorem State.setMill_reamLen (s : State) (m : Nat) (x : Mill) : (s.setMill m x).reamLen = s.reamLen := rfl
@[simp] theorem State.setMill_reamNext (s : State) (m : Nat) (x : Mill) : (s.setMill m x).reamNext = s.reamNext := rfl
@[simp] theorem State.setMill_sheetInReam (s : State) (m : Nat) (x : Mill) : (s.setMill m x).sheetInReam = s.sheetInReam := rfl
@[simp] theorem State.setMill_boundary (s : State) (m : Nat) (x : Mill) : (s.setMill m x).boundary = s.boundary := rfl
@[simp] theorem State.setMill_reamOn (s : State) (m : Nat) (x : Mill) : (s.setMill m x).reamOn = s.reamOn := rfl
@[simp] theorem State.setMill_ticking (s : State) (m : Nat) (x : Mill) : (s.setMill m x).ticking = s.ticking := rfl
@[simp] theorem State.setMill_tick (s : State) (m : Nat) (x : Mill) : (s.setMill m x).tick = s.tick := rfl
@[simp] theorem State.setMill_reams (s : State) (m : Nat) (x : Mill) : (s.setMill m x).reams = s.reams := rfl
@[simp] theorem State.setMill_timeoutMs (s : State) (m : Nat) (x : Mill) : (s.setMill m x).timeoutMs = s.timeoutMs := rfl
@[simp] theorem State.setMill_selftestHours (s : State) (m : Nat) (x : Mill) : (s.setMill m x).selftestHours = s.selftestHours := rfl
@[simp] theorem State.setMill_admitA (s : State) (m : Nat) (x : Mill) : (s.setMill m x).admitA = s.admitA := rfl
@[simp] theorem State.setMill_admitB (s : State) (m : Nat) (x : Mill) : (s.setMill m x).admitB = s.admitB := rfl
@[simp] theorem State.setMill_quotaJobs (s : State) (m : Nat) (x : Mill) : (s.setMill m x).quotaJobs = s.quotaJobs := rfl
@[simp] theorem State.setMill_quotaCores (s : State) (m : Nat) (x : Mill) : (s.setMill m x).quotaCores = s.quotaCores := rfl
@[simp] theorem State.setMill_adminPort (s : State) (m : Nat) (x : Mill) : (s.setMill m x).adminPort = s.adminPort := rfl
@[simp] theorem State.setMill_admissions (s : State) (m : Nat) (x : Mill) : (s.setMill m x).admissions = s.admissions := rfl
@[simp] theorem State.setMill_jobs (s : State) (m : Nat) (x : Mill) : (s.setMill m x).jobs = s.jobs := rfl
@[simp] theorem State.setMill_cores (s : State) (m : Nat) (x : Mill) : (s.setMill m x).cores = s.cores := rfl
@[simp] theorem State.setMill_groups (s : State) (m : Nat) (x : Mill) : (s.setMill m x).groups = s.groups := rfl
@[simp] theorem State.setMill_sparesUsed (s : State) (m : Nat) (x : Mill) : (s.setMill m x).sparesUsed = s.sparesUsed := rfl
@[simp] theorem State.setMill_units (s : State) (m : Nat) (x : Mill) : (s.setMill m x).units = s.units := rfl
@[simp] theorem State.setMill_sram (s : State) (m : Nat) (x : Mill) : (s.setMill m x).sram = s.sram := rfl
@[simp] theorem State.setMill_hbm (s : State) (m : Nat) (x : Mill) : (s.setMill m x).hbm = s.hbm := rfl
@[simp] theorem State.setMill_hbmTag (s : State) (m : Nat) (x : Mill) : (s.setMill m x).hbmTag = s.hbmTag := rfl
@[simp] theorem State.setMill_headboxes (s : State) (m : Nat) (x : Mill) : (s.setMill m x).headboxes = s.headboxes := rfl
@[simp] theorem State.setMill_ingest (s : State) (m : Nat) (x : Mill) : (s.setMill m x).ingest = s.ingest := rfl
@[simp] theorem State.setMill_ingestQ (s : State) (m : Nat) (x : Mill) : (s.setMill m x).ingestQ = s.ingestQ := rfl
@[simp] theorem State.setMill_ingestLast (s : State) (m : Nat) (x : Mill) : (s.setMill m x).ingestLast = s.ingestLast := rfl
@[simp] theorem State.setMill_passes (s : State) (m : Nat) (x : Mill) : (s.setMill m x).passes = s.passes := rfl
@[simp] theorem State.setMill_building (s : State) (m : Nat) (x : Mill) : (s.setMill m x).building = s.building := rfl
@[simp] theorem State.setMill_tableUnits (s : State) (m : Nat) (x : Mill) : (s.setMill m x).tableUnits = s.tableUnits := rfl
@[simp] theorem State.setMill_xcOrder (s : State) (m : Nat) (x : Mill) : (s.setMill m x).xcOrder = s.xcOrder := rfl
@[simp] theorem State.setMill_links (s : State) (m : Nat) (x : Mill) : (s.setMill m x).links = s.links := rfl
@[simp] theorem State.setMill_route (s : State) (m : Nat) (x : Mill) : (s.setMill m x).route = s.route := rfl
@[simp] theorem State.setMill_spans (s : State) (m : Nat) (x : Mill) : (s.setMill m x).spans = s.spans := rfl
@[simp] theorem State.setMill_tickGroup (s : State) (m : Nat) (x : Mill) : (s.setMill m x).tickGroup = s.tickGroup := rfl
@[simp] theorem State.setMill_ctr (s : State) (m : Nat) (x : Mill) : (s.setMill m x).ctr = s.ctr := rfl
@[simp] theorem State.setMill_ream (s : State) (m : Nat) (x : Mill) : (s.setMill m x).ream = s.ream := rfl
@[simp] theorem State.setMill_pcStorm (s : State) (m : Nat) (x : Mill) : (s.setMill m x).pcStorm = s.pcStorm := rfl
@[simp] theorem State.setMill_pcTag (s : State) (m : Nat) (x : Mill) : (s.setMill m x).pcTag = s.pcTag := rfl
@[simp] theorem State.setMill_stests (s : State) (m : Nat) (x : Mill) : (s.setMill m x).stests = s.stests := rfl
@[simp] theorem State.setMill_modTest (s : State) (m : Nat) (x : Mill) : (s.setMill m x).modTest = s.modTest := rfl
@[simp] theorem State.setMill_freeCtr (s : State) (m : Nat) (x : Mill) : (s.setMill m x).freeCtr = s.freeCtr := rfl
@[simp] theorem State.setMill_out (s : State) (m : Nat) (x : Mill) : (s.setMill m x).out = s.out := rfl
@[simp] theorem State.setMill_pending (s : State) (m : Nat) (x : Mill) : (s.setMill m x).pending = s.pending := rfl

/-! ### `modMill` -/

@[simp] theorem State.modMill_pins (s : State) (m : Nat) (f : Mill → Mill) : (s.modMill m f).pins = s.pins := rfl
@[simp] theorem State.modMill_clk (s : State) (m : Nat) (f : Mill → Mill) : (s.modMill m f).clk = s.clk := rfl
@[simp] theorem State.modMill_hbms (s : State) (m : Nat) (f : Mill → Mill) : (s.modMill m f).hbms = s.hbms := rfl
@[simp] theorem State.modMill_boot (s : State) (m : Nat) (f : Mill → Mill) : (s.modMill m f).boot = s.boot := rfl
@[simp] theorem State.modMill_sec (s : State) (m : Nat) (f : Mill → Mill) : (s.modMill m f).sec = s.sec := rfl
@[simp] theorem State.modMill_grade (s : State) (m : Nat) (f : Mill → Mill) : (s.modMill m f).grade = s.grade := rfl
@[simp] theorem State.modMill_ready (s : State) (m : Nat) (f : Mill → Mill) : (s.modMill m f).ready = s.ready := rfl
@[simp] theorem State.modMill_portA (s : State) (m : Nat) (f : Mill → Mill) : (s.modMill m f).portA = s.portA := rfl
@[simp] theorem State.modMill_portB (s : State) (m : Nat) (f : Mill → Mill) : (s.modMill m f).portB = s.portB := rfl
@[simp] theorem State.modMill_eeprom (s : State) (m : Nat) (f : Mill → Mill) : (s.modMill m f).eeprom = s.eeprom := rfl
@[simp] theorem State.modMill_period (s : State) (m : Nat) (f : Mill → Mill) : (s.modMill m f).period = s.period := rfl
@[simp] theorem State.modMill_periodNext (s : State) (m : Nat) (f : Mill → Mill) : (s.modMill m f).periodNext = s.periodNext := rfl
@[simp] theorem State.modMill_periodSet (s : State) (m : Nat) (f : Mill → Mill) : (s.modMill m f).periodSet = s.periodSet := rfl
@[simp] theorem State.modMill_reamLen (s : State) (m : Nat) (f : Mill → Mill) : (s.modMill m f).reamLen = s.reamLen := rfl
@[simp] theorem State.modMill_reamNext (s : State) (m : Nat) (f : Mill → Mill) : (s.modMill m f).reamNext = s.reamNext := rfl
@[simp] theorem State.modMill_sheetInReam (s : State) (m : Nat) (f : Mill → Mill) : (s.modMill m f).sheetInReam = s.sheetInReam := rfl
@[simp] theorem State.modMill_boundary (s : State) (m : Nat) (f : Mill → Mill) : (s.modMill m f).boundary = s.boundary := rfl
@[simp] theorem State.modMill_reamOn (s : State) (m : Nat) (f : Mill → Mill) : (s.modMill m f).reamOn = s.reamOn := rfl
@[simp] theorem State.modMill_ticking (s : State) (m : Nat) (f : Mill → Mill) : (s.modMill m f).ticking = s.ticking := rfl
@[simp] theorem State.modMill_tick (s : State) (m : Nat) (f : Mill → Mill) : (s.modMill m f).tick = s.tick := rfl
@[simp] theorem State.modMill_reams (s : State) (m : Nat) (f : Mill → Mill) : (s.modMill m f).reams = s.reams := rfl
@[simp] theorem State.modMill_timeoutMs (s : State) (m : Nat) (f : Mill → Mill) : (s.modMill m f).timeoutMs = s.timeoutMs := rfl
@[simp] theorem State.modMill_selftestHours (s : State) (m : Nat) (f : Mill → Mill) : (s.modMill m f).selftestHours = s.selftestHours := rfl
@[simp] theorem State.modMill_admitA (s : State) (m : Nat) (f : Mill → Mill) : (s.modMill m f).admitA = s.admitA := rfl
@[simp] theorem State.modMill_admitB (s : State) (m : Nat) (f : Mill → Mill) : (s.modMill m f).admitB = s.admitB := rfl
@[simp] theorem State.modMill_quotaJobs (s : State) (m : Nat) (f : Mill → Mill) : (s.modMill m f).quotaJobs = s.quotaJobs := rfl
@[simp] theorem State.modMill_quotaCores (s : State) (m : Nat) (f : Mill → Mill) : (s.modMill m f).quotaCores = s.quotaCores := rfl
@[simp] theorem State.modMill_adminPort (s : State) (m : Nat) (f : Mill → Mill) : (s.modMill m f).adminPort = s.adminPort := rfl
@[simp] theorem State.modMill_admissions (s : State) (m : Nat) (f : Mill → Mill) : (s.modMill m f).admissions = s.admissions := rfl
@[simp] theorem State.modMill_jobs (s : State) (m : Nat) (f : Mill → Mill) : (s.modMill m f).jobs = s.jobs := rfl
@[simp] theorem State.modMill_cores (s : State) (m : Nat) (f : Mill → Mill) : (s.modMill m f).cores = s.cores := rfl
@[simp] theorem State.modMill_groups (s : State) (m : Nat) (f : Mill → Mill) : (s.modMill m f).groups = s.groups := rfl
@[simp] theorem State.modMill_sparesUsed (s : State) (m : Nat) (f : Mill → Mill) : (s.modMill m f).sparesUsed = s.sparesUsed := rfl
@[simp] theorem State.modMill_units (s : State) (m : Nat) (f : Mill → Mill) : (s.modMill m f).units = s.units := rfl
@[simp] theorem State.modMill_sram (s : State) (m : Nat) (f : Mill → Mill) : (s.modMill m f).sram = s.sram := rfl
@[simp] theorem State.modMill_hbm (s : State) (m : Nat) (f : Mill → Mill) : (s.modMill m f).hbm = s.hbm := rfl
@[simp] theorem State.modMill_hbmTag (s : State) (m : Nat) (f : Mill → Mill) : (s.modMill m f).hbmTag = s.hbmTag := rfl
@[simp] theorem State.modMill_headboxes (s : State) (m : Nat) (f : Mill → Mill) : (s.modMill m f).headboxes = s.headboxes := rfl
@[simp] theorem State.modMill_ingest (s : State) (m : Nat) (f : Mill → Mill) : (s.modMill m f).ingest = s.ingest := rfl
@[simp] theorem State.modMill_ingestQ (s : State) (m : Nat) (f : Mill → Mill) : (s.modMill m f).ingestQ = s.ingestQ := rfl
@[simp] theorem State.modMill_ingestLast (s : State) (m : Nat) (f : Mill → Mill) : (s.modMill m f).ingestLast = s.ingestLast := rfl
@[simp] theorem State.modMill_passes (s : State) (m : Nat) (f : Mill → Mill) : (s.modMill m f).passes = s.passes := rfl
@[simp] theorem State.modMill_building (s : State) (m : Nat) (f : Mill → Mill) : (s.modMill m f).building = s.building := rfl
@[simp] theorem State.modMill_tableUnits (s : State) (m : Nat) (f : Mill → Mill) : (s.modMill m f).tableUnits = s.tableUnits := rfl
@[simp] theorem State.modMill_xcOrder (s : State) (m : Nat) (f : Mill → Mill) : (s.modMill m f).xcOrder = s.xcOrder := rfl
@[simp] theorem State.modMill_links (s : State) (m : Nat) (f : Mill → Mill) : (s.modMill m f).links = s.links := rfl
@[simp] theorem State.modMill_route (s : State) (m : Nat) (f : Mill → Mill) : (s.modMill m f).route = s.route := rfl
@[simp] theorem State.modMill_spans (s : State) (m : Nat) (f : Mill → Mill) : (s.modMill m f).spans = s.spans := rfl
@[simp] theorem State.modMill_tickGroup (s : State) (m : Nat) (f : Mill → Mill) : (s.modMill m f).tickGroup = s.tickGroup := rfl
@[simp] theorem State.modMill_ctr (s : State) (m : Nat) (f : Mill → Mill) : (s.modMill m f).ctr = s.ctr := rfl
@[simp] theorem State.modMill_ream (s : State) (m : Nat) (f : Mill → Mill) : (s.modMill m f).ream = s.ream := rfl
@[simp] theorem State.modMill_pcStorm (s : State) (m : Nat) (f : Mill → Mill) : (s.modMill m f).pcStorm = s.pcStorm := rfl
@[simp] theorem State.modMill_pcTag (s : State) (m : Nat) (f : Mill → Mill) : (s.modMill m f).pcTag = s.pcTag := rfl
@[simp] theorem State.modMill_stests (s : State) (m : Nat) (f : Mill → Mill) : (s.modMill m f).stests = s.stests := rfl
@[simp] theorem State.modMill_modTest (s : State) (m : Nat) (f : Mill → Mill) : (s.modMill m f).modTest = s.modTest := rfl
@[simp] theorem State.modMill_freeCtr (s : State) (m : Nat) (f : Mill → Mill) : (s.modMill m f).freeCtr = s.freeCtr := rfl
@[simp] theorem State.modMill_out (s : State) (m : Nat) (f : Mill → Mill) : (s.modMill m f).out = s.out := rfl
@[simp] theorem State.modMill_pending (s : State) (m : Nat) (f : Mill → Mill) : (s.modMill m f).pending = s.pending := rfl

/-! ### `modStack` -/

@[simp] theorem State.modStack_pins (s : State) (k : Nat) (f : Stack → Stack) : (s.modStack k f).pins = s.pins := rfl
@[simp] theorem State.modStack_clk (s : State) (k : Nat) (f : Stack → Stack) : (s.modStack k f).clk = s.clk := rfl
@[simp] theorem State.modStack_mills (s : State) (k : Nat) (f : Stack → Stack) : (s.modStack k f).mills = s.mills := rfl
@[simp] theorem State.modStack_boot (s : State) (k : Nat) (f : Stack → Stack) : (s.modStack k f).boot = s.boot := rfl
@[simp] theorem State.modStack_sec (s : State) (k : Nat) (f : Stack → Stack) : (s.modStack k f).sec = s.sec := rfl
@[simp] theorem State.modStack_grade (s : State) (k : Nat) (f : Stack → Stack) : (s.modStack k f).grade = s.grade := rfl
@[simp] theorem State.modStack_ready (s : State) (k : Nat) (f : Stack → Stack) : (s.modStack k f).ready = s.ready := rfl
@[simp] theorem State.modStack_portA (s : State) (k : Nat) (f : Stack → Stack) : (s.modStack k f).portA = s.portA := rfl
@[simp] theorem State.modStack_portB (s : State) (k : Nat) (f : Stack → Stack) : (s.modStack k f).portB = s.portB := rfl
@[simp] theorem State.modStack_eeprom (s : State) (k : Nat) (f : Stack → Stack) : (s.modStack k f).eeprom = s.eeprom := rfl
@[simp] theorem State.modStack_period (s : State) (k : Nat) (f : Stack → Stack) : (s.modStack k f).period = s.period := rfl
@[simp] theorem State.modStack_periodNext (s : State) (k : Nat) (f : Stack → Stack) : (s.modStack k f).periodNext = s.periodNext := rfl
@[simp] theorem State.modStack_periodSet (s : State) (k : Nat) (f : Stack → Stack) : (s.modStack k f).periodSet = s.periodSet := rfl
@[simp] theorem State.modStack_reamLen (s : State) (k : Nat) (f : Stack → Stack) : (s.modStack k f).reamLen = s.reamLen := rfl
@[simp] theorem State.modStack_reamNext (s : State) (k : Nat) (f : Stack → Stack) : (s.modStack k f).reamNext = s.reamNext := rfl
@[simp] theorem State.modStack_sheetInReam (s : State) (k : Nat) (f : Stack → Stack) : (s.modStack k f).sheetInReam = s.sheetInReam := rfl
@[simp] theorem State.modStack_boundary (s : State) (k : Nat) (f : Stack → Stack) : (s.modStack k f).boundary = s.boundary := rfl
@[simp] theorem State.modStack_reamOn (s : State) (k : Nat) (f : Stack → Stack) : (s.modStack k f).reamOn = s.reamOn := rfl
@[simp] theorem State.modStack_ticking (s : State) (k : Nat) (f : Stack → Stack) : (s.modStack k f).ticking = s.ticking := rfl
@[simp] theorem State.modStack_tick (s : State) (k : Nat) (f : Stack → Stack) : (s.modStack k f).tick = s.tick := rfl
@[simp] theorem State.modStack_reams (s : State) (k : Nat) (f : Stack → Stack) : (s.modStack k f).reams = s.reams := rfl
@[simp] theorem State.modStack_timeoutMs (s : State) (k : Nat) (f : Stack → Stack) : (s.modStack k f).timeoutMs = s.timeoutMs := rfl
@[simp] theorem State.modStack_selftestHours (s : State) (k : Nat) (f : Stack → Stack) : (s.modStack k f).selftestHours = s.selftestHours := rfl
@[simp] theorem State.modStack_admitA (s : State) (k : Nat) (f : Stack → Stack) : (s.modStack k f).admitA = s.admitA := rfl
@[simp] theorem State.modStack_admitB (s : State) (k : Nat) (f : Stack → Stack) : (s.modStack k f).admitB = s.admitB := rfl
@[simp] theorem State.modStack_quotaJobs (s : State) (k : Nat) (f : Stack → Stack) : (s.modStack k f).quotaJobs = s.quotaJobs := rfl
@[simp] theorem State.modStack_quotaCores (s : State) (k : Nat) (f : Stack → Stack) : (s.modStack k f).quotaCores = s.quotaCores := rfl
@[simp] theorem State.modStack_adminPort (s : State) (k : Nat) (f : Stack → Stack) : (s.modStack k f).adminPort = s.adminPort := rfl
@[simp] theorem State.modStack_admissions (s : State) (k : Nat) (f : Stack → Stack) : (s.modStack k f).admissions = s.admissions := rfl
@[simp] theorem State.modStack_jobs (s : State) (k : Nat) (f : Stack → Stack) : (s.modStack k f).jobs = s.jobs := rfl
@[simp] theorem State.modStack_cores (s : State) (k : Nat) (f : Stack → Stack) : (s.modStack k f).cores = s.cores := rfl
@[simp] theorem State.modStack_groups (s : State) (k : Nat) (f : Stack → Stack) : (s.modStack k f).groups = s.groups := rfl
@[simp] theorem State.modStack_sparesUsed (s : State) (k : Nat) (f : Stack → Stack) : (s.modStack k f).sparesUsed = s.sparesUsed := rfl
@[simp] theorem State.modStack_units (s : State) (k : Nat) (f : Stack → Stack) : (s.modStack k f).units = s.units := rfl
@[simp] theorem State.modStack_sram (s : State) (k : Nat) (f : Stack → Stack) : (s.modStack k f).sram = s.sram := rfl
@[simp] theorem State.modStack_hbm (s : State) (k : Nat) (f : Stack → Stack) : (s.modStack k f).hbm = s.hbm := rfl
@[simp] theorem State.modStack_hbmTag (s : State) (k : Nat) (f : Stack → Stack) : (s.modStack k f).hbmTag = s.hbmTag := rfl
@[simp] theorem State.modStack_headboxes (s : State) (k : Nat) (f : Stack → Stack) : (s.modStack k f).headboxes = s.headboxes := rfl
@[simp] theorem State.modStack_ingest (s : State) (k : Nat) (f : Stack → Stack) : (s.modStack k f).ingest = s.ingest := rfl
@[simp] theorem State.modStack_ingestQ (s : State) (k : Nat) (f : Stack → Stack) : (s.modStack k f).ingestQ = s.ingestQ := rfl
@[simp] theorem State.modStack_ingestLast (s : State) (k : Nat) (f : Stack → Stack) : (s.modStack k f).ingestLast = s.ingestLast := rfl
@[simp] theorem State.modStack_passes (s : State) (k : Nat) (f : Stack → Stack) : (s.modStack k f).passes = s.passes := rfl
@[simp] theorem State.modStack_building (s : State) (k : Nat) (f : Stack → Stack) : (s.modStack k f).building = s.building := rfl
@[simp] theorem State.modStack_tableUnits (s : State) (k : Nat) (f : Stack → Stack) : (s.modStack k f).tableUnits = s.tableUnits := rfl
@[simp] theorem State.modStack_xcOrder (s : State) (k : Nat) (f : Stack → Stack) : (s.modStack k f).xcOrder = s.xcOrder := rfl
@[simp] theorem State.modStack_links (s : State) (k : Nat) (f : Stack → Stack) : (s.modStack k f).links = s.links := rfl
@[simp] theorem State.modStack_route (s : State) (k : Nat) (f : Stack → Stack) : (s.modStack k f).route = s.route := rfl
@[simp] theorem State.modStack_spans (s : State) (k : Nat) (f : Stack → Stack) : (s.modStack k f).spans = s.spans := rfl
@[simp] theorem State.modStack_tickGroup (s : State) (k : Nat) (f : Stack → Stack) : (s.modStack k f).tickGroup = s.tickGroup := rfl
@[simp] theorem State.modStack_ctr (s : State) (k : Nat) (f : Stack → Stack) : (s.modStack k f).ctr = s.ctr := rfl
@[simp] theorem State.modStack_ream (s : State) (k : Nat) (f : Stack → Stack) : (s.modStack k f).ream = s.ream := rfl
@[simp] theorem State.modStack_pcStorm (s : State) (k : Nat) (f : Stack → Stack) : (s.modStack k f).pcStorm = s.pcStorm := rfl
@[simp] theorem State.modStack_pcTag (s : State) (k : Nat) (f : Stack → Stack) : (s.modStack k f).pcTag = s.pcTag := rfl
@[simp] theorem State.modStack_stests (s : State) (k : Nat) (f : Stack → Stack) : (s.modStack k f).stests = s.stests := rfl
@[simp] theorem State.modStack_modTest (s : State) (k : Nat) (f : Stack → Stack) : (s.modStack k f).modTest = s.modTest := rfl
@[simp] theorem State.modStack_freeCtr (s : State) (k : Nat) (f : Stack → Stack) : (s.modStack k f).freeCtr = s.freeCtr := rfl
@[simp] theorem State.modStack_out (s : State) (k : Nat) (f : Stack → Stack) : (s.modStack k f).out = s.out := rfl
@[simp] theorem State.modStack_pending (s : State) (k : Nat) (f : Stack → Stack) : (s.modStack k f).pending = s.pending := rfl

/-! ### `modGroup` -/

@[simp] theorem State.modGroup_pins (s : State) (x : Nat) (f : Group → Group) : (s.modGroup x f).pins = s.pins := rfl
@[simp] theorem State.modGroup_clk (s : State) (x : Nat) (f : Group → Group) : (s.modGroup x f).clk = s.clk := rfl
@[simp] theorem State.modGroup_mills (s : State) (x : Nat) (f : Group → Group) : (s.modGroup x f).mills = s.mills := rfl
@[simp] theorem State.modGroup_hbms (s : State) (x : Nat) (f : Group → Group) : (s.modGroup x f).hbms = s.hbms := rfl
@[simp] theorem State.modGroup_boot (s : State) (x : Nat) (f : Group → Group) : (s.modGroup x f).boot = s.boot := rfl
@[simp] theorem State.modGroup_sec (s : State) (x : Nat) (f : Group → Group) : (s.modGroup x f).sec = s.sec := rfl
@[simp] theorem State.modGroup_grade (s : State) (x : Nat) (f : Group → Group) : (s.modGroup x f).grade = s.grade := rfl
@[simp] theorem State.modGroup_ready (s : State) (x : Nat) (f : Group → Group) : (s.modGroup x f).ready = s.ready := rfl
@[simp] theorem State.modGroup_portA (s : State) (x : Nat) (f : Group → Group) : (s.modGroup x f).portA = s.portA := rfl
@[simp] theorem State.modGroup_portB (s : State) (x : Nat) (f : Group → Group) : (s.modGroup x f).portB = s.portB := rfl
@[simp] theorem State.modGroup_eeprom (s : State) (x : Nat) (f : Group → Group) : (s.modGroup x f).eeprom = s.eeprom := rfl
@[simp] theorem State.modGroup_period (s : State) (x : Nat) (f : Group → Group) : (s.modGroup x f).period = s.period := rfl
@[simp] theorem State.modGroup_periodNext (s : State) (x : Nat) (f : Group → Group) : (s.modGroup x f).periodNext = s.periodNext := rfl
@[simp] theorem State.modGroup_periodSet (s : State) (x : Nat) (f : Group → Group) : (s.modGroup x f).periodSet = s.periodSet := rfl
@[simp] theorem State.modGroup_reamLen (s : State) (x : Nat) (f : Group → Group) : (s.modGroup x f).reamLen = s.reamLen := rfl
@[simp] theorem State.modGroup_reamNext (s : State) (x : Nat) (f : Group → Group) : (s.modGroup x f).reamNext = s.reamNext := rfl
@[simp] theorem State.modGroup_sheetInReam (s : State) (x : Nat) (f : Group → Group) : (s.modGroup x f).sheetInReam = s.sheetInReam := rfl
@[simp] theorem State.modGroup_boundary (s : State) (x : Nat) (f : Group → Group) : (s.modGroup x f).boundary = s.boundary := rfl
@[simp] theorem State.modGroup_reamOn (s : State) (x : Nat) (f : Group → Group) : (s.modGroup x f).reamOn = s.reamOn := rfl
@[simp] theorem State.modGroup_ticking (s : State) (x : Nat) (f : Group → Group) : (s.modGroup x f).ticking = s.ticking := rfl
@[simp] theorem State.modGroup_tick (s : State) (x : Nat) (f : Group → Group) : (s.modGroup x f).tick = s.tick := rfl
@[simp] theorem State.modGroup_reams (s : State) (x : Nat) (f : Group → Group) : (s.modGroup x f).reams = s.reams := rfl
@[simp] theorem State.modGroup_timeoutMs (s : State) (x : Nat) (f : Group → Group) : (s.modGroup x f).timeoutMs = s.timeoutMs := rfl
@[simp] theorem State.modGroup_selftestHours (s : State) (x : Nat) (f : Group → Group) : (s.modGroup x f).selftestHours = s.selftestHours := rfl
@[simp] theorem State.modGroup_admitA (s : State) (x : Nat) (f : Group → Group) : (s.modGroup x f).admitA = s.admitA := rfl
@[simp] theorem State.modGroup_admitB (s : State) (x : Nat) (f : Group → Group) : (s.modGroup x f).admitB = s.admitB := rfl
@[simp] theorem State.modGroup_quotaJobs (s : State) (x : Nat) (f : Group → Group) : (s.modGroup x f).quotaJobs = s.quotaJobs := rfl
@[simp] theorem State.modGroup_quotaCores (s : State) (x : Nat) (f : Group → Group) : (s.modGroup x f).quotaCores = s.quotaCores := rfl
@[simp] theorem State.modGroup_adminPort (s : State) (x : Nat) (f : Group → Group) : (s.modGroup x f).adminPort = s.adminPort := rfl
@[simp] theorem State.modGroup_admissions (s : State) (x : Nat) (f : Group → Group) : (s.modGroup x f).admissions = s.admissions := rfl
@[simp] theorem State.modGroup_jobs (s : State) (x : Nat) (f : Group → Group) : (s.modGroup x f).jobs = s.jobs := rfl
@[simp] theorem State.modGroup_cores (s : State) (x : Nat) (f : Group → Group) : (s.modGroup x f).cores = s.cores := rfl
@[simp] theorem State.modGroup_sparesUsed (s : State) (x : Nat) (f : Group → Group) : (s.modGroup x f).sparesUsed = s.sparesUsed := rfl
@[simp] theorem State.modGroup_units (s : State) (x : Nat) (f : Group → Group) : (s.modGroup x f).units = s.units := rfl
@[simp] theorem State.modGroup_sram (s : State) (x : Nat) (f : Group → Group) : (s.modGroup x f).sram = s.sram := rfl
@[simp] theorem State.modGroup_hbm (s : State) (x : Nat) (f : Group → Group) : (s.modGroup x f).hbm = s.hbm := rfl
@[simp] theorem State.modGroup_hbmTag (s : State) (x : Nat) (f : Group → Group) : (s.modGroup x f).hbmTag = s.hbmTag := rfl
@[simp] theorem State.modGroup_headboxes (s : State) (x : Nat) (f : Group → Group) : (s.modGroup x f).headboxes = s.headboxes := rfl
@[simp] theorem State.modGroup_ingest (s : State) (x : Nat) (f : Group → Group) : (s.modGroup x f).ingest = s.ingest := rfl
@[simp] theorem State.modGroup_ingestQ (s : State) (x : Nat) (f : Group → Group) : (s.modGroup x f).ingestQ = s.ingestQ := rfl
@[simp] theorem State.modGroup_ingestLast (s : State) (x : Nat) (f : Group → Group) : (s.modGroup x f).ingestLast = s.ingestLast := rfl
@[simp] theorem State.modGroup_passes (s : State) (x : Nat) (f : Group → Group) : (s.modGroup x f).passes = s.passes := rfl
@[simp] theorem State.modGroup_building (s : State) (x : Nat) (f : Group → Group) : (s.modGroup x f).building = s.building := rfl
@[simp] theorem State.modGroup_tableUnits (s : State) (x : Nat) (f : Group → Group) : (s.modGroup x f).tableUnits = s.tableUnits := rfl
@[simp] theorem State.modGroup_xcOrder (s : State) (x : Nat) (f : Group → Group) : (s.modGroup x f).xcOrder = s.xcOrder := rfl
@[simp] theorem State.modGroup_links (s : State) (x : Nat) (f : Group → Group) : (s.modGroup x f).links = s.links := rfl
@[simp] theorem State.modGroup_route (s : State) (x : Nat) (f : Group → Group) : (s.modGroup x f).route = s.route := rfl
@[simp] theorem State.modGroup_spans (s : State) (x : Nat) (f : Group → Group) : (s.modGroup x f).spans = s.spans := rfl
@[simp] theorem State.modGroup_tickGroup (s : State) (x : Nat) (f : Group → Group) : (s.modGroup x f).tickGroup = s.tickGroup := rfl
@[simp] theorem State.modGroup_ctr (s : State) (x : Nat) (f : Group → Group) : (s.modGroup x f).ctr = s.ctr := rfl
@[simp] theorem State.modGroup_ream (s : State) (x : Nat) (f : Group → Group) : (s.modGroup x f).ream = s.ream := rfl
@[simp] theorem State.modGroup_pcStorm (s : State) (x : Nat) (f : Group → Group) : (s.modGroup x f).pcStorm = s.pcStorm := rfl
@[simp] theorem State.modGroup_pcTag (s : State) (x : Nat) (f : Group → Group) : (s.modGroup x f).pcTag = s.pcTag := rfl
@[simp] theorem State.modGroup_stests (s : State) (x : Nat) (f : Group → Group) : (s.modGroup x f).stests = s.stests := rfl
@[simp] theorem State.modGroup_modTest (s : State) (x : Nat) (f : Group → Group) : (s.modGroup x f).modTest = s.modTest := rfl
@[simp] theorem State.modGroup_freeCtr (s : State) (x : Nat) (f : Group → Group) : (s.modGroup x f).freeCtr = s.freeCtr := rfl
@[simp] theorem State.modGroup_out (s : State) (x : Nat) (f : Group → Group) : (s.modGroup x f).out = s.out := rfl
@[simp] theorem State.modGroup_pending (s : State) (x : Nat) (f : Group → Group) : (s.modGroup x f).pending = s.pending := rfl

/-! ### `modUnit` -/

@[simp] theorem State.modUnit_pins (s : State) (x : Nat) (f : HUnit → HUnit) : (s.modUnit x f).pins = s.pins := rfl
@[simp] theorem State.modUnit_clk (s : State) (x : Nat) (f : HUnit → HUnit) : (s.modUnit x f).clk = s.clk := rfl
@[simp] theorem State.modUnit_mills (s : State) (x : Nat) (f : HUnit → HUnit) : (s.modUnit x f).mills = s.mills := rfl
@[simp] theorem State.modUnit_hbms (s : State) (x : Nat) (f : HUnit → HUnit) : (s.modUnit x f).hbms = s.hbms := rfl
@[simp] theorem State.modUnit_boot (s : State) (x : Nat) (f : HUnit → HUnit) : (s.modUnit x f).boot = s.boot := rfl
@[simp] theorem State.modUnit_sec (s : State) (x : Nat) (f : HUnit → HUnit) : (s.modUnit x f).sec = s.sec := rfl
@[simp] theorem State.modUnit_grade (s : State) (x : Nat) (f : HUnit → HUnit) : (s.modUnit x f).grade = s.grade := rfl
@[simp] theorem State.modUnit_ready (s : State) (x : Nat) (f : HUnit → HUnit) : (s.modUnit x f).ready = s.ready := rfl
@[simp] theorem State.modUnit_portA (s : State) (x : Nat) (f : HUnit → HUnit) : (s.modUnit x f).portA = s.portA := rfl
@[simp] theorem State.modUnit_portB (s : State) (x : Nat) (f : HUnit → HUnit) : (s.modUnit x f).portB = s.portB := rfl
@[simp] theorem State.modUnit_eeprom (s : State) (x : Nat) (f : HUnit → HUnit) : (s.modUnit x f).eeprom = s.eeprom := rfl
@[simp] theorem State.modUnit_period (s : State) (x : Nat) (f : HUnit → HUnit) : (s.modUnit x f).period = s.period := rfl
@[simp] theorem State.modUnit_periodNext (s : State) (x : Nat) (f : HUnit → HUnit) : (s.modUnit x f).periodNext = s.periodNext := rfl
@[simp] theorem State.modUnit_periodSet (s : State) (x : Nat) (f : HUnit → HUnit) : (s.modUnit x f).periodSet = s.periodSet := rfl
@[simp] theorem State.modUnit_reamLen (s : State) (x : Nat) (f : HUnit → HUnit) : (s.modUnit x f).reamLen = s.reamLen := rfl
@[simp] theorem State.modUnit_reamNext (s : State) (x : Nat) (f : HUnit → HUnit) : (s.modUnit x f).reamNext = s.reamNext := rfl
@[simp] theorem State.modUnit_sheetInReam (s : State) (x : Nat) (f : HUnit → HUnit) : (s.modUnit x f).sheetInReam = s.sheetInReam := rfl
@[simp] theorem State.modUnit_boundary (s : State) (x : Nat) (f : HUnit → HUnit) : (s.modUnit x f).boundary = s.boundary := rfl
@[simp] theorem State.modUnit_reamOn (s : State) (x : Nat) (f : HUnit → HUnit) : (s.modUnit x f).reamOn = s.reamOn := rfl
@[simp] theorem State.modUnit_ticking (s : State) (x : Nat) (f : HUnit → HUnit) : (s.modUnit x f).ticking = s.ticking := rfl
@[simp] theorem State.modUnit_tick (s : State) (x : Nat) (f : HUnit → HUnit) : (s.modUnit x f).tick = s.tick := rfl
@[simp] theorem State.modUnit_reams (s : State) (x : Nat) (f : HUnit → HUnit) : (s.modUnit x f).reams = s.reams := rfl
@[simp] theorem State.modUnit_timeoutMs (s : State) (x : Nat) (f : HUnit → HUnit) : (s.modUnit x f).timeoutMs = s.timeoutMs := rfl
@[simp] theorem State.modUnit_selftestHours (s : State) (x : Nat) (f : HUnit → HUnit) : (s.modUnit x f).selftestHours = s.selftestHours := rfl
@[simp] theorem State.modUnit_admitA (s : State) (x : Nat) (f : HUnit → HUnit) : (s.modUnit x f).admitA = s.admitA := rfl
@[simp] theorem State.modUnit_admitB (s : State) (x : Nat) (f : HUnit → HUnit) : (s.modUnit x f).admitB = s.admitB := rfl
@[simp] theorem State.modUnit_quotaJobs (s : State) (x : Nat) (f : HUnit → HUnit) : (s.modUnit x f).quotaJobs = s.quotaJobs := rfl
@[simp] theorem State.modUnit_quotaCores (s : State) (x : Nat) (f : HUnit → HUnit) : (s.modUnit x f).quotaCores = s.quotaCores := rfl
@[simp] theorem State.modUnit_adminPort (s : State) (x : Nat) (f : HUnit → HUnit) : (s.modUnit x f).adminPort = s.adminPort := rfl
@[simp] theorem State.modUnit_admissions (s : State) (x : Nat) (f : HUnit → HUnit) : (s.modUnit x f).admissions = s.admissions := rfl
@[simp] theorem State.modUnit_jobs (s : State) (x : Nat) (f : HUnit → HUnit) : (s.modUnit x f).jobs = s.jobs := rfl
@[simp] theorem State.modUnit_cores (s : State) (x : Nat) (f : HUnit → HUnit) : (s.modUnit x f).cores = s.cores := rfl
@[simp] theorem State.modUnit_groups (s : State) (x : Nat) (f : HUnit → HUnit) : (s.modUnit x f).groups = s.groups := rfl
@[simp] theorem State.modUnit_sparesUsed (s : State) (x : Nat) (f : HUnit → HUnit) : (s.modUnit x f).sparesUsed = s.sparesUsed := rfl
@[simp] theorem State.modUnit_sram (s : State) (x : Nat) (f : HUnit → HUnit) : (s.modUnit x f).sram = s.sram := rfl
@[simp] theorem State.modUnit_hbm (s : State) (x : Nat) (f : HUnit → HUnit) : (s.modUnit x f).hbm = s.hbm := rfl
@[simp] theorem State.modUnit_hbmTag (s : State) (x : Nat) (f : HUnit → HUnit) : (s.modUnit x f).hbmTag = s.hbmTag := rfl
@[simp] theorem State.modUnit_headboxes (s : State) (x : Nat) (f : HUnit → HUnit) : (s.modUnit x f).headboxes = s.headboxes := rfl
@[simp] theorem State.modUnit_ingest (s : State) (x : Nat) (f : HUnit → HUnit) : (s.modUnit x f).ingest = s.ingest := rfl
@[simp] theorem State.modUnit_ingestQ (s : State) (x : Nat) (f : HUnit → HUnit) : (s.modUnit x f).ingestQ = s.ingestQ := rfl
@[simp] theorem State.modUnit_ingestLast (s : State) (x : Nat) (f : HUnit → HUnit) : (s.modUnit x f).ingestLast = s.ingestLast := rfl
@[simp] theorem State.modUnit_passes (s : State) (x : Nat) (f : HUnit → HUnit) : (s.modUnit x f).passes = s.passes := rfl
@[simp] theorem State.modUnit_building (s : State) (x : Nat) (f : HUnit → HUnit) : (s.modUnit x f).building = s.building := rfl
@[simp] theorem State.modUnit_tableUnits (s : State) (x : Nat) (f : HUnit → HUnit) : (s.modUnit x f).tableUnits = s.tableUnits := rfl
@[simp] theorem State.modUnit_xcOrder (s : State) (x : Nat) (f : HUnit → HUnit) : (s.modUnit x f).xcOrder = s.xcOrder := rfl
@[simp] theorem State.modUnit_links (s : State) (x : Nat) (f : HUnit → HUnit) : (s.modUnit x f).links = s.links := rfl
@[simp] theorem State.modUnit_route (s : State) (x : Nat) (f : HUnit → HUnit) : (s.modUnit x f).route = s.route := rfl
@[simp] theorem State.modUnit_spans (s : State) (x : Nat) (f : HUnit → HUnit) : (s.modUnit x f).spans = s.spans := rfl
@[simp] theorem State.modUnit_tickGroup (s : State) (x : Nat) (f : HUnit → HUnit) : (s.modUnit x f).tickGroup = s.tickGroup := rfl
@[simp] theorem State.modUnit_ctr (s : State) (x : Nat) (f : HUnit → HUnit) : (s.modUnit x f).ctr = s.ctr := rfl
@[simp] theorem State.modUnit_ream (s : State) (x : Nat) (f : HUnit → HUnit) : (s.modUnit x f).ream = s.ream := rfl
@[simp] theorem State.modUnit_pcStorm (s : State) (x : Nat) (f : HUnit → HUnit) : (s.modUnit x f).pcStorm = s.pcStorm := rfl
@[simp] theorem State.modUnit_pcTag (s : State) (x : Nat) (f : HUnit → HUnit) : (s.modUnit x f).pcTag = s.pcTag := rfl
@[simp] theorem State.modUnit_stests (s : State) (x : Nat) (f : HUnit → HUnit) : (s.modUnit x f).stests = s.stests := rfl
@[simp] theorem State.modUnit_modTest (s : State) (x : Nat) (f : HUnit → HUnit) : (s.modUnit x f).modTest = s.modTest := rfl
@[simp] theorem State.modUnit_freeCtr (s : State) (x : Nat) (f : HUnit → HUnit) : (s.modUnit x f).freeCtr = s.freeCtr := rfl
@[simp] theorem State.modUnit_out (s : State) (x : Nat) (f : HUnit → HUnit) : (s.modUnit x f).out = s.out := rfl
@[simp] theorem State.modUnit_pending (s : State) (x : Nat) (f : HUnit → HUnit) : (s.modUnit x f).pending = s.pending := rfl

/-! ### `modHeadbox` -/

@[simp] theorem State.modHeadbox_pins (s : State) (m : Nat) (f : Headbox → Headbox) : (s.modHeadbox m f).pins = s.pins := rfl
@[simp] theorem State.modHeadbox_clk (s : State) (m : Nat) (f : Headbox → Headbox) : (s.modHeadbox m f).clk = s.clk := rfl
@[simp] theorem State.modHeadbox_mills (s : State) (m : Nat) (f : Headbox → Headbox) : (s.modHeadbox m f).mills = s.mills := rfl
@[simp] theorem State.modHeadbox_hbms (s : State) (m : Nat) (f : Headbox → Headbox) : (s.modHeadbox m f).hbms = s.hbms := rfl
@[simp] theorem State.modHeadbox_boot (s : State) (m : Nat) (f : Headbox → Headbox) : (s.modHeadbox m f).boot = s.boot := rfl
@[simp] theorem State.modHeadbox_sec (s : State) (m : Nat) (f : Headbox → Headbox) : (s.modHeadbox m f).sec = s.sec := rfl
@[simp] theorem State.modHeadbox_grade (s : State) (m : Nat) (f : Headbox → Headbox) : (s.modHeadbox m f).grade = s.grade := rfl
@[simp] theorem State.modHeadbox_ready (s : State) (m : Nat) (f : Headbox → Headbox) : (s.modHeadbox m f).ready = s.ready := rfl
@[simp] theorem State.modHeadbox_portA (s : State) (m : Nat) (f : Headbox → Headbox) : (s.modHeadbox m f).portA = s.portA := rfl
@[simp] theorem State.modHeadbox_portB (s : State) (m : Nat) (f : Headbox → Headbox) : (s.modHeadbox m f).portB = s.portB := rfl
@[simp] theorem State.modHeadbox_eeprom (s : State) (m : Nat) (f : Headbox → Headbox) : (s.modHeadbox m f).eeprom = s.eeprom := rfl
@[simp] theorem State.modHeadbox_period (s : State) (m : Nat) (f : Headbox → Headbox) : (s.modHeadbox m f).period = s.period := rfl
@[simp] theorem State.modHeadbox_periodNext (s : State) (m : Nat) (f : Headbox → Headbox) : (s.modHeadbox m f).periodNext = s.periodNext := rfl
@[simp] theorem State.modHeadbox_periodSet (s : State) (m : Nat) (f : Headbox → Headbox) : (s.modHeadbox m f).periodSet = s.periodSet := rfl
@[simp] theorem State.modHeadbox_reamLen (s : State) (m : Nat) (f : Headbox → Headbox) : (s.modHeadbox m f).reamLen = s.reamLen := rfl
@[simp] theorem State.modHeadbox_reamNext (s : State) (m : Nat) (f : Headbox → Headbox) : (s.modHeadbox m f).reamNext = s.reamNext := rfl
@[simp] theorem State.modHeadbox_sheetInReam (s : State) (m : Nat) (f : Headbox → Headbox) : (s.modHeadbox m f).sheetInReam = s.sheetInReam := rfl
@[simp] theorem State.modHeadbox_boundary (s : State) (m : Nat) (f : Headbox → Headbox) : (s.modHeadbox m f).boundary = s.boundary := rfl
@[simp] theorem State.modHeadbox_reamOn (s : State) (m : Nat) (f : Headbox → Headbox) : (s.modHeadbox m f).reamOn = s.reamOn := rfl
@[simp] theorem State.modHeadbox_ticking (s : State) (m : Nat) (f : Headbox → Headbox) : (s.modHeadbox m f).ticking = s.ticking := rfl
@[simp] theorem State.modHeadbox_tick (s : State) (m : Nat) (f : Headbox → Headbox) : (s.modHeadbox m f).tick = s.tick := rfl
@[simp] theorem State.modHeadbox_reams (s : State) (m : Nat) (f : Headbox → Headbox) : (s.modHeadbox m f).reams = s.reams := rfl
@[simp] theorem State.modHeadbox_timeoutMs (s : State) (m : Nat) (f : Headbox → Headbox) : (s.modHeadbox m f).timeoutMs = s.timeoutMs := rfl
@[simp] theorem State.modHeadbox_selftestHours (s : State) (m : Nat) (f : Headbox → Headbox) : (s.modHeadbox m f).selftestHours = s.selftestHours := rfl
@[simp] theorem State.modHeadbox_admitA (s : State) (m : Nat) (f : Headbox → Headbox) : (s.modHeadbox m f).admitA = s.admitA := rfl
@[simp] theorem State.modHeadbox_admitB (s : State) (m : Nat) (f : Headbox → Headbox) : (s.modHeadbox m f).admitB = s.admitB := rfl
@[simp] theorem State.modHeadbox_quotaJobs (s : State) (m : Nat) (f : Headbox → Headbox) : (s.modHeadbox m f).quotaJobs = s.quotaJobs := rfl
@[simp] theorem State.modHeadbox_quotaCores (s : State) (m : Nat) (f : Headbox → Headbox) : (s.modHeadbox m f).quotaCores = s.quotaCores := rfl
@[simp] theorem State.modHeadbox_adminPort (s : State) (m : Nat) (f : Headbox → Headbox) : (s.modHeadbox m f).adminPort = s.adminPort := rfl
@[simp] theorem State.modHeadbox_admissions (s : State) (m : Nat) (f : Headbox → Headbox) : (s.modHeadbox m f).admissions = s.admissions := rfl
@[simp] theorem State.modHeadbox_jobs (s : State) (m : Nat) (f : Headbox → Headbox) : (s.modHeadbox m f).jobs = s.jobs := rfl
@[simp] theorem State.modHeadbox_cores (s : State) (m : Nat) (f : Headbox → Headbox) : (s.modHeadbox m f).cores = s.cores := rfl
@[simp] theorem State.modHeadbox_groups (s : State) (m : Nat) (f : Headbox → Headbox) : (s.modHeadbox m f).groups = s.groups := rfl
@[simp] theorem State.modHeadbox_sparesUsed (s : State) (m : Nat) (f : Headbox → Headbox) : (s.modHeadbox m f).sparesUsed = s.sparesUsed := rfl
@[simp] theorem State.modHeadbox_units (s : State) (m : Nat) (f : Headbox → Headbox) : (s.modHeadbox m f).units = s.units := rfl
@[simp] theorem State.modHeadbox_sram (s : State) (m : Nat) (f : Headbox → Headbox) : (s.modHeadbox m f).sram = s.sram := rfl
@[simp] theorem State.modHeadbox_hbm (s : State) (m : Nat) (f : Headbox → Headbox) : (s.modHeadbox m f).hbm = s.hbm := rfl
@[simp] theorem State.modHeadbox_hbmTag (s : State) (m : Nat) (f : Headbox → Headbox) : (s.modHeadbox m f).hbmTag = s.hbmTag := rfl
@[simp] theorem State.modHeadbox_ingest (s : State) (m : Nat) (f : Headbox → Headbox) : (s.modHeadbox m f).ingest = s.ingest := rfl
@[simp] theorem State.modHeadbox_ingestQ (s : State) (m : Nat) (f : Headbox → Headbox) : (s.modHeadbox m f).ingestQ = s.ingestQ := rfl
@[simp] theorem State.modHeadbox_ingestLast (s : State) (m : Nat) (f : Headbox → Headbox) : (s.modHeadbox m f).ingestLast = s.ingestLast := rfl
@[simp] theorem State.modHeadbox_passes (s : State) (m : Nat) (f : Headbox → Headbox) : (s.modHeadbox m f).passes = s.passes := rfl
@[simp] theorem State.modHeadbox_building (s : State) (m : Nat) (f : Headbox → Headbox) : (s.modHeadbox m f).building = s.building := rfl
@[simp] theorem State.modHeadbox_tableUnits (s : State) (m : Nat) (f : Headbox → Headbox) : (s.modHeadbox m f).tableUnits = s.tableUnits := rfl
@[simp] theorem State.modHeadbox_xcOrder (s : State) (m : Nat) (f : Headbox → Headbox) : (s.modHeadbox m f).xcOrder = s.xcOrder := rfl
@[simp] theorem State.modHeadbox_links (s : State) (m : Nat) (f : Headbox → Headbox) : (s.modHeadbox m f).links = s.links := rfl
@[simp] theorem State.modHeadbox_route (s : State) (m : Nat) (f : Headbox → Headbox) : (s.modHeadbox m f).route = s.route := rfl
@[simp] theorem State.modHeadbox_spans (s : State) (m : Nat) (f : Headbox → Headbox) : (s.modHeadbox m f).spans = s.spans := rfl
@[simp] theorem State.modHeadbox_tickGroup (s : State) (m : Nat) (f : Headbox → Headbox) : (s.modHeadbox m f).tickGroup = s.tickGroup := rfl
@[simp] theorem State.modHeadbox_ctr (s : State) (m : Nat) (f : Headbox → Headbox) : (s.modHeadbox m f).ctr = s.ctr := rfl
@[simp] theorem State.modHeadbox_ream (s : State) (m : Nat) (f : Headbox → Headbox) : (s.modHeadbox m f).ream = s.ream := rfl
@[simp] theorem State.modHeadbox_pcStorm (s : State) (m : Nat) (f : Headbox → Headbox) : (s.modHeadbox m f).pcStorm = s.pcStorm := rfl
@[simp] theorem State.modHeadbox_pcTag (s : State) (m : Nat) (f : Headbox → Headbox) : (s.modHeadbox m f).pcTag = s.pcTag := rfl
@[simp] theorem State.modHeadbox_stests (s : State) (m : Nat) (f : Headbox → Headbox) : (s.modHeadbox m f).stests = s.stests := rfl
@[simp] theorem State.modHeadbox_modTest (s : State) (m : Nat) (f : Headbox → Headbox) : (s.modHeadbox m f).modTest = s.modTest := rfl
@[simp] theorem State.modHeadbox_freeCtr (s : State) (m : Nat) (f : Headbox → Headbox) : (s.modHeadbox m f).freeCtr = s.freeCtr := rfl
@[simp] theorem State.modHeadbox_out (s : State) (m : Nat) (f : Headbox → Headbox) : (s.modHeadbox m f).out = s.out := rfl
@[simp] theorem State.modHeadbox_pending (s : State) (m : Nat) (f : Headbox → Headbox) : (s.modHeadbox m f).pending = s.pending := rfl

/-! ### `modStest` -/

@[simp] theorem State.modStest_pins (s : State) (m : Nat) (f : STest → STest) : (s.modStest m f).pins = s.pins := rfl
@[simp] theorem State.modStest_clk (s : State) (m : Nat) (f : STest → STest) : (s.modStest m f).clk = s.clk := rfl
@[simp] theorem State.modStest_mills (s : State) (m : Nat) (f : STest → STest) : (s.modStest m f).mills = s.mills := rfl
@[simp] theorem State.modStest_hbms (s : State) (m : Nat) (f : STest → STest) : (s.modStest m f).hbms = s.hbms := rfl
@[simp] theorem State.modStest_boot (s : State) (m : Nat) (f : STest → STest) : (s.modStest m f).boot = s.boot := rfl
@[simp] theorem State.modStest_sec (s : State) (m : Nat) (f : STest → STest) : (s.modStest m f).sec = s.sec := rfl
@[simp] theorem State.modStest_grade (s : State) (m : Nat) (f : STest → STest) : (s.modStest m f).grade = s.grade := rfl
@[simp] theorem State.modStest_ready (s : State) (m : Nat) (f : STest → STest) : (s.modStest m f).ready = s.ready := rfl
@[simp] theorem State.modStest_portA (s : State) (m : Nat) (f : STest → STest) : (s.modStest m f).portA = s.portA := rfl
@[simp] theorem State.modStest_portB (s : State) (m : Nat) (f : STest → STest) : (s.modStest m f).portB = s.portB := rfl
@[simp] theorem State.modStest_eeprom (s : State) (m : Nat) (f : STest → STest) : (s.modStest m f).eeprom = s.eeprom := rfl
@[simp] theorem State.modStest_period (s : State) (m : Nat) (f : STest → STest) : (s.modStest m f).period = s.period := rfl
@[simp] theorem State.modStest_periodNext (s : State) (m : Nat) (f : STest → STest) : (s.modStest m f).periodNext = s.periodNext := rfl
@[simp] theorem State.modStest_periodSet (s : State) (m : Nat) (f : STest → STest) : (s.modStest m f).periodSet = s.periodSet := rfl
@[simp] theorem State.modStest_reamLen (s : State) (m : Nat) (f : STest → STest) : (s.modStest m f).reamLen = s.reamLen := rfl
@[simp] theorem State.modStest_reamNext (s : State) (m : Nat) (f : STest → STest) : (s.modStest m f).reamNext = s.reamNext := rfl
@[simp] theorem State.modStest_sheetInReam (s : State) (m : Nat) (f : STest → STest) : (s.modStest m f).sheetInReam = s.sheetInReam := rfl
@[simp] theorem State.modStest_boundary (s : State) (m : Nat) (f : STest → STest) : (s.modStest m f).boundary = s.boundary := rfl
@[simp] theorem State.modStest_reamOn (s : State) (m : Nat) (f : STest → STest) : (s.modStest m f).reamOn = s.reamOn := rfl
@[simp] theorem State.modStest_ticking (s : State) (m : Nat) (f : STest → STest) : (s.modStest m f).ticking = s.ticking := rfl
@[simp] theorem State.modStest_tick (s : State) (m : Nat) (f : STest → STest) : (s.modStest m f).tick = s.tick := rfl
@[simp] theorem State.modStest_reams (s : State) (m : Nat) (f : STest → STest) : (s.modStest m f).reams = s.reams := rfl
@[simp] theorem State.modStest_timeoutMs (s : State) (m : Nat) (f : STest → STest) : (s.modStest m f).timeoutMs = s.timeoutMs := rfl
@[simp] theorem State.modStest_selftestHours (s : State) (m : Nat) (f : STest → STest) : (s.modStest m f).selftestHours = s.selftestHours := rfl
@[simp] theorem State.modStest_admitA (s : State) (m : Nat) (f : STest → STest) : (s.modStest m f).admitA = s.admitA := rfl
@[simp] theorem State.modStest_admitB (s : State) (m : Nat) (f : STest → STest) : (s.modStest m f).admitB = s.admitB := rfl
@[simp] theorem State.modStest_quotaJobs (s : State) (m : Nat) (f : STest → STest) : (s.modStest m f).quotaJobs = s.quotaJobs := rfl
@[simp] theorem State.modStest_quotaCores (s : State) (m : Nat) (f : STest → STest) : (s.modStest m f).quotaCores = s.quotaCores := rfl
@[simp] theorem State.modStest_adminPort (s : State) (m : Nat) (f : STest → STest) : (s.modStest m f).adminPort = s.adminPort := rfl
@[simp] theorem State.modStest_admissions (s : State) (m : Nat) (f : STest → STest) : (s.modStest m f).admissions = s.admissions := rfl
@[simp] theorem State.modStest_jobs (s : State) (m : Nat) (f : STest → STest) : (s.modStest m f).jobs = s.jobs := rfl
@[simp] theorem State.modStest_cores (s : State) (m : Nat) (f : STest → STest) : (s.modStest m f).cores = s.cores := rfl
@[simp] theorem State.modStest_groups (s : State) (m : Nat) (f : STest → STest) : (s.modStest m f).groups = s.groups := rfl
@[simp] theorem State.modStest_sparesUsed (s : State) (m : Nat) (f : STest → STest) : (s.modStest m f).sparesUsed = s.sparesUsed := rfl
@[simp] theorem State.modStest_units (s : State) (m : Nat) (f : STest → STest) : (s.modStest m f).units = s.units := rfl
@[simp] theorem State.modStest_sram (s : State) (m : Nat) (f : STest → STest) : (s.modStest m f).sram = s.sram := rfl
@[simp] theorem State.modStest_hbm (s : State) (m : Nat) (f : STest → STest) : (s.modStest m f).hbm = s.hbm := rfl
@[simp] theorem State.modStest_hbmTag (s : State) (m : Nat) (f : STest → STest) : (s.modStest m f).hbmTag = s.hbmTag := rfl
@[simp] theorem State.modStest_headboxes (s : State) (m : Nat) (f : STest → STest) : (s.modStest m f).headboxes = s.headboxes := rfl
@[simp] theorem State.modStest_ingest (s : State) (m : Nat) (f : STest → STest) : (s.modStest m f).ingest = s.ingest := rfl
@[simp] theorem State.modStest_ingestQ (s : State) (m : Nat) (f : STest → STest) : (s.modStest m f).ingestQ = s.ingestQ := rfl
@[simp] theorem State.modStest_ingestLast (s : State) (m : Nat) (f : STest → STest) : (s.modStest m f).ingestLast = s.ingestLast := rfl
@[simp] theorem State.modStest_passes (s : State) (m : Nat) (f : STest → STest) : (s.modStest m f).passes = s.passes := rfl
@[simp] theorem State.modStest_building (s : State) (m : Nat) (f : STest → STest) : (s.modStest m f).building = s.building := rfl
@[simp] theorem State.modStest_tableUnits (s : State) (m : Nat) (f : STest → STest) : (s.modStest m f).tableUnits = s.tableUnits := rfl
@[simp] theorem State.modStest_xcOrder (s : State) (m : Nat) (f : STest → STest) : (s.modStest m f).xcOrder = s.xcOrder := rfl
@[simp] theorem State.modStest_links (s : State) (m : Nat) (f : STest → STest) : (s.modStest m f).links = s.links := rfl
@[simp] theorem State.modStest_route (s : State) (m : Nat) (f : STest → STest) : (s.modStest m f).route = s.route := rfl
@[simp] theorem State.modStest_spans (s : State) (m : Nat) (f : STest → STest) : (s.modStest m f).spans = s.spans := rfl
@[simp] theorem State.modStest_tickGroup (s : State) (m : Nat) (f : STest → STest) : (s.modStest m f).tickGroup = s.tickGroup := rfl
@[simp] theorem State.modStest_ctr (s : State) (m : Nat) (f : STest → STest) : (s.modStest m f).ctr = s.ctr := rfl
@[simp] theorem State.modStest_ream (s : State) (m : Nat) (f : STest → STest) : (s.modStest m f).ream = s.ream := rfl
@[simp] theorem State.modStest_pcStorm (s : State) (m : Nat) (f : STest → STest) : (s.modStest m f).pcStorm = s.pcStorm := rfl
@[simp] theorem State.modStest_pcTag (s : State) (m : Nat) (f : STest → STest) : (s.modStest m f).pcTag = s.pcTag := rfl
@[simp] theorem State.modStest_modTest (s : State) (m : Nat) (f : STest → STest) : (s.modStest m f).modTest = s.modTest := rfl
@[simp] theorem State.modStest_freeCtr (s : State) (m : Nat) (f : STest → STest) : (s.modStest m f).freeCtr = s.freeCtr := rfl
@[simp] theorem State.modStest_out (s : State) (m : Nat) (f : STest → STest) : (s.modStest m f).out = s.out := rfl
@[simp] theorem State.modStest_pending (s : State) (m : Nat) (f : STest → STest) : (s.modStest m f).pending = s.pending := rfl

/-! ### `emit` -/

@[simp] theorem State.emit_pins (s : State) (o : Out) : (s.emit o).pins = s.pins := rfl
@[simp] theorem State.emit_clk (s : State) (o : Out) : (s.emit o).clk = s.clk := rfl
@[simp] theorem State.emit_mills (s : State) (o : Out) : (s.emit o).mills = s.mills := rfl
@[simp] theorem State.emit_hbms (s : State) (o : Out) : (s.emit o).hbms = s.hbms := rfl
@[simp] theorem State.emit_boot (s : State) (o : Out) : (s.emit o).boot = s.boot := rfl
@[simp] theorem State.emit_sec (s : State) (o : Out) : (s.emit o).sec = s.sec := rfl
@[simp] theorem State.emit_grade (s : State) (o : Out) : (s.emit o).grade = s.grade := rfl
@[simp] theorem State.emit_ready (s : State) (o : Out) : (s.emit o).ready = s.ready := rfl
@[simp] theorem State.emit_portA (s : State) (o : Out) : (s.emit o).portA = s.portA := rfl
@[simp] theorem State.emit_portB (s : State) (o : Out) : (s.emit o).portB = s.portB := rfl
@[simp] theorem State.emit_eeprom (s : State) (o : Out) : (s.emit o).eeprom = s.eeprom := rfl
@[simp] theorem State.emit_period (s : State) (o : Out) : (s.emit o).period = s.period := rfl
@[simp] theorem State.emit_periodNext (s : State) (o : Out) : (s.emit o).periodNext = s.periodNext := rfl
@[simp] theorem State.emit_periodSet (s : State) (o : Out) : (s.emit o).periodSet = s.periodSet := rfl
@[simp] theorem State.emit_reamLen (s : State) (o : Out) : (s.emit o).reamLen = s.reamLen := rfl
@[simp] theorem State.emit_reamNext (s : State) (o : Out) : (s.emit o).reamNext = s.reamNext := rfl
@[simp] theorem State.emit_sheetInReam (s : State) (o : Out) : (s.emit o).sheetInReam = s.sheetInReam := rfl
@[simp] theorem State.emit_boundary (s : State) (o : Out) : (s.emit o).boundary = s.boundary := rfl
@[simp] theorem State.emit_reamOn (s : State) (o : Out) : (s.emit o).reamOn = s.reamOn := rfl
@[simp] theorem State.emit_ticking (s : State) (o : Out) : (s.emit o).ticking = s.ticking := rfl
@[simp] theorem State.emit_tick (s : State) (o : Out) : (s.emit o).tick = s.tick := rfl
@[simp] theorem State.emit_reams (s : State) (o : Out) : (s.emit o).reams = s.reams := rfl
@[simp] theorem State.emit_timeoutMs (s : State) (o : Out) : (s.emit o).timeoutMs = s.timeoutMs := rfl
@[simp] theorem State.emit_selftestHours (s : State) (o : Out) : (s.emit o).selftestHours = s.selftestHours := rfl
@[simp] theorem State.emit_admitA (s : State) (o : Out) : (s.emit o).admitA = s.admitA := rfl
@[simp] theorem State.emit_admitB (s : State) (o : Out) : (s.emit o).admitB = s.admitB := rfl
@[simp] theorem State.emit_quotaJobs (s : State) (o : Out) : (s.emit o).quotaJobs = s.quotaJobs := rfl
@[simp] theorem State.emit_quotaCores (s : State) (o : Out) : (s.emit o).quotaCores = s.quotaCores := rfl
@[simp] theorem State.emit_adminPort (s : State) (o : Out) : (s.emit o).adminPort = s.adminPort := rfl
@[simp] theorem State.emit_admissions (s : State) (o : Out) : (s.emit o).admissions = s.admissions := rfl
@[simp] theorem State.emit_jobs (s : State) (o : Out) : (s.emit o).jobs = s.jobs := rfl
@[simp] theorem State.emit_cores (s : State) (o : Out) : (s.emit o).cores = s.cores := rfl
@[simp] theorem State.emit_groups (s : State) (o : Out) : (s.emit o).groups = s.groups := rfl
@[simp] theorem State.emit_sparesUsed (s : State) (o : Out) : (s.emit o).sparesUsed = s.sparesUsed := rfl
@[simp] theorem State.emit_units (s : State) (o : Out) : (s.emit o).units = s.units := rfl
@[simp] theorem State.emit_sram (s : State) (o : Out) : (s.emit o).sram = s.sram := rfl
@[simp] theorem State.emit_hbm (s : State) (o : Out) : (s.emit o).hbm = s.hbm := rfl
@[simp] theorem State.emit_hbmTag (s : State) (o : Out) : (s.emit o).hbmTag = s.hbmTag := rfl
@[simp] theorem State.emit_headboxes (s : State) (o : Out) : (s.emit o).headboxes = s.headboxes := rfl
@[simp] theorem State.emit_ingest (s : State) (o : Out) : (s.emit o).ingest = s.ingest := rfl
@[simp] theorem State.emit_ingestQ (s : State) (o : Out) : (s.emit o).ingestQ = s.ingestQ := rfl
@[simp] theorem State.emit_ingestLast (s : State) (o : Out) : (s.emit o).ingestLast = s.ingestLast := rfl
@[simp] theorem State.emit_passes (s : State) (o : Out) : (s.emit o).passes = s.passes := rfl
@[simp] theorem State.emit_building (s : State) (o : Out) : (s.emit o).building = s.building := rfl
@[simp] theorem State.emit_tableUnits (s : State) (o : Out) : (s.emit o).tableUnits = s.tableUnits := rfl
@[simp] theorem State.emit_xcOrder (s : State) (o : Out) : (s.emit o).xcOrder = s.xcOrder := rfl
@[simp] theorem State.emit_links (s : State) (o : Out) : (s.emit o).links = s.links := rfl
@[simp] theorem State.emit_route (s : State) (o : Out) : (s.emit o).route = s.route := rfl
@[simp] theorem State.emit_spans (s : State) (o : Out) : (s.emit o).spans = s.spans := rfl
@[simp] theorem State.emit_tickGroup (s : State) (o : Out) : (s.emit o).tickGroup = s.tickGroup := rfl
@[simp] theorem State.emit_ctr (s : State) (o : Out) : (s.emit o).ctr = s.ctr := rfl
@[simp] theorem State.emit_ream (s : State) (o : Out) : (s.emit o).ream = s.ream := rfl
@[simp] theorem State.emit_pcStorm (s : State) (o : Out) : (s.emit o).pcStorm = s.pcStorm := rfl
@[simp] theorem State.emit_pcTag (s : State) (o : Out) : (s.emit o).pcTag = s.pcTag := rfl
@[simp] theorem State.emit_stests (s : State) (o : Out) : (s.emit o).stests = s.stests := rfl
@[simp] theorem State.emit_modTest (s : State) (o : Out) : (s.emit o).modTest = s.modTest := rfl
@[simp] theorem State.emit_freeCtr (s : State) (o : Out) : (s.emit o).freeCtr = s.freeCtr := rfl
@[simp] theorem State.emit_pending (s : State) (o : Out) : (s.emit o).pending = s.pending := rfl

/-! ### `draw` -/

@[simp] theorem State.draw_fst (s : State) : s.draw.1 = s.freeCtr := rfl
@[simp] theorem State.draw_freeCtr (s : State) : s.draw.2.freeCtr = s.freeCtr + 1 := rfl
@[simp] theorem State.draw_pins (s : State) : s.draw.2.pins = s.pins := rfl
@[simp] theorem State.draw_clk (s : State) : s.draw.2.clk = s.clk := rfl
@[simp] theorem State.draw_mills (s : State) : s.draw.2.mills = s.mills := rfl
@[simp] theorem State.draw_hbms (s : State) : s.draw.2.hbms = s.hbms := rfl
@[simp] theorem State.draw_boot (s : State) : s.draw.2.boot = s.boot := rfl
@[simp] theorem State.draw_sec (s : State) : s.draw.2.sec = s.sec := rfl
@[simp] theorem State.draw_grade (s : State) : s.draw.2.grade = s.grade := rfl
@[simp] theorem State.draw_ready (s : State) : s.draw.2.ready = s.ready := rfl
@[simp] theorem State.draw_portA (s : State) : s.draw.2.portA = s.portA := rfl
@[simp] theorem State.draw_portB (s : State) : s.draw.2.portB = s.portB := rfl
@[simp] theorem State.draw_eeprom (s : State) : s.draw.2.eeprom = s.eeprom := rfl
@[simp] theorem State.draw_period (s : State) : s.draw.2.period = s.period := rfl
@[simp] theorem State.draw_periodNext (s : State) : s.draw.2.periodNext = s.periodNext := rfl
@[simp] theorem State.draw_periodSet (s : State) : s.draw.2.periodSet = s.periodSet := rfl
@[simp] theorem State.draw_reamLen (s : State) : s.draw.2.reamLen = s.reamLen := rfl
@[simp] theorem State.draw_reamNext (s : State) : s.draw.2.reamNext = s.reamNext := rfl
@[simp] theorem State.draw_sheetInReam (s : State) : s.draw.2.sheetInReam = s.sheetInReam := rfl
@[simp] theorem State.draw_boundary (s : State) : s.draw.2.boundary = s.boundary := rfl
@[simp] theorem State.draw_reamOn (s : State) : s.draw.2.reamOn = s.reamOn := rfl
@[simp] theorem State.draw_ticking (s : State) : s.draw.2.ticking = s.ticking := rfl
@[simp] theorem State.draw_tick (s : State) : s.draw.2.tick = s.tick := rfl
@[simp] theorem State.draw_reams (s : State) : s.draw.2.reams = s.reams := rfl
@[simp] theorem State.draw_timeoutMs (s : State) : s.draw.2.timeoutMs = s.timeoutMs := rfl
@[simp] theorem State.draw_selftestHours (s : State) : s.draw.2.selftestHours = s.selftestHours := rfl
@[simp] theorem State.draw_admitA (s : State) : s.draw.2.admitA = s.admitA := rfl
@[simp] theorem State.draw_admitB (s : State) : s.draw.2.admitB = s.admitB := rfl
@[simp] theorem State.draw_quotaJobs (s : State) : s.draw.2.quotaJobs = s.quotaJobs := rfl
@[simp] theorem State.draw_quotaCores (s : State) : s.draw.2.quotaCores = s.quotaCores := rfl
@[simp] theorem State.draw_adminPort (s : State) : s.draw.2.adminPort = s.adminPort := rfl
@[simp] theorem State.draw_admissions (s : State) : s.draw.2.admissions = s.admissions := rfl
@[simp] theorem State.draw_jobs (s : State) : s.draw.2.jobs = s.jobs := rfl
@[simp] theorem State.draw_cores (s : State) : s.draw.2.cores = s.cores := rfl
@[simp] theorem State.draw_groups (s : State) : s.draw.2.groups = s.groups := rfl
@[simp] theorem State.draw_sparesUsed (s : State) : s.draw.2.sparesUsed = s.sparesUsed := rfl
@[simp] theorem State.draw_units (s : State) : s.draw.2.units = s.units := rfl
@[simp] theorem State.draw_sram (s : State) : s.draw.2.sram = s.sram := rfl
@[simp] theorem State.draw_hbm (s : State) : s.draw.2.hbm = s.hbm := rfl
@[simp] theorem State.draw_hbmTag (s : State) : s.draw.2.hbmTag = s.hbmTag := rfl
@[simp] theorem State.draw_headboxes (s : State) : s.draw.2.headboxes = s.headboxes := rfl
@[simp] theorem State.draw_ingest (s : State) : s.draw.2.ingest = s.ingest := rfl
@[simp] theorem State.draw_ingestQ (s : State) : s.draw.2.ingestQ = s.ingestQ := rfl
@[simp] theorem State.draw_ingestLast (s : State) : s.draw.2.ingestLast = s.ingestLast := rfl
@[simp] theorem State.draw_passes (s : State) : s.draw.2.passes = s.passes := rfl
@[simp] theorem State.draw_building (s : State) : s.draw.2.building = s.building := rfl
@[simp] theorem State.draw_tableUnits (s : State) : s.draw.2.tableUnits = s.tableUnits := rfl
@[simp] theorem State.draw_xcOrder (s : State) : s.draw.2.xcOrder = s.xcOrder := rfl
@[simp] theorem State.draw_links (s : State) : s.draw.2.links = s.links := rfl
@[simp] theorem State.draw_route (s : State) : s.draw.2.route = s.route := rfl
@[simp] theorem State.draw_spans (s : State) : s.draw.2.spans = s.spans := rfl
@[simp] theorem State.draw_tickGroup (s : State) : s.draw.2.tickGroup = s.tickGroup := rfl
@[simp] theorem State.draw_ctr (s : State) : s.draw.2.ctr = s.ctr := rfl
@[simp] theorem State.draw_ream (s : State) : s.draw.2.ream = s.ream := rfl
@[simp] theorem State.draw_pcStorm (s : State) : s.draw.2.pcStorm = s.pcStorm := rfl
@[simp] theorem State.draw_pcTag (s : State) : s.draw.2.pcTag = s.pcTag := rfl
@[simp] theorem State.draw_stests (s : State) : s.draw.2.stests = s.stests := rfl
@[simp] theorem State.draw_modTest (s : State) : s.draw.2.modTest = s.modTest := rfl
@[simp] theorem State.draw_out (s : State) : s.draw.2.out = s.out := rfl
@[simp] theorem State.draw_pending (s : State) : s.draw.2.pending = s.pending := rfl

/-! ### What an update writes -/

@[simp] theorem State.setJob_jobs (s : State) (j : Nat) (x : Option Job) : (s.setJob j x).jobs = Tbl.set s.jobs j x := rfl
@[simp] theorem State.setCore_cores (s : State) (n : Nat) (x : CoreSt) : (s.setCore n x).cores = Tbl.set s.cores n x := rfl
@[simp] theorem State.setMill_mills (s : State) (m : Nat) (x : Mill) : (s.setMill m x).mills = Tbl.set s.mills m x := rfl
@[simp] theorem State.emit_out (s : State) (o : Out) : (s.emit o).out = o :: s.out := rfl

end Sys2Proof.Machine
end

