-- ==== Sys2Proof/Laws/Tables.lean ====
section
/-! SUPPORT. The sparse tables and memories: what is read after a write, and that every operation of a memory keeps its
canonical form. -/

namespace Sys2Proof

/-! ### Reading after writing -/

/-- A table after one entry is written. -/
theorem Tbl.get_set {α : Type} (d : α) (t : Tbl α) (n : Nat) (v : α) (m : Nat) :
    Tbl.get d (Tbl.set t n v) m = if n = m then v else Tbl.get d t m := by
  induction t with
  | nil => rfl
  | cons c t ih =>
    obtain ⟨k, w⟩ := c
    unfold Tbl.set
    split
    · rfl
    · split
      · rename_i e; subst e
        by_cases h : n = m <;> simp [Tbl.get, h]
      · rename_i e
        by_cases h : k = m
        · subst h; simp [Tbl.get, e]
        · simp [Tbl.get, h, ih]

@[simp] theorem Tbl.get_set_self {α : Type} (d : α) (t : Tbl α) (n : Nat) (v : α) : Tbl.get d (Tbl.set t n v) n = v := by
  simp [Tbl.get_set]

theorem Tbl.get_set_ne {α : Type} (d : α) (t : Tbl α) (n : Nat) (v : α) (m : Nat) (h : n ≠ m) :
    Tbl.get d (Tbl.set t n v) m = Tbl.get d t m := by
  simp [Tbl.get_set, h]

/-! ### The canonical form -/

theorem Tbl.sorted_cons {α : Type} (c : Nat × α) (t : Tbl α) : Tbl.sorted (c :: t) = true ↔ (∀ x ∈ t, c.1 < x.1) ∧ Tbl.sorted t = true := by
  induction t generalizing c with
  | nil => simp [Tbl.sorted]
  | cons d t ih =>
    obtain ⟨k, v⟩ := c
    obtain ⟨k', w⟩ := d
    simp only [Tbl.sorted, Bool.and_eq_true, decide_eq_true_eq, List.mem_cons, forall_eq_or_imp]
    have := ih (k', w)
    constructor
    · rintro ⟨h1, h2⟩
      exact ⟨⟨h1, fun x hx => Nat.lt_trans h1 ((this.1 h2).1 x hx)⟩, h2⟩
    · rintro ⟨⟨h1, _⟩, h2⟩; exact ⟨h1, h2⟩

theorem Tbl.mem_erase {α : Type} (t : Tbl α) (n : Nat) (c : Nat × α) (h : c ∈ Tbl.erase t n) : c ∈ t := by
  induction t with
  | nil => exact h
  | cons d t ih =>
    obtain ⟨k, w⟩ := d
    unfold Tbl.erase at h
    split at h
    · exact List.mem_cons_of_mem _ h
    · rcases List.mem_cons.1 h with h | h
      · exact h ▸ List.mem_cons_self
      · exact List.mem_cons_of_mem _ (ih h)

theorem Tbl.mem_set {α : Type} (t : Tbl α) (n : Nat) (v : α) (c : Nat × α) (h : c ∈ Tbl.set t n v) : c = (n, v) ∨ c ∈ t := by
  induction t with
  | nil => exact .inl (List.mem_singleton.1 h)
  | cons d t ih =>
    obtain ⟨k, w⟩ := d
    unfold Tbl.set at h
    split at h
    · rcases List.mem_cons.1 h with h | h
      · exact .inl h
      · exact .inr h
    · split at h
      · rcases List.mem_cons.1 h with h | h
        · exact .inl h
        · exact .inr (List.mem_cons_of_mem _ h)
      · rcases List.mem_cons.1 h with h | h
        · exact .inr (h ▸ List.mem_cons_self)
        · exact (ih h).imp id (List.mem_cons_of_mem _)

theorem Tbl.sorted_erase {α : Type} (t : Tbl α) (n : Nat) (h : Tbl.sorted t = true) : Tbl.sorted (Tbl.erase t n) = true := by
  induction t with
  | nil => rfl
  | cons d t ih =>
    obtain ⟨k, w⟩ := d
    have h' := (Tbl.sorted_cons _ _).1 h
    unfold Tbl.erase
    split
    · exact h'.2
    · exact (Tbl.sorted_cons _ _).2 ⟨fun x hx => h'.1 x (Tbl.mem_erase _ _ _ hx), ih h'.2⟩

theorem Tbl.sorted_set {α : Type} (t : Tbl α) (n : Nat) (v : α) (h : Tbl.sorted t = true) : Tbl.sorted (Tbl.set t n v) = true := by
  induction t with
  | nil => rfl
  | cons d t ih =>
    obtain ⟨k, w⟩ := d
    have h' := (Tbl.sorted_cons _ _).1 h
    unfold Tbl.set
    split
    · rename_i hn
      exact (Tbl.sorted_cons _ _).2 ⟨fun x hx => by
        rcases List.mem_cons.1 hx with hx | hx
        · exact hx ▸ hn
        · exact Nat.lt_trans hn (h'.1 x hx), h⟩
    · split
      · rename_i hn
        exact (Tbl.sorted_cons _ _).2 ⟨fun x hx => hn ▸ h'.1 x hx, h'.2⟩
      · rename_i h1 h2
        exact (Tbl.sorted_cons _ _).2 ⟨fun x hx => by
          rcases Tbl.mem_set _ _ _ _ hx with hx | hx
          · subst hx; simp only; omega
          · exact h'.1 x hx, ih h'.2⟩

theorem Tbl.sorted_filter {α : Type} (t : Tbl α) (p : Nat × α → Bool) (h : Tbl.sorted t = true) : Tbl.sorted (t.filter p) = true := by
  induction t with
  | nil => rfl
  | cons d t ih =>
    have h' := (Tbl.sorted_cons _ _).1 h
    rw [List.filter_cons]
    split
    · exact (Tbl.sorted_cons _ _).2 ⟨fun x hx => h'.1 x (List.mem_of_mem_filter hx), ih h'.2⟩
    · exact ih h'.2

@[simp] theorem Mem.wf_nil : Mem.wf [] = true := rfl

theorem Mem.wf_iff (m : Mem) : m.wf = true ↔ Tbl.sorted m = true ∧ ∀ c ∈ m, c.2 ≠ 0 := by simp [Mem.wf]

@[simp] theorem Mem.wf_set (m : Mem) (a : Nat) (v : Byte) (h : m.wf = true) : (m.set a v).wf = true := by
  have h' := (Mem.wf_iff m).1 h
  rw [Mem.wf_iff]
  unfold Mem.set
  split
  · exact ⟨Tbl.sorted_erase _ _ h'.1, fun c hc => h'.2 c (Tbl.mem_erase _ _ _ hc)⟩
  · rename_i hv
    exact ⟨Tbl.sorted_set _ _ _ h'.1, fun c hc => by
      rcases Tbl.mem_set _ _ _ _ hc with hc | hc
      · exact hc ▸ hv
      · exact h'.2 c hc⟩

@[simp] theorem Mem.wf_filter (m : Mem) (p : Nat × Byte → Bool) (h : m.wf = true) : Mem.wf (m.filter p) = true := by
  have h' := (Mem.wf_iff m).1 h
  exact (Mem.wf_iff _).2 ⟨Tbl.sorted_filter _ _ h'.1, fun c hc => h'.2 c (List.mem_of_mem_filter hc)⟩

@[simp] theorem Mem.wf_wipe (m : Mem) (a n : Nat) (h : m.wf = true) : (m.wipe a n).wf = true := Mem.wf_filter _ _ h

@[simp] theorem Mem.wf_write (m : Mem) (a : Nat) (b : Bytes) (h : m.wf = true) : (m.write a b).wf = true := by
  induction b generalizing m a with
  | nil => exact h
  | cons v vs ih => exact ih _ _ (Mem.wf_set _ _ _ h)

/-! ### Bytes of a memory -/

/-- A key that a sorted table does not reach reads as the default. -/
theorem Tbl.get_of_lt {α : Type} (d : α) (t : Tbl α) (n : Nat) (h : ∀ c ∈ t, n < c.1) : Tbl.get d t n = d := by
  induction t with
  | nil => rfl
  | cons c t ih =>
    obtain ⟨k, v⟩ := c
    have hk : n < k := h (k, v) List.mem_cons_self
    rw [Tbl.get, if_neg (by omega)]
    exact ih fun c hc => h c (List.mem_cons_of_mem _ hc)

/-- A sorted table after one key is removed. -/
theorem Tbl.get_erase {α : Type} (d : α) (t : Tbl α) (n m : Nat) (h : Tbl.sorted t = true) :
    Tbl.get d (Tbl.erase t n) m = if n = m then d else Tbl.get d t m := by
  induction t with
  | nil => simp [Tbl.erase, Tbl.get]
  | cons c t ih =>
    obtain ⟨k, v⟩ := c
    have h' := (Tbl.sorted_cons _ _).1 h
    unfold Tbl.erase
    split
    · rename_i e; subst e
      by_cases hm : k = m
      · subst hm; simpa using Tbl.get_of_lt d t k h'.1
      · rw [if_neg hm, Tbl.get, if_neg hm]
    · rename_i e
      rw [Tbl.get, ih h'.2, Tbl.get]
      by_cases hm : n = m
      · subst hm; simp [e]
      · simp [hm]

/-- A byte is read after a write as it was written, and every other byte as before. -/
theorem Mem.get_set (m : Mem) (a : Nat) (v : Byte) (b : Nat) (h : m.wf = true) :
    (m.set a v).get b = if a = b then v else m.get b := by
  unfold Mem.set Mem.get
  split
  · rename_i e; rw [Tbl.get_erase _ _ _ _ ((Mem.wf_iff m).1 h).1, e]
  · exact Tbl.get_set ..

/-- Bytes outside a run that is written read as before. -/
theorem Mem.get_write_of_out (m : Mem) (a : Nat) (d : Bytes) (b : Nat) (h : m.wf = true) (hb : b < a ∨ a + d.length ≤ b) :
    (m.write a d).get b = m.get b := by
  induction d generalizing m a with
  | nil => rfl
  | cons v vs ih =>
    rw [List.length_cons] at hb
    rw [Mem.write, ih _ _ (Mem.wf_set _ _ _ h) (by omega), Mem.get_set _ _ _ _ h, if_neg (by omega)]

/-- A byte of a run that is written reads as written. -/
theorem Mem.get_write_of_in (m : Mem) (a : Nat) (d : Bytes) (i : Nat) (h : m.wf = true) (hi : i < d.length) :
    (m.write a d).get (a + i) = d[i] := by
  induction d generalizing m a i with
  | nil => exact absurd hi (Nat.not_lt_zero _)
  | cons v vs ih =>
    rw [Mem.write]
    cases i with
    | zero =>
      rw [Mem.get_write_of_out _ _ _ _ (Mem.wf_set _ _ _ h) (by omega), Mem.get_set _ _ _ _ h]; simp
    | succ i =>
      rw [show a + (i + 1) = a + 1 + i by omega, ih _ _ _ (Mem.wf_set _ _ _ h) (by simpa using hi)]; simp

end Sys2Proof
end

