-- ==== Sys2Proof/Laws/Canonical.lean ====
section
/-! SUPPORT. For each shared operation of the machine: it leaves SRAM, HBM and EEPROM as they are (`_mems`), or it keeps their
canonical form (`_wf`). -/

namespace Sys2Proof.Machine

/-- The two memories and the EEPROM. -/
def State.mems (s : State) : Mem × Mem × Mem := (s.sram, s.hbm, s.eeprom)
@[simp] theorem State.mems_mk (x_pins : Pins) (x_clk : Clk) (x_mills : Tbl Mill) (x_hbms : Tbl Stack) (x_boot : Boot) (x_sec : Sec) (x_grade : Grade) (x_ready : BitVec 64) (x_portA : PortSt) (x_portB : PortSt) (x_eeprom : Mem) (x_period : Nat) (x_periodNext : Nat) (x_periodSet : Bool) (x_reamLen : Nat) (x_reamNext : Nat) (x_sheetInReam : Nat) (x_boundary : Option (Tbl Nat)) (x_reamOn : Bool) (x_ticking : Bool) (x_tick : Nat) (x_reams : BitVec 32) (x_timeoutMs : Nat) (x_selftestHours : Nat) (x_admitA : Bool) (x_admitB : Bool) (x_quotaJobs : Nat) (x_quotaCores : Nat) (x_adminPort : Port) (x_admissions : Nat) (x_jobs : Tbl (Option Job)) (x_cores : Tbl CoreSt) (x_groups : Tbl Group) (x_sparesUsed : Tbl Nat) (x_units : Tbl HUnit) (x_sram : Mem) (x_hbm : Mem) (x_hbmTag : Tbl Nat) (x_headboxes : Tbl Headbox) (x_ingest : Option Ingest) (x_ingestQ : List IngestWait) (x_ingestLast : Port) (x_passes : List Pass) (x_building : List Nat) (x_tableUnits : Tbl (List Nat)) (x_xcOrder : Nat) (x_links : Tbl Link) (x_route : Option Route) (x_spans : Tbl Span) (x_tickGroup : TickGroup) (x_ctr : Tbl Nat) (x_ream : Tbl Nat) (x_pcStorm : Tbl (Option Nat)) (x_pcTag : Tbl (Option Nat)) (x_stests : Tbl STest) (x_modTest : Option ModTest) (x_freeCtr : Nat) (x_out : List Out) (x_pending : List Instr) :
    (State.mk x_pins x_clk x_mills x_hbms x_boot x_sec x_grade x_ready x_portA x_portB x_eeprom x_period x_periodNext x_periodSet x_reamLen x_reamNext x_sheetInReam x_boundary x_reamOn x_ticking x_tick x_reams x_timeoutMs x_selftestHours x_admitA x_admitB x_quotaJobs x_quotaCores x_adminPort x_admissions x_jobs x_cores x_groups x_sparesUsed x_units x_sram x_hbm x_hbmTag x_headboxes x_ingest x_ingestQ x_ingestLast x_passes x_building x_tableUnits x_xcOrder x_links x_route x_spans x_tickGroup x_ctr x_ream x_pcStorm x_pcTag x_stests x_modTest x_freeCtr x_out x_pending).mems = (x_sram, x_hbm, x_eeprom) := rfl
@[simp] theorem State.mems_eta (s : State) : (s.sram, s.hbm, s.eeprom) = s.mems := rfl
@[simp] theorem State.mems_ite (c : Prop) [Decidable c] (a b : State) : (if c then a else b).mems = if c then a.mems else b.mems := by split <;> rfl
@[simp] theorem State.mems_foldl {α : Type} (f : State → α → State) (h : ∀ s x, (f s x).mems = s.mems) (xs : List α) (s : State) :
    (xs.foldl f s).mems = s.mems := by
  induction xs generalizing s with
  | nil => rfl
  | cons x xs ih => rw [List.foldl_cons, ih, h]
@[simp] theorem State.mems_each {α : Type} (s : State) (xs : List α) (f : State → α → State) (h : ∀ s x, (f s x).mems = s.mems) :
    (s.each xs f).mems = s.mems := State.mems_foldl f h xs s
@[simp] theorem State.mems_onPorts (s : State) (f : State → Port → State) (h : ∀ s x, (f s x).mems = s.mems) :
    (s.onPorts f).mems = s.mems := by simp [State.onPorts, h]
/-- Both memories and the EEPROM are canonical. -/
def memsWf (m : Mem × Mem × Mem) : Bool := m.1.wf && m.2.1.wf && m.2.2.wf
theorem memsWf_foldl {α : Type} (f : State → α → State) (hf : ∀ s x, memsWf s.mems = true → memsWf (f s x).mems = true) (xs : List α) (s : State)
    (hs : memsWf s.mems = true) : memsWf (xs.foldl f s).mems = true := by
  induction xs generalizing s with
  | nil => exact hs
  | cons x xs ih => exact ih _ (hf _ _ hs)
@[simp] theorem memsWf_each {α : Type} (s : State) (xs : List α) (f : State → α → State)
    (hf : ∀ s x, memsWf s.mems = true → memsWf (f s x).mems = true) (hs : memsWf s.mems = true) : memsWf (s.each xs f).mems = true :=
  memsWf_foldl f hf xs s hs
theorem memsWf_iff (m : Mem × Mem × Mem) : memsWf m = true ↔ m.1.wf = true ∧ m.2.1.wf = true ∧ m.2.2.wf = true := by
  simp [memsWf, and_assoc]
@[simp] theorem State.setPort_mems (s : State) (p : Port) (x : PortSt) : (State.setPort s p x).mems = s.mems := by
  unfold State.setPort; (repeat' split) <;> simp
@[simp] theorem State.modPort_mems (s : State) (p : Port) (f : PortSt → PortSt) : (State.modPort s p f).mems = s.mems := by
  unfold State.modPort; simp
@[simp] theorem State.setJob_mems (s : State) (j : Nat) (x : Option Job) : (State.setJob s j x).mems = s.mems := by rfl
@[simp] theorem State.modJob_mems (s : State) (j : Nat) (f : Job → Job) : (State.modJob s j f).mems = s.mems := by
  unfold State.modJob; (repeat' split) <;> simp
@[simp] theorem State.setCore_mems (s : State) (n : Nat) (x : CoreSt) : (State.setCore s n x).mems = s.mems := by rfl
@[simp] theorem State.modCore_mems (s : State) (n : Nat) (f : CoreSt → CoreSt) : (State.modCore s n f).mems = s.mems := by rfl
@[simp] theorem State.setMill_mems (s : State) (m : Nat) (x : Mill) : (State.setMill s m x).mems = s.mems := by rfl
@[simp] theorem State.modMill_mems (s : State) (m : Nat) (f : Mill → Mill) : (State.modMill s m f).mems = s.mems := by rfl
@[simp] theorem State.modStack_mems (s : State) (k : Nat) (f : Stack → Stack) : (State.modStack s k f).mems = s.mems := by rfl
@[simp] theorem State.modGroup_mems (s : State) (x : Nat) (f : Group → Group) : (State.modGroup s x f).mems = s.mems := by rfl
@[simp] theorem State.modUnit_mems (s : State) (x : Nat) (f : HUnit → HUnit) : (State.modUnit s x f).mems = s.mems := by rfl
@[simp] theorem State.modHeadbox_mems (s : State) (m : Nat) (f : Headbox → Headbox) : (State.modHeadbox s m f).mems = s.mems := by rfl
@[simp] theorem State.modStest_mems (s : State) (m : Nat) (f : STest → STest) : (State.modStest s m f).mems = s.mems := by rfl
@[simp] theorem State.setRing_mems (s : State) (p : Port) (r : Nat) (x : Ring) : (State.setRing s p r x).mems = s.mems := by
  unfold State.setRing; simp
@[simp] theorem State.draw_mems (s : State) : (State.draw s).2.mems = s.mems := by rfl
@[simp] theorem State.emit_mems (s : State) (o : Out) : (State.emit s o).mems = s.mems := by rfl
@[simp] theorem State.bump_mems (s : State) (key n : Nat) : (State.bump s key n).mems = s.mems := by
  unfold State.bump; simp
@[simp] theorem State.work_mems (s : State) (n i amount : Nat) : (State.work s n i amount).mems = s.mems := by
  unfold State.work; simp
@[simp] theorem State.raise_mems (s : State) (p : Port) (v : Nat) : (State.raise s p v).mems = s.mems := by
  unfold State.raise; simp
@[simp] theorem State.post_mems (s : State) (p : Port) (e : EvRec) : (State.post s p e).mems = s.mems := by
  unfold State.post; simp
@[simp] theorem State.moduleEvent_mems (s : State) (p : Port) (code value : Nat) : (State.moduleEvent s p code value).mems = s.mems := by
  unfold State.moduleEvent; simp
@[simp] theorem State.noteCause_mems (s : State) (code : Nat) : (State.noteCause s code).mems = s.mems := by rfl
@[simp] theorem State.moduleEvents_mems (s : State) (code value : Nat) : (State.moduleEvents s code value).mems = s.mems := by rfl
@[simp] theorem State.mctpEvent_mems (s : State) (code : Nat) : (State.mctpEvent s code).mems = s.mems := by rfl
@[simp] theorem State.jobEvent_mems (s : State) (j type code units : Nat) (body : Bytes) (tick : Option Nat) : (State.jobEvent s j type code units body tick).mems = s.mems := by
  unfold State.jobEvent; (repeat' split) <;> simp
@[simp] theorem State.readyChanged_mems (s : State) : (State.readyChanged s).mems = s.mems := by
  unfold State.readyChanged; simp
@[simp] theorem State.setReady_mems (s : State) (i : Nat) (v : Bool) : (State.setReady s i v).mems = s.mems := by
  unfold State.setReady; simp
@[simp] theorem State.logErr_mems (s : State) (p : Port) (off bar : Nat) (write : Bool) (kind : Nat) : (State.logErr s p off bar write kind).mems = s.mems := by
  unfold State.logErr; simp
@[simp] theorem State.putRec_mems (s : State) (p : Port) (r : ErrRec) : (State.putRec s p r).mems = s.mems := by
  unfold State.putRec; simp
@[simp] theorem State.errRec_mems (s : State) (r : ErrRec) : (State.errRec s r).mems = s.mems := by rfl
@[simp] theorem State.complete_mems (s : State) (p : Port) (r : Nat) (d : Done) : (State.complete s p r d).mems = s.mems := by
  unfold State.complete; dsimp only; (repeat' split) <;> simp
@[simp] theorem State.refuse_mems (s : State) (p : Port) (r status : Nat) : (State.refuse s p r status).mems = s.mems := by
  unfold State.refuse; simp
@[simp] theorem State.hold_mems (s : State) (p : Port) (r : Nat) : (State.hold s p r).mems = s.mems := by
  unfold State.hold; simp
@[simp] theorem State.askXlat_mems (s : State) (p : Port) (pg : Nat × Nat) : (State.askXlat s p pg).mems = s.mems := by
  unfold State.askXlat; simp
@[simp] theorem State.hostWrite_mems (s : State) (p : Port) (pasid va : Nat) (data : Bytes) : (State.hostWrite s p pasid va data).mems = s.mems := by
  unfold State.hostWrite; simp
@[simp] theorem State.askPage_mems (s : State) (p : Port) (r : Nat) (pg : Nat × Nat) (write : Bool) : (State.askPage s p r pg write).mems = s.mems := by
  unfold State.askPage; simp
@[simp] theorem State.turnAway_mems (s : State) (p : Port) (r opcode : Nat) : (State.turnAway s p r opcode).mems = s.mems := by
  unfold State.turnAway; (repeat' split) <;> simp
@[simp] theorem State.modLink_mems (s : State) (k : Nat) (f : Link → Link) : (State.modLink s k f).mems = s.mems := by rfl
@[simp] theorem State.modSpan_mems (s : State) (i : Nat) (f : Span → Span) : (State.modSpan s i f).mems = s.mems := by rfl
@[simp] theorem State.useLink_mems (s : State) (k : Nat) (js : List Nat) : (State.useLink s k js).mems = s.mems := by rfl
@[simp] theorem State.sendIdle_mems (s : State) (k : Nat) (nak : Bool) : (State.sendIdle s k nak).mems = s.mems := by rfl
@[simp] theorem State.owe_mems (s : State) (k cls : Nat) : (State.owe s k cls).mems = s.mems := by rfl
@[simp] theorem State.transmit_mems (s : State) (k : Nat) (f : Flit) : (State.transmit s k f).mems = s.mems := by
  unfold State.transmit; dsimp only; (repeat' split) <;> simp
@[simp] theorem State.pump_mems (n : Nat) (s : State) (k : Nat) : (State.pump n s k).mems = s.mems := by
  induction n generalizing s with
  | zero => rfl
  | succ n ih => unfold State.pump; split; · rfl
                 split; · rfl
                 rw [ih]; simp
@[simp] theorem State.enqueue_mems (s : State) (k : Nat) (fs : List Flit) : (State.enqueue s k fs).mems = s.mems := by
  unfold State.enqueue; simp
@[simp] theorem State.sendMsg_mems (s : State) (dst cls span tag : Nat) (payload : Bytes) (opens : Bool) (ends : Bool) : (State.sendMsg s dst cls span tag payload opens ends).mems = s.mems := by
  unfold State.sendMsg; dsimp only; (repeat' split) <;> simp
@[simp] theorem State.spanSend_mems (s : State) (i cls tag : Nat) (payload : Bytes) : (State.spanSend s i cls tag payload).mems = s.mems := by
  unfold State.spanSend; simp
@[simp] theorem State.resend_mems (s : State) (k : Nat) : (State.resend s k).mems = s.mems := by
  unfold State.resend; simp
@[simp] theorem State.takeAck_mems (s : State) (k : Nat) (h : FlitHdr) : (State.takeAck s k h).mems = s.mems := by
  unfold State.takeAck; simp
@[simp] theorem State.takeFlit_mems (s : State) (k : Nat) (h : FlitHdr) (cls : Nat) : (State.takeFlit s k h cls).mems = s.mems := by
  unfold State.takeFlit; simp
@[simp] theorem State.linkErr_mems (s : State) (k bit : Nat) : (State.linkErr s k bit).mems = s.mems := by rfl
@[simp] theorem State.badFlit_mems (s : State) (k : Nat) : (State.badFlit s k).mems = s.mems := by rfl
@[simp] theorem State.forward_mems (s : State) (h : FlitHdr) (cls : Nat) (payload : Bytes) (via : Option Nat) : (State.forward s h cls payload via).mems = s.mems := by
  unfold State.forward; (repeat' split) <;> simp
@[simp] theorem State.takeIn_mems (s : State) (k cls want : Nat) (h : FlitHdr) (line : FlitLine) (payload : Bytes) (act : State → State)
    (e : ∀ s, (act s).mems = s.mems) : (s.takeIn k cls want h line payload act).mems = s.mems := by
  unfold State.takeIn; split
  · rw [State.badFlit_mems, State.mems_each _ _ _ (fun s m => by simp)]
  · dsimp only; split <;> simp [e]
@[simp] theorem State.takeIn_wf (s : State) (k cls want : Nat) (h : FlitHdr) (line : FlitLine) (payload : Bytes) (act : State → State)
    (hw : memsWf s.mems = true) (e : ∀ s, memsWf s.mems = true → memsWf (act s).mems = true) :
    memsWf (s.takeIn k cls want h line payload act).mems = true := by
  unfold State.takeIn; split
  · rw [State.badFlit_mems, State.mems_each _ _ _ (fun s m => by simp)]; exact hw
  · dsimp only; split
    · exact e _ (by simp [hw])
    · simp [hw]
@[simp] theorem State.receive_mems (s : State) (arr : Option Arrival) (want : Nat) (payload : Bytes) (act : State → State)
    (e : ∀ s, (act s).mems = s.mems) : (s.receive arr want payload act).mems = s.mems := by
  unfold State.receive; (repeat' split) <;> simp [e]
@[simp] theorem State.receive_wf (s : State) (arr : Option Arrival) (want : Nat) (payload : Bytes) (act : State → State)
    (hw : memsWf s.mems = true) (e : ∀ s, memsWf s.mems = true → memsWf (act s).mems = true) : memsWf (s.receive arr want payload act).mems = true := by
  unfold State.receive; split
  · exact e _ hw
  · split
    · exact State.takeIn_wf _ _ _ _ _ _ _ _ hw e
    · exact hw
@[simp] theorem State.wipeGroup_wf (s : State) (x : Nat) (hw : memsWf s.mems = true) : memsWf (s.wipeGroup x).mems = true := by
  have h := (memsWf_iff _).1 hw
  exact (memsWf_iff _).2 ⟨Mem.wf_wipe _ _ _ h.1, h.2⟩
@[simp] theorem State.carry_wf (s : State) (moves : Nat → Bool) (dest : Nat → Nat) (hw : memsWf s.mems = true) :
    memsWf (s.carry moves dest).mems = true := by
  have h := (memsWf_iff _).1 hw
  have g (cs : Mem) : ∀ m : Mem, m.wf = true → Mem.wf (cs.foldl (fun (m : Mem) c => m.set (dest c.1) c.2) m) = true := by
    induction cs with
    | nil => exact fun m hm => hm
    | cons c cs ih => exact fun m hm => ih _ (Mem.wf_set _ _ _ hm)
  exact (memsWf_iff _).2 ⟨h.1, g _ _ (Mem.wf_filter _ _ h.2.1), h.2.2⟩
@[simp] theorem State.moveGranule_wf (s : State) (key : Nat) (hw : memsWf s.mems = true) : memsWf (s.moveGranule key).mems = true := by
  unfold State.moveGranule; dsimp only; split
  · exact State.carry_wf _ _ _ (by simpa using hw)
  · exact hw
@[simp] theorem State.hbmWrite_wf (s : State) (key : Nat) (b : Bytes) (hw : memsWf s.mems = true) : memsWf (s.hbmWrite key b).mems = true := by
  have h := (memsWf_iff _).1 (State.moveGranule_wf s key hw)
  exact (memsWf_iff _).2 ⟨h.1, Mem.wf_write _ _ _ h.2.1, h.2.2⟩
@[simp] theorem State.fillUnit_wf (s : State) (x : Nat) (hw : memsWf s.mems = true) : memsWf (s.fillUnit x).mems = true := by
  have h := (memsWf_iff _).1 hw
  exact (memsWf_iff _).2 ⟨h.1, Mem.wf_filter _ _ h.2.1, h.2.2⟩
@[simp] theorem State.jobCores_mems (s : State) (j : Nat) (f : CoreSt → CoreSt) : (State.jobCores s j f).mems = s.mems := by
  unfold State.jobCores; (repeat' split) <;> simp
@[simp] theorem State.endKeyStreams_mems (s : State) (j : Nat) : (State.endKeyStreams s j).mems = s.mems := by
  unfold State.endKeyStreams; simp
@[simp] theorem State.clearDir_mems (s : State) (j : Nat) (set : Option Bytes) : (State.clearDir s j set).mems = s.mems := by rfl
@[simp] theorem State.closeWins_mems (s : State) (j : Nat) : (State.closeWins s j).mems = s.mems := by rfl
@[simp] theorem State.abortAll_mems (s : State) (p : Port) (j : Nat) (keep : Option Nat) : (State.abortAll s p j keep).mems = s.mems := by
  unfold State.abortAll; simp
@[simp] theorem State.abortWaiting_mems (s : State) (j : Nat) : (s.abortWaiting j).mems = s.mems := by
  unfold State.abortWaiting; dsimp only; split; · rfl
  rw [State.modJob_mems, State.mems_each _ _ _ (by simp), State.mems_each _ _ _ (fun s k => by (repeat' split) <;> simp)]; simp
@[simp] theorem State.endRequests_mems (s : State) (p : Port) : (State.endRequests s p).mems = s.mems := by
  unfold State.endRequests; simp
@[simp] theorem State.haltJob_mems (s : State) (j : Nat) (m : CoreMode) : (State.haltJob s j m).mems = s.mems := by
  unfold State.haltJob; simp
@[simp] theorem State.stopErr_mems (s : State) (j : Nat) (i : StopInfo) : (State.stopErr s j i).mems = s.mems := by
  unfold State.stopErr; simp
@[simp] theorem State.stopRec_mems (s : State) (j : Nat) (i : StopInfo) : (State.stopRec s j i).mems = s.mems := by
  unfold State.stopRec; (repeat' split) <;> simp
@[simp] theorem State.stopNow_mems (s : State) (j : Nat) (i : StopInfo) (tell : Bool) : (State.stopNow s j i tell).mems = s.mems := by
  unfold State.stopNow; dsimp only; (repeat' split) <;> simp
@[simp] theorem State.stopJob_mems (s : State) (j : Nat) (i : StopInfo) (tell : Bool) : (State.stopJob s j i tell).mems = s.mems := by
  unfold State.stopJob; (repeat' split) <;> simp
@[simp] theorem State.stopAny_mems (s : State) (j : Nat) (i : StopInfo) (tell : Bool) : (State.stopAny s j i tell).mems = s.mems := by
  unfold State.stopAny; (repeat' split) <;> simp
@[simp] theorem State.program_mems (s : State) (n code detail slot : Nat) (handle : Nat) (data : Bytes) : (State.program s n code detail slot handle data).mems = s.mems := by
  unfold State.program; simp
@[simp] theorem State.beginWipe_mems (s : State) (j : Nat) : (State.beginWipe s j).mems = s.mems := by
  unfold State.beginWipe; simp
@[simp] theorem State.killJob_mems (s : State) (j : Nat) : (State.killJob s j).mems = s.mems := by
  unfold State.killJob; dsimp only; (repeat' split) <;> simp
@[simp] theorem State.tellStop_mems (s : State) (j cause : Nat) : (State.tellStop s j cause).mems = s.mems := by
  unfold State.tellStop; (repeat' split) <;> simp
@[simp] theorem State.endJob_mems (s : State) (j cause : Nat) (keep : Option Nat) : (State.endJob s j cause keep).mems = s.mems := by
  unfold State.endJob; (repeat' split) <;> simp
@[simp] theorem State.beginReplay_mems (s : State) (j : Nat) (q : Quiesce) : (State.beginReplay s j q).mems = s.mems := by
  unfold State.beginReplay; dsimp only; (repeat' split) <;> simp
@[simp] theorem State.notePoints_mems (s : State) : (State.notePoints s).mems = s.mems := by
  unfold State.notePoints; simp
@[simp] theorem State.lost_wf (s : State) (p : Power) (hw : memsWf s.mems = true) : memsWf (s.lost p).mems = true :=
  (memsWf_iff _).2 ⟨rfl, rfl, ((memsWf_iff _).1 hw).2.2⟩
@[simp] theorem State.powerFail_mems (s : State) : (State.powerFail s).mems = s.mems := by
  unfold State.powerFail; simp
@[simp] theorem State.safeShutdown_wf (s : State) (hw : memsWf s.mems = true) : memsWf (State.safeShutdown s).mems = true := by
  unfold State.safeShutdown; (repeat' split) <;> simp [hw]
@[simp] theorem State.trip_wf (s : State) (hw : memsWf s.mems = true) : memsWf (State.trip s).mems = true := by
  unfold State.trip; simp [hw]
@[simp] theorem State.vinRead_mems (s : State) (vin : Nat) : (State.vinRead s vin).mems = s.mems := by
  unfold State.vinRead; simp
@[simp] theorem State.restStacks_mems (s : State) : (State.restStacks s).mems = s.mems := by
  unfold State.restStacks; simp
@[simp] theorem State.freezeNow_mems (s : State) : (State.freezeNow s).mems = s.mems := by
  unfold State.freezeNow; simp
@[simp] theorem State.thermal_mems (s : State) : (State.thermal s).mems = s.mems := by
  unfold State.thermal; simp
@[simp] theorem State.sampled_mems (s : State) (r : Readings) : (State.sampled s r).mems = s.mems := by
  unfold State.sampled; simp
@[simp] theorem State.frozenSample_mems (s : State) (r : Readings) : (State.frozenSample s r).mems = s.mems := by
  unfold State.frozenSample; simp
@[simp] theorem State.lowerMills_mems (s : State) (ranks : Nat) (pt : CapPoint) : (s.lowerMills ranks pt).mems = s.mems := by
  unfold State.lowerMills; dsimp only
  rw [State.mems_each _ _ _ (fun s m => by simp), State.mems_each _ _ _ (fun s m => by simp)]
@[simp] theorem State.lowerFloor_mems (s : State) (pt : CapPoint) : (State.lowerFloor s pt).mems = s.mems := by
  unfold State.lowerFloor; simp
@[simp] theorem State.freeActs_mems (s : State) : (State.freeActs s).mems = s.mems := by
  unfold State.freeActs; simp
@[simp] theorem State.rampMill_mems (s : State) (m : Nat) : (State.rampMill s m).mems = s.mems := by
  unfold State.rampMill; simp
@[simp] theorem State.noteRefs_mems (s : State) : (State.noteRefs s).mems = s.mems := by
  unfold State.noteRefs; simp
@[simp] theorem State.bufPut_mems (s : State) (p : Port) (c : Bytes) (off : Nat) (data : Bytes) : (State.bufPut s p c off data).mems = s.mems := by
  unfold State.bufPut; (repeat' split) <;> simp
@[simp] theorem State.writeBuffer_mems (s : State) (p : Port) (r : Nat) (ok : Bool) (bytes : Bytes) (d : Done) (written : Nat) : (State.writeBuffer s p r ok bytes d written).mems = s.mems := by
  unfold State.writeBuffer; dsimp only; (repeat' split) <;> simp
@[simp] theorem State.failRec_mems (s : State) (code unit index : Nat) : (State.failRec s code unit index).mems = s.mems := by rfl
@[simp] theorem State.controlUp_mems (s : State) : (State.controlUp s).mems = s.mems := by
  unfold State.controlUp; simp
@[simp] theorem State.startImage_mems (s : State) (b : Bool) (i : FwImage) (recovered : Bool) : (State.startImage s b i recovered).mems = s.mems := by
  unfold State.startImage; simp
@[simp] theorem State.bootSlots_mems (s : State) (bs : List Bool) : (s.bootSlots bs).mems = s.mems := by
  induction bs generalizing s with
  | nil => rfl
  | cons b bs ih => unfold State.bootSlots; (repeat' split) <;> simp [ih]
@[simp] theorem State.purge_mems (s : State) : (State.purge s).mems = s.mems := by
  unfold State.purge; simp
@[simp] theorem State.endSessions_mems (s : State) (p : Port) : (State.endSessions s p).mems = s.mems := by
  unfold State.endSessions; simp
@[simp] theorem State.tokenDone_mems (s : State) (w : TokenWait) : (State.tokenDone s w).mems = s.mems := by
  unfold State.tokenDone; simp
@[simp] theorem State.endAllSessions_mems (s : State) : (State.endAllSessions s).mems = s.mems := by
  unfold State.endAllSessions; simp
@[simp] theorem State.finishToken_mems (s : State) : (State.finishToken s).mems = s.mems := by
  unfold State.finishToken; dsimp only; (repeat' split) <;> simp
@[simp] theorem State.tokenWiped_mems (s : State) (j : Nat) : (State.tokenWiped s j).mems = s.mems := by
  unfold State.tokenWiped; simp
@[simp] theorem State.retireNow_mems (s : State) (w : TokenWait) : (State.retireNow s w).mems = s.mems := by
  unfold State.retireNow; simp
@[simp] theorem State.idle_wf (s : State) (hw : memsWf s.mems = true) : memsWf s.idle.mems = true := by
  unfold State.idle; (repeat' split) <;> simp [hw]
@[simp] theorem State.useToken_mems (s : State) (p : Port) (r : Nat) (t : Bytes) : (State.useToken s p r t).mems = s.mems := by
  unfold State.useToken; simp
@[simp] theorem State.token_mems (s : State) (kind : Nat) (p : Port) (r : Nat) (token : Option Bytes) (c : Checks) : (State.token s kind p r token c).mems = s.mems := by
  unfold State.token; dsimp only; (repeat' split) <;> simp
@[simp] theorem State.tearEntry_wf (s : State) (e : Bytes) (hw : memsWf s.mems = true) : memsWf (s.tearEntry e).mems = true := by
  unfold State.tearEntry; exact State.lost_wf _ _ hw
@[simp] theorem State.attestNow_mems (s : State) (p : Port) (r : Nat) (ok : Bool) (digest c : Bytes) : (State.attestNow s p r ok digest c).mems = s.mems := by
  unfold State.attestNow; dsimp only; (repeat' split) <;> simp
@[simp] theorem State.runDummies_mems (s : State) : (State.runDummies s).mems = s.mems := by rfl
@[simp] theorem State.runPke_mems (s : State) (q : PkeReq) : (State.runPke s q).mems = s.mems := by rfl
@[simp] theorem State.spdm_mems (s : State) (p : Port) (code : Nat) (body : Bytes) : (State.spdm s p code body).mems = s.mems := by rfl
@[simp] theorem State.putByte_wf (s : State) (p : Place) (v : Byte) (hw : memsWf s.mems = true) : memsWf (s.putByte p v).mems = true := by
  cases p with
  | sram a => exact (memsWf_iff _).2 ⟨Mem.wf_set _ _ _ ((memsWf_iff _).1 hw).1, ((memsWf_iff _).1 hw).2⟩
  | hbm a => exact State.hbmWrite_wf _ _ _ hw
@[simp] theorem State.tagSector_mems (s : State) (key tag : Nat) : (State.tagSector s key tag).mems = s.mems := by rfl
@[simp] theorem State.refill_wf (s : State) (key : Nat) (hw : memsWf s.mems = true) : memsWf (s.refill key).mems = true := by
  have h := (memsWf_iff _).1 (State.moveGranule_wf s key hw)
  exact (memsWf_iff _).2 ⟨h.1, Mem.wf_wipe _ _ _ h.2.1, h.2.2⟩
@[simp] theorem State.writeSectors_wf (s : State) (place : Nat → Nat) (off : Nat) (b : Bytes) (tag : Nat) (hw : memsWf s.mems = true) :
    memsWf (s.writeSectors place off b tag).mems = true :=
  memsWf_each _ _ _ (fun s i hs => by dsimp only; rw [State.tagSector_mems]; exact State.hbmWrite_wf _ _ _ hs) hw
@[simp] theorem State.keepUndo_mems (s : State) (j key : Nat) : (State.keepUndo s j key).mems = s.mems := by
  unfold State.keepUndo; simp
@[simp] theorem State.writeByte_wf (s : State) (j : Nat) (undo : Bool) (p : Place) (v : Byte) (hw : memsWf s.mems = true) : memsWf (State.writeByte s j undo p v).mems = true := by
  unfold State.writeByte; (repeat' split) <;> simp [hw]
@[simp] theorem State.fillWet_wf (s : State) (j b : Nat) (e : Handle) (k : Blk) (hw : memsWf s.mems = true) : memsWf (State.fillWet s j b e k).mems = true := by
  unfold State.fillWet; dsimp only; (repeat' split) <;> simp +contextual [hw]
@[simp] theorem State.openBlock_wf (s : State) (j h : Nat) (e : Handle) (b lo hi : Nat) (hw : memsWf s.mems = true) : memsWf (State.openBlock s j h e b lo hi).mems = true := by
  unfold State.openBlock; dsimp only; (repeat' split) <;> simp [hw]
theorem State.writes_wf (data : Bytes) (g : State → Nat → Byte → State) (h : ∀ s n v, memsWf s.mems = true → memsWf (g s n v).mems = true)
    (a : State × Nat) (hw : memsWf a.1.mems = true) :
    memsWf (data.foldl (fun (a : State × Nat) v => (g a.1 a.2 v, a.2 + 1)) a).1.mems = true := by
  induction data generalizing a with
  | nil => exact hw
  | cons v vs ih => exact ih _ (h _ _ _ hw)
@[simp] theorem State.store_wf (s : State) (j h off : Nat) (data : Bytes) (hw : memsWf s.mems = true) : memsWf (s.store j h off data).mems = true := by
  have k (e : Handle) : memsWf (if e.durable ∧ 0 < data.length then
      s.each (fromTo (off / 4096) ((off + data.length - 1) / 4096 + 1)) fun s b => s.openBlock j h e b off (off + data.length)
      else s).mems = true := by
    split
    · exact memsWf_each _ _ _ (fun s b hs => State.openBlock_wf _ _ _ _ _ _ _ hs) hw
    · exact hw
  unfold State.store; dsimp only; split; · exact hw
  split
  · exact k _
  · exact State.writes_wf data (fun s n v => s.writeByte j _ (s.place _ (Job.writeBase _ h _ n) n) v)
      (fun s n v hs => State.writeByte_wf _ _ _ _ _ hs) _ (k _)
@[simp] theorem State.retireRec_mems (s : State) (res index : Nat) : (State.retireRec s res index).mems = s.mems := by rfl
@[simp] theorem State.retired_mems (s : State) (code res index : Nat) : (State.retired s code res index).mems = s.mems := by rfl
@[simp] theorem State.retireStack_mems (s : State) (k : Nat) : (State.retireStack s k).mems = s.mems := by
  unfold State.retireStack; simp
@[simp] theorem State.dropReleases_mems (s : State) (j : Nat) : (State.dropReleases s j).mems = s.mems := by
  unfold State.dropReleases; simp
@[simp] theorem State.stopLost_mems (s : State) (js hit : List Nat) (i : StopInfo) : (State.stopLost s js hit i).mems = s.mems := by
  unfold State.stopLost; simp
@[simp] theorem State.retirePc_mems (s : State) (pc : Nat) (training : Bool) : (State.retirePc s pc training).mems = s.mems := by
  unfold State.retirePc; simp
@[simp] theorem State.wakeStacks_mems (s : State) (m : Nat) : (State.wakeStacks s m).mems = s.mems := by
  unfold State.wakeStacks; simp
@[simp] theorem State.noteTag_mems (s : State) (pc : Nat) : (State.noteTag s pc).mems = s.mems := by
  unfold State.noteTag; simp
@[simp] theorem State.storageFault_mems (s : State) (j : Nat) (z : Zone) (res : ResIx) (e : ReadErr) (core slot bundle handle : Nat) (inRelease : Bool) : (State.storageFault s j z res e core slot bundle handle inRelease).mems = s.mems := by
  unfold State.storageFault; dsimp only; (repeat' split) <;> simp
@[simp] theorem State.readFault_mems (s : State) (j h off : Nat) (e : ReadErr) (core slot bundle : Nat) : (State.readFault s j h off e core slot bundle).mems = s.mems := by
  unfold State.readFault; simp
@[simp] theorem State.tagRecord_mems (s : State) (j h off t : Nat) : (State.tagRecord s j h off t).mems = s.mems := by
  unfold State.tagRecord; simp
@[simp] theorem State.lateFault_mems (s : State) (j h off : Nat) (wet : List Nat) (e : ReadErr) (core slot bundle : Nat) : (State.lateFault s j h off wet e core slot bundle).mems = s.mems := by
  unfold State.lateFault; simp
@[simp] theorem State.seqFault_mems (s : State) (n slot detail : Nat) : (State.seqFault s n slot detail).mems = s.mems := by
  unfold State.seqFault; simp
@[simp] theorem State.opFault_mems (s : State) (n slot detail : Nat) (off : Nat) : (State.opFault s n slot detail off).mems = s.mems := by
  unfold State.opFault; simp
@[simp] theorem State.staleFault_mems (s : State) (n slot detail h off : Nat) : (State.staleFault s n slot detail h off).mems = s.mems := by
  unfold State.staleFault; simp
@[simp] theorem State.absentFault_mems (s : State) (n slot fmts engines : Nat) : (State.absentFault s n slot fmts engines).mems = s.mems := by
  unfold State.absentFault; simp
@[simp] theorem State.setAt_mems (s : State) (n pos : Nat) : (State.setAt s n pos).mems = s.mems := by
  unfold State.setAt; simp
@[simp] theorem State.enterAt_mems (s : State) (n pos : Nat) : (State.enterAt s n pos).mems = s.mems := by
  unfold State.enterAt; simp
@[simp] theorem State.enterAll_mems (s : State) (j : Nat) (xs : List (Nat × Nat)) : (State.enterAll s j xs).mems = s.mems := by
  unfold State.enterAll; dsimp only; (repeat' split) <;> simp
@[simp] theorem State.arrive_mems (s : State) (j : Nat) (x : Job) : (s.arrive j x).mems = s.mems := by
  unfold State.arrive; exact State.mems_each _ _ _ fun s m => by (try dsimp only); (repeat' split) <;> simp
@[simp] theorem State.releaseBar_mems (s : State) (j b : Nat) : (State.releaseBar s j b).mems = s.mems := by
  unfold State.releaseBar; dsimp only; (repeat' split) <;> simp
@[simp] theorem State.serveWait_mems (s : State) (j n : Nat) : (State.serveWait s j n).mems = s.mems := by
  unfold State.serveWait; (repeat' split) <;> simp
@[simp] theorem State.settle_mems (s : State) (j : Nat) : (State.settle s j).mems = s.mems := by
  unfold State.settle; dsimp only; (repeat' split) <;> simp
@[simp] theorem State.signal_mems (s : State) (j sem k core slot bundle : Nat) : (State.signal s j sem k core slot bundle).mems = s.mems := by
  unfold State.signal; (repeat' split) <;> simp
@[simp] theorem State.sendSig_mems (s : State) (j sem k core slot bundle : Nat) : (State.sendSig s j sem k core slot bundle).mems = s.mems := by
  unfold State.sendSig; dsimp only; (repeat' split) <;> simp
@[simp] theorem onCore_mems (n : Nat) (f : CoreSt → CoreSt) (s : State) : (onCore n f s).mems = s.mems := by
  simp [onCore]
@[simp] theorem State.endBundle_mems (s : State) (n : Nat) (b : Branch) (m : CoreMode) : (State.endBundle s n b m).mems = s.mems := by
  unfold State.endBundle; dsimp only; (repeat' split) <;> simp
@[simp] theorem State.sigNow_mems (s : State) (span sem k : Nat) : (State.sigNow s span sem k).mems = s.mems := by
  unfold State.sigNow; (repeat' split) <;> simp
@[simp] theorem State.takeSnap_mems (s : State) (j : Nat) : (State.takeSnap s j).mems = s.mems := by
  unfold State.takeSnap; simp
@[simp] theorem State.wipeScratch_wf (s : State) (t : Tbl Handle) (hw : memsWf s.mems = true) : memsWf (s.wipeScratch t).mems = true := by
  have h := (memsWf_iff _).1 hw
  exact (memsWf_iff _).2 ⟨Mem.wf_filter _ _ h.1, h.2⟩
@[simp] theorem State.restoreHbm_wf (s : State) (undo : Tbl Bytes) (hw : memsWf s.mems = true) : memsWf (s.restoreHbm undo).mems = true := by
  unfold State.restoreHbm
  refine memsWf_each _ _ _ (fun s c hs => ?_) hw
  dsimp only
  split
  · exact State.hbmWrite_wf _ _ _ (by simp [hs])
  · simp [hs]
@[simp] theorem State.quiesceDone_wf (s : State) (j : Nat) (hw : memsWf s.mems = true) : memsWf (s.quiesceDone j).mems = true := by
  unfold State.quiesceDone; dsimp only; split; · exact hw
  split; · exact hw
  rw [State.modJob_mems, State.mems_each _ _ _ (by simp)]
  apply State.restoreHbm_wf
  apply State.wipeScratch_wf
  split
  · rw [State.mems_each _ _ _ (by simp), State.mems_each _ _ _ (by simp)]; exact hw
  · rw [State.mems_each _ _ _ (by simp)]; exact hw
@[simp] theorem State.portCheck_mems (s : State) (p : Port) : (State.portCheck s p).mems = s.mems := by
  unfold State.portCheck; simp
@[simp] theorem State.dropWork_mems (s : State) (p : Port) : (State.dropWork s p).mems = s.mems := by rfl
@[simp] theorem State.dropTests_mems (s : State) (p : Port) : (s.dropTests p).mems = s.mems := by
  unfold State.dropTests; dsimp only; rw [State.mems_each _ _ _ (fun s m => by simp)]; rfl
@[simp] theorem State.portReset_mems (s : State) (p : Port) : (State.portReset s p).mems = s.mems := by
  unfold State.portReset; simp
@[simp] theorem State.endSecure_mems (s : State) (p : Port) : (State.endSecure s p).mems = s.mems := by
  unfold State.endSecure; simp
@[simp] theorem State.flrNow_mems (s : State) (p : Port) : (State.flrNow s p).mems = s.mems := by
  unfold State.flrNow; simp
@[simp] theorem State.stick_mems (s : State) (b : BitVec 3) : (State.stick s b).mems = s.mems := by rfl
@[simp] theorem State.announce_mems (s : State) (code : Nat) : (State.announce s code).mems = s.mems := by rfl
@[simp] theorem State.unroute_mems (s : State) (k : Nat) : (State.unroute s k).mems = s.mems := by rfl
@[simp] theorem State.enterLimp_mems (s : State) : (State.enterLimp s).mems = s.mems := by
  unfold State.enterLimp; simp
@[simp] theorem State.trainLinks_mems (s : State) : (State.trainLinks s).mems = s.mems := by rfl
@[simp] theorem State.switchTo_mems (s : State) (src : Source) : (State.switchTo s src).mems = s.mems := by
  unfold State.switchTo; simp
@[simp] theorem State.refFail_mems (s : State) (ref : Source) : (State.refFail s ref).mems = s.mems := by
  unfold State.refFail; dsimp only; (repeat' split) <;> simp
@[simp] theorem State.refStops_mems (s : State) (ref : Source) : (State.refStops s ref).mems = s.mems := by
  unfold State.refStops; dsimp only; (repeat' split) <;> simp
@[simp] theorem State.reselect_mems (s : State) : (State.reselect s).mems = s.mems := by
  unfold State.reselect; (repeat' split) <;> simp
@[simp] theorem State.reselectIdle_mems (s : State) : (State.reselectIdle s).mems = s.mems := by
  unfold State.reselectIdle; simp
@[simp] theorem State.fmcWrite_mems (s : State) (p : Port) (v : Reg) : (State.fmcWrite s p v).mems = s.mems := by
  unfold State.fmcWrite; simp
@[simp] theorem State.warmReset_wf (s : State) (hw : memsWf s.mems = true) : memsWf s.warmReset.mems = true := by
  have h : (s.each s.jobNums fun s j => match (s.job j).bind Job.span with
      | none => s
      | some i => s.spanSend i clsControl kindStop (le 2 0x0703)).mems = s.mems :=
    State.mems_each _ _ _ fun s m => by (repeat' split) <;> simp
  unfold State.warmReset; dsimp only; rw [State.reselectIdle_mems, State.raise_mems, State.raise_mems, State.noteCause_mems, State.readyChanged_mems]
  exact (memsWf_iff _).2 ⟨rfl, rfl, (congrArg (fun m => m.2.2.wf) h).trans ((memsWf_iff _).1 hw).2.2⟩
@[simp] theorem State.startWarm_wf (s : State) (hw : memsWf s.mems = true) : memsWf (State.startWarm s).mems = true := by
  unfold State.startWarm; dsimp only; (repeat' split) <;> simp [hw]
@[simp] theorem State.essArm_mems (s : State) (p : Port) (v : Reg) : (State.essArm s p v).mems = s.mems := by
  unfold State.essArm; simp
@[simp] theorem State.essGo_wf (s : State) (p : Port) (v : Reg) (hw : memsWf s.mems = true) : memsWf (State.essGo s p v).mems = true := by
  unfold State.essGo; dsimp only; (repeat' split) <;> simp [hw]
@[simp] theorem State.essKill_mems (s : State) (p : Port) (v : Reg) : (State.essKill s p v).mems = s.mems := by
  unfold State.essKill; simp
@[simp] theorem State.essFlr_mems (s : State) (p : Port) (v : Reg) : (State.essFlr s p v).mems = s.mems := by
  unfold State.essFlr; simp
@[simp] theorem State.fieldInvalid_mems (s : State) (off : Nat) : (State.fieldInvalid s off).mems = s.mems := by rfl
@[simp] theorem State.badGroup_mems (s : State) (m g : Nat) : (State.badGroup s m g).mems = s.mems := by
  unfold State.badGroup; simp
@[simp] theorem State.coreFault_mems (s : State) (n : Nat) (contained : Bool) (code : Nat) : (State.coreFault s n contained code).mems = s.mems := by
  unfold State.coreFault; simp
@[simp] theorem State.cutTest_mems (s : State) (m n : Nat) : (State.cutTest s m n).mems = s.mems := by
  unfold State.cutTest; dsimp only; (repeat' split) <;> simp
@[simp] theorem State.millCheck_mems (s : State) (m : Nat) : (State.millCheck s m).mems = s.mems := by
  unfold State.millCheck; simp
@[simp] theorem State.retireCore_mems (s : State) (n : Nat) : (State.retireCore s n).mems = s.mems := by
  unfold State.retireCore; simp
@[simp] theorem State.datapathCheck_mems (s : State) (n : Nat) : (State.datapathCheck s n).mems = s.mems := by
  unfold State.datapathCheck; (repeat' split) <;> simp
@[simp] theorem State.engineCheck_mems (s : State) (n slot bundle : Nat) (m : Touched) (e : EngCheck) : (State.engineCheck s n slot bundle m e).mems = s.mems := by
  unfold State.engineCheck; (repeat' split) <;> simp
@[simp] theorem State.unwrite_wf (s : State) (j : Nat) (m : Touched) (e : EngCheck) (hw : memsWf s.mems = true) :
    memsWf (s.unwrite j m e).mems = true := by
  have k : memsWf (s.each m.old fun s c => s.store j c.1 c.2.1 c.2.2).mems = true :=
    memsWf_each _ _ _ (fun s c hs => State.store_wf _ _ _ _ _ hs) hw
  unfold State.unwrite; dsimp only; (repeat' split) <;> first | exact k | exact hw
@[simp] theorem State.storeBits_wf (s : State) (j h b w v : Nat) (hw : memsWf s.mems = true) : memsWf (State.storeBits s j h b w v).mems = true := by
  unfold State.storeBits; simp [hw]
@[simp] theorem State.storeTile_wf (s : State) (j : Nat) (f : Fmt) (l : Loc) (y : Layout) (t : Tile) (hw : memsWf s.mems = true) : memsWf (State.storeTile s j f l y t).mems = true := by
  unfold State.storeTile; (repeat' split) <;> simp +contextual [hw]
@[simp] theorem CoreSt.drainRun_wf (c : CoreSt) (n : Nat) (d : Drain) (b : OBufSt) (s : State) (hw : memsWf s.mems = true) :
    memsWf (c.drainRun n d b s).mems = true := by
  unfold CoreSt.drainRun; dsimp only; rw [State.modCore_mems]; split <;> simp [hw]
@[simp] theorem State.nttLimb_wf (s : State) (j : Nat) (x : Ntt) (fwd : Bool) (i : Nat) (hw : memsWf s.mems = true) : memsWf (State.nttLimb s j x fwd i).mems = true := by
  unfold State.nttLimb; dsimp only; (repeat' split) <;> simp [hw]
@[simp] theorem State.vecResult_mems (s : State) (n : Nat) (v : VDst) (t : Tile) (w : Word) : (State.vecResult s n v t w).mems = s.mems := by rfl
@[simp] theorem State.vecTile_mems (s : State) (n : Nat) (c : CoreSt) (v : VDst) (f : Nat → Nat × Hist) : (State.vecTile s n c v f).mems = s.mems := by rfl
@[simp] theorem State.noteRaces_mems (s : State) (j : Nat) (others : List XcQ) (foot : List Nat) (h : Nat) (offs : List Nat) : (State.noteRaces s j others foot h offs).mems = s.mems := by
  unfold State.noteRaces; dsimp only; (repeat' split) <;> simp
@[simp] theorem State.queueCopy_mems (s : State) (n : Nat) (hd : CopyHead) (staging h : Nat) (runs : List (Nat × Nat)) (mem : Touched) : (State.queueCopy s n hd staging h runs mem).mems = s.mems := by
  unfold State.queueCopy; simp
@[simp] theorem State.copyTag_mems (s : State) (n h : Nat) (runs : List (Nat × Nat)) (go : State) (e : go.mems = s.mems) :
    (s.copyTag n h runs go).mems = s.mems := by
  unfold State.copyTag; dsimp only; split <;> simp [e]
@[simp] theorem State.copyTag_wf (s : State) (n h : Nat) (runs : List (Nat × Nat)) (go : State) (hw : memsWf s.mems = true)
    (e : memsWf go.mems = true) : memsWf (s.copyTag n h runs go).mems = true := by
  unfold State.copyTag; dsimp only; split <;> simp [hw, e]
@[simp] theorem State.writeCells_wf (s : State) (j : Nat) (f : Fmt) (y : Layout) (m : Mat) (ws : List (Cell × Nat)) (hw : memsWf s.mems = true) : memsWf (State.writeCells s j f y m ws).mems = true := by
  unfold State.writeCells; (repeat' split) <;> simp +contextual [hw]
@[simp] theorem State.copyMoves_mems (s : State) (j : Nat) : (State.copyMoves s j).mems = s.mems := by
  unfold State.copyMoves; simp
@[simp] theorem State.xcRaceWrite_mems (s : State) (p : Port) (v : Reg) : (s.xcRaceWrite p v).mems = s.mems := by
  unfold State.xcRaceWrite; exact State.mems_each _ _ _ fun s m => by (try dsimp only); (repeat' split) <;> simp
@[simp] theorem State.pageStop_mems (s : State) (j code : Nat) (core slot bundle h channel element va : Nat) (inRelease : Bool) : (State.pageStop s j code core slot bundle h channel element va inRelease).mems = s.mems := by
  unfold State.pageStop; simp
@[simp] theorem State.storeRing_wf (s : State) (j h at_ : Nat) (data : Bytes) (hw : memsWf s.mems = true) : memsWf (State.storeRing s j h at_ data).mems = true := by
  unfold State.storeRing; dsimp only; (repeat' split) <;> simp [hw]
@[simp] theorem State.stageElement_wf (s : State) (j : Nat) (x : Job) (c : Chan) (data : Bytes) (hw : memsWf s.mems = true) : memsWf (State.stageElement s j x c data).mems = true := by
  unfold State.stageElement; simp [hw]
@[simp] theorem State.strmWrite_wf (s : State) (j : Nat) (x : Job) (c : Chan) (data : Bytes) (hw : memsWf s.mems = true) : memsWf (State.strmWrite s j x c data).mems = true := by
  unfold State.strmWrite; (repeat' split) <;> simp [hw]
@[simp] theorem State.strmSignal_mems (s : State) (j n : Nat) (c : Chan) : (State.strmSignal s j n c).mems = s.mems := by
  unfold State.strmSignal; dsimp only; (repeat' split) <;> simp
@[simp] theorem State.moveElement_wf (s : State) (j n k : Nat) (x : Job) (c : Chan) (data : Bytes) (hw : memsWf s.mems = true) : memsWf (State.moveElement s j n k x c data).mems = true := by
  unfold State.moveElement; simp [hw]
@[simp] theorem State.wantPage_mems (s : State) (p : Port) (pg : Nat × Nat) : (State.wantPage s p pg).mems = s.mems := by
  unfold State.wantPage; simp
@[simp] theorem State.mapChans_mems (s : State) (j : Nat) (f : Chan → Chan) : (State.mapChans s j f).mems = s.mems := by
  unfold State.mapChans; simp
@[simp] theorem State.retryPage_mems (s : State) (p : Port) (pg : Nat × Nat) (j : Nat) : (State.retryPage s p pg j).mems = s.mems := by
  unfold State.retryPage; dsimp only; (repeat' split) <;> simp
@[simp] theorem State.refusePage_mems (s : State) (code : Nat) (p : Port) (pg : Nat × Nat) (j : Nat) : (State.refusePage s code p pg j).mems = s.mems := by
  unfold State.refusePage; (repeat' split) <;> simp
@[simp] theorem State.retryRing_mems (s : State) (p : Port) (pg : Nat × Nat) (r : Nat) : (State.retryRing s p pg r).mems = s.mems := by
  unfold State.retryRing; dsimp only; (repeat' split) <;> simp
@[simp] theorem State.refuseRing_mems (s : State) (p : Port) (pg : Nat × Nat) (r : Nat) : (State.refuseRing s p pg r).mems = s.mems := by
  unfold State.refuseRing; simp
@[simp] theorem State.refuseAll_mems (s : State) (code : Nat) (p : Port) (pg : Nat × Nat) : (State.refuseAll s code p pg).mems = s.mems := by
  unfold State.refuseAll; simp
@[simp] theorem State.fillDir_mems (s : State) (j slot : Nat) (k : KeySet) : (State.fillDir s j slot k).mems = s.mems := by
  unfold State.fillDir; (repeat' split) <;> simp
@[simp] theorem State.markDir_mems (s : State) (j : Nat) (set : Bytes) (ix st : Nat) : (State.markDir s j set ix st).mems = s.mems := by rfl
@[simp] theorem State.notePasses_mems (s : State) : (State.notePasses s).mems = s.mems := by rfl
@[simp] theorem State.stageBlock_mems (s : State) (m q b : Nat) (t : KeyStream) : (State.stageBlock s m q b t).mems = s.mems := by
  unfold State.stageBlock; simp
@[simp] theorem State.grantKeys_mems (n : Nat) (s : State) (m : Nat) : (State.grantKeys n s m).mems = s.mems := by
  induction n generalizing s with
  | zero => rfl
  | succ n ih => unfold State.grantKeys; split <;> simp [ih]
@[simp] theorem State.grant_mems (s : State) (m : Nat) : (State.grant s m).mems = s.mems := by
  unfold State.grant; simp
@[simp] theorem State.lostShard_mems (s : State) (j : Nat) (r : KeyRing) (ix : Nat) : (State.lostShard s j r ix).mems = s.mems := by
  unfold State.lostShard; simp
@[simp] theorem State.requestPass_mems (s : State) (j : Nat) (k : KeySet) (ix : Nat) : (State.requestPass s j k ix).mems = s.mems := by
  unfold State.requestPass; dsimp only; (repeat' split) <;> simp
@[simp] theorem State.beginStream_mems (s : State) (m q : Nat) (t : KeyStream) (k : KeySet) : (State.beginStream s m q t k).mems = s.mems := by
  unfold State.beginStream; simp
@[simp] theorem State.dropPass_mems (s : State) (j slot ix : Nat) : (State.dropPass s j slot ix).mems = s.mems := by
  unfold State.dropPass; dsimp only; (repeat' split) <;> simp
@[simp] theorem State.retryKeys_mems (s : State) (j : Nat) : (s.retryKeys j).mems = s.mems := by
  unfold State.retryKeys; split; · rfl
  exact State.mems_each _ _ _ fun s c => by dsimp only; (repeat' split) <;> simp
@[simp] theorem State.resumeKeys_mems (s : State) (j : Nat) : (s.resumeKeys j).mems = s.mems := by
  unfold State.resumeKeys; simp
@[simp] theorem State.countWork_mems (s : State) (n : Nat) (p : ParamSet) (w : Work) : (s.countWork n p w).mems = s.mems := by
  simp only [State.countWork, State.work_mems]
@[simp] theorem State.ctStop_mems (s : State) (n : Nat) (z0 : CtVerdict) : (State.ctStop s n z0).mems = s.mems := by
  unfold State.ctStop; (repeat' split) <;> simp
@[simp] theorem State.feedOp_mems (s : State) (n : Nat) (q : CtQ) : (State.feedOp s n q).mems = s.mems := by
  unfold State.feedOp; dsimp only; (repeat' split) <;> simp
@[simp] theorem State.feedOps_mems (s : State) (m : Nat) : (State.feedOps s m).mems = s.mems := by
  unfold State.feedOps; simp
@[simp] theorem State.ctStart_wf (s : State) (n : Nat) (o : CtOp) (p : ParamSet) (hs : List CtHdr) (d : Pred) (hw : memsWf s.mems = true) :
    memsWf (s.ctStart n o p hs d).mems = true := by
  unfold State.ctStart; dsimp only; rw [State.feedOp_mems, State.modCore_mems]
  exact memsWf_each _ _ _ (fun s w hs => by simp [hs]) (by simp [hw])
@[simp] theorem State.haltWaiting_mems (s : State) (j : Nat) : (State.haltWaiting s j).mems = s.mems := by
  unfold State.haltWaiting; simp
@[simp] theorem State.requestRefresh_mems (s : State) (n slot : Nat) (auto : Bool) (cts : List Loc) :
    (s.requestRefresh n slot auto cts).mems = s.mems := by
  unfold State.requestRefresh; dsimp only; rw [State.haltWaiting_mems]
  exact State.mems_each _ _ _ fun s m => by (repeat' split) <;> simp
@[simp] theorem State.haltForRefresh_mems (s : State) (n slot : Nat) (cts : List Loc) : (State.haltForRefresh s n slot cts).mems = s.mems := by
  unfold State.haltForRefresh; simp
@[simp] theorem State.placeKey_wf (s : State) (j : Nat) (runs : List (Nat × Nat)) (b : Bytes) (hw : memsWf s.mems = true) : memsWf (State.placeKey s j runs b).mems = true := by
  unfold State.placeKey; simp [hw]
@[simp] theorem State.wipeKey_wf (s : State) (j : Nat) (runs : List (Nat × Nat)) (hw : memsWf s.mems = true) :
    memsWf (s.wipeKey j runs).mems = true :=
  memsWf_each _ _ _ (fun s r hs => memsWf_each _ _ _ (fun s i hs => State.refill_wf _ _ hs) hs) hw
@[simp] theorem State.stagingTag_mems (s : State) (p : Port) (j : Nat) (c : Bytes) : (State.stagingTag s p j c).mems = s.mems := by
  unfold State.stagingTag; dsimp only; (repeat' split) <;> simp
@[simp] theorem State.takeIngest_mems (n : Nat) (s : State) : (State.takeIngest n s).mems = s.mems := by
  induction n generalizing s with
  | zero => rfl
  | succ n ih => unfold State.takeIngest; dsimp only; (repeat' split) <;> first | rfl | (rw [ih]; first | rfl | simp)
@[simp] theorem State.ingestStep_mems (s : State) : (State.ingestStep s).mems = s.mems := by
  unfold State.ingestStep; simp
@[simp] theorem State.endIngest_wf (s : State) (g : Ingest) (hw : memsWf s.mems = true) : memsWf (s.endIngest g).mems = true := by
  unfold State.endIngest; dsimp only; split; · simp [hw]
  split; · simp [hw]
  rw [State.complete_mems, State.mems_foldl _ (fun s x => by simp)]; exact State.placeKey_wf _ _ _ _ (by simpa using hw)
@[simp] theorem State.takeTable_mems (s : State) (i : Nat) : (State.takeTable s i).mems = s.mems := by
  unfold State.takeTable; simp
@[simp] theorem State.startBuild_mems (s : State) (k : KeySet) : (State.startBuild s k).mems = s.mems := by
  unfold State.startBuild; (repeat' split) <;> simp
@[simp] theorem State.bindNow_mems (s : State) (j : Nat) (k : KeySet) : (State.bindNow s j k).mems = s.mems := by
  unfold State.bindNow; dsimp only; (repeat' split) <;> simp
@[simp] theorem State.unbindNow_wf (s : State) (j : Nat) (k : KeySet) (hw : memsWf s.mems = true) : memsWf (State.unbindNow s j k).mems = true := by
  unfold State.unbindNow; simp; (repeat' split) <;> simp [hw]
@[simp] theorem State.takeBind_wf (s : State) (j : Nat) (keep : List Bytes) (o : BindOp) (hw : memsWf s.mems = true) : memsWf (State.takeBind s j keep o).mems = true := by
  unfold State.takeBind; simp; (repeat' split) <;> simp [hw]
@[simp] theorem State.takeBinds_wf (s : State) (j : Nat) (keep : List Bytes) (hw : memsWf s.mems = true) :
    memsWf (s.takeBinds j keep).mems = true :=
  memsWf_each _ _ _ (fun s o hs => State.takeBind_wf _ _ _ _ hs) hw
@[simp] theorem State.expanderCheck_mems (s : State) (m i : Nat) : (State.expanderCheck s m i).mems = s.mems := by
  unfold State.expanderCheck; simp
@[simp] theorem State.damage_mems (s : State) (j : Nat) (id : Bytes) (ix : Nat) : (State.damage s j id ix).mems = s.mems := by
  unfold State.damage; simp
@[simp] theorem State.endStream_mems (s : State) (m q : Nat) (t : KeyStream) : (State.endStream s m q t).mems = s.mems := by
  unfold State.endStream; simp
@[simp] theorem State.ackBlock_mems (s : State) (m q n : Nat) (t : KeyStream) : (State.ackBlock s m q n t).mems = s.mems := by
  unfold State.ackBlock; simp
@[simp] theorem State.passOut_mems (s : State) (link src : Nat) (keyset : Bytes) (index d0 d1 : Nat) : (State.passOut s link src keyset index d0 d1).mems = s.mems := by
  unfold State.passOut; (repeat' split) <;> simp
@[simp] theorem State.passArrives_mems (s : State) (id : Bytes) (ix : Nat) (first : Bool) (b : Bytes) : (State.passArrives s id ix first b).mems = s.mems := by
  unfold State.passArrives; simp
@[simp] theorem State.passIn_mems (s : State) (link : Nat) (h : FlitHdr) (keyset payload : Bytes) : (State.passIn s link h keyset payload).mems = s.mems := by
  unfold State.passIn; dsimp only; (repeat' split) <;> simp
@[simp] theorem State.beginPower_mems (s : State) (w : PendPower) : (State.beginPower s w).mems = s.mems := by
  unfold State.beginPower; simp
@[simp] theorem State.endPower_mems (s : State) (j : Nat) (couch : Bool) : (State.endPower s j couch).mems = s.mems := by
  unfold State.endPower; dsimp only; (repeat' split) <;> simp
@[simp] theorem State.couchHandles_mems (s : State) (j : Nat) : (State.couchHandles s j).mems = s.mems := by
  unfold State.couchHandles; dsimp only; (repeat' split) <;> simp
@[simp] theorem State.guaranteeRec_mems (s : State) (j kind place cause adm new : Nat) (down : Bool) : (State.guaranteeRec s j kind place cause adm new down).mems = s.mems := by
  unfold State.guaranteeRec; simp
@[simp] theorem State.reportCore_mems (s : State) (j : Nat) (x : Job) : (State.reportCore s j x).mems = s.mems := by
  unfold State.reportCore; simp
@[simp] theorem State.reportKeys_mems (s : State) (j : Nat) (x : Job) : (State.reportKeys s j x).mems = s.mems := by
  unfold State.reportKeys; simp
@[simp] theorem State.reportLat_mems (s : State) (j : Nat) (x : Job) : (State.reportLat s j x).mems = s.mems := by
  unfold State.reportLat; simp
@[simp] theorem State.reportGuarantees_mems (s : State) : (State.reportGuarantees s).mems = s.mems := by
  unfold State.reportGuarantees; simp
@[simp] theorem State.startRelease_mems (s : State) (j : Nat) : (State.startRelease s j).mems = s.mems := by
  unfold State.startRelease; (repeat' split) <;> simp
@[simp] theorem State.sendEntry_mems (s : State) (j : Nat) (e : RelEntry) : (State.sendEntry s j e).mems = s.mems := by
  unfold State.sendEntry; dsimp only; (repeat' split) <;> simp
@[simp] theorem State.finishRelease_mems (s : State) (j : Nat) (r : Release) : (State.finishRelease s j r).mems = s.mems := by
  unfold State.finishRelease; dsimp only; (repeat' split) <;> simp
@[simp] theorem State.writeEntries_mems (j n : Nat) (s : State) : (State.writeEntries j n s).mems = s.mems := by
  induction n generalizing s with
  | zero => rfl
  | succ n ih => unfold State.writeEntries; (repeat' split) <;> simp [ih]
@[simp] theorem State.staleEntry_mems (s : State) (j : Nat) (p : RelEntry) (k : Nat) : (State.staleEntry s j p k).mems = s.mems := by
  unfold State.staleEntry; simp
@[simp] theorem State.meetEntry_mems (s : State) (j : Nat) (p : RelEntry) (e : ReadErr) : (State.meetEntry s j p e).mems = s.mems := by
  unfold State.meetEntry; (repeat' split) <;> simp
@[simp] theorem State.releaseEndNow_wf (s : State) (span stream seq bytes : Nat) (hw : memsWf s.mems = true) : memsWf (State.releaseEndNow s span stream seq bytes).mems = true := by
  unfold State.releaseEndNow; simp; (repeat' split) <;> simp [hw]
@[simp] theorem State.grantNow_mems (s : State) (span stream credits : Nat) : (State.grantNow s span stream credits).mems = s.mems := by
  unfold State.grantNow; (repeat' split) <;> simp
@[simp] theorem State.grantTo_mems (s : State) (span m stream credits : Nat) : (State.grantTo s span m stream credits).mems = s.mems := by
  unfold State.grantTo; simp
@[simp] theorem State.grantRoom_mems (s : State) (j span : Nat) : (State.grantRoom s j span).mems = s.mems := by
  unfold State.grantRoom; (repeat' split) <;> simp
@[simp] theorem State.commitAreas_mems (s : State) (j : Nat) : (s.commitAreas j).mems = s.mems := by
  unfold State.commitAreas; dsimp only; split; · rfl
  rw [State.modJob_mems]
  exact State.mems_each _ _ _ fun s m => by (try dsimp only); (repeat' split) <;> simp
@[simp] theorem State.queueRelease_mems (s : State) (j : Nat) (es : List RelEntry) (final inter : Bool) : (State.queueRelease s j es final inter).mems = s.mems := by
  unfold State.queueRelease; dsimp only; (repeat' split) <;> simp
@[simp] theorem State.endTest_mems (s : State) (m : Nat) (u : SlotTest) (status : Nat) : (State.endTest s m u status).mems = s.mems := by
  unfold State.endTest; dsimp only; (repeat' split) <;> simp
@[simp] theorem State.askSuspend_mems (s : State) (j : Nat) : (State.askSuspend s j).mems = s.mems := by
  unfold State.askSuspend; simp
@[simp] theorem State.beginTest_mems (s : State) (m : Nat) (u : SlotTest) (spare : Bool) : (State.beginTest s m u spare).mems = s.mems := by
  unfold State.beginTest; simp
@[simp] theorem State.startRequest_mems (s : State) (m : Nat) (q : Nat × Bool × Port × Nat) : (State.startRequest s m q).mems = s.mems := by
  unfold State.startRequest; dsimp only; (repeat' split) <;> simp
@[simp] theorem State.startTurn_mems (s : State) (m : Nat) : (State.startTurn s m).mems = s.mems := by
  unfold State.startTurn; dsimp only; (repeat' split) <;> simp
@[simp] theorem State.nextTest_mems (s : State) (m : Nat) : (State.nextTest s m).mems = s.mems := by
  unfold State.nextTest; dsimp only; (repeat' split) <;> simp
@[simp] theorem State.stepTest_mems (s : State) (m j : Nat) (u : SlotTest) : (State.stepTest s m j u).mems = s.mems := by
  unfold State.stepTest; simp
@[simp] theorem State.testStep_mems (s : State) (m j : Nat) : (State.testStep s m j).mems = s.mems := by
  unfold State.testStep; simp
@[simp] theorem State.testSteps_mems (s : State) (j : Nat) : (State.testSteps s j).mems = s.mems := by
  unfold State.testSteps; simp
@[simp] theorem State.saveImages_wf (s : State) (j : Nat) (hw : memsWf s.mems = true) : memsWf (s.saveImages j).mems = true := by
  unfold State.saveImages; split
  · exact memsWf_each _ _ _ (fun s n hs => State.writeSectors_wf _ _ _ _ _ (by simpa using hs)) hw
  · exact hw
@[simp] theorem State.suspendNow_wf (s : State) (j : Nat) (hw : memsWf s.mems = true) : memsWf (State.suspendNow s j).mems = true := by
  unfold State.suspendNow; (repeat' split) <;> simp [hw]
@[simp] theorem State.modStart_mems (s : State) : (State.modStart s).mems = s.mems := by
  unfold State.modStart; (repeat' split) <;> simp
@[simp] theorem State.testFailed_mems (s : State) (res index sig : Nat) : (State.testFailed s res index sig).mems = s.mems := by rfl
@[simp] theorem State.stopMill_mems (s : State) (m : Nat) (res : ResIx) : (State.stopMill s m res).mems = s.mems := by
  unfold State.stopMill; simp
@[simp] theorem State.loseCore_mems (s : State) (m n : Nat) : (State.loseCore s m n).mems = s.mems := by
  unfold State.loseCore; simp
@[simp] theorem State.retireSlot_mems (s : State) (m k sig : Nat) : (State.retireSlot s m k sig).mems = s.mems := by
  unfold State.retireSlot; dsimp only; (repeat' split) <;> simp
@[simp] theorem State.blockFailed_mems (s : State) (sig : Nat) (z0 : Block) : (State.blockFailed s sig z0).mems = s.mems := by
  unfold State.blockFailed; dsimp only; (repeat' split) <;> simp
@[simp] theorem State.takeImages_mems (s : State) (t : ModTest) : (State.takeImages s t).mems = s.mems := by
  unfold State.takeImages; simp
@[simp] theorem State.dropImages_wf (s : State) (t : ModTest) (hw : memsWf s.mems = true) : memsWf (s.dropImages t).mems = true :=
  memsWf_each _ _ _ (fun s u hs => by simp [hs]) hw
@[simp] theorem State.modScan_wf (s : State) (t : ModTest) (b : Block) (pass : Bool) (sig : Nat) (hw : memsWf s.mems = true) :
    memsWf (s.modScan t b pass sig).mems = true := by
  unfold State.modScan; extract_lets t1 s1 s2 s3 s4 s5
  have h2 : memsWf s2.mems = true := by simp only [s2]; split <;> simp [s1, hw]
  split
  · have h3 : memsWf s3.mems = true := State.dropImages_wf _ _ (by simpa using h2)
    have h4 : s4.mems = s3.mems := State.mems_each _ _ _ fun s k => by simp
    rw [State.testSteps_mems]; simp only [s5]; split <;> simp [h4, h3]
  · exact h2
@[simp] theorem State.jtagFuse_mems (s : State) (t : JtagTarget) : (State.jtagFuse s t).mems = s.mems := by
  unfold State.jtagFuse; dsimp only; (repeat' split) <;> simp
@[simp] theorem State.jtag_mems (s : State) (t : JtagTarget) : (State.jtag s t).mems = s.mems := by
  unfold State.jtag; dsimp only; (repeat' split) <;> simp
@[simp] theorem State.leaveCouch_mems (s : State) (j : Nat) : (State.leaveCouch s j).mems = s.mems := by
  unfold State.leaveCouch; (repeat' split) <;> simp
@[simp] theorem State.newStride_mems (s : State) (j : Nat) : (State.newStride s j).mems = s.mems := by
  unfold State.newStride; simp
@[simp] theorem State.commit_wf (s : State) (j : Nat) (final inter : Bool) (keep : List Bytes) (hw : memsWf s.mems = true) : memsWf (State.commit s j final inter keep).mems = true := by
  unfold State.commit; (repeat' split) <;> simp [hw]
@[simp] theorem State.ordinaryCouch_wf (s : State) (j : Nat) (hw : memsWf s.mems = true) : memsWf (s.ordinaryCouch j).mems = true := by
  unfold State.ordinaryCouch; split; · exact hw
  split
  · rw [State.abortWaiting_mems, State.modJob_mems]; exact State.commit_wf _ _ _ _ _ hw
  · rw [State.leaveCouch_mems, State.testSteps_mems]; exact State.suspendNow_wf _ _ (State.commit_wf _ _ _ _ _ hw)
@[simp] theorem State.couchDue_wf (s : State) (j : Nat) (hw : memsWf s.mems = true) : memsWf (State.couchDue s j).mems = true := by
  unfold State.couchDue; (repeat' split) <;> simp +contextual [hw]
@[simp] theorem State.storeFree_wf (s : State) (j : Nat) (h : Option Nat) (off n : Nat) (hw : memsWf s.mems = true) : memsWf (State.storeFree s j h off n).mems = true := by
  unfold State.storeFree; simp [hw]
@[simp] theorem State.saveCore_wf (s : State) (j n : Nat) (hw : memsWf s.mems = true) : memsWf (State.saveCore s j n).mems = true := by
  unfold State.saveCore; simp [hw]
@[simp] theorem State.peerHalt_mems (s : State) (j : Nat) (x : Job) : (State.peerHalt s j x).mems = s.mems := by
  unfold State.peerHalt; simp
@[simp] theorem State.haltCore_wf (s : State) (core : Nat) (x : Job) (hw : memsWf s.mems = true) : memsWf (s.haltCore core x).mems = true := by
  unfold State.haltCore; extract_lets c stands; split
  · exact hw
  · exact State.saveCore_wf _ _ _ (by simpa using hw)
@[simp] theorem State.macroPasses_mems (s : State) (j : Nat) : (State.macroPasses s j).mems = s.mems := by
  unfold State.macroPasses; (repeat' split) <;> simp
@[simp] theorem State.interludeCommit_wf (s : State) (j : Nat) (hw : memsWf s.mems = true) : memsWf (s.interludeCommit j).mems = true := by
  unfold State.interludeCommit; split; · exact hw
  rw [State.macroPasses_mems]
  apply State.commit_wf
  rw [State.modJob_mems]
  exact memsWf_each _ _ _ (fun s n hs => State.saveCore_wf _ _ _ hs) hw
@[simp] theorem State.repulpWork_mems (s : State) (j : Nat) (p : ParamSet) : (State.repulpWork s j p).mems = s.mems := by
  unfold State.repulpWork; simp
@[simp] theorem State.refreshCt_wf (s : State) (j : Nat) (keys : Bytes) (l : Loc) (hw : memsWf s.mems = true) : memsWf (State.refreshCt s j keys l).mems = true := by
  unfold State.refreshCt; dsimp only; (repeat' split) <;> simp +contextual [hw]
@[simp] theorem State.dirtyWork_wf (s : State) (j : Nat) (cts : List Loc) (hw : memsWf s.mems = true) : memsWf (State.dirtyWork s j cts).mems = true := by
  unfold State.dirtyWork; (repeat' split) <;> simp [hw]
@[simp] theorem State.insertedRec_mems (s : State) (j : Nat) (r : RepReq) : (State.insertedRec s j r).mems = s.mems := by
  unfold State.insertedRec; simp
@[simp] theorem State.macroCommit_wf (s : State) (j : Nat) (last : Bool) (hw : memsWf s.mems = true) :
    memsWf (s.macroCommit j last).mems = true := by
  unfold State.macroCommit; dsimp only
  split; · exact hw
  split; · rw [State.macroPasses_mems]; exact State.commit_wf _ _ _ _ _ hw
  rw [State.mems_each _ _ _ (by simp), State.macroPasses_mems]
  apply State.commit_wf
  rw [State.mems_each _ _ _ (by simp), State.modJob_mems]
  exact State.dirtyWork_wf _ _ _ (memsWf_each _ _ _ (fun s l hs => State.refreshCt_wf _ _ _ _ hs) hw)
@[simp] theorem State.unhalt_mems (s : State) (j : Nat) (cores : List Nat) : (State.unhalt s j cores).mems = s.mems := by
  unfold State.unhalt; simp
@[simp] theorem State.resumeNow_wf (s : State) (j : Nat) (hw : memsWf s.mems = true) : memsWf (s.resumeNow j).mems = true := by
  unfold State.resumeNow; dsimp only; split; · exact hw
  split; · exact hw
  rw [State.settle_mems, State.unhalt_mems, State.testSteps_mems]
  apply State.suspendNow_wf
  rw [State.modJob_mems, State.mems_each _ _ _ (by simp)]
  exact State.wipeScratch_wf _ _ hw
@[simp] theorem State.tableReplay_mems (s : State) (j : Nat) (r : ResIx) : (State.tableReplay s j r).mems = s.mems := by
  unfold State.tableReplay; simp
@[simp] theorem State.tableError_mems (s : State) (i : Nat) (r : ResIx) : (State.tableError s i r).mems = s.mems := by
  unfold State.tableError; simp
@[simp] theorem State.macroRead_mems (s : State) (j : Nat) (x : Job) (off : Nat) : (State.macroRead s j x off).mems = s.mems := by
  unfold State.macroRead; (repeat' split) <;> simp
@[simp] theorem State.lateTick_mems (s : State) (j : Nat) : (State.lateTick s j).mems = s.mems := by
  unfold State.lateTick; simp
@[simp] theorem State.deadlockStop_mems (s : State) (j : Nat) (tell : Bool) : (State.deadlockStop s j tell).mems = s.mems := by
  unfold State.deadlockStop; (repeat' split) <;> simp
@[simp] theorem State.commitSpan_wf (s : State) (j : Nat) (hw : memsWf s.mems = true) : memsWf (State.commitSpan s j).mems = true := by
  unfold State.commitSpan; (repeat' split) <;> simp [hw]
@[simp] theorem State.deferSpan_mems (s : State) (j : Nat) : (State.deferSpan s j).mems = s.mems := by
  unfold State.deferSpan; (repeat' split) <;> simp
@[simp] theorem State.rollbackSpan_mems (s : State) (i j : Nat) (lost : Bool) : (State.rollbackSpan s i j lost).mems = s.mems := by
  unfold State.rollbackSpan; simp
@[simp] theorem State.takeDecision_wf (s : State) (i j seq : Nat) (d : Decision) (lost : Bool) (hw : memsWf s.mems = true) : memsWf (State.takeDecision s i j seq d lost).mems = true := by
  unfold State.takeDecision; dsimp only; (repeat' split) <;> simp [hw]
@[simp] theorem State.decideAs_wf (s : State) (i : Nat) (d : Decision) (hw : memsWf s.mems = true) : memsWf (State.decideAs s i d).mems = true := by
  unfold State.decideAs; dsimp only; (repeat' split) <;> simp [hw]
@[simp] theorem State.stopSpan_mems (s : State) (i code : Nat) : (State.stopSpan s i code).mems = s.mems := by
  unfold State.stopSpan; dsimp only; (repeat' split) <;> simp
@[simp] theorem State.judge_wf (s : State) (i : Nat) (hw : memsWf s.mems = true) : memsWf (State.judge s i).mems = true := by
  unfold State.judge; dsimp only; (repeat' split) <;> simp [hw]
@[simp] theorem State.takeVote_wf (s : State) (i m seq : Nat) (v : Vote) (k d : Nat) (dead : Bool) (hw : memsWf s.mems = true) : memsWf (State.takeVote s i m seq v k d dead).mems = true := by
  unfold State.takeVote; dsimp only; (repeat' split) <;> simp [hw]
@[simp] theorem State.castVote_wf (s : State) (i j : Nat) (v : Vote) (dead : Bool) (hw : memsWf s.mems = true) : memsWf (State.castVote s i j v dead).mems = true := by
  unfold State.castVote; dsimp only; (repeat' split) <;> simp [hw]
@[simp] theorem State.voteNow_wf (s : State) (span m seq : Nat) (v : Vote) (divK duty : Nat) (dead : Bool) (hw : memsWf s.mems = true) : memsWf (State.voteNow s span m seq v divK duty dead).mems = true := by
  unfold State.voteNow; simp; (repeat' split) <;> simp [hw]
@[simp] theorem State.decisionNow_wf (s : State) (span seq : Nat) (d : Decision) (lost : Bool) (hw : memsWf s.mems = true) : memsWf (State.decisionNow s span seq d lost).mems = true := by
  unfold State.decisionNow; simp; (repeat' split) <;> simp [hw]
@[simp] theorem State.answerDecision_mems (s : State) (span m seq : Nat) : (State.answerDecision s span m seq).mems = s.mems := by
  unfold State.answerDecision; (repeat' split) <;> simp
@[simp] theorem State.launch_mems (s : State) (j : Nat) : (State.launch s j).mems = s.mems := by
  unfold State.launch; dsimp only; (repeat' split) <;> simp
@[simp] theorem State.startNow_mems (s : State) (span tick hops : Nat) (agree : Bool) : (State.startNow s span tick hops agree).mems = s.mems := by
  unfold State.startNow; dsimp only; (repeat' split) <;> simp
@[simp] theorem State.peerStop_mems (s : State) (span cause : Nat) : (State.peerStop s span cause).mems = s.mems := by
  unfold State.peerStop; dsimp only; (repeat' split) <;> simp
@[simp] theorem State.latchReam_mems (s : State) : (State.latchReam s).mems = s.mems := by
  unfold State.latchReam; dsimp only; (repeat' split) <;> simp
@[simp] theorem State.overrunNow_mems (s : State) (j : Nat) : (State.overrunNow s j).mems = s.mems := by
  unfold State.overrunNow; simp
@[simp] theorem State.interludeDue_wf (s : State) (j : Nat) (hw : memsWf s.mems = true) : memsWf (State.interludeDue s j).mems = true := by
  unfold State.interludeDue; (repeat' split) <;> simp [hw]
@[simp] theorem State.closeTick_wf (s : State) (hw : memsWf s.mems = true) : memsWf s.closeTick.mems = true := by
  unfold State.closeTick
  rw [State.latchReam_mems]
  refine memsWf_each _ _ _ (fun s j hs => ?_) hw
  apply State.resumeNow_wf
  apply State.interludeDue_wf
  apply State.couchDue_wf
  rw [State.overrunNow_mems]; exact hs
@[simp] theorem State.beginStride_mems (s : State) (j : Nat) : (s.beginStride j).mems = s.mems := by
  unfold State.beginStride; dsimp only; split; · rfl
  rw [State.settle_mems, State.enterAll_mems, State.mems_each _ _ _ (fun s m => by simp)]
  split <;> simp
@[simp] theorem State.foldExc_mems (s : State) (j : Nat) : (State.foldExc s j).mems = s.mems := by
  unfold State.foldExc; dsimp only; (repeat' split) <;> simp
@[simp] theorem State.countSheet_mems (s : State) (j : Nat) (x : Job) : (State.countSheet s j x).mems = s.mems := by
  unfold State.countSheet; simp
@[simp] theorem State.closeSheet_mems (s : State) (j : Nat) : (State.closeSheet s j).mems = s.mems := by
  unfold State.closeSheet; dsimp only; (repeat' split) <;> simp
@[simp] theorem State.endSheet_wf (s : State) (j : Nat) (x : Job) (hw : memsWf s.mems = true) : memsWf (State.endSheet s j x).mems = true := by
  unfold State.endSheet; dsimp only; (repeat' split) <;> simp [hw]
@[simp] theorem State.faultVote_wf (s : State) (j : Nat) (x : Job) (hw : memsWf s.mems = true) : memsWf (s.faultVote j x).mems = true := by
  unfold State.faultVote
  refine memsWf_each _ _ _ (fun s i hs => ?_) hw
  split
  · exact State.castVote_wf _ _ _ _ _ hs
  · exact hs
@[simp] theorem State.tickJob_wf (s : State) (j : Nat) (hw : memsWf s.mems = true) : memsWf (State.tickJob s j).mems = true := by
  unfold State.tickJob; dsimp only; (repeat' split) <;> simp +contextual [hw]
@[simp] theorem State.countModule_mems (s : State) : (State.countModule s).mems = s.mems := by
  unfold State.countModule; simp
@[simp] theorem State.reamTick_mems (s : State) : (State.reamTick s).mems = s.mems := by
  unfold State.reamTick; simp
@[simp] theorem State.tickNow_wf (s : State) (hw : memsWf s.mems = true) : memsWf s.tickNow.mems = true := by
  unfold State.tickNow; extract_lets s1 s2 s3 s4 s5 s6
  have h2 : memsWf s2.mems = true := by
    rw [show s2.mems = s1.mems from State.mems_each _ _ _ fun s k => by simp]; simp [s1, hw]
  have h3 : memsWf s3.mems = true := by
    rw [show s3.mems = s2.mems by simp only [s3]; rw [State.reamTick_mems]; exact State.mems_each _ _ _ fun s j => by simp]; exact h2
  have h5 : memsWf s5.mems = true := by
    rw [show s5.mems = _ from State.mems_each _ _ _ fun s k => by simp]
    exact memsWf_each _ _ _ (fun s j hs => State.tickJob_wf s j hs) (by simpa [s4] using h3)
  rw [State.modStart_mems, State.testSteps_mems, State.reportGuarantees_mems, show s6.mems = s5.mems from State.mems_each _ _ _ fun s k => by simp]
  exact h5
@[simp] theorem State.stormRec_mems (s : State) (r : ResIx) : (State.stormRec s r).mems = s.mems := by rfl
@[simp] theorem State.stormJobs_mems (s : State) (js : List Nat) (r : ResIx) : (State.stormJobs s js r).mems = s.mems := by
  unfold State.stormJobs; simp
@[simp] theorem State.retireGroup_mems (s : State) (m x : Nat) : (State.retireGroup s m x).mems = s.mems := by
  unfold State.retireGroup; dsimp only; (repeat' split) <;> simp
@[simp] theorem State.groupStorm_mems (s : State) (m g : Nat) : (State.groupStorm s m g).mems = s.mems := by
  unfold State.groupStorm; dsimp only; (repeat' split) <;> simp
@[simp] theorem State.pcStormNow_mems (s : State) (pc : Nat) : (State.pcStormNow s pc).mems = s.mems := by
  unfold State.pcStormNow; simp
@[simp] theorem State.damageKey_mems (s : State) (j key : Nat) : (State.damageKey s j key).mems = s.mems := by
  unfold State.damageKey; (repeat' split) <;> simp
@[simp] theorem State.lostSector_wf (s : State) (key : Nat) (hw : memsWf s.mems = true) : memsWf (s.lostSector key).mems = true := by
  unfold State.lostSector; split <;> simp [hw]
@[simp] theorem State.lostGranule_wf (s : State) (pc byte : Nat) (hw : memsWf s.mems = true) : memsWf (s.lostGranule pc byte).mems = true := by
  unfold State.lostGranule; dsimp only; split
  · exact memsWf_each _ _ _ (fun s k hs => by simp [hs]) hw
  · rw [State.mems_each _ _ _ (by simp)]; exact hw
@[simp] theorem State.endMigration_wf (s : State) (pc : Nat) (hw : memsWf s.mems = true) : memsWf (State.endMigration s pc).mems = true := by
  unfold State.endMigration; simp [hw]
@[simp] theorem State.scrubError_wf (s : State) (pc byte : Nat) (hw : memsWf s.mems = true) : memsWf (State.scrubError s pc byte).mems = true := by
  unfold State.scrubError; dsimp only; (repeat' split) <;> simp [hw]
@[simp] theorem State.dropCtr_mems (s : State) (gone : Nat → Bool) : (State.dropCtr s gone).mems = s.mems := by rfl
@[simp] theorem State.makeJob_mems (s : State) (p : Port) (q : JobReq) (j : Nat) (g : Grant) : (State.makeJob s p q j g).mems = s.mems := by
  unfold State.makeJob; simp
@[simp] theorem State.placeImage_wf (s : State) (j : Nat) (b : Bytes) (hw : memsWf s.mems = true) : memsWf (State.placeImage s j b).mems = true := by
  unfold State.placeImage; simp [hw]
@[simp] theorem State.applyPolicy_mems (s : State) (c : Bytes) : (State.applyPolicy s c).mems = s.mems := by
  unfold State.applyPolicy; simp
@[simp] theorem State.routeLink_mems (s : State) (old : Option Route) (new : Route) (k : Nat) : (State.routeLink s old new k).mems = s.mems := by
  unfold State.routeLink; dsimp only; (repeat' split) <;> simp
@[simp] theorem State.applyRoute_mems (s : State) (new : Route) : (State.applyRoute s new).mems = s.mems := by
  unfold State.applyRoute; simp
@[simp] theorem State.replayLink_mems (s : State) (js : List Nat) (contained : Bool) (code lane : Nat) : (State.replayLink s js contained code lane).mems = s.mems := by
  unfold State.replayLink; simp
@[simp] theorem State.downLink_mems (s : State) (k : Nat) : (s.downLink k).mems = s.mems := by
  unfold State.downLink; dsimp only
  rw [State.mems_each _ _ _ (fun s m => by (repeat' split) <;> simp), State.mems_each _ _ _ (fun s m => by (repeat' split) <;> simp)]
  simp
@[simp] theorem State.retireLane_mems (s : State) (k lane : Nat) : (State.retireLane s k lane).mems = s.mems := by
  unfold State.retireLane; simp
@[simp] theorem State.loseMembers_mems (s : State) (lost : List Nat) : (s.loseMembers lost).mems = s.mems := by
  unfold State.loseMembers; dsimp only
  rw [State.mems_each _ _ _ (fun s m => by (repeat' split) <;> simp), State.mems_each _ _ _ (fun s m => by simp)]
@[simp] theorem State.retrainEnd_mems (s : State) (k : Nat) (ok : Bool) (found : Option Training) : (State.retrainEnd s k ok found).mems = s.mems := by
  unfold State.retrainEnd; simp
@[simp] theorem State.hide_mems (s : State) (h : FlitHdr) (payload : Bytes) : (State.hide s h payload).mems = s.mems := by
  unfold State.hide; (repeat' split) <;> simp
@[simp] theorem State.tell_mems (s : State) (k cls tag : Nat) (payload : Bytes) : (State.tell s k cls tag payload).mems = s.mems := by
  unfold State.tell; simp
@[simp] theorem State.tickIn_mems (s : State) (k tickNo period hops delay : Nat) : (State.tickIn s k tickNo period hops delay).mems = s.mems := by
  unfold State.tickIn; simp
@[simp] theorem State.spanAfterMaster_mems (s : State) (lost : Nat) (reachable : List Nat) (kept : Bool) (j : Nat) : (State.spanAfterMaster s lost reachable kept j).mems = s.mems := by
  unfold State.spanAfterMaster; (repeat' split) <;> simp
@[simp] theorem State.pingIn_mems (s : State) (k stamp : Nat) : (State.pingIn s k stamp).mems = s.mems := by
  unfold State.pingIn; simp
@[simp] theorem State.pongIn_mems (s : State) (k delay : Nat) : (State.pongIn s k delay).mems = s.mems := by
  unfold State.pongIn; simp
@[simp] theorem State.writeTail_mems (s : State) (p : Port) (r : Nat) (v : Reg) : (State.writeTail s p r v).mems = s.mems := by
  unfold State.writeTail; simp
@[simp] theorem State.writeCqHead_mems (s : State) (p : Port) (r : Nat) (v : Reg) : (State.writeCqHead s p r v).mems = s.mems := by
  unfold State.writeCqHead; simp
@[simp] theorem State.writeRingCfg_mems (s : State) (p : Port) (r : Nat) (v : Reg) : (State.writeRingCfg s p r v).mems = s.mems := by
  unfold State.writeRingCfg; simp
@[simp] theorem State.writeEvCfg_mems (s : State) (p : Port) (v : Reg) : (State.writeEvCfg s p v).mems = s.mems := by
  unfold State.writeEvCfg; simp
@[simp] theorem State.writeEvHead_mems (s : State) (p : Port) (v : Reg) : (State.writeEvHead s p v).mems = s.mems := by
  unfold State.writeEvHead; simp
@[simp] theorem State.writeRecord_mems (s : State) (p : Port) (e : EvRec) : (State.writeRecord s p e).mems = s.mems := by
  unfold State.writeRecord; simp
@[simp] theorem State.padRing_mems (s : State) (p : Port) (n : Nat) : (State.padRing s p n).mems = s.mems := by
  unfold State.padRing; simp
@[simp] theorem State.reported_mems (s : State) (e : EvRec) : (State.reported s e).mems = s.mems := by
  unfold State.reported; simp
@[simp] theorem State.snapshot_mems (s : State) (p : Port) : (State.snapshot s p).mems = s.mems := by
  unfold State.snapshot; simp
@[simp] theorem State.writeSnap_mems (s : State) (p : Port) (v : Reg) : (State.writeSnap s p v).mems = s.mems := by
  unfold State.writeSnap; simp
@[simp] theorem State.writeErrStatus_mems (s : State) (p : Port) (v : Reg) : (State.writeErrStatus s p v).mems = s.mems := by
  unfold State.writeErrStatus; simp
@[simp] theorem State.writeValid_mems (s : State) (p : Port) (hi : Bool) (v : Reg) : (State.writeValid s p hi v).mems = s.mems := by
  unfold State.writeValid; simp
@[simp] theorem State.unmask_mems (s : State) (p : Port) (v : Nat) : (State.unmask s p v).mems = s.mems := by
  unfold State.unmask; simp
@[simp] theorem State.writeMsix_mems (s : State) (p : Port) (o : Nat) (v : Reg) : (State.writeMsix s p o v).mems = s.mems := by
  unfold State.writeMsix; simp
@[simp] theorem State.writeDoor_mems (s : State) (p : Port) (o : Nat) (v : Reg) : (State.writeDoor s p o v).mems = s.mems := by
  unfold State.writeDoor; dsimp only; (repeat' split) <;> simp
@[simp] theorem State.writeEss_wf (s : State) (p : Port) (o : Nat) (v : Reg) (hw : memsWf s.mems = true) : memsWf (State.writeEss s p o v).mems = true := by
  unfold State.writeEss; (repeat' split) <;> simp [hw]
@[simp] theorem State.writeBlock_wf (s : State) (p : Port) (b : RegBlock) (o : Nat) (v : Reg) (hw : memsWf s.mems = true) : memsWf (State.writeBlock s p b o v).mems = true := by
  unfold State.writeBlock; (repeat' split) <;> simp [hw]
@[simp] theorem State.abort_mems (s : State) (p : Port) : (State.abort s p).mems = s.mems := by
  unfold State.abort; simp
@[simp] theorem State.busError_mems (s : State) (p : Port) (off : Nat) (write : Bool) (kind : Nat) : (State.busError s p off write kind).mems = s.mems := by
  unfold State.busError; simp
@[simp] theorem State.bar2Abort_mems (s : State) (p : Port) (off : Nat) (write : Bool) (kind : Nat) : (State.bar2Abort s p off write kind).mems = s.mems := by
  unfold State.bar2Abort; simp
@[simp] theorem State.afterDrains_mems (s : State) (n : Nat) (is : List Instr) : (State.afterDrains s n is).mems = s.mems := by rfl
@[simp] theorem State.storeLost_mems (s : State) (n : Nat) : (State.storeLost s n).mems = s.mems := by
  unfold State.storeLost; simp
end Sys2Proof.Machine
end

