-- ==== Sys2Proof/Laws/Frame.lean ====
section
/-! SUPPORT. No shared operation of the machine changes the grade, the EEPROM or the queue: one lemma for each operation. -/

namespace Sys2Proof.Machine

/-- What no shared operation changes: the grade (fuses), the EEPROM and the queue of commands. -/
def State.fixed (s : State) : Grade × Mem × List Instr := (s.grade, s.eeprom, s.pending)
@[simp] theorem State.fixed_mk (x_pins : Pins) (x_clk : Clk) (x_mills : Tbl Mill) (x_hbms : Tbl Stack) (x_boot : Boot) (x_sec : Sec) (x_grade : Grade) (x_ready : BitVec 64) (x_portA : PortSt) (x_portB : PortSt) (x_eeprom : Mem) (x_period : Nat) (x_periodNext : Nat) (x_periodSet : Bool) (x_reamLen : Nat) (x_reamNext : Nat) (x_sheetInReam : Nat) (x_boundary : Option (Tbl Nat)) (x_reamOn : Bool) (x_ticking : Bool) (x_tick : Nat) (x_reams : BitVec 32) (x_timeoutMs : Nat) (x_selftestHours : Nat) (x_admitA : Bool) (x_admitB : Bool) (x_quotaJobs : Nat) (x_quotaCores : Nat) (x_adminPort : Port) (x_admissions : Nat) (x_jobs : Tbl (Option Job)) (x_cores : Tbl CoreSt) (x_groups : Tbl Group) (x_sparesUsed : Tbl Nat) (x_units : Tbl HUnit) (x_sram : Mem) (x_hbm : Mem) (x_hbmTag : Tbl Nat) (x_headboxes : Tbl Headbox) (x_ingest : Option Ingest) (x_ingestQ : List IngestWait) (x_ingestLast : Port) (x_passes : List Pass) (x_building : List Nat) (x_tableUnits : Tbl (List Nat)) (x_xcOrder : Nat) (x_links : Tbl Link) (x_route : Option Route) (x_spans : Tbl Span) (x_tickGroup : TickGroup) (x_ctr : Tbl Nat) (x_ream : Tbl Nat) (x_pcStorm : Tbl (Option Nat)) (x_pcTag : Tbl (Option Nat)) (x_stests : Tbl STest) (x_modTest : Option ModTest) (x_freeCtr : Nat) (x_out : List Out) (x_pending : List Instr) :
    (State.mk x_pins x_clk x_mills x_hbms x_boot x_sec x_grade x_ready x_portA x_portB x_eeprom x_period x_periodNext x_periodSet x_reamLen x_reamNext x_sheetInReam x_boundary x_reamOn x_ticking x_tick x_reams x_timeoutMs x_selftestHours x_admitA x_admitB x_quotaJobs x_quotaCores x_adminPort x_admissions x_jobs x_cores x_groups x_sparesUsed x_units x_sram x_hbm x_hbmTag x_headboxes x_ingest x_ingestQ x_ingestLast x_passes x_building x_tableUnits x_xcOrder x_links x_route x_spans x_tickGroup x_ctr x_ream x_pcStorm x_pcTag x_stests x_modTest x_freeCtr x_out x_pending).fixed = (x_grade, x_eeprom, x_pending) := rfl
@[simp] theorem State.fixed_eta (s : State) : (s.grade, s.eeprom, s.pending) = s.fixed := rfl
@[simp] theorem State.fixed_ite (c : Prop) [Decidable c] (a b : State) : (if c then a else b).fixed = if c then a.fixed else b.fixed := by split <;> rfl
@[simp] theorem State.fixed_foldl {α : Type} (f : State → α → State) (h : ∀ s x, (f s x).fixed = s.fixed) (xs : List α) (s : State) :
    (xs.foldl f s).fixed = s.fixed := by
  induction xs generalizing s with
  | nil => rfl
  | cons x xs ih => rw [List.foldl_cons, ih, h]
@[simp] theorem State.fixed_each {α : Type} (s : State) (xs : List α) (f : State → α → State) (h : ∀ s x, (f s x).fixed = s.fixed) :
    (s.each xs f).fixed = s.fixed := State.fixed_foldl f h xs s
@[simp] theorem State.fixed_onPorts (s : State) (f : State → Port → State) (h : ∀ s x, (f s x).fixed = s.fixed) :
    (s.onPorts f).fixed = s.fixed := by simp [State.onPorts, h]
@[simp] theorem State.setPort_fixed (s : State) (p : Port) (x : PortSt) : (State.setPort s p x).fixed = s.fixed := by
  unfold State.setPort; (repeat' split) <;> simp
@[simp] theorem State.modPort_fixed (s : State) (p : Port) (f : PortSt → PortSt) : (State.modPort s p f).fixed = s.fixed := by
  unfold State.modPort; simp
@[simp] theorem State.setJob_fixed (s : State) (j : Nat) (x : Option Job) : (State.setJob s j x).fixed = s.fixed := by rfl
@[simp] theorem State.modJob_fixed (s : State) (j : Nat) (f : Job → Job) : (State.modJob s j f).fixed = s.fixed := by
  unfold State.modJob; (repeat' split) <;> simp
@[simp] theorem State.setCore_fixed (s : State) (n : Nat) (x : CoreSt) : (State.setCore s n x).fixed = s.fixed := by rfl
@[simp] theorem State.modCore_fixed (s : State) (n : Nat) (f : CoreSt → CoreSt) : (State.modCore s n f).fixed = s.fixed := by rfl
@[simp] theorem State.setMill_fixed (s : State) (m : Nat) (x : Mill) : (State.setMill s m x).fixed = s.fixed := by rfl
@[simp] theorem State.modMill_fixed (s : State) (m : Nat) (f : Mill → Mill) : (State.modMill s m f).fixed = s.fixed := by rfl
@[simp] theorem State.modStack_fixed (s : State) (k : Nat) (f : Stack → Stack) : (State.modStack s k f).fixed = s.fixed := by rfl
@[simp] theorem State.modGroup_fixed (s : State) (x : Nat) (f : Group → Group) : (State.modGroup s x f).fixed = s.fixed := by rfl
@[simp] theorem State.modUnit_fixed (s : State) (x : Nat) (f : HUnit → HUnit) : (State.modUnit s x f).fixed = s.fixed := by rfl
@[simp] theorem State.modHeadbox_fixed (s : State) (m : Nat) (f : Headbox → Headbox) : (State.modHeadbox s m f).fixed = s.fixed := by rfl
@[simp] theorem State.modStest_fixed (s : State) (m : Nat) (f : STest → STest) : (State.modStest s m f).fixed = s.fixed := by rfl
@[simp] theorem State.setRing_fixed (s : State) (p : Port) (r : Nat) (x : Ring) : (State.setRing s p r x).fixed = s.fixed := by
  unfold State.setRing; simp
@[simp] theorem State.draw_fixed (s : State) : (State.draw s).2.fixed = s.fixed := by rfl
@[simp] theorem State.emit_fixed (s : State) (o : Out) : (State.emit s o).fixed = s.fixed := by rfl
@[simp] theorem State.bump_fixed (s : State) (key n : Nat) : (State.bump s key n).fixed = s.fixed := by
  unfold State.bump; simp
@[simp] theorem State.work_fixed (s : State) (n i amount : Nat) : (State.work s n i amount).fixed = s.fixed := by
  unfold State.work; simp
@[simp] theorem State.raise_fixed (s : State) (p : Port) (v : Nat) : (State.raise s p v).fixed = s.fixed := by
  unfold State.raise; simp
@[simp] theorem State.post_fixed (s : State) (p : Port) (e : EvRec) : (State.post s p e).fixed = s.fixed := by
  unfold State.post; simp
@[simp] theorem State.moduleEvent_fixed (s : State) (p : Port) (code value : Nat) : (State.moduleEvent s p code value).fixed = s.fixed := by
  unfold State.moduleEvent; simp
@[simp] theorem State.noteCause_fixed (s : State) (code : Nat) : (State.noteCause s code).fixed = s.fixed := by rfl
@[simp] theorem State.moduleEvents_fixed (s : State) (code value : Nat) : (State.moduleEvents s code value).fixed = s.fixed := by rfl
@[simp] theorem State.mctpEvent_fixed (s : State) (code : Nat) : (State.mctpEvent s code).fixed = s.fixed := by rfl
@[simp] theorem State.jobEvent_fixed (s : State) (j type code units : Nat) (body : Bytes) (tick : Option Nat) : (State.jobEvent s j type code units body tick).fixed = s.fixed := by
  unfold State.jobEvent; (repeat' split) <;> simp
@[simp] theorem State.readyChanged_fixed (s : State) : (State.readyChanged s).fixed = s.fixed := by
  unfold State.readyChanged; simp
@[simp] theorem State.setReady_fixed (s : State) (i : Nat) (v : Bool) : (State.setReady s i v).fixed = s.fixed := by
  unfold State.setReady; simp
@[simp] theorem State.logErr_fixed (s : State) (p : Port) (off bar : Nat) (write : Bool) (kind : Nat) : (State.logErr s p off bar write kind).fixed = s.fixed := by
  unfold State.logErr; simp
@[simp] theorem State.putRec_fixed (s : State) (p : Port) (r : ErrRec) : (State.putRec s p r).fixed = s.fixed := by
  unfold State.putRec; simp
@[simp] theorem State.errRec_fixed (s : State) (r : ErrRec) : (State.errRec s r).fixed = s.fixed := by rfl
@[simp] theorem State.complete_fixed (s : State) (p : Port) (r : Nat) (d : Done) : (State.complete s p r d).fixed = s.fixed := by
  unfold State.complete; dsimp only; (repeat' split) <;> simp
@[simp] theorem State.refuse_fixed (s : State) (p : Port) (r status : Nat) : (State.refuse s p r status).fixed = s.fixed := by
  unfold State.refuse; simp
@[simp] theorem State.hold_fixed (s : State) (p : Port) (r : Nat) : (State.hold s p r).fixed = s.fixed := by
  unfold State.hold; simp
@[simp] theorem State.askXlat_fixed (s : State) (p : Port) (pg : Nat × Nat) : (State.askXlat s p pg).fixed = s.fixed := by
  unfold State.askXlat; simp
@[simp] theorem State.hostWrite_fixed (s : State) (p : Port) (pasid va : Nat) (data : Bytes) : (State.hostWrite s p pasid va data).fixed = s.fixed := by
  unfold State.hostWrite; simp
@[simp] theorem State.askPage_fixed (s : State) (p : Port) (r : Nat) (pg : Nat × Nat) (write : Bool) : (State.askPage s p r pg write).fixed = s.fixed := by
  unfold State.askPage; simp
@[simp] theorem State.turnAway_fixed (s : State) (p : Port) (r opcode : Nat) : (State.turnAway s p r opcode).fixed = s.fixed := by
  unfold State.turnAway; (repeat' split) <;> simp
@[simp] theorem State.modLink_fixed (s : State) (k : Nat) (f : Link → Link) : (State.modLink s k f).fixed = s.fixed := by rfl
@[simp] theorem State.modSpan_fixed (s : State) (i : Nat) (f : Span → Span) : (State.modSpan s i f).fixed = s.fixed := by rfl
@[simp] theorem State.useLink_fixed (s : State) (k : Nat) (js : List Nat) : (State.useLink s k js).fixed = s.fixed := by rfl
@[simp] theorem State.sendIdle_fixed (s : State) (k : Nat) (nak : Bool) : (State.sendIdle s k nak).fixed = s.fixed := by rfl
@[simp] theorem State.owe_fixed (s : State) (k cls : Nat) : (State.owe s k cls).fixed = s.fixed := by rfl
@[simp] theorem State.transmit_fixed (s : State) (k : Nat) (f : Flit) : (State.transmit s k f).fixed = s.fixed := by
  unfold State.transmit; dsimp only; (repeat' split) <;> simp
@[simp] theorem State.pump_fixed (n : Nat) (s : State) (k : Nat) : (State.pump n s k).fixed = s.fixed := by
  induction n generalizing s with
  | zero => rfl
  | succ n ih => unfold State.pump; split; · rfl
                 split; · rfl
                 rw [ih]; simp
@[simp] theorem State.enqueue_fixed (s : State) (k : Nat) (fs : List Flit) : (State.enqueue s k fs).fixed = s.fixed := by
  unfold State.enqueue; simp
@[simp] theorem State.sendMsg_fixed (s : State) (dst cls span tag : Nat) (payload : Bytes) (opens : Bool) (ends : Bool) : (State.sendMsg s dst cls span tag payload opens ends).fixed = s.fixed := by
  unfold State.sendMsg; dsimp only; (repeat' split) <;> simp
@[simp] theorem State.spanSend_fixed (s : State) (i cls tag : Nat) (payload : Bytes) : (State.spanSend s i cls tag payload).fixed = s.fixed := by
  unfold State.spanSend; simp
@[simp] theorem State.resend_fixed (s : State) (k : Nat) : (State.resend s k).fixed = s.fixed := by
  unfold State.resend; simp
@[simp] theorem State.takeAck_fixed (s : State) (k : Nat) (h : FlitHdr) : (State.takeAck s k h).fixed = s.fixed := by
  unfold State.takeAck; simp
@[simp] theorem State.takeFlit_fixed (s : State) (k : Nat) (h : FlitHdr) (cls : Nat) : (State.takeFlit s k h cls).fixed = s.fixed := by
  unfold State.takeFlit; simp
@[simp] theorem State.linkErr_fixed (s : State) (k bit : Nat) : (State.linkErr s k bit).fixed = s.fixed := by rfl
@[simp] theorem State.badFlit_fixed (s : State) (k : Nat) : (State.badFlit s k).fixed = s.fixed := by rfl
@[simp] theorem State.forward_fixed (s : State) (h : FlitHdr) (cls : Nat) (payload : Bytes) (via : Option Nat) : (State.forward s h cls payload via).fixed = s.fixed := by
  unfold State.forward; (repeat' split) <;> simp
@[simp] theorem State.takeIn_fixed (s : State) (k cls want : Nat) (h : FlitHdr) (line : FlitLine) (payload : Bytes) (act : State → State)
    (e : ∀ s, (act s).fixed = s.fixed) : (s.takeIn k cls want h line payload act).fixed = s.fixed := by
  unfold State.takeIn; split
  · rw [State.badFlit_fixed, State.fixed_each _ _ _ (fun s m => by simp)]
  · dsimp only; split <;> simp [e]
@[simp] theorem State.receive_fixed (s : State) (arr : Option Arrival) (want : Nat) (payload : Bytes) (act : State → State)
    (e : ∀ s, (act s).fixed = s.fixed) : (s.receive arr want payload act).fixed = s.fixed := by
  unfold State.receive; (repeat' split) <;> simp [e]
@[simp] theorem State.wipeGroup_fixed (s : State) (x : Nat) : (State.wipeGroup s x).fixed = s.fixed := by rfl
@[simp] theorem State.carry_fixed (s : State) (moves : Nat → Bool) (dest : Nat → Nat) : (State.carry s moves dest).fixed = s.fixed := by rfl
@[simp] theorem State.moveGranule_fixed (s : State) (key : Nat) : (State.moveGranule s key).fixed = s.fixed := by
  unfold State.moveGranule; simp
@[simp] theorem State.hbmWrite_fixed (s : State) (key : Nat) (b : Bytes) : (State.hbmWrite s key b).fixed = s.fixed := by
  unfold State.hbmWrite; simp
@[simp] theorem State.fillUnit_fixed (s : State) (x : Nat) : (State.fillUnit s x).fixed = s.fixed := by rfl
@[simp] theorem State.jobCores_fixed (s : State) (j : Nat) (f : CoreSt → CoreSt) : (State.jobCores s j f).fixed = s.fixed := by
  unfold State.jobCores; (repeat' split) <;> simp
@[simp] theorem State.endKeyStreams_fixed (s : State) (j : Nat) : (State.endKeyStreams s j).fixed = s.fixed := by
  unfold State.endKeyStreams; simp
@[simp] theorem State.clearDir_fixed (s : State) (j : Nat) (set : Option Bytes) : (State.clearDir s j set).fixed = s.fixed := by rfl
@[simp] theorem State.closeWins_fixed (s : State) (j : Nat) : (State.closeWins s j).fixed = s.fixed := by rfl
@[simp] theorem State.abortAll_fixed (s : State) (p : Port) (j : Nat) (keep : Option Nat) : (State.abortAll s p j keep).fixed = s.fixed := by
  unfold State.abortAll; simp
@[simp] theorem State.abortWaiting_fixed (s : State) (j : Nat) : (s.abortWaiting j).fixed = s.fixed := by
  unfold State.abortWaiting; dsimp only; split; · rfl
  rw [State.modJob_fixed, State.fixed_each _ _ _ (by simp), State.fixed_each _ _ _ (fun s k => by (repeat' split) <;> simp)]; simp
@[simp] theorem State.endRequests_fixed (s : State) (p : Port) : (State.endRequests s p).fixed = s.fixed := by
  unfold State.endRequests; simp
@[simp] theorem State.haltJob_fixed (s : State) (j : Nat) (m : CoreMode) : (State.haltJob s j m).fixed = s.fixed := by
  unfold State.haltJob; simp
@[simp] theorem State.stopErr_fixed (s : State) (j : Nat) (i : StopInfo) : (State.stopErr s j i).fixed = s.fixed := by
  unfold State.stopErr; simp
@[simp] theorem State.stopRec_fixed (s : State) (j : Nat) (i : StopInfo) : (State.stopRec s j i).fixed = s.fixed := by
  unfold State.stopRec; (repeat' split) <;> simp
@[simp] theorem State.stopNow_fixed (s : State) (j : Nat) (i : StopInfo) (tell : Bool) : (State.stopNow s j i tell).fixed = s.fixed := by
  unfold State.stopNow; dsimp only; (repeat' split) <;> simp
@[simp] theorem State.stopJob_fixed (s : State) (j : Nat) (i : StopInfo) (tell : Bool) : (State.stopJob s j i tell).fixed = s.fixed := by
  unfold State.stopJob; (repeat' split) <;> simp
@[simp] theorem State.stopAny_fixed (s : State) (j : Nat) (i : StopInfo) (tell : Bool) : (State.stopAny s j i tell).fixed = s.fixed := by
  unfold State.stopAny; (repeat' split) <;> simp
@[simp] theorem State.program_fixed (s : State) (n code detail slot : Nat) (handle : Nat) (data : Bytes) : (State.program s n code detail slot handle data).fixed = s.fixed := by
  unfold State.program; simp
@[simp] theorem State.beginWipe_fixed (s : State) (j : Nat) : (State.beginWipe s j).fixed = s.fixed := by
  unfold State.beginWipe; simp
@[simp] theorem State.killJob_fixed (s : State) (j : Nat) : (State.killJob s j).fixed = s.fixed := by
  unfold State.killJob; dsimp only; (repeat' split) <;> simp
@[simp] theorem State.tellStop_fixed (s : State) (j cause : Nat) : (State.tellStop s j cause).fixed = s.fixed := by
  unfold State.tellStop; (repeat' split) <;> simp
@[simp] theorem State.endJob_fixed (s : State) (j cause : Nat) (keep : Option Nat) : (State.endJob s j cause keep).fixed = s.fixed := by
  unfold State.endJob; (repeat' split) <;> simp
@[simp] theorem State.beginReplay_fixed (s : State) (j : Nat) (q : Quiesce) : (State.beginReplay s j q).fixed = s.fixed := by
  unfold State.beginReplay; dsimp only; (repeat' split) <;> simp
@[simp] theorem State.notePoints_fixed (s : State) : (State.notePoints s).fixed = s.fixed := by
  unfold State.notePoints; simp
@[simp] theorem State.lost_fixed (s : State) (p : Power) : (State.lost s p).fixed = s.fixed := by rfl
@[simp] theorem State.powerFail_fixed (s : State) : (State.powerFail s).fixed = s.fixed := by
  unfold State.powerFail; simp
@[simp] theorem State.safeShutdown_fixed (s : State) : (State.safeShutdown s).fixed = s.fixed := by
  unfold State.safeShutdown; simp
@[simp] theorem State.trip_fixed (s : State) : (State.trip s).fixed = s.fixed := by rfl
@[simp] theorem State.vinRead_fixed (s : State) (vin : Nat) : (State.vinRead s vin).fixed = s.fixed := by
  unfold State.vinRead; simp
@[simp] theorem State.restStacks_fixed (s : State) : (State.restStacks s).fixed = s.fixed := by
  unfold State.restStacks; simp
@[simp] theorem State.freezeNow_fixed (s : State) : (State.freezeNow s).fixed = s.fixed := by
  unfold State.freezeNow; simp
@[simp] theorem State.thermal_fixed (s : State) : (State.thermal s).fixed = s.fixed := by
  unfold State.thermal; simp
@[simp] theorem State.sampled_fixed (s : State) (r : Readings) : (State.sampled s r).fixed = s.fixed := by
  unfold State.sampled; simp
@[simp] theorem State.frozenSample_fixed (s : State) (r : Readings) : (State.frozenSample s r).fixed = s.fixed := by
  unfold State.frozenSample; simp
@[simp] theorem State.lowerMills_fixed (s : State) (ranks : Nat) (pt : CapPoint) : (s.lowerMills ranks pt).fixed = s.fixed := by
  unfold State.lowerMills; dsimp only
  rw [State.fixed_each _ _ _ (fun s m => by simp), State.fixed_each _ _ _ (fun s m => by simp)]
@[simp] theorem State.lowerFloor_fixed (s : State) (pt : CapPoint) : (State.lowerFloor s pt).fixed = s.fixed := by
  unfold State.lowerFloor; simp
@[simp] theorem State.freeActs_fixed (s : State) : (State.freeActs s).fixed = s.fixed := by
  unfold State.freeActs; simp
@[simp] theorem State.rampMill_fixed (s : State) (m : Nat) : (State.rampMill s m).fixed = s.fixed := by
  unfold State.rampMill; simp
@[simp] theorem State.noteRefs_fixed (s : State) : (State.noteRefs s).fixed = s.fixed := by
  unfold State.noteRefs; simp
@[simp] theorem State.bufPut_fixed (s : State) (p : Port) (c : Bytes) (off : Nat) (data : Bytes) : (State.bufPut s p c off data).fixed = s.fixed := by
  unfold State.bufPut; (repeat' split) <;> simp
@[simp] theorem State.writeBuffer_fixed (s : State) (p : Port) (r : Nat) (ok : Bool) (bytes : Bytes) (d : Done) (written : Nat) : (State.writeBuffer s p r ok bytes d written).fixed = s.fixed := by
  unfold State.writeBuffer; dsimp only; (repeat' split) <;> simp
@[simp] theorem State.failRec_fixed (s : State) (code unit index : Nat) : (State.failRec s code unit index).fixed = s.fixed := by rfl
@[simp] theorem State.controlUp_fixed (s : State) : (State.controlUp s).fixed = s.fixed := by
  unfold State.controlUp; simp
@[simp] theorem State.startImage_fixed (s : State) (b : Bool) (i : FwImage) (recovered : Bool) : (State.startImage s b i recovered).fixed = s.fixed := by
  unfold State.startImage; simp
@[simp] theorem State.bootSlots_fixed (s : State) (bs : List Bool) : (s.bootSlots bs).fixed = s.fixed := by
  induction bs generalizing s with
  | nil => rfl
  | cons b bs ih => unfold State.bootSlots; (repeat' split) <;> simp [ih]
@[simp] theorem State.purge_fixed (s : State) : (State.purge s).fixed = s.fixed := by
  unfold State.purge; simp
@[simp] theorem State.endSessions_fixed (s : State) (p : Port) : (State.endSessions s p).fixed = s.fixed := by
  unfold State.endSessions; simp
@[simp] theorem State.tokenDone_fixed (s : State) (w : TokenWait) : (State.tokenDone s w).fixed = s.fixed := by
  unfold State.tokenDone; simp
@[simp] theorem State.endAllSessions_fixed (s : State) : (State.endAllSessions s).fixed = s.fixed := by
  unfold State.endAllSessions; simp
@[simp] theorem State.finishToken_fixed (s : State) : (State.finishToken s).fixed = s.fixed := by
  unfold State.finishToken; dsimp only; (repeat' split) <;> simp
@[simp] theorem State.tokenWiped_fixed (s : State) (j : Nat) : (State.tokenWiped s j).fixed = s.fixed := by
  unfold State.tokenWiped; simp
@[simp] theorem State.retireNow_fixed (s : State) (w : TokenWait) : (State.retireNow s w).fixed = s.fixed := by
  unfold State.retireNow; simp
@[simp] theorem State.idle_fixed (s : State) : (State.idle s).fixed = s.fixed := by
  unfold State.idle; (repeat' split) <;> simp
@[simp] theorem State.useToken_fixed (s : State) (p : Port) (r : Nat) (t : Bytes) : (State.useToken s p r t).fixed = s.fixed := by
  unfold State.useToken; simp
@[simp] theorem State.token_fixed (s : State) (kind : Nat) (p : Port) (r : Nat) (token : Option Bytes) (c : Checks) : (State.token s kind p r token c).fixed = s.fixed := by
  unfold State.token; dsimp only; (repeat' split) <;> simp
@[simp] theorem State.tearEntry_fixed (s : State) (e : Bytes) : (State.tearEntry s e).fixed = s.fixed := by rfl
@[simp] theorem State.attestNow_fixed (s : State) (p : Port) (r : Nat) (ok : Bool) (digest c : Bytes) : (State.attestNow s p r ok digest c).fixed = s.fixed := by
  unfold State.attestNow; dsimp only; (repeat' split) <;> simp
@[simp] theorem State.runDummies_fixed (s : State) : (State.runDummies s).fixed = s.fixed := by rfl
@[simp] theorem State.runPke_fixed (s : State) (q : PkeReq) : (State.runPke s q).fixed = s.fixed := by rfl
@[simp] theorem State.spdm_fixed (s : State) (p : Port) (code : Nat) (body : Bytes) : (State.spdm s p code body).fixed = s.fixed := by rfl
@[simp] theorem State.putByte_fixed (s : State) (p : Place) (v : Byte) : (State.putByte s p v).fixed = s.fixed := by
  unfold State.putByte; (repeat' split) <;> simp
@[simp] theorem State.tagSector_fixed (s : State) (key tag : Nat) : (State.tagSector s key tag).fixed = s.fixed := by rfl
@[simp] theorem State.refill_fixed (s : State) (key : Nat) : (State.refill s key).fixed = s.fixed := by
  unfold State.refill; simp
@[simp] theorem State.writeSectors_fixed (s : State) (place : Nat → Nat) (off : Nat) (b : Bytes) (tag : Nat) : (State.writeSectors s place off b tag).fixed = s.fixed := by
  unfold State.writeSectors; simp
@[simp] theorem State.keepUndo_fixed (s : State) (j key : Nat) : (State.keepUndo s j key).fixed = s.fixed := by
  unfold State.keepUndo; simp
@[simp] theorem State.writeByte_fixed (s : State) (j : Nat) (undo : Bool) (p : Place) (v : Byte) : (State.writeByte s j undo p v).fixed = s.fixed := by
  unfold State.writeByte; (repeat' split) <;> simp
@[simp] theorem State.fillWet_fixed (s : State) (j b : Nat) (e : Handle) (k : Blk) : (s.fillWet j b e k).fixed = s.fixed := by
  unfold State.fillWet; exact State.fixed_each _ _ _ fun s m => by (try dsimp only); simp
@[simp] theorem State.openBlock_fixed (s : State) (j h : Nat) (e : Handle) (b lo hi : Nat) : (State.openBlock s j h e b lo hi).fixed = s.fixed := by
  unfold State.openBlock; dsimp only; (repeat' split) <;> simp
theorem State.writes_fixed (data : Bytes) (g : State → Nat → Byte → State) (h : ∀ s n v, (g s n v).fixed = s.fixed) (a : State × Nat) :
    (data.foldl (fun (a : State × Nat) v => (g a.1 a.2 v, a.2 + 1)) a).1.fixed = a.1.fixed := by
  induction data generalizing a with
  | nil => rfl
  | cons v vs ih => rw [List.foldl_cons, ih, h]
@[simp] theorem State.store_fixed (s : State) (j h off : Nat) (data : Bytes) : (s.store j h off data).fixed = s.fixed := by
  have k (e : Handle) : (if e.durable ∧ 0 < data.length then
      s.each (fromTo (off / 4096) ((off + data.length - 1) / 4096 + 1)) fun s b => s.openBlock j h e b off (off + data.length)
      else s).fixed = s.fixed := by
    split
    · exact State.fixed_each _ _ _ fun s b => by simp
    · rfl
  unfold State.store; dsimp only; split; · rfl
  split
  · exact k _
  · exact (State.writes_fixed data (fun s n v => s.writeByte j _ (s.place _ (Job.writeBase _ h _ n) n) v) (by simp) _).trans (k _)
@[simp] theorem State.retireRec_fixed (s : State) (res index : Nat) : (State.retireRec s res index).fixed = s.fixed := by rfl
@[simp] theorem State.retired_fixed (s : State) (code res index : Nat) : (State.retired s code res index).fixed = s.fixed := by rfl
@[simp] theorem State.retireStack_fixed (s : State) (k : Nat) : (State.retireStack s k).fixed = s.fixed := by
  unfold State.retireStack; simp
@[simp] theorem State.dropReleases_fixed (s : State) (j : Nat) : (State.dropReleases s j).fixed = s.fixed := by
  unfold State.dropReleases; simp
@[simp] theorem State.stopLost_fixed (s : State) (js hit : List Nat) (i : StopInfo) : (State.stopLost s js hit i).fixed = s.fixed := by
  unfold State.stopLost; simp
@[simp] theorem State.retirePc_fixed (s : State) (pc : Nat) (training : Bool) : (State.retirePc s pc training).fixed = s.fixed := by
  unfold State.retirePc; simp
@[simp] theorem State.wakeStacks_fixed (s : State) (m : Nat) : (State.wakeStacks s m).fixed = s.fixed := by
  unfold State.wakeStacks; simp
@[simp] theorem State.noteTag_fixed (s : State) (pc : Nat) : (State.noteTag s pc).fixed = s.fixed := by
  unfold State.noteTag; simp
@[simp] theorem State.storageFault_fixed (s : State) (j : Nat) (z : Zone) (res : ResIx) (e : ReadErr) (core slot bundle handle : Nat) (inRelease : Bool) : (State.storageFault s j z res e core slot bundle handle inRelease).fixed = s.fixed := by
  unfold State.storageFault; dsimp only; (repeat' split) <;> simp
@[simp] theorem State.readFault_fixed (s : State) (j h off : Nat) (e : ReadErr) (core slot bundle : Nat) : (State.readFault s j h off e core slot bundle).fixed = s.fixed := by
  unfold State.readFault; simp
@[simp] theorem State.tagRecord_fixed (s : State) (j h off t : Nat) : (State.tagRecord s j h off t).fixed = s.fixed := by
  unfold State.tagRecord; simp
@[simp] theorem State.lateFault_fixed (s : State) (j h off : Nat) (wet : List Nat) (e : ReadErr) (core slot bundle : Nat) : (State.lateFault s j h off wet e core slot bundle).fixed = s.fixed := by
  unfold State.lateFault; simp
@[simp] theorem State.seqFault_fixed (s : State) (n slot detail : Nat) : (State.seqFault s n slot detail).fixed = s.fixed := by
  unfold State.seqFault; simp
@[simp] theorem State.opFault_fixed (s : State) (n slot detail : Nat) (off : Nat) : (State.opFault s n slot detail off).fixed = s.fixed := by
  unfold State.opFault; simp
@[simp] theorem State.staleFault_fixed (s : State) (n slot detail h off : Nat) : (State.staleFault s n slot detail h off).fixed = s.fixed := by
  unfold State.staleFault; simp
@[simp] theorem State.absentFault_fixed (s : State) (n slot fmts engines : Nat) : (State.absentFault s n slot fmts engines).fixed = s.fixed := by
  unfold State.absentFault; simp
@[simp] theorem State.setAt_fixed (s : State) (n pos : Nat) : (State.setAt s n pos).fixed = s.fixed := by
  unfold State.setAt; simp
@[simp] theorem State.enterAt_fixed (s : State) (n pos : Nat) : (State.enterAt s n pos).fixed = s.fixed := by
  unfold State.enterAt; simp
@[simp] theorem State.enterAll_fixed (s : State) (j : Nat) (xs : List (Nat × Nat)) : (State.enterAll s j xs).fixed = s.fixed := by
  unfold State.enterAll; dsimp only; (repeat' split) <;> simp
@[simp] theorem State.arrive_fixed (s : State) (j : Nat) (x : Job) : (s.arrive j x).fixed = s.fixed := by
  unfold State.arrive; exact State.fixed_each _ _ _ fun s m => by (try dsimp only); (repeat' split) <;> simp
@[simp] theorem State.releaseBar_fixed (s : State) (j b : Nat) : (State.releaseBar s j b).fixed = s.fixed := by
  unfold State.releaseBar; dsimp only; (repeat' split) <;> simp
@[simp] theorem State.serveWait_fixed (s : State) (j n : Nat) : (State.serveWait s j n).fixed = s.fixed := by
  unfold State.serveWait; (repeat' split) <;> simp
@[simp] theorem State.settle_fixed (s : State) (j : Nat) : (State.settle s j).fixed = s.fixed := by
  unfold State.settle; dsimp only; (repeat' split) <;> simp
@[simp] theorem State.signal_fixed (s : State) (j sem k core slot bundle : Nat) : (State.signal s j sem k core slot bundle).fixed = s.fixed := by
  unfold State.signal; (repeat' split) <;> simp
@[simp] theorem State.sendSig_fixed (s : State) (j sem k core slot bundle : Nat) : (State.sendSig s j sem k core slot bundle).fixed = s.fixed := by
  unfold State.sendSig; dsimp only; (repeat' split) <;> simp
@[simp] theorem onCore_fixed (n : Nat) (f : CoreSt → CoreSt) (s : State) : (onCore n f s).fixed = s.fixed := by
  simp [onCore]
@[simp] theorem State.endBundle_fixed (s : State) (n : Nat) (b : Branch) (m : CoreMode) : (State.endBundle s n b m).fixed = s.fixed := by
  unfold State.endBundle; dsimp only; (repeat' split) <;> simp
@[simp] theorem State.sigNow_fixed (s : State) (span sem k : Nat) : (State.sigNow s span sem k).fixed = s.fixed := by
  unfold State.sigNow; (repeat' split) <;> simp
@[simp] theorem State.takeSnap_fixed (s : State) (j : Nat) : (State.takeSnap s j).fixed = s.fixed := by
  unfold State.takeSnap; simp
@[simp] theorem State.wipeScratch_fixed (s : State) (hs : Tbl Handle) : (State.wipeScratch s hs).fixed = s.fixed := by rfl
@[simp] theorem State.restoreHbm_fixed (s : State) (undo : Tbl Bytes) : (s.restoreHbm undo).fixed = s.fixed := by
  unfold State.restoreHbm; exact State.fixed_each _ _ _ fun s c => by dsimp only; split <;> simp
@[simp] theorem State.quiesceDone_fixed (s : State) (j : Nat) : (State.quiesceDone s j).fixed = s.fixed := by
  unfold State.quiesceDone; dsimp only; (repeat' split) <;> simp
@[simp] theorem State.portCheck_fixed (s : State) (p : Port) : (State.portCheck s p).fixed = s.fixed := by
  unfold State.portCheck; simp
@[simp] theorem State.dropWork_fixed (s : State) (p : Port) : (State.dropWork s p).fixed = s.fixed := by rfl
@[simp] theorem State.dropTests_fixed (s : State) (p : Port) : (s.dropTests p).fixed = s.fixed := by
  unfold State.dropTests; dsimp only; rw [State.fixed_each _ _ _ (fun s m => by simp)]; rfl
@[simp] theorem State.portReset_fixed (s : State) (p : Port) : (State.portReset s p).fixed = s.fixed := by
  unfold State.portReset; simp
@[simp] theorem State.endSecure_fixed (s : State) (p : Port) : (State.endSecure s p).fixed = s.fixed := by
  unfold State.endSecure; simp
@[simp] theorem State.flrNow_fixed (s : State) (p : Port) : (State.flrNow s p).fixed = s.fixed := by
  unfold State.flrNow; simp
@[simp] theorem State.stick_fixed (s : State) (b : BitVec 3) : (State.stick s b).fixed = s.fixed := by rfl
@[simp] theorem State.announce_fixed (s : State) (code : Nat) : (State.announce s code).fixed = s.fixed := by rfl
@[simp] theorem State.unroute_fixed (s : State) (k : Nat) : (State.unroute s k).fixed = s.fixed := by rfl
@[simp] theorem State.enterLimp_fixed (s : State) : (State.enterLimp s).fixed = s.fixed := by
  unfold State.enterLimp; simp
@[simp] theorem State.trainLinks_fixed (s : State) : (State.trainLinks s).fixed = s.fixed := by rfl
@[simp] theorem State.switchTo_fixed (s : State) (src : Source) : (State.switchTo s src).fixed = s.fixed := by
  unfold State.switchTo; simp
@[simp] theorem State.refFail_fixed (s : State) (ref : Source) : (State.refFail s ref).fixed = s.fixed := by
  unfold State.refFail; dsimp only; (repeat' split) <;> simp
@[simp] theorem State.refStops_fixed (s : State) (ref : Source) : (State.refStops s ref).fixed = s.fixed := by
  unfold State.refStops; dsimp only; (repeat' split) <;> simp
@[simp] theorem State.reselect_fixed (s : State) : (State.reselect s).fixed = s.fixed := by
  unfold State.reselect; (repeat' split) <;> simp
@[simp] theorem State.reselectIdle_fixed (s : State) : (State.reselectIdle s).fixed = s.fixed := by
  unfold State.reselectIdle; simp
@[simp] theorem State.fmcWrite_fixed (s : State) (p : Port) (v : Reg) : (State.fmcWrite s p v).fixed = s.fixed := by
  unfold State.fmcWrite; simp
@[simp] theorem State.warmReset_fixed (s : State) : s.warmReset.fixed = s.fixed := by
  unfold State.warmReset; dsimp only
  rw [State.reselectIdle_fixed, State.raise_fixed, State.raise_fixed, State.noteCause_fixed, State.readyChanged_fixed]
  exact State.fixed_each _ _ _ fun s m => by (repeat' split) <;> simp
@[simp] theorem State.startWarm_fixed (s : State) : (State.startWarm s).fixed = s.fixed := by
  unfold State.startWarm; simp
@[simp] theorem State.essArm_fixed (s : State) (p : Port) (v : Reg) : (State.essArm s p v).fixed = s.fixed := by
  unfold State.essArm; simp
@[simp] theorem State.essGo_fixed (s : State) (p : Port) (v : Reg) : (State.essGo s p v).fixed = s.fixed := by
  unfold State.essGo; simp
@[simp] theorem State.essKill_fixed (s : State) (p : Port) (v : Reg) : (State.essKill s p v).fixed = s.fixed := by
  unfold State.essKill; simp
@[simp] theorem State.essFlr_fixed (s : State) (p : Port) (v : Reg) : (State.essFlr s p v).fixed = s.fixed := by
  unfold State.essFlr; simp
@[simp] theorem State.fieldInvalid_fixed (s : State) (off : Nat) : (State.fieldInvalid s off).fixed = s.fixed := by rfl
@[simp] theorem State.badGroup_fixed (s : State) (m g : Nat) : (State.badGroup s m g).fixed = s.fixed := by
  unfold State.badGroup; simp
@[simp] theorem State.coreFault_fixed (s : State) (n : Nat) (contained : Bool) (code : Nat) : (State.coreFault s n contained code).fixed = s.fixed := by
  unfold State.coreFault; simp
@[simp] theorem State.cutTest_fixed (s : State) (m n : Nat) : (State.cutTest s m n).fixed = s.fixed := by
  unfold State.cutTest; dsimp only; (repeat' split) <;> simp
@[simp] theorem State.millCheck_fixed (s : State) (m : Nat) : (State.millCheck s m).fixed = s.fixed := by
  unfold State.millCheck; simp
@[simp] theorem State.retireCore_fixed (s : State) (n : Nat) : (State.retireCore s n).fixed = s.fixed := by
  unfold State.retireCore; simp
@[simp] theorem State.datapathCheck_fixed (s : State) (n : Nat) : (State.datapathCheck s n).fixed = s.fixed := by
  unfold State.datapathCheck; (repeat' split) <;> simp
@[simp] theorem State.engineCheck_fixed (s : State) (n slot bundle : Nat) (m : Touched) (e : EngCheck) : (State.engineCheck s n slot bundle m e).fixed = s.fixed := by
  unfold State.engineCheck; (repeat' split) <;> simp
@[simp] theorem State.unwrite_fixed (s : State) (j : Nat) (m : Touched) (e : EngCheck) : (State.unwrite s j m e).fixed = s.fixed := by
  unfold State.unwrite; dsimp only; (repeat' split) <;> simp
@[simp] theorem State.storeBits_fixed (s : State) (j h b w v : Nat) : (State.storeBits s j h b w v).fixed = s.fixed := by
  unfold State.storeBits; simp
@[simp] theorem State.storeTile_fixed (s : State) (j : Nat) (f : Fmt) (l : Loc) (y : Layout) (t : Tile) : (State.storeTile s j f l y t).fixed = s.fixed := by
  unfold State.storeTile; (repeat' split) <;> simp
@[simp] theorem CoreSt.drainRun_fixed (c : CoreSt) (n : Nat) (d : Drain) (b : OBufSt) (s : State) : (CoreSt.drainRun c n d b s).fixed = s.fixed := by
  unfold CoreSt.drainRun; dsimp only; (repeat' split) <;> simp
@[simp] theorem State.nttLimb_fixed (s : State) (j : Nat) (x : Ntt) (fwd : Bool) (i : Nat) : (State.nttLimb s j x fwd i).fixed = s.fixed := by
  unfold State.nttLimb; dsimp only; (repeat' split) <;> simp
@[simp] theorem State.vecResult_fixed (s : State) (n : Nat) (v : VDst) (t : Tile) (w : Word) : (State.vecResult s n v t w).fixed = s.fixed := by rfl
@[simp] theorem State.vecTile_fixed (s : State) (n : Nat) (c : CoreSt) (v : VDst) (f : Nat → Nat × Hist) : (State.vecTile s n c v f).fixed = s.fixed := by rfl
@[simp] theorem State.noteRaces_fixed (s : State) (j : Nat) (others : List XcQ) (foot : List Nat) (h : Nat) (offs : List Nat) : (State.noteRaces s j others foot h offs).fixed = s.fixed := by
  unfold State.noteRaces; dsimp only; (repeat' split) <;> simp
@[simp] theorem State.queueCopy_fixed (s : State) (n : Nat) (hd : CopyHead) (staging h : Nat) (runs : List (Nat × Nat)) (mem : Touched) : (State.queueCopy s n hd staging h runs mem).fixed = s.fixed := by
  unfold State.queueCopy; simp
@[simp] theorem State.copyTag_fixed (s : State) (n h : Nat) (runs : List (Nat × Nat)) (go : State) (e : go.fixed = s.fixed) :
    (s.copyTag n h runs go).fixed = s.fixed := by
  unfold State.copyTag; dsimp only; split <;> simp [e]
@[simp] theorem State.writeCells_fixed (s : State) (j : Nat) (f : Fmt) (y : Layout) (m : Mat) (ws : List (Cell × Nat)) : (State.writeCells s j f y m ws).fixed = s.fixed := by
  unfold State.writeCells; simp
@[simp] theorem State.copyMoves_fixed (s : State) (j : Nat) : (State.copyMoves s j).fixed = s.fixed := by
  unfold State.copyMoves; simp
@[simp] theorem State.xcRaceWrite_fixed (s : State) (p : Port) (v : Reg) : (s.xcRaceWrite p v).fixed = s.fixed := by
  unfold State.xcRaceWrite; exact State.fixed_each _ _ _ fun s m => by (try dsimp only); (repeat' split) <;> simp
@[simp] theorem State.pageStop_fixed (s : State) (j code : Nat) (core slot bundle h channel element va : Nat) (inRelease : Bool) : (State.pageStop s j code core slot bundle h channel element va inRelease).fixed = s.fixed := by
  unfold State.pageStop; simp
@[simp] theorem State.storeRing_fixed (s : State) (j h at_ : Nat) (data : Bytes) : (State.storeRing s j h at_ data).fixed = s.fixed := by
  unfold State.storeRing; dsimp only; (repeat' split) <;> simp
@[simp] theorem State.stageElement_fixed (s : State) (j : Nat) (x : Job) (c : Chan) (data : Bytes) : (State.stageElement s j x c data).fixed = s.fixed := by
  unfold State.stageElement; simp
@[simp] theorem State.strmWrite_fixed (s : State) (j : Nat) (x : Job) (c : Chan) (data : Bytes) : (State.strmWrite s j x c data).fixed = s.fixed := by
  unfold State.strmWrite; simp
@[simp] theorem State.strmSignal_fixed (s : State) (j n : Nat) (c : Chan) : (State.strmSignal s j n c).fixed = s.fixed := by
  unfold State.strmSignal; dsimp only; (repeat' split) <;> simp
@[simp] theorem State.moveElement_fixed (s : State) (j n k : Nat) (x : Job) (c : Chan) (data : Bytes) : (State.moveElement s j n k x c data).fixed = s.fixed := by
  unfold State.moveElement; simp
@[simp] theorem State.wantPage_fixed (s : State) (p : Port) (pg : Nat × Nat) : (State.wantPage s p pg).fixed = s.fixed := by
  unfold State.wantPage; simp
@[simp] theorem State.mapChans_fixed (s : State) (j : Nat) (f : Chan → Chan) : (State.mapChans s j f).fixed = s.fixed := by
  unfold State.mapChans; simp
@[simp] theorem State.retryPage_fixed (s : State) (p : Port) (pg : Nat × Nat) (j : Nat) : (State.retryPage s p pg j).fixed = s.fixed := by
  unfold State.retryPage; dsimp only; (repeat' split) <;> simp
@[simp] theorem State.refusePage_fixed (s : State) (code : Nat) (p : Port) (pg : Nat × Nat) (j : Nat) : (State.refusePage s code p pg j).fixed = s.fixed := by
  unfold State.refusePage; (repeat' split) <;> simp
@[simp] theorem State.retryRing_fixed (s : State) (p : Port) (pg : Nat × Nat) (r : Nat) : (State.retryRing s p pg r).fixed = s.fixed := by
  unfold State.retryRing; dsimp only; (repeat' split) <;> simp
@[simp] theorem State.refuseRing_fixed (s : State) (p : Port) (pg : Nat × Nat) (r : Nat) : (State.refuseRing s p pg r).fixed = s.fixed := by
  unfold State.refuseRing; simp
@[simp] theorem State.refuseAll_fixed (s : State) (code : Nat) (p : Port) (pg : Nat × Nat) : (State.refuseAll s code p pg).fixed = s.fixed := by
  unfold State.refuseAll; simp
@[simp] theorem State.fillDir_fixed (s : State) (j slot : Nat) (k : KeySet) : (State.fillDir s j slot k).fixed = s.fixed := by
  unfold State.fillDir; (repeat' split) <;> simp
@[simp] theorem State.markDir_fixed (s : State) (j : Nat) (set : Bytes) (ix st : Nat) : (State.markDir s j set ix st).fixed = s.fixed := by rfl
@[simp] theorem State.notePasses_fixed (s : State) : (State.notePasses s).fixed = s.fixed := by rfl
@[simp] theorem State.stageBlock_fixed (s : State) (m q b : Nat) (t : KeyStream) : (State.stageBlock s m q b t).fixed = s.fixed := by
  unfold State.stageBlock; simp
@[simp] theorem State.grantKeys_fixed (n : Nat) (s : State) (m : Nat) : (State.grantKeys n s m).fixed = s.fixed := by
  induction n generalizing s with
  | zero => rfl
  | succ n ih => unfold State.grantKeys; split <;> simp [ih]
@[simp] theorem State.grant_fixed (s : State) (m : Nat) : (State.grant s m).fixed = s.fixed := by
  unfold State.grant; simp
@[simp] theorem State.lostShard_fixed (s : State) (j : Nat) (r : KeyRing) (ix : Nat) : (State.lostShard s j r ix).fixed = s.fixed := by
  unfold State.lostShard; simp
@[simp] theorem State.requestPass_fixed (s : State) (j : Nat) (k : KeySet) (ix : Nat) : (State.requestPass s j k ix).fixed = s.fixed := by
  unfold State.requestPass; dsimp only; (repeat' split) <;> simp
@[simp] theorem State.beginStream_fixed (s : State) (m q : Nat) (t : KeyStream) (k : KeySet) : (State.beginStream s m q t k).fixed = s.fixed := by
  unfold State.beginStream; simp
@[simp] theorem State.dropPass_fixed (s : State) (j slot ix : Nat) : (State.dropPass s j slot ix).fixed = s.fixed := by
  unfold State.dropPass; dsimp only; (repeat' split) <;> simp
@[simp] theorem State.retryKeys_fixed (s : State) (j : Nat) : (s.retryKeys j).fixed = s.fixed := by
  unfold State.retryKeys; split; · rfl
  exact State.fixed_each _ _ _ fun s c => by dsimp only; (repeat' split) <;> simp
@[simp] theorem State.resumeKeys_fixed (s : State) (j : Nat) : (s.resumeKeys j).fixed = s.fixed := by
  unfold State.resumeKeys; simp
@[simp] theorem State.countWork_fixed (s : State) (n : Nat) (p : ParamSet) (w : Work) : (s.countWork n p w).fixed = s.fixed := by
  simp only [State.countWork, State.work_fixed]
@[simp] theorem State.ctStop_fixed (s : State) (n : Nat) (z0 : CtVerdict) : (State.ctStop s n z0).fixed = s.fixed := by
  unfold State.ctStop; (repeat' split) <;> simp
@[simp] theorem State.feedOp_fixed (s : State) (n : Nat) (q : CtQ) : (State.feedOp s n q).fixed = s.fixed := by
  unfold State.feedOp; dsimp only; (repeat' split) <;> simp
@[simp] theorem State.feedOps_fixed (s : State) (m : Nat) : (State.feedOps s m).fixed = s.fixed := by
  unfold State.feedOps; simp
@[simp] theorem State.ctStart_fixed (s : State) (n : Nat) (o : CtOp) (p : ParamSet) (hs : List CtHdr) (d : Pred) : (State.ctStart s n o p hs d).fixed = s.fixed := by
  unfold State.ctStart; dsimp only; (repeat' split) <;> simp
@[simp] theorem State.haltWaiting_fixed (s : State) (j : Nat) : (State.haltWaiting s j).fixed = s.fixed := by
  unfold State.haltWaiting; simp
@[simp] theorem State.requestRefresh_fixed (s : State) (n slot : Nat) (auto : Bool) (cts : List Loc) :
    (s.requestRefresh n slot auto cts).fixed = s.fixed := by
  unfold State.requestRefresh; dsimp only; rw [State.haltWaiting_fixed]
  exact State.fixed_each _ _ _ fun s m => by (repeat' split) <;> simp
@[simp] theorem State.haltForRefresh_fixed (s : State) (n slot : Nat) (cts : List Loc) : (State.haltForRefresh s n slot cts).fixed = s.fixed := by
  unfold State.haltForRefresh; simp
@[simp] theorem State.placeKey_fixed (s : State) (j : Nat) (runs : List (Nat × Nat)) (b : Bytes) : (State.placeKey s j runs b).fixed = s.fixed := by
  unfold State.placeKey; simp
@[simp] theorem State.wipeKey_fixed (s : State) (j : Nat) (runs : List (Nat × Nat)) : (State.wipeKey s j runs).fixed = s.fixed := by
  unfold State.wipeKey; simp
@[simp] theorem State.stagingTag_fixed (s : State) (p : Port) (j : Nat) (c : Bytes) : (State.stagingTag s p j c).fixed = s.fixed := by
  unfold State.stagingTag; dsimp only; (repeat' split) <;> simp
@[simp] theorem State.takeIngest_fixed (n : Nat) (s : State) : (State.takeIngest n s).fixed = s.fixed := by
  induction n generalizing s with
  | zero => rfl
  | succ n ih => unfold State.takeIngest; dsimp only; (repeat' split) <;> first | rfl | (rw [ih]; first | rfl | simp)
@[simp] theorem State.ingestStep_fixed (s : State) : (State.ingestStep s).fixed = s.fixed := by
  unfold State.ingestStep; simp
@[simp] theorem State.endIngest_fixed (s : State) (g : Ingest) : (s.endIngest g).fixed = s.fixed := by
  unfold State.endIngest; dsimp only; split; · simp
  split; · simp
  rw [State.complete_fixed, State.fixed_foldl _ (fun s x => by simp)]; simp
@[simp] theorem State.takeTable_fixed (s : State) (i : Nat) : (State.takeTable s i).fixed = s.fixed := by
  unfold State.takeTable; simp
@[simp] theorem State.startBuild_fixed (s : State) (k : KeySet) : (State.startBuild s k).fixed = s.fixed := by
  unfold State.startBuild; (repeat' split) <;> simp
@[simp] theorem State.bindNow_fixed (s : State) (j : Nat) (k : KeySet) : (State.bindNow s j k).fixed = s.fixed := by
  unfold State.bindNow; dsimp only; (repeat' split) <;> simp
@[simp] theorem State.unbindNow_fixed (s : State) (j : Nat) (k : KeySet) : (State.unbindNow s j k).fixed = s.fixed := by
  unfold State.unbindNow; dsimp only; (repeat' split) <;> simp
@[simp] theorem State.takeBind_fixed (s : State) (j : Nat) (keep : List Bytes) (o : BindOp) : (State.takeBind s j keep o).fixed = s.fixed := by
  unfold State.takeBind; dsimp only; (repeat' split) <;> simp
@[simp] theorem State.takeBinds_fixed (s : State) (j : Nat) (keep : List Bytes) : (State.takeBinds s j keep).fixed = s.fixed := by
  unfold State.takeBinds; simp
@[simp] theorem State.expanderCheck_fixed (s : State) (m i : Nat) : (State.expanderCheck s m i).fixed = s.fixed := by
  unfold State.expanderCheck; simp
@[simp] theorem State.damage_fixed (s : State) (j : Nat) (id : Bytes) (ix : Nat) : (State.damage s j id ix).fixed = s.fixed := by
  unfold State.damage; simp
@[simp] theorem State.endStream_fixed (s : State) (m q : Nat) (t : KeyStream) : (State.endStream s m q t).fixed = s.fixed := by
  unfold State.endStream; simp
@[simp] theorem State.ackBlock_fixed (s : State) (m q n : Nat) (t : KeyStream) : (State.ackBlock s m q n t).fixed = s.fixed := by
  unfold State.ackBlock; simp
@[simp] theorem State.passOut_fixed (s : State) (link src : Nat) (keyset : Bytes) (index d0 d1 : Nat) : (State.passOut s link src keyset index d0 d1).fixed = s.fixed := by
  unfold State.passOut; (repeat' split) <;> simp
@[simp] theorem State.passArrives_fixed (s : State) (id : Bytes) (ix : Nat) (first : Bool) (b : Bytes) : (State.passArrives s id ix first b).fixed = s.fixed := by
  unfold State.passArrives; simp
@[simp] theorem State.passIn_fixed (s : State) (link : Nat) (h : FlitHdr) (keyset payload : Bytes) : (State.passIn s link h keyset payload).fixed = s.fixed := by
  unfold State.passIn; dsimp only; (repeat' split) <;> simp
@[simp] theorem State.beginPower_fixed (s : State) (w : PendPower) : (State.beginPower s w).fixed = s.fixed := by
  unfold State.beginPower; simp
@[simp] theorem State.endPower_fixed (s : State) (j : Nat) (couch : Bool) : (State.endPower s j couch).fixed = s.fixed := by
  unfold State.endPower; dsimp only; (repeat' split) <;> simp
@[simp] theorem State.couchHandles_fixed (s : State) (j : Nat) : (State.couchHandles s j).fixed = s.fixed := by
  unfold State.couchHandles; dsimp only; (repeat' split) <;> simp
@[simp] theorem State.guaranteeRec_fixed (s : State) (j kind place cause adm new : Nat) (down : Bool) : (State.guaranteeRec s j kind place cause adm new down).fixed = s.fixed := by
  unfold State.guaranteeRec; simp
@[simp] theorem State.reportCore_fixed (s : State) (j : Nat) (x : Job) : (State.reportCore s j x).fixed = s.fixed := by
  unfold State.reportCore; simp
@[simp] theorem State.reportKeys_fixed (s : State) (j : Nat) (x : Job) : (State.reportKeys s j x).fixed = s.fixed := by
  unfold State.reportKeys; simp
@[simp] theorem State.reportLat_fixed (s : State) (j : Nat) (x : Job) : (State.reportLat s j x).fixed = s.fixed := by
  unfold State.reportLat; simp
@[simp] theorem State.reportGuarantees_fixed (s : State) : (State.reportGuarantees s).fixed = s.fixed := by
  unfold State.reportGuarantees; simp
@[simp] theorem State.startRelease_fixed (s : State) (j : Nat) : (State.startRelease s j).fixed = s.fixed := by
  unfold State.startRelease; (repeat' split) <;> simp
@[simp] theorem State.sendEntry_fixed (s : State) (j : Nat) (e : RelEntry) : (State.sendEntry s j e).fixed = s.fixed := by
  unfold State.sendEntry; dsimp only; (repeat' split) <;> simp
@[simp] theorem State.finishRelease_fixed (s : State) (j : Nat) (r : Release) : (State.finishRelease s j r).fixed = s.fixed := by
  unfold State.finishRelease; dsimp only; (repeat' split) <;> simp
@[simp] theorem State.writeEntries_fixed (j n : Nat) (s : State) : (State.writeEntries j n s).fixed = s.fixed := by
  induction n generalizing s with
  | zero => rfl
  | succ n ih => unfold State.writeEntries; (repeat' split) <;> simp [ih]
@[simp] theorem State.staleEntry_fixed (s : State) (j : Nat) (p : RelEntry) (k : Nat) : (State.staleEntry s j p k).fixed = s.fixed := by
  unfold State.staleEntry; simp
@[simp] theorem State.meetEntry_fixed (s : State) (j : Nat) (p : RelEntry) (e : ReadErr) : (State.meetEntry s j p e).fixed = s.fixed := by
  unfold State.meetEntry; (repeat' split) <;> simp
@[simp] theorem State.releaseEndNow_fixed (s : State) (span stream seq bytes : Nat) : (State.releaseEndNow s span stream seq bytes).fixed = s.fixed := by
  unfold State.releaseEndNow; dsimp only; (repeat' split) <;> simp
@[simp] theorem State.grantNow_fixed (s : State) (span stream credits : Nat) : (State.grantNow s span stream credits).fixed = s.fixed := by
  unfold State.grantNow; (repeat' split) <;> simp
@[simp] theorem State.grantTo_fixed (s : State) (span m stream credits : Nat) : (State.grantTo s span m stream credits).fixed = s.fixed := by
  unfold State.grantTo; simp
@[simp] theorem State.grantRoom_fixed (s : State) (j span : Nat) : (State.grantRoom s j span).fixed = s.fixed := by
  unfold State.grantRoom; (repeat' split) <;> simp
@[simp] theorem State.commitAreas_fixed (s : State) (j : Nat) : (s.commitAreas j).fixed = s.fixed := by
  unfold State.commitAreas; dsimp only; split; · rfl
  rw [State.modJob_fixed]
  exact State.fixed_each _ _ _ fun s m => by (try dsimp only); (repeat' split) <;> simp
@[simp] theorem State.queueRelease_fixed (s : State) (j : Nat) (es : List RelEntry) (final inter : Bool) : (State.queueRelease s j es final inter).fixed = s.fixed := by
  unfold State.queueRelease; dsimp only; (repeat' split) <;> simp
@[simp] theorem State.endTest_fixed (s : State) (m : Nat) (u : SlotTest) (status : Nat) : (State.endTest s m u status).fixed = s.fixed := by
  unfold State.endTest; dsimp only; (repeat' split) <;> simp
@[simp] theorem State.askSuspend_fixed (s : State) (j : Nat) : (State.askSuspend s j).fixed = s.fixed := by
  unfold State.askSuspend; simp
@[simp] theorem State.beginTest_fixed (s : State) (m : Nat) (u : SlotTest) (spare : Bool) : (State.beginTest s m u spare).fixed = s.fixed := by
  unfold State.beginTest; simp
@[simp] theorem State.startRequest_fixed (s : State) (m : Nat) (q : Nat × Bool × Port × Nat) : (State.startRequest s m q).fixed = s.fixed := by
  unfold State.startRequest; dsimp only; (repeat' split) <;> simp
@[simp] theorem State.startTurn_fixed (s : State) (m : Nat) : (State.startTurn s m).fixed = s.fixed := by
  unfold State.startTurn; dsimp only; (repeat' split) <;> simp
@[simp] theorem State.nextTest_fixed (s : State) (m : Nat) : (State.nextTest s m).fixed = s.fixed := by
  unfold State.nextTest; dsimp only; (repeat' split) <;> simp
@[simp] theorem State.stepTest_fixed (s : State) (m j : Nat) (u : SlotTest) : (State.stepTest s m j u).fixed = s.fixed := by
  unfold State.stepTest; simp
@[simp] theorem State.testStep_fixed (s : State) (m j : Nat) : (State.testStep s m j).fixed = s.fixed := by
  unfold State.testStep; simp
@[simp] theorem State.testSteps_fixed (s : State) (j : Nat) : (State.testSteps s j).fixed = s.fixed := by
  unfold State.testSteps; simp
@[simp] theorem State.saveImages_fixed (s : State) (j : Nat) : (State.saveImages s j).fixed = s.fixed := by
  unfold State.saveImages; dsimp only; (repeat' split) <;> simp
@[simp] theorem State.suspendNow_fixed (s : State) (j : Nat) : (State.suspendNow s j).fixed = s.fixed := by
  unfold State.suspendNow; simp
@[simp] theorem State.modStart_fixed (s : State) : (State.modStart s).fixed = s.fixed := by
  unfold State.modStart; (repeat' split) <;> simp
@[simp] theorem State.testFailed_fixed (s : State) (res index sig : Nat) : (State.testFailed s res index sig).fixed = s.fixed := by rfl
@[simp] theorem State.stopMill_fixed (s : State) (m : Nat) (res : ResIx) : (State.stopMill s m res).fixed = s.fixed := by
  unfold State.stopMill; simp
@[simp] theorem State.loseCore_fixed (s : State) (m n : Nat) : (State.loseCore s m n).fixed = s.fixed := by
  unfold State.loseCore; simp
@[simp] theorem State.retireSlot_fixed (s : State) (m k sig : Nat) : (State.retireSlot s m k sig).fixed = s.fixed := by
  unfold State.retireSlot; dsimp only; (repeat' split) <;> simp
@[simp] theorem State.blockFailed_fixed (s : State) (sig : Nat) (z0 : Block) : (State.blockFailed s sig z0).fixed = s.fixed := by
  unfold State.blockFailed; dsimp only; (repeat' split) <;> simp
@[simp] theorem State.takeImages_fixed (s : State) (t : ModTest) : (State.takeImages s t).fixed = s.fixed := by
  unfold State.takeImages; simp
@[simp] theorem State.dropImages_fixed (s : State) (t : ModTest) : (State.dropImages s t).fixed = s.fixed := by
  unfold State.dropImages; simp
@[simp] theorem State.modScan_fixed (s : State) (t : ModTest) (b : Block) (pass : Bool) (sig : Nat) : (State.modScan s t b pass sig).fixed = s.fixed := by
  unfold State.modScan; dsimp only; (repeat' split) <;> simp
@[simp] theorem State.leaveCouch_fixed (s : State) (j : Nat) : (State.leaveCouch s j).fixed = s.fixed := by
  unfold State.leaveCouch; (repeat' split) <;> simp
@[simp] theorem State.newStride_fixed (s : State) (j : Nat) : (State.newStride s j).fixed = s.fixed := by
  unfold State.newStride; simp
@[simp] theorem State.commit_fixed (s : State) (j : Nat) (final inter : Bool) (keep : List Bytes) : (State.commit s j final inter keep).fixed = s.fixed := by
  unfold State.commit; dsimp only; (repeat' split) <;> simp
@[simp] theorem State.ordinaryCouch_fixed (s : State) (j : Nat) : (State.ordinaryCouch s j).fixed = s.fixed := by
  unfold State.ordinaryCouch; (repeat' split) <;> simp
@[simp] theorem State.couchDue_fixed (s : State) (j : Nat) : (State.couchDue s j).fixed = s.fixed := by
  unfold State.couchDue; simp
@[simp] theorem State.storeFree_fixed (s : State) (j : Nat) (h : Option Nat) (off n : Nat) : (State.storeFree s j h off n).fixed = s.fixed := by
  unfold State.storeFree; simp
@[simp] theorem State.saveCore_fixed (s : State) (j n : Nat) : (State.saveCore s j n).fixed = s.fixed := by
  unfold State.saveCore; simp
@[simp] theorem State.peerHalt_fixed (s : State) (j : Nat) (x : Job) : (State.peerHalt s j x).fixed = s.fixed := by
  unfold State.peerHalt; simp
@[simp] theorem State.haltCore_fixed (s : State) (core : Nat) (x : Job) : (State.haltCore s core x).fixed = s.fixed := by
  unfold State.haltCore; simp
@[simp] theorem State.macroPasses_fixed (s : State) (j : Nat) : (State.macroPasses s j).fixed = s.fixed := by
  unfold State.macroPasses; (repeat' split) <;> simp
@[simp] theorem State.interludeCommit_fixed (s : State) (j : Nat) : (State.interludeCommit s j).fixed = s.fixed := by
  unfold State.interludeCommit; dsimp only; (repeat' split) <;> simp
@[simp] theorem State.repulpWork_fixed (s : State) (j : Nat) (p : ParamSet) : (State.repulpWork s j p).fixed = s.fixed := by
  unfold State.repulpWork; simp
@[simp] theorem State.refreshCt_fixed (s : State) (j : Nat) (keys : Bytes) (l : Loc) : (State.refreshCt s j keys l).fixed = s.fixed := by
  unfold State.refreshCt; dsimp only; (repeat' split) <;> simp
@[simp] theorem State.dirtyWork_fixed (s : State) (j : Nat) (cts : List Loc) : (State.dirtyWork s j cts).fixed = s.fixed := by
  unfold State.dirtyWork; (repeat' split) <;> simp
@[simp] theorem State.insertedRec_fixed (s : State) (j : Nat) (r : RepReq) : (State.insertedRec s j r).fixed = s.fixed := by
  unfold State.insertedRec; simp
@[simp] theorem State.macroCommit_fixed (s : State) (j : Nat) (last : Bool) : (State.macroCommit s j last).fixed = s.fixed := by
  unfold State.macroCommit; dsimp only; (repeat' split) <;> simp
@[simp] theorem State.unhalt_fixed (s : State) (j : Nat) (cores : List Nat) : (State.unhalt s j cores).fixed = s.fixed := by
  unfold State.unhalt; simp
@[simp] theorem State.resumeNow_fixed (s : State) (j : Nat) : (State.resumeNow s j).fixed = s.fixed := by
  unfold State.resumeNow; dsimp only; (repeat' split) <;> simp
@[simp] theorem State.tableReplay_fixed (s : State) (j : Nat) (r : ResIx) : (State.tableReplay s j r).fixed = s.fixed := by
  unfold State.tableReplay; simp
@[simp] theorem State.tableError_fixed (s : State) (i : Nat) (r : ResIx) : (State.tableError s i r).fixed = s.fixed := by
  unfold State.tableError; simp
@[simp] theorem State.macroRead_fixed (s : State) (j : Nat) (x : Job) (off : Nat) : (State.macroRead s j x off).fixed = s.fixed := by
  unfold State.macroRead; (repeat' split) <;> simp
@[simp] theorem State.lateTick_fixed (s : State) (j : Nat) : (State.lateTick s j).fixed = s.fixed := by
  unfold State.lateTick; simp
@[simp] theorem State.deadlockStop_fixed (s : State) (j : Nat) (tell : Bool) : (State.deadlockStop s j tell).fixed = s.fixed := by
  unfold State.deadlockStop; (repeat' split) <;> simp
@[simp] theorem State.commitSpan_fixed (s : State) (j : Nat) : (State.commitSpan s j).fixed = s.fixed := by
  unfold State.commitSpan; (repeat' split) <;> simp
@[simp] theorem State.deferSpan_fixed (s : State) (j : Nat) : (State.deferSpan s j).fixed = s.fixed := by
  unfold State.deferSpan; (repeat' split) <;> simp
@[simp] theorem State.rollbackSpan_fixed (s : State) (i j : Nat) (lost : Bool) : (State.rollbackSpan s i j lost).fixed = s.fixed := by
  unfold State.rollbackSpan; simp
@[simp] theorem State.takeDecision_fixed (s : State) (i j seq : Nat) (d : Decision) (lost : Bool) : (State.takeDecision s i j seq d lost).fixed = s.fixed := by
  unfold State.takeDecision; dsimp only; (repeat' split) <;> simp
@[simp] theorem State.decideAs_fixed (s : State) (i : Nat) (d : Decision) : (State.decideAs s i d).fixed = s.fixed := by
  unfold State.decideAs; dsimp only; (repeat' split) <;> simp
@[simp] theorem State.stopSpan_fixed (s : State) (i code : Nat) : (State.stopSpan s i code).fixed = s.fixed := by
  unfold State.stopSpan; dsimp only; (repeat' split) <;> simp
@[simp] theorem State.judge_fixed (s : State) (i : Nat) : (State.judge s i).fixed = s.fixed := by
  unfold State.judge; simp
@[simp] theorem State.takeVote_fixed (s : State) (i m seq : Nat) (v : Vote) (k d : Nat) (dead : Bool) : (State.takeVote s i m seq v k d dead).fixed = s.fixed := by
  unfold State.takeVote; simp
@[simp] theorem State.castVote_fixed (s : State) (i j : Nat) (v : Vote) (dead : Bool) : (State.castVote s i j v dead).fixed = s.fixed := by
  unfold State.castVote; dsimp only; (repeat' split) <;> simp
@[simp] theorem State.voteNow_fixed (s : State) (span m seq : Nat) (v : Vote) (divK duty : Nat) (dead : Bool) : (State.voteNow s span m seq v divK duty dead).fixed = s.fixed := by
  unfold State.voteNow; simp
@[simp] theorem State.decisionNow_fixed (s : State) (span seq : Nat) (d : Decision) (lost : Bool) : (State.decisionNow s span seq d lost).fixed = s.fixed := by
  unfold State.decisionNow; (repeat' split) <;> simp
@[simp] theorem State.answerDecision_fixed (s : State) (span m seq : Nat) : (State.answerDecision s span m seq).fixed = s.fixed := by
  unfold State.answerDecision; (repeat' split) <;> simp
@[simp] theorem State.launch_fixed (s : State) (j : Nat) : (State.launch s j).fixed = s.fixed := by
  unfold State.launch; dsimp only; (repeat' split) <;> simp
@[simp] theorem State.startNow_fixed (s : State) (span tick hops : Nat) (agree : Bool) : (State.startNow s span tick hops agree).fixed = s.fixed := by
  unfold State.startNow; dsimp only; (repeat' split) <;> simp
@[simp] theorem State.peerStop_fixed (s : State) (span cause : Nat) : (State.peerStop s span cause).fixed = s.fixed := by
  unfold State.peerStop; dsimp only; (repeat' split) <;> simp
@[simp] theorem State.latchReam_fixed (s : State) : (State.latchReam s).fixed = s.fixed := by
  unfold State.latchReam; dsimp only; (repeat' split) <;> simp
@[simp] theorem State.overrunNow_fixed (s : State) (j : Nat) : (State.overrunNow s j).fixed = s.fixed := by
  unfold State.overrunNow; simp
@[simp] theorem State.interludeDue_fixed (s : State) (j : Nat) : (State.interludeDue s j).fixed = s.fixed := by
  unfold State.interludeDue; simp
@[simp] theorem State.closeTick_fixed (s : State) : (State.closeTick s).fixed = s.fixed := by
  unfold State.closeTick; simp
@[simp] theorem State.beginStride_fixed (s : State) (j : Nat) : (s.beginStride j).fixed = s.fixed := by
  unfold State.beginStride; dsimp only; split; · rfl
  rw [State.settle_fixed, State.enterAll_fixed, State.fixed_each _ _ _ (fun s m => by simp)]
  split <;> simp
@[simp] theorem State.foldExc_fixed (s : State) (j : Nat) : (State.foldExc s j).fixed = s.fixed := by
  unfold State.foldExc; dsimp only; (repeat' split) <;> simp
@[simp] theorem State.countSheet_fixed (s : State) (j : Nat) (x : Job) : (State.countSheet s j x).fixed = s.fixed := by
  unfold State.countSheet; simp
@[simp] theorem State.closeSheet_fixed (s : State) (j : Nat) : (State.closeSheet s j).fixed = s.fixed := by
  unfold State.closeSheet; dsimp only; (repeat' split) <;> simp
@[simp] theorem State.endSheet_fixed (s : State) (j : Nat) (x : Job) : (State.endSheet s j x).fixed = s.fixed := by
  unfold State.endSheet; dsimp only; (repeat' split) <;> simp
@[simp] theorem State.faultVote_fixed (s : State) (j : Nat) (x : Job) : (State.faultVote s j x).fixed = s.fixed := by
  unfold State.faultVote; simp
@[simp] theorem State.tickJob_fixed (s : State) (j : Nat) : (State.tickJob s j).fixed = s.fixed := by
  unfold State.tickJob; dsimp only; (repeat' split) <;> simp
@[simp] theorem State.countModule_fixed (s : State) : (State.countModule s).fixed = s.fixed := by
  unfold State.countModule; simp
@[simp] theorem State.reamTick_fixed (s : State) : (State.reamTick s).fixed = s.fixed := by
  unfold State.reamTick; simp
@[simp] theorem State.tickNow_fixed (s : State) : s.tickNow.fixed = s.fixed := by
  unfold State.tickNow; dsimp only
  rw [State.modStart_fixed, State.testSteps_fixed, State.reportGuarantees_fixed, State.fixed_each _ _ _ (fun s m => by simp),
    State.fixed_each _ _ _ (fun s m => by simp)]
  simp
@[simp] theorem State.stormRec_fixed (s : State) (r : ResIx) : (State.stormRec s r).fixed = s.fixed := by rfl
@[simp] theorem State.stormJobs_fixed (s : State) (js : List Nat) (r : ResIx) : (State.stormJobs s js r).fixed = s.fixed := by
  unfold State.stormJobs; simp
@[simp] theorem State.retireGroup_fixed (s : State) (m x : Nat) : (State.retireGroup s m x).fixed = s.fixed := by
  unfold State.retireGroup; dsimp only; (repeat' split) <;> simp
@[simp] theorem State.groupStorm_fixed (s : State) (m g : Nat) : (State.groupStorm s m g).fixed = s.fixed := by
  unfold State.groupStorm; dsimp only; (repeat' split) <;> simp
@[simp] theorem State.pcStormNow_fixed (s : State) (pc : Nat) : (State.pcStormNow s pc).fixed = s.fixed := by
  unfold State.pcStormNow; simp
@[simp] theorem State.damageKey_fixed (s : State) (j key : Nat) : (State.damageKey s j key).fixed = s.fixed := by
  unfold State.damageKey; (repeat' split) <;> simp
@[simp] theorem State.lostSector_fixed (s : State) (key : Nat) : (State.lostSector s key).fixed = s.fixed := by
  unfold State.lostSector; (repeat' split) <;> simp
@[simp] theorem State.lostGranule_fixed (s : State) (pc byte : Nat) : (State.lostGranule s pc byte).fixed = s.fixed := by
  unfold State.lostGranule; simp
@[simp] theorem State.endMigration_fixed (s : State) (pc : Nat) : (State.endMigration s pc).fixed = s.fixed := by rfl
@[simp] theorem State.scrubError_fixed (s : State) (pc byte : Nat) : (State.scrubError s pc byte).fixed = s.fixed := by
  unfold State.scrubError; dsimp only; (repeat' split) <;> simp
@[simp] theorem State.dropCtr_fixed (s : State) (gone : Nat → Bool) : (State.dropCtr s gone).fixed = s.fixed := by rfl
@[simp] theorem State.makeJob_fixed (s : State) (p : Port) (q : JobReq) (j : Nat) (g : Grant) : (State.makeJob s p q j g).fixed = s.fixed := by
  unfold State.makeJob; simp
@[simp] theorem State.placeImage_fixed (s : State) (j : Nat) (b : Bytes) : (State.placeImage s j b).fixed = s.fixed := by
  unfold State.placeImage; simp
@[simp] theorem State.applyPolicy_fixed (s : State) (c : Bytes) : (State.applyPolicy s c).fixed = s.fixed := by
  unfold State.applyPolicy; simp
@[simp] theorem State.routeLink_fixed (s : State) (old : Option Route) (new : Route) (k : Nat) : (State.routeLink s old new k).fixed = s.fixed := by
  unfold State.routeLink; dsimp only; (repeat' split) <;> simp
@[simp] theorem State.applyRoute_fixed (s : State) (new : Route) : (State.applyRoute s new).fixed = s.fixed := by
  unfold State.applyRoute; simp
@[simp] theorem State.replayLink_fixed (s : State) (js : List Nat) (contained : Bool) (code lane : Nat) : (State.replayLink s js contained code lane).fixed = s.fixed := by
  unfold State.replayLink; simp
@[simp] theorem State.downLink_fixed (s : State) (k : Nat) : (s.downLink k).fixed = s.fixed := by
  unfold State.downLink; dsimp only
  rw [State.fixed_each _ _ _ (fun s m => by (repeat' split) <;> simp), State.fixed_each _ _ _ (fun s m => by (repeat' split) <;> simp)]
  simp
@[simp] theorem State.retireLane_fixed (s : State) (k lane : Nat) : (State.retireLane s k lane).fixed = s.fixed := by
  unfold State.retireLane; simp
@[simp] theorem State.loseMembers_fixed (s : State) (lost : List Nat) : (s.loseMembers lost).fixed = s.fixed := by
  unfold State.loseMembers; dsimp only
  rw [State.fixed_each _ _ _ (fun s m => by (repeat' split) <;> simp), State.fixed_each _ _ _ (fun s m => by simp)]
@[simp] theorem State.retrainEnd_fixed (s : State) (k : Nat) (ok : Bool) (found : Option Training) : (State.retrainEnd s k ok found).fixed = s.fixed := by
  unfold State.retrainEnd; simp
@[simp] theorem State.hide_fixed (s : State) (h : FlitHdr) (payload : Bytes) : (State.hide s h payload).fixed = s.fixed := by
  unfold State.hide; (repeat' split) <;> simp
@[simp] theorem State.tell_fixed (s : State) (k cls tag : Nat) (payload : Bytes) : (State.tell s k cls tag payload).fixed = s.fixed := by
  unfold State.tell; simp
@[simp] theorem State.tickIn_fixed (s : State) (k tickNo period hops delay : Nat) : (State.tickIn s k tickNo period hops delay).fixed = s.fixed := by
  unfold State.tickIn; simp
@[simp] theorem State.spanAfterMaster_fixed (s : State) (lost : Nat) (reachable : List Nat) (kept : Bool) (j : Nat) : (State.spanAfterMaster s lost reachable kept j).fixed = s.fixed := by
  unfold State.spanAfterMaster; (repeat' split) <;> simp
@[simp] theorem State.pingIn_fixed (s : State) (k stamp : Nat) : (State.pingIn s k stamp).fixed = s.fixed := by
  unfold State.pingIn; simp
@[simp] theorem State.pongIn_fixed (s : State) (k delay : Nat) : (State.pongIn s k delay).fixed = s.fixed := by
  unfold State.pongIn; simp
@[simp] theorem State.writeTail_fixed (s : State) (p : Port) (r : Nat) (v : Reg) : (State.writeTail s p r v).fixed = s.fixed := by
  unfold State.writeTail; simp
@[simp] theorem State.writeCqHead_fixed (s : State) (p : Port) (r : Nat) (v : Reg) : (State.writeCqHead s p r v).fixed = s.fixed := by
  unfold State.writeCqHead; simp
@[simp] theorem State.writeRingCfg_fixed (s : State) (p : Port) (r : Nat) (v : Reg) : (State.writeRingCfg s p r v).fixed = s.fixed := by
  unfold State.writeRingCfg; simp
@[simp] theorem State.writeEvCfg_fixed (s : State) (p : Port) (v : Reg) : (State.writeEvCfg s p v).fixed = s.fixed := by
  unfold State.writeEvCfg; simp
@[simp] theorem State.writeEvHead_fixed (s : State) (p : Port) (v : Reg) : (State.writeEvHead s p v).fixed = s.fixed := by
  unfold State.writeEvHead; simp
@[simp] theorem State.writeRecord_fixed (s : State) (p : Port) (e : EvRec) : (State.writeRecord s p e).fixed = s.fixed := by
  unfold State.writeRecord; simp
@[simp] theorem State.padRing_fixed (s : State) (p : Port) (n : Nat) : (State.padRing s p n).fixed = s.fixed := by
  unfold State.padRing; simp
@[simp] theorem State.reported_fixed (s : State) (e : EvRec) : (State.reported s e).fixed = s.fixed := by
  unfold State.reported; simp
@[simp] theorem State.snapshot_fixed (s : State) (p : Port) : (State.snapshot s p).fixed = s.fixed := by
  unfold State.snapshot; simp
@[simp] theorem State.writeSnap_fixed (s : State) (p : Port) (v : Reg) : (State.writeSnap s p v).fixed = s.fixed := by
  unfold State.writeSnap; simp
@[simp] theorem State.writeErrStatus_fixed (s : State) (p : Port) (v : Reg) : (State.writeErrStatus s p v).fixed = s.fixed := by
  unfold State.writeErrStatus; simp
@[simp] theorem State.writeValid_fixed (s : State) (p : Port) (hi : Bool) (v : Reg) : (State.writeValid s p hi v).fixed = s.fixed := by
  unfold State.writeValid; simp
@[simp] theorem State.unmask_fixed (s : State) (p : Port) (v : Nat) : (State.unmask s p v).fixed = s.fixed := by
  unfold State.unmask; simp
@[simp] theorem State.writeMsix_fixed (s : State) (p : Port) (o : Nat) (v : Reg) : (State.writeMsix s p o v).fixed = s.fixed := by
  unfold State.writeMsix; simp
@[simp] theorem State.writeDoor_fixed (s : State) (p : Port) (o : Nat) (v : Reg) : (State.writeDoor s p o v).fixed = s.fixed := by
  unfold State.writeDoor; dsimp only; (repeat' split) <;> simp
@[simp] theorem State.writeEss_fixed (s : State) (p : Port) (o : Nat) (v : Reg) : (State.writeEss s p o v).fixed = s.fixed := by
  unfold State.writeEss; (repeat' split) <;> simp
@[simp] theorem State.writeBlock_fixed (s : State) (p : Port) (b : RegBlock) (o : Nat) (v : Reg) : (State.writeBlock s p b o v).fixed = s.fixed := by
  unfold State.writeBlock; (repeat' split) <;> simp
@[simp] theorem State.abort_fixed (s : State) (p : Port) : (State.abort s p).fixed = s.fixed := by
  unfold State.abort; simp
@[simp] theorem State.busError_fixed (s : State) (p : Port) (off : Nat) (write : Bool) (kind : Nat) : (State.busError s p off write kind).fixed = s.fixed := by
  unfold State.busError; simp
@[simp] theorem State.bar2Abort_fixed (s : State) (p : Port) (off : Nat) (write : Bool) (kind : Nat) : (State.bar2Abort s p off write kind).fixed = s.fixed := by
  unfold State.bar2Abort; simp
@[simp] theorem State.afterDrains_fixed (s : State) (n : Nat) (is : List Instr) : (State.afterDrains s n is).fixed = s.fixed := by rfl
@[simp] theorem State.storeLost_fixed (s : State) (n : Nat) : (State.storeLost s n).fixed = s.fixed := by
  unfold State.storeLost; simp
end Sys2Proof.Machine
end

