-- ==== Sys2Proof/Laws/Ops.lean ====
section
/-! SUPPORT. The shared operations: what is read after an update, and what each of them can do. -/

namespace Sys2Proof.Machine

/-! ### Reading after an update -/

@[simp] theorem State.port_setPort_self (s : State) (p : Port) (x : PortSt) : (s.setPort p x).port p = x := by cases p <;> rfl
@[simp] theorem State.port_setPort_other (s : State) (p : Port) (x : PortSt) : (s.setPort p x).port (otherPort p) = s.port (otherPort p) := by
  cases p <;> rfl
@[simp] theorem State.port_modPort_self (s : State) (p : Port) (f : PortSt → PortSt) : (s.modPort p f).port p = f (s.port p) := by cases p <;> rfl
@[simp] theorem State.port_modPort_other (s : State) (p : Port) (f : PortSt → PortSt) :
    (s.modPort p f).port (otherPort p) = s.port (otherPort p) := by cases p <;> rfl
@[simp] theorem State.job_setJob_self (s : State) (j : Nat) (x : Option Job) : (s.setJob j x).job j = x := Tbl.get_set_self ..
theorem State.job_setJob (s : State) (j k : Nat) (x : Option Job) : (s.setJob j x).job k = if j = k then x else s.job k := Tbl.get_set ..
theorem State.job_modJob (s : State) (j k : Nat) (f : Job → Job) : (s.modJob j f).job k = if j = k then (s.job j).map f else s.job k := by
  unfold State.modJob
  split
  · rename_i h; split
    · rename_i e; subst e; simp [h]
    · rfl
  · rename_i x h; rw [State.job_setJob, h]; rfl
theorem State.modJob_some (s : State) (j : Nat) (f : Job → Job) (x : Job) (h : s.job j = some x) : s.modJob j f = s.setJob j (some (f x)) := by
  simp [State.modJob, h]
@[simp] theorem State.core_setCore_self (s : State) (n : Nat) (x : CoreSt) : (s.setCore n x).core n = x := Tbl.get_set_self ..
theorem State.core_setCore (s : State) (n m : Nat) (x : CoreSt) : (s.setCore n x).core m = if n = m then x else s.core m := Tbl.get_set ..
@[simp] theorem State.core_modCore_self (s : State) (n : Nat) (f : CoreSt → CoreSt) : (s.modCore n f).core n = f (s.core n) := Tbl.get_set_self ..
theorem State.core_modCore (s : State) (n m : Nat) (f : CoreSt → CoreSt) :
    (s.modCore n f).core m = if n = m then f (s.core n) else s.core m := Tbl.get_set ..
@[simp] theorem State.job_modCore (s : State) (n j : Nat) (f : CoreSt → CoreSt) : (s.modCore n f).job j = s.job j := rfl
@[simp] theorem State.job_setCore (s : State) (n j : Nat) (x : CoreSt) : (s.setCore n x).job j = s.job j := rfl
@[simp] theorem State.core_setJob (s : State) (n j : Nat) (x : Option Job) : (s.setJob j x).core n = s.core n := rfl
@[simp] theorem State.core_modJob (s : State) (n j : Nat) (f : Job → Job) : (s.modJob j f).core n = s.core n := by
  unfold State.modJob; split <;> rfl
@[simp] theorem State.ring_setRing_self (s : State) (p : Port) (r : Nat) (x : Ring) : (s.setRing p r x).ring p r = x := by
  cases p <;> exact Tbl.get_set_self ..
theorem State.ring_setRing (s : State) (p : Port) (r k : Nat) (x : Ring) :
    (s.setRing p r x).ring p k = if r = k then x else s.ring p k := by
  cases p <;> exact Tbl.get_set ..
@[simp] theorem State.ring_setRing_other (s : State) (p : Port) (r k : Nat) (x : Ring) :
    (s.setRing p r x).ring (otherPort p) k = s.ring (otherPort p) k := by cases p <;> rfl

/-! ### Issue of a bundle -/

/-- All that an operation can do at issue stands in a relation. -/
def OpAct.Does (K : State → State → Prop) : OpAct → Prop
  | .go f _ _ => ∀ s, K s (f s)
  | .stop _ f => ∀ s, K s (f s)

@[simp] theorem OpAct.does_go (K : State → State → Prop) (f : State → State) (b : Branch) (m : CoreMode) :
    (OpAct.go f b m).Does K ↔ ∀ s, K s (f s) := Iff.rfl
@[simp] theorem OpAct.does_effect (K : State → State → Prop) (f : State → State) : (OpAct.effect f).Does K ↔ ∀ s, K s (f s) := Iff.rfl
@[simp] theorem OpAct.does_stop (K : State → State → Prop) (r : Nat) (f : State → State) : (OpAct.stop r f).Does K ↔ ∀ s, K s (f s) := Iff.rfl
@[simp] theorem waitAs_does (K : State → State → Prop) (m : CoreMode) : (waitAs m).Does K ↔ ∀ s, K s s := Iff.rfl
@[simp] theorem seqStop_does (K : State → State → Prop) (n slot d : Nat) : (seqStop n slot d).Does K ↔ ∀ s : State, K s (s.seqFault n slot d) := Iff.rfl
@[simp] theorem argStop_does (K : State → State → Prop) (n slot d off : Nat) :
    (argStop n slot d off).Does K ↔ ∀ s : State, K s (s.opFault n slot d off) := Iff.rfl
@[simp] theorem staleStop_does (K : State → State → Prop) (n slot d h off : Nat) :
    (staleStop n slot d h off).Does K ↔ ∀ s : State, K s (s.staleFault n slot d h off) := Iff.rfl

/-- A relation that the issue of a bundle keeps where its operations do. -/
structure StepRel (K : State → State → Prop) : Prop where
  refl : ∀ s, K s s
  trans : ∀ {s t u}, K s t → K t u → K s u
  core : ∀ (s : State) n f, K s (s.modCore n f)
  fault : ∀ (s : State) n slot d, K s (s.seqFault n slot d)
  close : ∀ (s : State) n b m, K s (s.endBundle n b m)

theorem StepRel.each {K : State → State → Prop} (R : StepRel K) {α : Type} (xs : List α) (f : State → α → State)
    (h : ∀ x ∈ xs, ∀ s, K s (f s x)) (s : State) : K s (s.each xs f) := by
  unfold State.each
  induction xs generalizing s with
  | nil => exact R.refl s
  | cons x xs ih =>
    exact R.trans (h x (.head _) s) (ih (fun y hy => h y (.tail _ hy)) _)

/-- The operations of a bundle do what each of them does. -/
theorem StepRel.runOps {K : State → State → Prop} (R : StepRel K) (n : Nat) (os : List Op) (h : ∀ o ∈ os, o.act.Does K) (s : State) :
    K s (s.runOps n os) := by
  unfold State.runOps
  refine R.each _ _ (fun o ho s => ?_) s
  have := h o ho
  split
  · rename_i e
    rw [e] at this
    split
    · exact R.trans (R.core ..) (this _)
    · exact R.refl s
  · exact R.refl s

/-- The stop that decides a bundle is the stop of one of its operations. -/
theorem bundleStop_mem (os : List Op) (r : Nat) (f : State → State) (h : bundleStop os = some (r, f)) : ∃ o ∈ os, o.act = .stop r f := by
  unfold bundleStop at h
  split at h
  · rename_i e
    cases h
    exact ⟨_, (List.mem_filter.1 (e ▸ List.mem_cons_self)).1, rfl⟩
  · cases h

theorem mem_opsInOrder (os : List Op) (o : Op) (h : o ∈ opsInOrder os) : o ∈ os := by
  simp only [opsInOrder, List.mem_flatMap, List.mem_filter] at h
  exact h.choose_spec.2.1

/-- The issue of a bundle does no more than its operations, the faults of the sequencer, and the step to the next bundle. -/
theorem StepRel.issueOps {K : State → State → Prop} (R : StepRel K) (n : Nat) (os : List Op) (h : ∀ o ∈ os, o.act.Does K) (s : State) :
    K s (s.issueOps n os) := by
  have stop : ∀ r f, bundleStop os = some (r, f) → K s (f s) := by
    intro r f e
    obtain ⟨o, ho, he⟩ := bundleStop_mem os r f e
    have := h o ho
    rw [he] at this
    exact this s
  have go : K s ((s.runOps n (opsInOrder os)).endBundle n (bundleBranch (opsInOrder os)) (bundleMode (opsInOrder os))) :=
    R.trans (R.runOps n _ (fun o ho => h o (mem_opsInOrder os o ho)) s) (R.close ..)
  unfold State.issueOps
  split
  · exact R.fault ..
  · rename_i e; exact stop _ _ e
  · split
    · exact R.refl s
    · split
      · rename_i e; exact stop _ _ e
      · exact go

/-- All that a bundle of one operation can do at issue: a fault for an illegal operation, nothing while it waits, the stop of its first
check that fails, or its effect and the step to the next bundle. -/
theorem State.issueOps_one (s : State) (n : Nat) (o : Op) :
    s.issueOps n [o] =
      if o.uses.writes.Nodup then
        match o.act with
        | .stop r f => if r ≠ 1 ∧ s.blocked n o.uses = true then s else f s
        | .go _ _ _ =>
          if s.blocked n o.uses then s
          else (s.runOps n (opsInOrder [o])).endBundle n (bundleBranch (opsInOrder [o])) (bundleMode (opsInOrder [o]))
      else s.seqFault n o.slot sqIllegal := by
  obtain ⟨slot, uses, act, drain⟩ := o
  unfold State.issueOps bundleStop
  cases act with
  | go _ _ _ =>
    by_cases h : uses.writes.Nodup <;> simp [clashIn, h, List.filter]
  | stop r _ =>
    by_cases h : uses.writes.Nodup
    · by_cases hr : r = 1
      · subst hr; simp [clashIn, h, List.filter]
      · simp [clashIn, h, List.filter, hr]
    · simp [clashIn, h]

/-- The last operation of a bundle issues it, where the core may issue and the program store reads well. -/
theorem State.slotOp_last (s : State) (i : Issue) (c : Instr) (h : s.canIssue i.core = true) (hs : (s.core i.core).staged = [])
    (hl : i.last = true) (hg : i.good = true) :
    s.slotOp i c = .next (s.issueOps i.core ([c].filterMap (opOf s (s.afterDrains i.core [c])))) := by
  simp [State.slotOp, h, hs, hl, hg]

/-! ### Commands of a ring -/

/-- The ring holds a command that no meaning has accepted, it is that command's turn, and the module runs and is not retired. -/
theorem State.fetched_eq_some (s : State) (p : Port) (r opcode : Nat) (c : Bytes) :
    s.fetched p r opcode = some c ↔ (s.ring p r).current = some c ∧ field c 0 1 = opcode ∧ (s.ring p r).held = false ∧ s.live = true ∧
      s.sec.fuses.retired = false ∧ s.turn p r c = true := by
  unfold State.fetched
  cases h : (s.ring p r).current with
  | none => simp
  | some d =>
    simp only [Option.some.injEq]
    split
    · rename_i k
      exact ⟨fun e => by cases e; exact ⟨rfl, by simpa using k⟩, fun e => by rw [e.1]⟩
    · rename_i k
      exact ⟨(fun e => by cases e), fun e => absurd (by simpa using e.2) (e.1 ▸ k)⟩

/-- A fetched command takes effect where the state of its job accepts it and its buffer can be reached. -/
theorem State.command_eq_some (s : State) (p : Port) (r opcode : Nat) (c : Bytes) :
    s.command p r opcode = some c ↔ s.fetched p r opcode = some c ∧ s.jobTakes c = true ∧ s.bufFirst p c = .go := by
  simp [State.command, Option.filter_eq_some_iff]

end Sys2Proof.Machine
end

