-- ==== Sys2Proof/Laws/Operations.lean ====
section
/-! SUPPORT. What a slot operation can do at its issue, said once for every relation that the shared operations keep: each operation
of a core does no more than they do. -/

namespace Sys2Proof.Machine

/-- A relation that everything keeps which an operation of a core does without storing to memory. -/
structure OpRel (K : State → State → Prop) : Prop where
  refl : ∀ s, K s s
  trans : ∀ {s t u}, K s t → K t u → K s u
  core : ∀ (s : State) n f, K s (s.modCore n f)
  job : ∀ (s : State) j f, K s (s.modJob j f)
  close : ∀ (s : State) n b m, K s (s.endBundle n b m)
  program : ∀ (s : State) n code detail slot h data, K s (s.program n code detail slot h data)
  stop : ∀ (s : State) j e, K s (s.stopJob j e)
  read : ∀ (s : State) j h off e n slot b, K s (s.readFault j h off e n slot b)
  work : ∀ (s : State) n i k, K s (s.work n i k)
  refresh : ∀ (s : State) n slot auto cts, K s (s.requestRefresh n slot auto cts)
  stream : ∀ (s : State) m q t k, K s (s.beginStream m q t k)

/-- A relation that everything keeps which an operation of a core does. -/
structure MemRel (K : State → State → Prop) : Prop extends OpRel K where
  store : ∀ (s : State) j h off data, K s (s.store j h off data)
  tile : ∀ (s : State) j f l y v, K s (s.storeTile j f l y v)
  limb : ∀ (s : State) j x fwd l, K s (s.nttLimb j x fwd l)
  cells : ∀ (s : State) j f y m xs, K s (s.writeCells j f y m xs)
  copy : ∀ (s : State) n h v l runs mem, K s (s.queueCopy n h v l runs mem)
  ct : ∀ (s : State) n o p hs d, K s (s.ctStart n o p hs d)

theorem OpRel.stepRel {K : State → State → Prop} (R : OpRel K) : StepRel K :=
  ⟨R.refl, R.trans, R.core, fun s n slot d => R.program s n codeSequencer d slot _ _, R.close⟩

section
variable {K : State → State → Prop}

/-! ### The checks -/

theorem OpRel.seq (R : OpRel K) (n slot d : Nat) : (seqStop n slot d).Does K := fun s => R.program s n codeSequencer d slot _ _
theorem OpRel.arg (R : OpRel K) (n slot d off : Nat) : (argStop n slot d off).Does K := fun s => R.program s n codeOperand d slot _ _
theorem OpRel.stale (R : OpRel K) (n slot d h off : Nat) : (staleStop n slot d h off).Does K := fun s => R.program s n codeStale d slot _ _
theorem OpRel.onCore (R : OpRel K) (n : Nat) (f : CoreSt → CoreSt) : (OpAct.effect (onCore n f)).Does K := fun s => R.core s n f
theorem OpRel.nothing (R : OpRel K) : (OpAct.effect id).Does K := R.refl
theorem OpRel.wait (R : OpRel K) (m : CoreMode) : (waitAs m).Does K := R.refl

theorem OpRel.needs (R : OpRel K) (s : State) (n slot : Nat) (fs : List Fmt) (es : List Nat) (f : OpAct) (h : f.Does K) :
    (s.needs n slot fs es f).Does K := by
  unfold State.needs; split
  · exact h
  · exact fun t => R.program t n codeEngine 0 slot _ _

/-! ### The shared forms of an operation -/

theorem OpRel.alu (R : OpRel K) (s : State) (i : Issue) (d a b : SReg) (f : Word → Word → Word) : (s.alu i d a b f).act.Does K := R.onCore _ _
theorem OpRel.mulOp (R : OpRel K) (s : State) (i : Issue) (d a b : SReg) (f : Word → Word → Word) : (s.mulOp i d a b f).act.Does K := R.onCore _ _
theorem OpRel.branchOp (R : OpRel K) (s : State) (i : Issue) (reads : List Nat) (dest : Nat) (taken : Bool) (f : CoreSt → CoreSt) :
    (s.branchOp i reads dest taken f).act.Does K := by
  unfold State.branchOp flowOp; (repeat' split) <;> first | (simp only [R.seq, R.nothing]; done) | exact fun s => R.core s ..
theorem OpRel.scalarAccess (R : OpRel K) (s : State) (i : Issue) (slot : Nat) (l : Loc) (size : Nat) (write : Bool) (act : OpAct)
    (h : act.Does K) : (s.scalarAccess i slot l size write act).Does K := by
  unfold State.scalarAccess; (repeat' split) <;> simp only [R.seq, R.stale, h]
theorem OpRel.semOp (R : OpRel K) (s : State) (i : Issue) (sem k : Nat) (act : Job → OpAct) (h : ∀ x, (act x).Does K) :
    (s.semOp i sem k act).act.Does K := by
  unfold State.semOp syncOp; dsimp only; (repeat' split) <;> simp only [R.seq, R.arg, R.nothing, h]
theorem OpRel.tileAccess (R : OpRel K) (s : State) (i : Issue) (slot : Nat) (f : Fmt) (l : Loc) (form : TileForm) (write : Bool)
    (act : Layout → OpAct) (h : ∀ y, (act y).Does K) : (s.tileAccess i slot f l form write act).Does K := by
  unfold State.tileAccess; apply R.needs; (repeat' split) <;> simp only [R.seq, R.arg, R.stale, h]
theorem OpRel.mmaOp (R : OpRel K) (s : State) (i : Issue) (m : Mma) (start primes : Bool) (g : OBufSt) :
    (s.mmaOp i m start primes g).Does K := by
  unfold State.mmaOp; apply R.needs; split
  · exact R.seq _ _ _
  split
  · exact R.arg _ _ _ _
  split
  · exact R.stale _ _ _ _ _
  · exact (OpAct.does_effect K _).2 fun s => R.trans (R.work ..) (R.core ..)
theorem OpRel.vecOp (R : OpRel K) (s : State) (i : Issue) (v : VDst) (xs : List VSrc) (more : List Nat) (fmts : List Fmt) (illegal : Bool)
    (detail : Option Nat) (go : State → State) (h : ∀ s, K s (go s)) : (s.vecOp i v xs more fmts illegal detail go).act.Does K := by
  unfold State.vecOp; dsimp only; split
  · exact R.seq _ _ _
  · apply R.needs; split
    · exact R.arg _ _ _ _
    · exact (OpAct.does_effect K go).2 h
theorem OpRel.vecResult (R : OpRel K) (s : State) (n : Nat) (v : VDst) (t : Tile) (w : Word) : K s (s.vecResult n v t w) := R.core ..
theorem OpRel.vecArith (R : OpRel K) (s : State) (i : Issue) (v : VDst) (xs : List VSrc) (ok : Fmt → Bool) (ff : List FVal → FRes)
    (fi : List Nat → Nat × Hist) : (s.vecArith i v xs ok ff fi).act.Does K := R.vecOp _ _ _ _ _ _ _ _ _ fun _ => R.vecResult ..
theorem OpRel.vecMod (R : OpRel K) (s : State) (i : Issue) (v : VDst) (xs : List VSrc) (qs : List PSel) (ops : Nat)
    (f : List Nat → List Nat → Nat) : (s.vecMod i v xs qs ops f).act.Does K :=
  R.vecOp _ _ _ _ _ _ _ _ _ fun _ => R.trans (R.work ..) (R.vecResult ..)
theorem OpRel.copyOp (R : OpRel K) (s : State) (i : Issue) (hd : CopyHead) (reads mem : List Nat) (act : OpAct) (h : act.Does K) :
    (s.copyOp i hd reads mem act).act.Does K := by
  unfold State.copyOp; dsimp only; apply R.needs; (repeat' split) <;> simp only [R.seq, h]
theorem OpRel.copyEnds (R : OpRel K) (s : State) (n : Nat) (f : Fmt) (src dst : Mat) (loose : Bool) (own : Option Nat)
    (act : Layout → Layout → OpAct) (h : ∀ x y, (act x y).Does K) : (s.copyEnds n f src dst loose own act).Does K := by
  unfold State.copyEnds; dsimp only; (repeat' split) <;> simp only [R.seq, R.arg, h]
theorem OpRel.overlapStop (R : OpRel K) (n v : Nat) (dst : Loc) (act : OpAct) (h : act.Does K) : (overlapStop n v dst act).Does K := by
  unfold Sys2Proof.Machine.overlapStop; split
  · exact fun s => R.program ..
  · exact h
theorem OpRel.copyTag (R : OpRel K) (s t : State) (n h : Nat) (runs : List (Nat × Nat)) (e : K s t) : K s (s.copyTag n h runs t) := by
  unfold State.copyTag; dsimp only; split
  · exact e
  · exact R.read ..
theorem OpRel.ctStop (R : OpRel K) (s : State) (n : Nat) (v : CtVerdict) : K s (s.ctStop n v) := by
  cases v <;> first | exact R.program .. | exact R.read .. | exact R.stop .. | exact R.refl _
theorem OpRel.ctCheck (R : OpRel K) (s : State) (i : Issue) (o : CtOp) (e : ReadErr) (go : ParamSet → List CtHdr → Pred → OpAct)
    (h : ∀ p hs d, (go p hs d).Does K) : (s.ctCheck i o e go).act.Does K := by
  unfold State.ctCheck; dsimp only; split
  · exact R.nothing
  · apply R.needs; split
    · exact R.arg _ _ _ _
    · split
      · exact R.stale _ _ _ _ _
      · split
        · exact h ..
        · exact fun s => R.trans (R.refresh ..) (R.core ..)
        · exact fun s => R.ctStop ..

theorem MemRel.nttOp (R : MemRel K) (s : State) (i : Issue) (x : Ntt) (fwd : Bool) : (s.nttOp i x fwd).act.Does K := by
  unfold State.nttOp; dsimp only; apply R.needs
  (repeat' split) <;> first | (simp only [R.seq, R.arg, R.stale]) | skip
  exact fun s => R.trans (R.trans (R.stepRel.each _ _ (fun l _ s => R.limb ..) s) (R.work ..)) (R.core ..)
theorem MemRel.copyCells (R : MemRel K) (s : State) (n : Nat) (hd : CopyHead) (src dst : Mat) (bad : Bool) (data : List (Cell × Cell))
    (deckle : Layout → List (Cell × Nat)) : (s.copyCells n hd src dst bad data deckle).Does K := by
  unfold State.copyCells; apply R.copyEnds; intro x y; dsimp only; split
  · exact R.stale _ _ _ _ _
  · exact R.overlapStop _ _ _ _ fun s => R.copyTag _ _ _ _ _ (R.trans (R.cells ..) (R.copy ..))
theorem MemRel.sliceCopy (R : MemRel K) (s : State) (i : Issue) (tr : Bool) (hd : CopyHead) (src dst : Mat) (xs : List Slice) :
    (s.sliceCopy i tr hd src dst xs).act.Does K := R.copyOp _ _ _ _ _ _ (R.copyCells _ _ _ _ _ _ _ _)
theorem MemRel.ctOp (R : MemRel K) (s : State) (i : Issue) (o : CtOp) (e : ReadErr) : (s.ctOp i o e).act.Does K :=
  R.ctCheck _ _ _ _ _ fun _ _ _ s => R.ct s ..

/-! ### Every operation -/


theorem opAdd_does (R : OpRel K) (i : Issue) (d a b : SReg) (s : State) : (opAdd i d a b s).act.Does K := R.alu _ _ _ _ _ _
theorem opSub_does (R : OpRel K) (i : Issue) (d a b : SReg) (s : State) : (opSub i d a b s).act.Does K := R.alu _ _ _ _ _ _
theorem opAnd_does (R : OpRel K) (i : Issue) (d a b : SReg) (s : State) : (opAnd i d a b s).act.Does K := R.alu _ _ _ _ _ _
theorem opOr_does (R : OpRel K) (i : Issue) (d a b : SReg) (s : State) : (opOr i d a b s).act.Does K := R.alu _ _ _ _ _ _
theorem opXor_does (R : OpRel K) (i : Issue) (d a b : SReg) (s : State) : (opXor i d a b s).act.Does K := R.alu _ _ _ _ _ _
theorem opShl_does (R : OpRel K) (i : Issue) (d a b : SReg) (s : State) : (opShl i d a b s).act.Does K := R.alu _ _ _ _ _ _
theorem opShr_does (R : OpRel K) (i : Issue) (d a b : SReg) (s : State) : (opShr i d a b s).act.Does K := R.alu _ _ _ _ _ _
theorem opSar_does (R : OpRel K) (i : Issue) (d a b : SReg) (s : State) : (opSar i d a b s).act.Does K := R.alu _ _ _ _ _ _
theorem opMin_does (R : OpRel K) (i : Issue) (d a b : SReg) (s : State) : (opMin i d a b s).act.Does K := R.alu _ _ _ _ _ _
theorem opMax_does (R : OpRel K) (i : Issue) (d a b : SReg) (s : State) : (opMax i d a b s).act.Does K := R.alu _ _ _ _ _ _
theorem opMinu_does (R : OpRel K) (i : Issue) (d a b : SReg) (s : State) : (opMinu i d a b s).act.Does K := R.alu _ _ _ _ _ _
theorem opMaxu_does (R : OpRel K) (i : Issue) (d a b : SReg) (s : State) : (opMaxu i d a b s).act.Does K := R.alu _ _ _ _ _ _
theorem opCmpeq_does (R : OpRel K) (i : Issue) (d a b : SReg) (s : State) : (opCmpeq i d a b s).act.Does K := R.alu _ _ _ _ _ _
theorem opCmplt_does (R : OpRel K) (i : Issue) (d a b : SReg) (s : State) : (opCmplt i d a b s).act.Does K := R.alu _ _ _ _ _ _
theorem opCmpltu_does (R : OpRel K) (i : Issue) (d a b : SReg) (s : State) : (opCmpltu i d a b s).act.Does K := R.alu _ _ _ _ _ _
theorem opSel_does (R : OpRel K) (i : Issue) (d a b c : SReg) (s : State) : (opSel i d a b c s).act.Does K := fun s => R.core s ..
theorem opLi_does (R : OpRel K) (i : Issue) (d : SReg) (imm : BitVec 32) (_s : State) : (opLi i d imm _s).act.Does K := fun s => R.core s ..
theorem opLui_does (R : OpRel K) (i : Issue) (d : SReg) (imm : BitVec 32) (s : State) : (opLui i d imm s).act.Does K := fun s => R.core s ..
theorem opMul_does (R : OpRel K) (i : Issue) (d a b : SReg) (s : State) : (opMul i d a b s).act.Does K := R.mulOp _ _ _ _ _ _
theorem opMulhu_does (R : OpRel K) (i : Issue) (d a b : SReg) (s : State) : (opMulhu i d a b s).act.Does K := R.mulOp _ _ _ _ _ _
theorem opMulhs_does (R : OpRel K) (i : Issue) (d a b : SReg) (s : State) : (opMulhs i d a b s).act.Does K := R.mulOp _ _ _ _ _ _
theorem opGetid_does (R : OpRel K) (i : Issue) (d : SReg) (code : Nat) (s : State) : (opGetid i d code s).act.Does K := fun s => R.core s ..
theorem opBr_does (R : OpRel K) (i : Issue) (dest : Nat) (s : State) : (opBr i dest s).act.Does K := R.branchOp _ _ _ _ _ _
theorem opBrz_does (R : OpRel K) (i : Issue) (a : SReg) (dest : Nat) (s : State) : (opBrz i a dest s).act.Does K := R.branchOp _ _ _ _ _ _
theorem opBrnz_does (R : OpRel K) (i : Issue) (a : SReg) (dest : Nat) (s : State) : (opBrnz i a dest s).act.Does K := R.branchOp _ _ _ _ _ _
theorem opCall_does (R : OpRel K) (i : Issue) (dest : Nat) (s : State) : (opCall i dest s).act.Does K := by
  unfold opCall; split
  · exact R.seq _ _ _
  · exact R.branchOp _ _ _ _ _ _
theorem opRet_does (R : OpRel K) (i : Issue) (s : State) : (opRet i s).act.Does K := by
  unfold opRet flowOp; dsimp only; split
  · exact R.seq _ _ _
  · exact (OpAct.does_go K _ _ _).2 fun s => R.core s ..
theorem opLoop_does (R : OpRel K) (i : Issue) (n : Nat) (reg : Option SReg) (stopAt : Nat) (s : State) : (opLoop i n reg stopAt s).act.Does K := by
  unfold opLoop flowOp; dsimp only; (repeat' split) <;> first | (simp only [R.seq]) | exact R.refl
theorem opLdS_does (R : OpRel K) (i : Issue) (d : SReg) (l : Loc) (size : Nat) (signed : Bool) (s : State) : (opLdS i d l size signed s).act.Does K := R.scalarAccess _ _ _ _ _ _ _ (R.onCore _ _)
theorem opStS_does (R : MemRel K) (i : Issue) (a : SReg) (l : Loc) (size : Nat) (s : State) : (opStS i a l size s).act.Does K := R.scalarAccess _ _ _ _ _ _ _ fun s => R.trans (R.store s ..) (R.core ..)
theorem opSig_does (R : OpRel K) (i : Issue) (sem k : Nat) (s : State) : (opSig i sem k s).act.Does K := R.semOp _ _ _ _ _ fun _ => R.onCore _ _
theorem opWait_does (R : OpRel K) (i : Issue) (sem k : Nat) (s : State) : (opWait i sem k s).act.Does K := by
  refine R.semOp _ _ _ _ _ fun x => ?_
  split
  · exact fun s => R.job s ..
  · exact R.wait _
theorem opBar_does (R : OpRel K) (i : Issue) (b : Nat) (s : State) : (opBar i b s).act.Does K := by
  unfold opBar syncOp; dsimp only; (repeat' split) <;> first | (simp only [R.seq, R.nothing]) | exact R.wait _
theorem opCouch_does (R : OpRel K) (_i : Issue) (_s : State) : (opCouch _i _s).act.Does K := R.wait _
theorem opEnd_does (R : OpRel K) (_i : Issue) (_s : State) : (opEnd _i _s).act.Does K := R.wait _
theorem opLdT_does (R : OpRel K) (i : Issue) (t : TReg) (f : Fmt) (l : Loc) (form : TileForm) (s : State) : (opLdT i t f l form s).act.Does K := R.tileAccess _ _ _ _ _ _ _ _ fun _ => R.onCore _ _
theorem opStT_does (R : MemRel K) (i : Issue) (t : TReg) (f : Fmt) (l : Loc) (form : TileForm) (s : State) : (opStT i t f l form s).act.Does K := R.tileAccess _ _ _ _ _ _ _ _ fun _ s => R.trans (R.tile s ..) (R.core ..)
theorem opMmaStart_does (R : OpRel K) (i : Issue) (m : Mma) (row col : Option SReg) (prime : Option PSel) (s : State) : (opMmaStart i m row col prime s).act.Does K := by
  unfold opMmaStart; extract_lets c res sel rowSel ok; dsimp only; split
  · exact R.seq _ _ _
  · exact R.mmaOp _ _ _ _ _ _
theorem opMmaCont_does (R : OpRel K) (i : Issue) (m : Mma) (s : State) : (opMmaCont i m s).act.Does K := by
  unfold opMmaCont; exact R.mmaOp _ _ _ _ _ _
theorem opDrain_does (R : MemRel K) (i : Issue) (d : Drain) (s : State) : (opDrain i d s).act.Does K := by
  unfold opDrain; extract_lets n c b stale misplaced; dsimp only; apply R.needs
  split
  · exact R.seq _ _ _
  split
  · exact R.arg _ _ _ _
  split
  · exact R.arg _ _ _ _
  clear_value stale
  split
  · exact R.stale _ _ _ _ _
  · refine (OpAct.does_effect K _).2 fun s => ?_
    unfold CoreSt.drainRun; dsimp only
    refine R.trans ?_ (R.core ..)
    split
    · exact R.refl s
    · exact R.store ..
theorem opNttF_does (R : MemRel K) (i : Issue) (n : Ntt) (s : State) : (opNttF i n s).act.Does K := R.nttOp _ _ _ _
theorem opNttI_does (R : MemRel K) (i : Issue) (n : Ntt) (s : State) : (opNttI i n s).act.Does K := R.nttOp _ _ _ _
theorem opVectorAdd_does (R : OpRel K) (i : Issue) (v : VDst) (a b : VSrc) (s : State) : (opVectorAdd i v a b s).act.Does K := by unfold opVectorAdd State.vecNum; exact R.vecArith _ _ _ _ _ _ _
theorem opVectorSub_does (R : OpRel K) (i : Issue) (v : VDst) (a b : VSrc) (s : State) : (opVectorSub i v a b s).act.Does K := by unfold opVectorSub State.vecNum; exact R.vecArith _ _ _ _ _ _ _
theorem opVectorMul_does (R : OpRel K) (i : Issue) (v : VDst) (a b : VSrc) (s : State) : (opVectorMul i v a b s).act.Does K := by unfold opVectorMul State.vecNum; exact R.vecArith _ _ _ _ _ _ _
theorem opFma_does (R : OpRel K) (i : Issue) (v : VDst) (a b c : VSrc) (s : State) : (opFma i v a b c s).act.Does K := by unfold opFma State.vecNum; exact R.vecArith _ _ _ _ _ _ _
theorem opNeg_does (R : OpRel K) (i : Issue) (v : VDst) (a : VSrc) (s : State) : (opNeg i v a s).act.Does K := by unfold opNeg State.vecNum; exact R.vecArith _ _ _ _ _ _ _
theorem opAbs_does (R : OpRel K) (i : Issue) (v : VDst) (a : VSrc) (s : State) : (opAbs i v a s).act.Does K := by unfold opAbs State.vecNum; exact R.vecArith _ _ _ _ _ _ _
theorem opVectorMin_does (R : OpRel K) (i : Issue) (v : VDst) (a b : VSrc) (s : State) : (opVectorMin i v a b s).act.Does K := by unfold opVectorMin State.vecNum; exact R.vecArith _ _ _ _ _ _ _
theorem opVectorMax_does (R : OpRel K) (i : Issue) (v : VDst) (a b : VSrc) (s : State) : (opVectorMax i v a b s).act.Does K := by unfold opVectorMax State.vecNum; exact R.vecArith _ _ _ _ _ _ _
theorem opVectorCmpeq_does (R : OpRel K) (i : Issue) (v : VDst) (a b : VSrc) (s : State) : (opVectorCmpeq i v a b s).act.Does K := by unfold opVectorCmpeq State.vecNum; exact R.vecArith _ _ _ _ _ _ _
theorem opVectorCmplt_does (R : OpRel K) (i : Issue) (v : VDst) (a b : VSrc) (s : State) : (opVectorCmplt i v a b s).act.Does K := by unfold opVectorCmplt State.vecNum; exact R.vecArith _ _ _ _ _ _ _
theorem opCmple_does (R : OpRel K) (i : Issue) (v : VDst) (a b : VSrc) (s : State) : (opCmple i v a b s).act.Does K := by unfold opCmple State.vecNum; exact R.vecArith _ _ _ _ _ _ _
theorem opVectorSel_does (R : OpRel K) (i : Issue) (v : VDst) (a b c : VSrc) (s : State) : (opVectorSel i v a b c s).act.Does K := by unfold opVectorSel State.vecNum; exact R.vecArith _ _ _ _ _ _ _
theorem opVectorAnd_does (R : OpRel K) (i : Issue) (v : VDst) (a b : VSrc) (s : State) : (opVectorAnd i v a b s).act.Does K := by unfold opVectorAnd State.vecBits; exact R.vecArith _ _ _ _ _ _ _
theorem opVectorOr_does (R : OpRel K) (i : Issue) (v : VDst) (a b : VSrc) (s : State) : (opVectorOr i v a b s).act.Does K := by unfold opVectorOr State.vecBits; exact R.vecArith _ _ _ _ _ _ _
theorem opVectorXor_does (R : OpRel K) (i : Issue) (v : VDst) (a b : VSrc) (s : State) : (opVectorXor i v a b s).act.Does K := by unfold opVectorXor State.vecBits; exact R.vecArith _ _ _ _ _ _ _
theorem opNot_does (R : OpRel K) (i : Issue) (v : VDst) (a : VSrc) (s : State) : (opNot i v a s).act.Does K := by unfold opNot State.vecBits; exact R.vecArith _ _ _ _ _ _ _
theorem opVectorShl_does (R : OpRel K) (i : Issue) (v : VDst) (a b : VSrc) (s : State) : (opVectorShl i v a b s).act.Does K := by unfold opVectorShl State.vecBits; exact R.vecArith _ _ _ _ _ _ _
theorem opVectorShr_does (R : OpRel K) (i : Issue) (v : VDst) (a b : VSrc) (s : State) : (opVectorShr i v a b s).act.Does K := by unfold opVectorShr State.vecBits; exact R.vecArith _ _ _ _ _ _ _
theorem opVectorSar_does (R : OpRel K) (i : Issue) (v : VDst) (a b : VSrc) (s : State) : (opVectorSar i v a b s).act.Does K := by unfold opVectorSar State.vecBits; exact R.vecArith _ _ _ _ _ _ _
theorem opExp2_does (R : OpRel K) (i : Issue) (v : VDst) (a : VSrc) (s : State) : (opExp2 i v a s).act.Does K := by unfold opExp2 State.vecNum; exact R.vecArith _ _ _ _ _ _ _
theorem opRcp_does (R : OpRel K) (i : Issue) (v : VDst) (a : VSrc) (s : State) : (opRcp i v a s).act.Does K := by unfold opRcp State.vecNum; exact R.vecArith _ _ _ _ _ _ _
theorem opRsqrt_does (R : OpRel K) (i : Issue) (v : VDst) (a : VSrc) (s : State) : (opRsqrt i v a s).act.Does K := by unfold opRsqrt State.vecNum; exact R.vecArith _ _ _ _ _ _ _
theorem opAct_does (R : OpRel K) (i : Issue) (v : VDst) (a : VSrc) (f : Act) (s : State) : (opAct i v a f s).act.Does K := by unfold opAct; exact R.vecOp _ _ _ _ _ _ _ _ _ fun _ => R.vecResult ..
theorem opMadd_does (R : OpRel K) (i : Issue) (v : VDst) (a b : VSrc) (q : PSel) (s : State) : (opMadd i v a b q s).act.Does K := by unfold opMadd; exact R.vecMod _ _ _ _ _ _ _
theorem opMsub_does (R : OpRel K) (i : Issue) (v : VDst) (a b : VSrc) (q : PSel) (s : State) : (opMsub i v a b q s).act.Does K := by unfold opMsub; exact R.vecMod _ _ _ _ _ _ _
theorem opMneg_does (R : OpRel K) (i : Issue) (v : VDst) (a : VSrc) (q : PSel) (s : State) : (opMneg i v a q s).act.Does K := by unfold opMneg; exact R.vecMod _ _ _ _ _ _ _
theorem opMmul_does (R : OpRel K) (i : Issue) (v : VDst) (a b : VSrc) (q : PSel) (s : State) : (opMmul i v a b q s).act.Does K := by unfold opMmul; exact R.vecMod _ _ _ _ _ _ _
theorem opMfma_does (R : OpRel K) (i : Issue) (v : VDst) (a b c : VSrc) (q : PSel) (s : State) : (opMfma i v a b c q s).act.Does K := by unfold opMfma; exact R.vecMod _ _ _ _ _ _ _
theorem opMsubmul_does (R : OpRel K) (i : Issue) (v : VDst) (a b c : VSrc) (q : PSel) (s : State) : (opMsubmul i v a b c q s).act.Does K := by unfold opMsubmul; exact R.vecMod _ _ _ _ _ _ _
theorem opMcentre_does (R : OpRel K) (i : Issue) (v : VDst) (a : VSrc) (q q2 : PSel) (s : State) : (opMcentre i v a q q2 s).act.Does K := by unfold opMcentre; exact R.vecMod _ _ _ _ _ _ _
theorem opVcvt_does (R : OpRel K) (i : Issue) (v : VDst) (a : VSrc) (df : Fmt) (q q2 : Option PSel) (sigma : Option SReg) (s : State) : (opVcvt i v a df q q2 sigma s).act.Does K := by unfold opVcvt; exact R.vecOp _ _ _ _ _ _ _ _ _ fun _ => R.vecResult ..
theorem opVmov_does (R : OpRel K) (i : Issue) (d a : TReg) (s : State) : (opVmov i d a s).act.Does K := R.needs _ _ _ _ _ _ fun s => R.vecResult s ..
theorem opVred_does (R : OpRel K) (i : Issue) (v : VDst) (a : VSrc) (df : Fmt) (kind : Nat) (col : Bool) (q : Option PSel) (s : State) : (opVred i v a df kind col q s).act.Does K := by unfold opVred; exact R.vecOp _ _ _ _ _ _ _ _ _ fun _ => R.vecResult ..
theorem opXcopyMove_does (R : MemRel K) (i : Issue) (h : CopyHead) (src dst : Mat) (slices : List Slice) (s : State) : (opXcopyMove i h src dst slices s).act.Does K := R.sliceCopy _ _ _ _ _ _ _
theorem opXcopyTranspose_does (R : MemRel K) (i : Issue) (h : CopyHead) (src dst : Mat) (slices : List Slice) (s : State) : (opXcopyTranspose i h src dst slices s).act.Does K := R.sliceCopy _ _ _ _ _ _ _
theorem opXcopyGalois_does (R : MemRel K) (i : Issue) (h : CopyHead) (src dst : Mat) (n g limbs stride : Nat) (s : State) : (opXcopyGalois i h src dst n g limbs stride s).act.Does K := by
  unfold opXcopyGalois; dsimp only; apply R.copyOp; apply R.copyEnds; intro _ _; split
  · exact R.stale _ _ _ _ _
  · refine R.overlapStop _ _ _ _ ((OpAct.does_effect K _).2 fun s => R.copyTag _ _ _ _ _ (R.trans ?_ (R.copy ..)))
    exact R.stepRel.each _ _ (fun _ _ s => R.store s ..) s
theorem opXcopyGather_does (R : MemRel K) (i : Issue) (h : CopyHead) (src dst : Mat) (index : Loc) (s : State) : (opXcopyGather i h src dst index s).act.Does K := by
  unfold opXcopyGather; dsimp only; apply R.copyOp; apply R.copyEnds; intro _ _; split
  · exact R.stale _ _ _ _ _
  · refine R.overlapStop _ _ _ _ ((OpAct.does_effect K _).2 fun s => R.copyTag _ _ _ _ _ ?_)
    split
    · exact R.program ..
    · exact R.copyTag _ _ _ _ _ (R.trans (R.cells ..) (R.copy ..))
theorem opStrm_does (R : OpRel K) (i : Issue) (f : Strm) (s : State) : (opStrm i f s).act.Does K := by
  unfold opStrm; dsimp only; split
  · exact R.nothing
  · apply R.needs; (repeat' split) <;> simp only [R.seq, R.arg, R.stale, R.onCore]
theorem opStrmMark_does (R : OpRel K) (i : Issue) (channel mark : Nat) (outbound : Bool) (_s : State) : (opStrmMark i channel mark outbound _s).act.Does K := by
  unfold opStrmMark; dsimp only; split
  · exact R.arg _ _ _ _
  · exact R.onCore _ _
theorem opCiphertextAdd_does (R : MemRel K) (i : Issue) (a b dst : Loc) (e : ReadErr) (s : State) : (opCiphertextAdd i a b dst e s).act.Does K := R.ctOp _ _ _ _
theorem opCiphertextSubtract_does (R : MemRel K) (i : Issue) (a b dst : Loc) (e : ReadErr) (s : State) : (opCiphertextSubtract i a b dst e s).act.Does K := R.ctOp _ _ _ _
theorem opCiphertextNegate_does (R : MemRel K) (i : Issue) (a dst : Loc) (e : ReadErr) (s : State) : (opCiphertextNegate i a dst e s).act.Does K := R.ctOp _ _ _ _
theorem opAddPlaintext_does (R : MemRel K) (i : Issue) (a pt dst : Loc) (e : ReadErr) (s : State) : (opAddPlaintext i a pt dst e s).act.Does K := R.ctOp _ _ _ _
theorem opMultiplyPlaintext_does (R : MemRel K) (i : Issue) (a pt dst : Loc) (e : ReadErr) (s : State) : (opMultiplyPlaintext i a pt dst e s).act.Does K := R.ctOp _ _ _ _
theorem opMultiplyConstant_does (R : MemRel K) (i : Issue) (a dst : Loc) (c : Int) (e : ReadErr) (s : State) : (opMultiplyConstant i a dst c e s).act.Does K := R.ctOp _ _ _ _
theorem opTensorProduct_does (R : MemRel K) (i : Issue) (a b dst : Loc) (e : ReadErr) (s : State) : (opTensorProduct i a b dst e s).act.Does K := R.ctOp _ _ _ _
theorem opRelinearise_does (R : MemRel K) (i : Issue) (a dst : Loc) (k : KeyRef) (e : ReadErr) (s : State) : (opRelinearise i a dst k e s).act.Does K := R.ctOp _ _ _ _
theorem opMultiplyRelinearise_does (R : MemRel K) (i : Issue) (a b dst : Loc) (k : KeyRef) (e : ReadErr) (s : State) : (opMultiplyRelinearise i a b dst k e s).act.Does K := R.ctOp _ _ _ _
theorem opRotate_does (R : MemRel K) (i : Issue) (a dst : Loc) (r : Int) (k : KeyRef) (e : ReadErr) (s : State) : (opRotate i a dst r k e s).act.Does K := R.ctOp _ _ _ _
theorem opHoistedRotate_does (R : MemRel K) (i : Issue) (a : Loc) (outs : List (Loc × Int × Nat)) (k : KeyRef) (e : ReadErr) (s : State) : (opHoistedRotate i a outs k e s).act.Does K := R.ctOp _ _ _ _
theorem opConjugate_does (R : MemRel K) (i : Issue) (a dst : Loc) (k : KeyRef) (e : ReadErr) (s : State) : (opConjugate i a dst k e s).act.Does K := R.ctOp _ _ _ _
theorem opRescale_does (R : MemRel K) (i : Issue) (a dst : Loc) (e : ReadErr) (s : State) : (opRescale i a dst e s).act.Does K := R.ctOp _ _ _ _
theorem opLevelDrop_does (R : MemRel K) (i : Issue) (a dst : Loc) (k : Nat) (e : ReadErr) (s : State) : (opLevelDrop i a dst k e s).act.Does K := R.ctOp _ _ _ _
theorem opFormConversion_does (R : MemRel K) (i : Issue) (a dst : Loc) (toEval : Bool) (e : ReadErr) (s : State) : (opFormConversion i a dst toEval e s).act.Does K := R.ctOp _ _ _ _
theorem opKeyStreamStart_does (R : OpRel K) (i : Issue) (slot index d0 d1 l0 l1 : Nat) (group : List Nat) (s : State) : (opKeyStreamStart i slot index d0 d1 l0 l1 group s).act.Does K := by
  unfold opKeyStreamStart; dsimp only; apply R.needs
  split
  · split
    · exact R.arg _ _ _ _
    split
    · exact fun s => R.stop s ..
    · refine (OpAct.does_effect K _).2 fun s => ?_
      split
      · exact R.refl s
      · exact R.stream ..
  · exact fun s => R.program s ..
theorem opRepulp_does (R : OpRel K) (i : Issue) (a : Loc) (slot : Nat) (e : ReadErr) (s : State) : (opRepulp i a slot e s).act.Does K := R.ctCheck _ _ _ _ _ fun _ _ _ s => R.trans (R.refresh s ..) (R.core ..)

/-! ### All of them -/

/-- The operations that store to memory. -/
def slotStores : Instr → Bool
  | .ciphertextAdd .. | .ciphertextSubtract .. | .ciphertextNegate .. | .addPlaintext .. | .multiplyPlaintext ..
  | .multiplyConstant .. | .tensorProduct .. | .relinearise .. | .multiplyRelinearise .. | .rotate .. | .hoistedRotate ..
  | .conjugate .. | .rescale .. | .levelDrop .. | .formConversion .. | .stS .. | .stT .. | .drain .. | .nttF .. | .nttI ..
  | .xcopyMove .. | .xcopyTranspose .. | .xcopyGalois .. | .xcopyGather .. => true
  | _ => false

/-- A relation that holds of every operation that some commands name. -/
theorem opOf_mem (R : MemRel K) (s t : State) (c : Instr) (o : Op) (h : opOf s t c = some o) : o.act.Does K := by
  unfold opOf at h
  split at h <;> cases h
  · exact opCiphertextAdd_does R _ _ _ _ _ _
  · exact opCiphertextSubtract_does R _ _ _ _ _ _
  · exact opCiphertextNegate_does R _ _ _ _ _
  · exact opAddPlaintext_does R _ _ _ _ _ _
  · exact opMultiplyPlaintext_does R _ _ _ _ _ _
  · exact opMultiplyConstant_does R _ _ _ _ _ _
  · exact opTensorProduct_does R _ _ _ _ _ _
  · exact opRelinearise_does R _ _ _ _ _ _
  · exact opMultiplyRelinearise_does R _ _ _ _ _ _ _
  · exact opRotate_does R _ _ _ _ _ _ _
  · exact opHoistedRotate_does R _ _ _ _ _ _
  · exact opConjugate_does R _ _ _ _ _ _
  · exact opRescale_does R _ _ _ _ _
  · exact opLevelDrop_does R _ _ _ _ _ _
  · exact opFormConversion_does R _ _ _ _ _ _
  · exact opRepulp_does R.toOpRel _ _ _ _ _
  · exact opKeyStreamStart_does R.toOpRel _ _ _ _ _ _ _ _ _
  · exact opAdd_does R.toOpRel _ _ _ _ _
  · exact opSub_does R.toOpRel _ _ _ _ _
  · exact opAnd_does R.toOpRel _ _ _ _ _
  · exact opOr_does R.toOpRel _ _ _ _ _
  · exact opXor_does R.toOpRel _ _ _ _ _
  · exact opShl_does R.toOpRel _ _ _ _ _
  · exact opShr_does R.toOpRel _ _ _ _ _
  · exact opSar_does R.toOpRel _ _ _ _ _
  · exact opMin_does R.toOpRel _ _ _ _ _
  · exact opMax_does R.toOpRel _ _ _ _ _
  · exact opMinu_does R.toOpRel _ _ _ _ _
  · exact opMaxu_does R.toOpRel _ _ _ _ _
  · exact opCmpeq_does R.toOpRel _ _ _ _ _
  · exact opCmplt_does R.toOpRel _ _ _ _ _
  · exact opCmpltu_does R.toOpRel _ _ _ _ _
  · exact opSel_does R.toOpRel _ _ _ _ _ _
  · exact opLi_does R.toOpRel _ _ _ _
  · exact opLui_does R.toOpRel _ _ _ _
  · exact opMul_does R.toOpRel _ _ _ _ _
  · exact opMulhu_does R.toOpRel _ _ _ _ _
  · exact opMulhs_does R.toOpRel _ _ _ _ _
  · exact opGetid_does R.toOpRel _ _ _ _
  · exact opBr_does R.toOpRel _ _ _
  · exact opBrz_does R.toOpRel _ _ _ _
  · exact opBrnz_does R.toOpRel _ _ _ _
  · exact opCall_does R.toOpRel _ _ _
  · exact opRet_does R.toOpRel _ _
  · exact opLoop_does R.toOpRel _ _ _ _ _
  · exact opLdS_does R.toOpRel _ _ _ _ _ _
  · exact opStS_does R _ _ _ _ _
  · exact opLdT_does R.toOpRel _ _ _ _ _ _
  · exact opStT_does R _ _ _ _ _ _
  · exact opSig_does R.toOpRel _ _ _ _
  · exact opWait_does R.toOpRel _ _ _ _
  · exact opBar_does R.toOpRel _ _ _
  · exact opCouch_does R.toOpRel _ _
  · exact opEnd_does R.toOpRel _ _
  · exact opMmaStart_does R.toOpRel _ _ _ _ _ _
  · exact opMmaCont_does R.toOpRel _ _ _
  · exact opDrain_does R _ _ _
  · exact opNttF_does R _ _ _
  · exact opNttI_does R _ _ _
  · exact opVectorAdd_does R.toOpRel _ _ _ _ _
  · exact opVectorSub_does R.toOpRel _ _ _ _ _
  · exact opVectorMul_does R.toOpRel _ _ _ _ _
  · exact opFma_does R.toOpRel _ _ _ _ _ _
  · exact opNeg_does R.toOpRel _ _ _ _
  · exact opAbs_does R.toOpRel _ _ _ _
  · exact opVectorMin_does R.toOpRel _ _ _ _ _
  · exact opVectorMax_does R.toOpRel _ _ _ _ _
  · exact opVectorCmpeq_does R.toOpRel _ _ _ _ _
  · exact opVectorCmplt_does R.toOpRel _ _ _ _ _
  · exact opCmple_does R.toOpRel _ _ _ _ _
  · exact opVectorSel_does R.toOpRel _ _ _ _ _ _
  · exact opVectorAnd_does R.toOpRel _ _ _ _ _
  · exact opVectorOr_does R.toOpRel _ _ _ _ _
  · exact opVectorXor_does R.toOpRel _ _ _ _ _
  · exact opNot_does R.toOpRel _ _ _ _
  · exact opVectorShl_does R.toOpRel _ _ _ _ _
  · exact opVectorShr_does R.toOpRel _ _ _ _ _
  · exact opVectorSar_does R.toOpRel _ _ _ _ _
  · exact opExp2_does R.toOpRel _ _ _ _
  · exact opRcp_does R.toOpRel _ _ _ _
  · exact opRsqrt_does R.toOpRel _ _ _ _
  · exact opAct_does R.toOpRel _ _ _ _ _
  · exact opMadd_does R.toOpRel _ _ _ _ _ _
  · exact opMsub_does R.toOpRel _ _ _ _ _ _
  · exact opMneg_does R.toOpRel _ _ _ _ _
  · exact opMmul_does R.toOpRel _ _ _ _ _ _
  · exact opMfma_does R.toOpRel _ _ _ _ _ _ _
  · exact opMsubmul_does R.toOpRel _ _ _ _ _ _ _
  · exact opMcentre_does R.toOpRel _ _ _ _ _ _
  · exact opVcvt_does R.toOpRel _ _ _ _ _ _ _ _
  · exact opVmov_does R.toOpRel _ _ _ _
  · exact opVred_does R.toOpRel _ _ _ _ _ _ _ _
  · exact opXcopyMove_does R _ _ _ _ _ _
  · exact opXcopyTranspose_does R _ _ _ _ _ _
  · exact opXcopyGalois_does R _ _ _ _ _ _ _ _ _
  · exact opXcopyGather_does R _ _ _ _ _ _
  · exact opStrm_does R.toOpRel _ _ _
  · exact opStrmMark_does R.toOpRel _ _ _ _ _

/-- An operation that stores nothing keeps a relation that need not hold of stores. -/
theorem opOf_quiet (R : OpRel K) (s t : State) (c : Instr) (hc : slotStores c = false) (o : Op) (h : opOf s t c = some o) : o.act.Does K := by
  unfold opOf at h
  split at h <;> first | (cases hc; done) | cases h
  · exact opRepulp_does R _ _ _ _ _
  · exact opKeyStreamStart_does R _ _ _ _ _ _ _ _ _
  · exact opAdd_does R _ _ _ _ _
  · exact opSub_does R _ _ _ _ _
  · exact opAnd_does R _ _ _ _ _
  · exact opOr_does R _ _ _ _ _
  · exact opXor_does R _ _ _ _ _
  · exact opShl_does R _ _ _ _ _
  · exact opShr_does R _ _ _ _ _
  · exact opSar_does R _ _ _ _ _
  · exact opMin_does R _ _ _ _ _
  · exact opMax_does R _ _ _ _ _
  · exact opMinu_does R _ _ _ _ _
  · exact opMaxu_does R _ _ _ _ _
  · exact opCmpeq_does R _ _ _ _ _
  · exact opCmplt_does R _ _ _ _ _
  · exact opCmpltu_does R _ _ _ _ _
  · exact opSel_does R _ _ _ _ _ _
  · exact opLi_does R _ _ _ _
  · exact opLui_does R _ _ _ _
  · exact opMul_does R _ _ _ _ _
  · exact opMulhu_does R _ _ _ _ _
  · exact opMulhs_does R _ _ _ _ _
  · exact opGetid_does R _ _ _ _
  · exact opBr_does R _ _ _
  · exact opBrz_does R _ _ _ _
  · exact opBrnz_does R _ _ _ _
  · exact opCall_does R _ _ _
  · exact opRet_does R _ _
  · exact opLoop_does R _ _ _ _ _
  · exact opLdS_does R _ _ _ _ _ _
  · exact opLdT_does R _ _ _ _ _ _
  · exact opSig_does R _ _ _ _
  · exact opWait_does R _ _ _ _
  · exact opBar_does R _ _ _
  · exact opCouch_does R _ _
  · exact opEnd_does R _ _
  · exact opMmaStart_does R _ _ _ _ _ _
  · exact opMmaCont_does R _ _ _
  · exact opVectorAdd_does R _ _ _ _ _
  · exact opVectorSub_does R _ _ _ _ _
  · exact opVectorMul_does R _ _ _ _ _
  · exact opFma_does R _ _ _ _ _ _
  · exact opNeg_does R _ _ _ _
  · exact opAbs_does R _ _ _ _
  · exact opVectorMin_does R _ _ _ _ _
  · exact opVectorMax_does R _ _ _ _ _
  · exact opVectorCmpeq_does R _ _ _ _ _
  · exact opVectorCmplt_does R _ _ _ _ _
  · exact opCmple_does R _ _ _ _ _
  · exact opVectorSel_does R _ _ _ _ _ _
  · exact opVectorAnd_does R _ _ _ _ _
  · exact opVectorOr_does R _ _ _ _ _
  · exact opVectorXor_does R _ _ _ _ _
  · exact opNot_does R _ _ _ _
  · exact opVectorShl_does R _ _ _ _ _
  · exact opVectorShr_does R _ _ _ _ _
  · exact opVectorSar_does R _ _ _ _ _
  · exact opExp2_does R _ _ _ _
  · exact opRcp_does R _ _ _ _
  · exact opRsqrt_does R _ _ _ _
  · exact opAct_does R _ _ _ _ _
  · exact opMadd_does R _ _ _ _ _ _
  · exact opMsub_does R _ _ _ _ _ _
  · exact opMneg_does R _ _ _ _ _
  · exact opMmul_does R _ _ _ _ _ _
  · exact opMfma_does R _ _ _ _ _ _ _
  · exact opMsubmul_does R _ _ _ _ _ _ _
  · exact opMcentre_does R _ _ _ _ _ _
  · exact opVcvt_does R _ _ _ _ _ _ _ _
  · exact opVmov_does R _ _ _ _
  · exact opVred_does R _ _ _ _ _ _ _ _
  · exact opStrm_does R _ _ _
  · exact opStrmMark_does R _ _ _ _ _

/-- The issue of the commands of one bundle. -/
theorem MemRel.slotOp (R : MemRel K) (hl : ∀ s : State, ∀ n, K s (s.storeLost n)) (s : State) (i : Issue) (c : Instr) :
    ∃ t, s.slotOp i c = .next t ∧ K s t := by
  unfold State.slotOp; dsimp only; split
  · exact ⟨_, rfl, R.refl s⟩
  split
  · exact ⟨_, rfl, R.core ..⟩
  split
  · exact ⟨_, rfl, hl ..⟩
  · refine ⟨_, rfl, R.stepRel.issueOps _ _ (fun o ho => ?_) s⟩
    obtain ⟨c, _, h⟩ := List.mem_filterMap.1 ho
    exact opOf_mem R _ _ c o h

/-- The issue of a bundle none of whose operations stores. -/
theorem OpRel.slotOp (R : OpRel K) (hl : ∀ s : State, ∀ n, K s (s.storeLost n)) (s : State) (i : Issue) (c : Instr)
    (hq : ∀ x ∈ (s.core i.core).staged ++ [c], slotStores x = false) : ∃ t, s.slotOp i c = .next t ∧ K s t := by
  unfold State.slotOp; dsimp only; split
  · exact ⟨_, rfl, R.refl s⟩
  split
  · exact ⟨_, rfl, R.core ..⟩
  split
  · exact ⟨_, rfl, hl ..⟩
  · refine ⟨_, rfl, R.stepRel.issueOps _ _ (fun o ho => ?_) s⟩
    obtain ⟨c, hc, h⟩ := List.mem_filterMap.1 ho
    exact opOf_quiet R _ _ c (hq c hc) o h
end
end Sys2Proof.Machine
end

