-- ==== Sys2Proof/Laws/Outcomes.lean ====
section
/-! SUPPORT. The shared operations that answer an outcome always go on, and keep the grade, the EEPROM, the queue and the
canonical form of the memories. -/

namespace Sys2Proof.Machine

/-- The command goes on, to a state with a property. -/
def Leads (o : Outcome) (P : State → Prop) : Prop := ∃ t, o = .next t ∧ P t
@[simp] theorem leads_next (t : State) (P : State → Prop) : Leads (.next t) P ↔ P t := by simp [Leads]
/-- What every helper keeps: the grade, the EEPROM and the queue, and the canonical form of the memories. -/
def Keeps (s t : State) : Prop := t.fixed = s.fixed ∧ (memsWf s.mems = true → memsWf t.mems = true)
theorem Keeps.refl (s : State) : Keeps s s := ⟨rfl, id⟩
theorem Keeps.trans {s t u : State} (h : Keeps s t) (k : Keeps t u) : Keeps s u := ⟨k.1.trans h.1, fun w => k.2 (h.2 w)⟩
theorem each_keeps {α : Type} (s : State) (xs : List α) (f : State → α → State) (h : ∀ s x, Keeps s (f s x)) : Keeps s (s.each xs f) :=
  ⟨State.fixed_each _ _ _ fun s x => (h s x).1, memsWf_each _ _ _ fun s x => (h s x).2⟩

/-- Everything that an operation of a core does keeps them. -/
theorem keepsRel : MemRel Keeps where
  refl := Keeps.refl
  trans := Keeps.trans
  core _ _ _ := by simp [Keeps]
  job _ _ _ := by simp [Keeps]
  close _ _ _ _ := by simp [Keeps]
  program _ _ _ _ _ _ _ := by simp [Keeps]
  stop _ _ _ := by simp [Keeps]
  read _ _ _ _ _ _ _ _ := by simp [Keeps]
  work _ _ _ _ := by simp [Keeps]
  refresh _ _ _ _ _ := by simp [Keeps]
  stream _ _ _ _ _ := by simp [Keeps]
  store _ _ _ _ _ := ⟨by simp, fun h => by simp [h]⟩
  tile _ _ _ _ _ _ := ⟨by simp, fun h => by simp [h]⟩
  limb _ _ _ _ _ := ⟨by simp, fun h => by simp [h]⟩
  cells _ _ _ _ _ _ := ⟨by simp, fun h => by simp [h]⟩
  copy _ _ _ _ _ _ _ := by simp [Keeps]
  ct _ _ _ _ _ _ := ⟨by simp, fun h => by simp [h]⟩
theorem slotOp_keeps (s : State) (i : Issue) (c : Instr) : Leads (s.slotOp i c) (Keeps s) := keepsRel.slotOp (fun s n => by simp [Keeps]) s i c
theorem spdmReq_keeps (s : State) (p : Port) (need code : Nat) (body : Bytes) (f : State → State) (hf : ∀ s, Keeps s (f s)) :
    Leads (s.spdmReq p need code body f) (Keeps s) := by
  unfold State.spdmReq; split
  · simp [Keeps]
  split
  · simp [Keeps]
  · exact (leads_next _ _).2 (Keeps.trans (by simp [Keeps]) (hf _))
theorem spdmSigned_keeps (s : State) (p : Port) (code : Nat) (body : Bytes) (f : State → State) (hf : ∀ s, Keeps s (f s)) :
    Leads (s.spdmSigned p code body f) (Keeps s) := by
  unfold State.spdmSigned; split
  · exact spdmReq_keeps _ _ _ _ _ _ Keeps.refl
  · exact spdmReq_keeps _ _ _ _ _ _ hf
theorem inSession_keeps (s : State) (p : Port) (id : Nat) (est : Bool) (code : Nat) (f : State → State) (hf : ∀ s, Keeps s (f s)) :
    Leads (s.inSession p id est code f) (Keeps s) := by
  unfold State.inSession; split
  · exact spdmReq_keeps _ _ _ _ _ _ hf
  · exact spdmReq_keeps _ _ _ _ _ _ Keeps.refl
theorem handleCommand_keeps (s : State) (p : Port) (r : Nat) (buf : Option Bytes) (first : Nat) : Leads (s.handleCommand p r buf first) (Keeps s) := by
  unfold State.handleCommand; dsimp only; (repeat' split) <;> simp [Keeps]
theorem powerCommand_keeps (s : State) (p : Port) (r : Nat) (up : Bool) : Leads (s.powerCommand p r up) (Keeps s) := by
  unfold State.powerCommand; dsimp only; (repeat' split) <;> simp [Keeps]
theorem policyCommand_keeps (s : State) (p : Port) (r item : Nat) (g : Bool) : Leads (s.policyCommand p r item g) (Keeps s) := by
  unfold State.policyCommand; (repeat' split) <;> simp [Keeps]
theorem macroSheet_keeps (s : State) (j : Nat) (finished last : Bool) : Leads (s.macroSheet j finished last) (Keeps s) := by
  unfold State.macroSheet; dsimp only; (repeat' split) <;> simp +contextual [Keeps]
end Sys2Proof.Machine
end

