-- ==== Sys2Proof/Laws/Commands.lean ====
section
/-! SUPPORT. Every meaning but those of EEPROM_WRITE and JTAG_ACCESS goes on, and keeps the grade, the EEPROM, the queue and the canonical
form of the memories. -/

namespace Sys2Proof.Machine

theorem execColdReset_keeps (vin : Nat) (low : Bool) (s : State) : Leads (execColdReset vin low s) (Keeps s) := by
  unfold execColdReset; dsimp only; (repeat' split) <;> simp +contextual [Keeps]
theorem execPwrEnDeassert_keeps (s : State) : Leads (execPwrEnDeassert s) (Keeps s) := by
  unfold execPwrEnDeassert; dsimp only; (repeat' split) <;> simp +contextual [Keeps]
theorem execVinBelowSafeShutdown_keeps (vin : Nat) (s : State) : Leads (execVinBelowSafeShutdown vin s) (Keeps s) := by
  unfold execVinBelowSafeShutdown; dsimp only; (repeat' split) <;> simp +contextual [Keeps]
theorem execVinLow_keeps (vin : Nat) (s : State) : Leads (execVinLow vin s) (Keeps s) := by
  unfold execVinLow; (repeat' split) <;> simp [Keeps]
theorem execVinInOperatingRange_keeps (vin : Nat) (s : State) : Leads (execVinInOperatingRange vin s) (Keeps s) := by
  unfold execVinInOperatingRange; (repeat' split) <;> simp [Keeps]
theorem execFreeze_keeps (ns : Nat) (s : State) : Leads (execFreeze ns s) (Keeps s) := by
  unfold execFreeze; (repeat' split) <;> simp [Keeps]
theorem execPwrGood_keeps (moduleId : BitVec 3) (freezeN : Bool) (s : State) : Leads (execPwrGood moduleId freezeN s) (Keeps s) := by
  unfold execPwrGood; (repeat' split) <;> simp [Keeps]
theorem execMctpEventRead_keeps (dev : Nat) (s : State) : Leads (execMctpEventRead s dev) (Keeps s) := by
  unfold execMctpEventRead; (repeat' split) <;> simp [Keeps]
theorem execIntegratorCapSet_keeps (dev watts : Nat) (s : State) : Leads (execIntegratorCapSet watts s dev) (Keeps s) := by
  unfold execIntegratorCapSet; (repeat' split) <;> simp [Keeps]
theorem execSensorSample_keeps (r : Readings) (s : State) : Leads (execSensorSample r s) (Keeps s) := by
  unfold execSensorSample; (repeat' split) <;> first | (simp [Keeps]; done) | exact (leads_next _ _).2 ⟨by simp, fun h => by simp [h]⟩
theorem execThermalThrottleStep_keeps (m : Nat) (s : State) : Leads (execThermalThrottleStep m s) (Keeps s) := by
  unfold execThermalThrottleStep; (repeat' split) <;> simp [Keeps]
theorem execThermalRecoveryStep_keeps (m : Nat) (s : State) : Leads (execThermalRecoveryStep m s) (Keeps s) := by
  unfold execThermalRecoveryStep; (repeat' split) <;> simp [Keeps]
theorem execRegulatorCapStep_keeps (s : State) : Leads (execRegulatorCapStep s) (Keeps s) := by
  unfold execRegulatorCapStep; (repeat' split) <;> simp [Keeps]
theorem execRegulatorCapRestore_keeps (s : State) : Leads (execRegulatorCapRestore s) (Keeps s) := by
  unfold execRegulatorCapRestore; (repeat' split) <;> simp [Keeps]
theorem execSensorCalibration_keeps (s : State) : Leads (execSensorCalibration s) (Keeps s) := by
  unfold execSensorCalibration; simp [Keeps]
theorem execHardwareLimiter_keeps (watts : Nat) (s : State) : Leads (execHardwareLimiter watts s) (Keeps s) := by
  unfold execHardwareLimiter; (repeat' split) <;> simp [Keeps]
theorem execLimiterRelease_keeps (watts : Nat) (s : State) : Leads (execLimiterRelease watts s) (Keeps s) := by
  unfold execLimiterRelease; (repeat' split) <;> simp [Keeps]
theorem execFirmwareCapEval_keeps (watts ranks : Nat) (pt : CapPoint) (s : State) : Leads (execFirmwareCapEval watts ranks pt s) (Keeps s) := by
  unfold execFirmwareCapEval; dsimp only; (repeat' split) <;> simp [Keeps]
theorem execFirmwareRestore_keeps (watts m : Nat) (byDuty : Bool) (s : State) : Leads (execFirmwareRestore watts m byDuty s) (Keeps s) := by
  unfold execFirmwareRestore; dsimp only; (repeat' split) <;> simp [Keeps]
theorem execDividerRampStep_keeps (d : Nat) (s : State) : Leads (execDividerRampStep d s) (Keeps s) := by
  unfold execDividerRampStep; (repeat' split) <;> simp [Keeps]
theorem execRailRaised_keeps (m : Nat) (s : State) : Leads (execRailRaised m s) (Keeps s) := by
  unfold execRailRaised; (repeat' split) <;> simp [Keeps]
theorem execFirmwareVerified_keeps (s : State) : Leads (execFirmwareVerified s) (Keeps s) := by
  unfold execFirmwareVerified; (repeat' split) <;> simp [Keeps]
theorem execRecoveryImage_keeps (img : FwImage) (s : State) : Leads (execRecoveryImage img s) (Keeps s) := by
  unfold execRecoveryImage; (repeat' split) <;> simp [Keeps]
theorem execSecurityReady_keeps (s : State) : Leads (execSecurityReady s) (Keeps s) := by
  unfold execSecurityReady; (repeat' split) <;> simp [Keeps]
theorem execSvnAdvance_keeps (s : State) (blown : Nat) : Leads (execSvnAdvance s blown) (Keeps s) := by
  unfold execSvnAdvance; (repeat' split) <;> simp [Keeps]
theorem execFwUpdate_keeps (p : Port) (r : Nat) (img : Option FwImage) (s : State) : Leads (execFwUpdate p r img s) (Keeps s) := by
  unfold execFwUpdate; (repeat' split) <;> simp [Keeps]
theorem execFwUpdateDone_keeps (p : Port) (r : Nat) (s : State) : Leads (execFwUpdateDone p r s) (Keeps s) := by
  unfold execFwUpdateDone; (repeat' split) <;> simp [Keeps]
theorem execDebugUnlock_keeps (p : Port) (r : Nat) (t : Option Bytes) (c : Checks) (s : State) : Leads (execDebugUnlock p r t c s) (Keeps s) := by
  unfold execDebugUnlock; simp [Keeps]
theorem execAdminPortChange_keeps (p : Port) (r : Nat) (t : Option Bytes) (c : Checks) (s : State) : Leads (execAdminPortChange p r t c s) (Keeps s) := by
  unfold execAdminPortChange; simp [Keeps]
theorem execRetire_keeps (p : Port) (r : Nat) (t : Option Bytes) (c : Checks) (s : State) : Leads (execRetire p r t c s) (Keeps s) := by
  unfold execRetire; simp [Keeps]
theorem execAttest_keeps (p : Port) (r : Nat) (ok : Bool) (s : State) (torn : Option Bytes) : Leads (execAttest p r ok s torn) (Keeps s) := by
  unfold execAttest; dsimp only; (repeat' split) <;> simp +contextual [Keeps]
theorem execHssBucketRefill_keeps (s : State) (torn : Option Bytes) : Leads (execHssBucketRefill s torn) (Keeps s) := by
  unfold execHssBucketRefill; dsimp only; (repeat' split) <;> simp +contextual [Keeps]
theorem execPkeOperationDone_keeps (owner : PkeOwner) (op : PkeOp) (operands : List (BitVec 8)) (arrived : List PkeReq) (s : State) :
    Leads (execPkeOperationDone owner op operands arrived s) (Keeps s) := by
  unfold execPkeOperationDone; dsimp only; (repeat' split) <;> simp [Keeps]
theorem execGetVersion_keeps (p : Port) (s : State) : Leads (execGetVersion p s) (Keeps s) := by
  unfold execGetVersion; apply spdmReq_keeps; intro s; simp [Keeps]
theorem execGetCapabilities_keeps (p : Port) (s : State) : Leads (execGetCapabilities p s) (Keeps s) := by
  unfold execGetCapabilities; apply spdmReq_keeps; intro s; simp [Keeps]
theorem execNegotiateAlgorithms_keeps (p : Port) (offered : Bool) (s : State) : Leads (execNegotiateAlgorithms p offered s) (Keeps s) := by
  unfold execNegotiateAlgorithms; split <;> (apply spdmReq_keeps; intro s; simp [Keeps])
theorem execGetDigests_keeps (p : Port) (s : State) : Leads (execGetDigests p s) (Keeps s) := by
  unfold execGetDigests; apply spdmReq_keeps; intro s; simp [Keeps]
theorem execGetCertificate_keeps (p : Port) (slot : Nat) (s : State) : Leads (execGetCertificate p slot s) (Keeps s) := by
  unfold execGetCertificate; split <;> (apply spdmReq_keeps; intro s; simp [Keeps])
theorem execChallenge_keeps (p : Port) (slot : Nat) (nonce : Bytes) (s : State) : Leads (execChallenge p slot nonce s) (Keeps s) := by
  unfold execChallenge; dsimp only; split <;> first | (apply spdmSigned_keeps; intro s; simp [Keeps]) | (apply spdmReq_keeps; intro s; simp [Keeps])
theorem execGetMeasurements_keeps (p : Port) (index : Nat) (nonce : Bytes) (s : State) : Leads (execGetMeasurements p index nonce s) (Keeps s) := by
  unfold execGetMeasurements; dsimp only; split <;> first | (apply spdmSigned_keeps; intro s; simp [Keeps]) | (apply spdmReq_keeps; intro s; simp [Keeps])
theorem execKeyExchange_keeps (p : Port) (peer : Bytes) (s : State) : Leads (execKeyExchange p peer s) (Keeps s) := by
  unfold execKeyExchange; dsimp only; split <;> first | (apply spdmSigned_keeps; intro s; simp [Keeps]) | (apply spdmReq_keeps; intro s; simp [Keeps])
theorem execFinish_keeps (p : Port) (session : Nat) (s : State) : Leads (execFinish p session s) (Keeps s) := by
  unfold execFinish; apply inSession_keeps; intro s; simp [Keeps]
theorem execSpdmHeartbeat_keeps (p : Port) (session : Nat) (s : State) : Leads (execSpdmHeartbeat p session s) (Keeps s) := by
  unfold execSpdmHeartbeat; apply inSession_keeps; intro s; simp [Keeps]
theorem execKeyUpdate_keeps (p : Port) (session : Nat) (s : State) : Leads (execKeyUpdate p session s) (Keeps s) := by
  unfold execKeyUpdate; apply inSession_keeps; intro s; simp [Keeps]
theorem execEndSession_keeps (p : Port) (session : Nat) (s : State) : Leads (execEndSession p session s) (Keeps s) := by
  unfold execEndSession; apply inSession_keeps; intro s; simp [Keeps]
theorem execIdeKmKeyProg_keeps (p : Port) (session stream : Nat) (rx : Bool) (s : State) : Leads (execIdeKmKeyProg p session stream rx s) (Keeps s) := by
  unfold execIdeKmKeyProg; split <;> first | (apply inSession_keeps; intro s; simp [Keeps]) | simp [Keeps]
theorem execKSetGo_keeps (p : Port) (session stream : Nat) (s : State) : Leads (execKSetGo p session stream s) (Keeps s) := by
  unfold execKSetGo; split <;> first | (apply inSession_keeps; intro s; simp [Keeps]) | simp [Keeps]
theorem execPcieEqualisation_keeps (_p : Port) (s : State) : Leads (execPcieEqualisation _p s) (Keeps s) := by
  unfold execPcieEqualisation; simp [Keeps]
theorem execScalarResultWritten_keeps (core : Nat) (s : State) : Leads (execScalarResultWritten core s) (Keeps s) := by
  unfold execScalarResultWritten; dsimp only; (repeat' split) <;> simp [Keeps]
theorem execLoadDataDelivered_keeps (core : Nat) (e : ReadErr) (s : State) : Leads (execLoadDataDelivered core e s) (Keeps s) := by
  unfold execLoadDataDelivered; dsimp only; (repeat' split) <;> simp [Keeps]
theorem execStoreAcknowledged_keeps (core : Nat) (e : ReadErr) (s : State) : Leads (execStoreAcknowledged core e s) (Keeps s) := by
  unfold execStoreAcknowledged; dsimp only; (repeat' split) <;> simp +contextual [Keeps]
theorem execSigApplied_keeps (core : Nat) (s : State) : Leads (execSigApplied core s) (Keeps s) := by
  unfold execSigApplied; dsimp only; (repeat' split) <;> simp [Keeps]
theorem execSigMessage_keeps (span sem k : Nat) (s : State) (arr : Option Arrival) : Leads (execSigMessage span sem k s arr) (Keeps s) := by
  unfold execSigMessage; (repeat' split) <;> simp [Keeps]
theorem execReplayQuiesceDone_keeps (j : Nat) (s : State) : Leads (execReplayQuiesceDone j s) (Keeps s) := by
  unfold execReplayQuiesceDone; (repeat' split) <;> simp +contextual [Keeps]
theorem execPerstAssert_keeps (p : Port) (s : State) : Leads (execPerstAssert p s) (Keeps s) := by
  unfold execPerstAssert; dsimp only; (repeat' split) <;> simp [Keeps]
theorem execPerstDeassert_keeps (p : Port) (refclk : Bool) (s : State) : Leads (execPerstDeassert p s refclk) (Keeps s) := by
  unfold execPerstDeassert; (repeat' split) <;> simp [Keeps]
theorem execHotReset_keeps (p : Port) (s : State) : Leads (execHotReset p s) (Keeps s) := by
  unfold execHotReset; (repeat' split) <;> simp [Keeps]
theorem execFlr_keeps (p : Port) (s : State) : Leads (execFlr p s) (Keeps s) := by
  unfold execFlr; simp [Keeps]
theorem execD3hotEntry_keeps (p : Port) (s : State) : Leads (execD3hotEntry p s) (Keeps s) := by
  unfold execD3hotEntry; (repeat' split) <;> simp [Keeps]
theorem execPortLinkUp_keeps (p : Port) (gts width : Nat) (reversed : Bool) (polarity : BitVec 16) (s : State) : Leads (execPortLinkUp p gts width s reversed polarity) (Keeps s) := by
  unfold execPortLinkUp; (repeat' split) <;> simp [Keeps]
theorem execClockMonitorWindow_keeps (ref : Source) (count : Nat) (s : State) : Leads (execClockMonitorWindow count s ref) (Keeps s) := by
  unfold execClockMonitorWindow; (repeat' split) <;> simp [Keeps]
theorem execReferenceEdgeTimeout_keeps (ref : Source) (s : State) : Leads (execReferenceEdgeTimeout s ref) (Keeps s) := by
  unfold execReferenceEdgeTimeout; (repeat' split) <;> simp [Keeps]
theorem execPllRelock_keeps (s : State) : Leads (execPllRelock s) (Keeps s) := by
  unfold execPllRelock; (repeat' split) <;> simp [Keeps]
theorem execSysrefQualified_keeps (s : State) : Leads (execSysrefQualified s) (Keeps s) := by
  unfold execSysrefQualified; (repeat' split) <;> simp [Keeps]
theorem execCrystalRecovered_keeps (s : State) : Leads (execCrystalRecovered s) (Keeps s) := by
  unfold execCrystalRecovered; (repeat' split) <;> simp [Keeps]
theorem execFmcStart_keeps (p : Port) (v : Reg) (s : State) : Leads (execFmcStart p v s) (Keeps s) := by
  unfold execFmcStart; (repeat' split) <;> simp [Keeps]
theorem execFmcDone_keeps (p : Port) (count : Nat) (stopped : Bool) (s : State) : Leads (execFmcDone p count stopped s) (Keeps s) := by
  unfold execFmcDone; (repeat' split) <;> simp [Keeps]
theorem execWarmReset_keeps (p : Port) (v : Reg) (s : State) : Leads (execWarmReset p v s) (Keeps s) := by
  unfold execWarmReset; simp +contextual [Keeps]
theorem execEssFreeze_keeps (p : Port) (v : Reg) (s : State) : Leads (execEssFreeze p v s) (Keeps s) := by
  unfold execEssFreeze; simp +contextual [Keeps]
theorem execEssPowerDown_keeps (p : Port) (v : Reg) (s : State) : Leads (execEssPowerDown p v s) (Keeps s) := by
  unfold execEssPowerDown; simp +contextual [Keeps]
theorem execEssArm_keeps (p : Port) (v : Reg) (s : State) : Leads (execEssArm p v s) (Keeps s) := by
  unfold execEssArm; simp [Keeps]
theorem execEssArmLapse_keeps (p : Port) (s : State) : Leads (execEssArmLapse p s) (Keeps s) := by
  unfold execEssArmLapse; (repeat' split) <;> simp [Keeps]
theorem execEssKill_keeps (p : Port) (v : Reg) (s : State) : Leads (execEssKill p v s) (Keeps s) := by
  unfold execEssKill; simp [Keeps]
theorem execEssFlr_keeps (p : Port) (v : Reg) (s : State) : Leads (execEssFlr p v s) (Keeps s) := by
  unfold execEssFlr; simp [Keeps]
theorem execHeartbeat_keeps (s : State) : Leads (execHeartbeat s) (Keeps s) := by
  unfold execHeartbeat; (repeat' split) <;> simp [Keeps]
theorem execHbStale_keeps (us : Nat) (s : State) : Leads (execHbStale us s) (Keeps s) := by
  unfold execHbStale; (repeat' split) <;> simp [Keeps]
theorem execFusesSensed_keeps (s : State) : Leads (execFusesSensed s) (Keeps s) := by
  unfold execFusesSensed; (repeat' split) <;> simp [Keeps]
theorem execEepromFieldsRead_keeps (readable : Bool) (s : State) : Leads (execEepromFieldsRead readable s) (Keeps s) := by
  unfold execEepromFieldsRead; (repeat' split) <;> simp [Keeps]
theorem execConfigSpaceReady_keeps (p : Port) (s : State) : Leads (execConfigSpaceReady p s) (Keeps s) := by
  unfold execConfigSpaceReady; (repeat' split) <;> simp [Keeps]
theorem execMillSramReady_keeps (m : Nat) (badGroups : List Nat) (s : State) : Leads (execMillSramReady m badGroups s) (Keeps s) := by
  unfold execMillSramReady; (repeat' split) <;> simp [Keeps]
theorem execMillCoresReady_keeps (m : Nat) (badSlots : List Nat) (s : State) : Leads (execMillCoresReady m badSlots s) (Keeps s) := by
  unfold execMillCoresReady; (repeat' split) <;> simp [Keeps]
theorem execHbmReady_keeps (st : Nat) (trained : Bool) (data cmd : List (Nat × Nat)) (s : State) : Leads (execHbmReady st trained data cmd s) (Keeps s) := by
  unfold execHbmReady; dsimp only; (repeat' split) <;> simp [Keeps]
theorem execLimpQuiesceComplete_keeps (s : State) : Leads (execLimpQuiesceComplete s) (Keeps s) := by
  unfold execLimpQuiesceComplete; split
  · simp [Keeps]
  dsimp only
  rw [leads_next]
  generalize hm : State.each _ (State.runningJobs _) _ = m
  have h : Keeps s m := by
    subst hm
    refine Keeps.trans ?_ (each_keeps _ _ _ ?_)
    · simp [Keeps]
    · intro s j; (repeat' split) <;> simp +contextual [Keeps]
  refine h.trans ?_
  split
  · exact ⟨(State.warmReset_fixed _).trans (State.reselectIdle_fixed m),
      fun h => State.warmReset_wf _ (show memsWf m.reselectIdle.mems = true by rw [State.reselectIdle_mems]; exact h)⟩
  · simp [Keeps]
theorem execFirmwareRestarted_keeps (s : State) : Leads (execFirmwareRestarted s) (Keeps s) := by
  unfold execFirmwareRestarted; (repeat' split) <;> simp [Keeps]
theorem execMmaLastResult_keeps (core : Nat) (o : OBuf) (e : EngCheck) (s : State) : Leads (execMmaLastResult core o e s) (Keeps s) := by
  unfold execMmaLastResult; dsimp only; (repeat' split) <;> simp [Keeps]
theorem execDrainComplete_keeps (core : Nat) (o : OBuf) (e : EngCheck) (s : State) : Leads (execDrainComplete core o e s) (Keeps s) := by
  unfold execDrainComplete; dsimp only; (repeat' split) <;> simp +contextual [Keeps]
theorem execNttLimbWritten_keeps (core : Nat) (e : EngCheck) (s : State) : Leads (execNttLimbWritten core e s) (Keeps s) := by
  unfold execNttLimbWritten; dsimp only; (repeat' split) <;> simp [Keeps]
theorem execVectorResultWritten_keeps (core : Nat) (e : EngCheck) (s : State) : Leads (execVectorResultWritten core e s) (Keeps s) := by
  unfold execVectorResultWritten; dsimp only; (repeat' split) <;> simp [Keeps]
theorem execXcopyStagingGranted_keeps (core : Nat) (queue : BitVec 1) (s : State) : Leads (execXcopyStagingGranted core queue s) (Keeps s) := by
  unfold execXcopyStagingGranted; dsimp only; (repeat' split) <;> simp [Keeps]
theorem execXcopyComplete_keeps (core : Nat) (queue : BitVec 1) (e : EngCheck) (s : State) : Leads (execXcopyComplete core queue e s) (Keeps s) := by
  unfold execXcopyComplete; dsimp only; (repeat' split) <;> simp +contextual [Keeps]
theorem execXcRaceSeenWrite_keeps (p : Port) (v : Reg) (s : State) : Leads (execXcRaceSeenWrite p v s) (Keeps s) := by
  unfold execXcRaceSeenWrite; (repeat' split) <;> simp [Keeps]
theorem execStreamElementComplete_keeps (core channel upTo : Nat) (host : Bytes) (e : ReadErr) (s : State) : Leads (execStreamElementComplete core channel host e s upTo) (Keeps s) := by
  unfold execStreamElementComplete; dsimp only; (repeat' split) <;> simp +contextual [Keeps]
theorem execAtsTranslationCompletion_keeps (p : Port) (pasid page : Nat) (x : Option Xlat) (s : State) : Leads (execAtsTranslationCompletion p pasid page x s) (Keeps s) := by
  unfold execAtsTranslationCompletion; dsimp only; (repeat' split) <;> simp [Keeps]
theorem execPageRequest_keeps (p : Port) (pasid page : Nat) (s : State) : Leads (execPageRequest p pasid page s) (Keeps s) := by
  unfold execPageRequest; dsimp only; (repeat' split) <;> simp [Keeps]
theorem execPageResponse_keeps (p : Port) (pasid page : Nat) (r : PageResp) (s : State) : Leads (execPageResponse p pasid page r s) (Keeps s) := by
  unfold execPageResponse; dsimp only; (repeat' split) <;> simp [Keeps]
theorem execPageTimeout_keeps (j : Nat) (stream : Option (Nat × Nat)) (s : State) (ring : Option (Port × Nat)) : Leads (execPageTimeout j stream s ring) (Keeps s) := by
  unfold execPageTimeout; (repeat' split) <;> simp [Keeps]
theorem execAtsInvalidation_keeps (p : Port) (pasid page len : Nat) (s : State) : Leads (execAtsInvalidation p pasid page len s) (Keeps s) := by
  unfold execAtsInvalidation; (repeat' split) <;> simp [Keeps]
theorem execPriReset_keeps (p : Port) (ats pri pasid : Bool) (alloc : Nat) (s : State) : Leads (execPriReset p ats pri pasid s alloc) (Keeps s) := by
  unfold execPriReset; (repeat' split) <;> simp [Keeps]
theorem execCiphertextOutputWritten_keeps (core : Nat) (e : EngCheck) (s : State) : Leads (execCiphertextOutputWritten core e s) (Keeps s) := by
  unfold execCiphertextOutputWritten; dsimp only; (repeat' split) <;> simp +contextual [Keeps]
theorem execKeyIngest_keeps (p : Port) (r : Nat) (src : Option Bytes) (s : State) : Leads (execKeyIngest p r src s) (Keeps s) := by
  unfold execKeyIngest; (repeat' split) <;> simp [Keeps]
theorem execKeyIngestComplete_keeps (p : Port) (r : Nat) (s : State) : Leads (execKeyIngestComplete p r s) (Keeps s) := by
  unfold execKeyIngestComplete; dsimp only; (repeat' split) <;> simp +contextual [Keeps]
theorem execKeysetBind_keeps (p : Port) (r : Nat) (buf : Option Bytes) (s : State) : Leads (execKeysetBind p r buf s) (Keeps s) := by
  unfold execKeysetBind; dsimp only; (repeat' split) <;> simp +contextual [Keeps]
theorem execKeysetUnbind_keeps (p : Port) (r : Nat) (s : State) : Leads (execKeysetUnbind p r s) (Keeps s) := by
  unfold execKeysetUnbind; dsimp only; (repeat' split) <;> simp +contextual [Keeps]
theorem execKeyringBindComplete_keeps (p : Port) (r : Nat) (s : State) : Leads (execKeyringBindComplete p r s) (Keeps s) := by
  unfold execKeyringBindComplete; dsimp only; (repeat' split) <;> simp +contextual [Keeps]
theorem execKeyringIncomplete_keeps (p : Port) (r : Nat) (s : State) : Leads (execKeyringIncomplete p r s) (Keeps s) := by
  unfold execKeyringIncomplete; (repeat' split) <;> simp [Keeps]
theorem execKeySelfcheck_keeps (p : Port) (r : Nat) (ok : Bool) (s : State) (written : Nat) : Leads (execKeySelfcheck p r ok s written) (Keeps s) := by
  unfold execKeySelfcheck; dsimp only; (repeat' split) <;> simp [Keeps]
theorem execKeyBlockAcknowledged_keeps (m stream core : Nat) (e : HbCheck) (s : State) : Leads (execKeyBlockAcknowledged m stream core e s) (Keeps s) := by
  unfold execKeyBlockAcknowledged; (repeat' split) <;> simp [Keeps]
theorem execPassRequest_keeps (link src : Nat) (keyset : Bytes) (index d0 d1 : Nat) (s : State) (arr : Option Arrival) : Leads (execPassRequest link src keyset index d0 d1 s arr) (Keeps s) := by
  unfold execPassRequest; (repeat' split) <;> simp [Keeps]
theorem execKeyMessage_keeps (link : Nat) (h : FlitHdr) (keyset : Bytes) (payload : Bytes) (s : State) (line : FlitLine) (cls : Nat) : Leads (execKeyMessage link h keyset payload s line cls) (Keeps s) := by
  unfold execKeyMessage; (repeat' split) <;> simp [Keeps]
theorem execHandleMap_keeps (p : Port) (r : Nat) (buf : Option Bytes) (s : State) : Leads (execHandleMap p r buf s) (Keeps s) := by unfold execHandleMap; exact handleCommand_keeps ..
theorem execHandleUnmap_keeps (p : Port) (r : Nat) (buf : Option Bytes) (s : State) : Leads (execHandleUnmap p r buf s) (Keeps s) := by unfold execHandleUnmap; exact handleCommand_keeps ..
theorem execWindowOpen_keeps (p : Port) (r : Nat) (buf : Option Bytes) (s : State) : Leads (execWindowOpen p r buf s) (Keeps s) := by unfold execWindowOpen; exact handleCommand_keeps ..
theorem execWindowClose_keeps (p : Port) (r : Nat) (buf : Option Bytes) (s : State) : Leads (execWindowClose p r buf s) (Keeps s) := by unfold execWindowClose; exact handleCommand_keeps ..
theorem execBankPowerDown_keeps (p : Port) (r : Nat) (s : State) : Leads (execBankPowerDown p r s) (Keeps s) := by unfold execBankPowerDown; exact powerCommand_keeps ..
theorem execBankPowerUp_keeps (p : Port) (r : Nat) (s : State) : Leads (execBankPowerUp p r s) (Keeps s) := by unfold execBankPowerUp; exact powerCommand_keeps ..
theorem execBankGroupDark_keeps (m g : Nat) (s : State) : Leads (execBankGroupDark m g s) (Keeps s) := by
  unfold execBankGroupDark; dsimp only; (repeat' split) <;> simp [Keeps]
theorem execBankGroupWiped_keeps (m g : Nat) (s : State) : Leads (execBankGroupWiped m g s) (Keeps s) := by
  unfold execBankGroupWiped; dsimp only; (repeat' split) <;> simp +contextual [Keeps]
theorem execBankGroupOff_keeps (m g : Nat) (s : State) : Leads (execBankGroupOff m g s) (Keeps s) := by
  unfold execBankGroupOff; (repeat' split) <;> simp [Keeps]
theorem execEvacuationDone_keeps (m g : Nat) (ok : Bool) (s : State) : Leads (execEvacuationDone m g ok s) (Keeps s) := by
  unfold execEvacuationDone; dsimp only; (repeat' split) <;> simp [Keeps]
theorem execReleaseComplete_keeps (j n : Nat) (e : ReadErr) (s : State) : Leads (execReleaseComplete j s n e) (Keeps s) := by
  unfold execReleaseComplete; dsimp only; (repeat' split) <;> simp [Keeps]
theorem execReleaseEnd_keeps (span stream seq bytes : Nat) (s : State) (arr : Option Arrival) : Leads (execReleaseEnd span stream seq bytes s arr) (Keeps s) := by
  unfold execReleaseEnd; (repeat' split) <;> simp +contextual [Keeps]
theorem execGrant_keeps (span stream credits : Nat) (s : State) (arr : Option Arrival) : Leads (execGrant span stream credits s arr) (Keeps s) := by
  unfold execGrant; (repeat' split) <;> simp [Keeps]
theorem execSelftestCore_keeps (p : Port) (r : Nat) (s : State) : Leads (execSelftestCore p r s) (Keeps s) := by
  unfold execSelftestCore; dsimp only; (repeat' split) <;> simp [Keeps]
theorem execSelftestModule_keeps (p : Port) (r : Nat) (s : State) : Leads (execSelftestModule p r s) (Keeps s) := by
  unfold execSelftestModule; (repeat' split) <;> simp [Keeps]
theorem execSelftestTurn_keeps (m : Nat) (s : State) : Leads (execSelftestTurn m s) (Keeps s) := by
  unfold execSelftestTurn; (repeat' split) <;> simp [Keeps]
theorem execScanDone_keeps (b : Block) (pass : Bool) (s : State) (sig : Nat) : Leads (execScanDone b pass s sig) (Keeps s) := by
  unfold execScanDone; dsimp only; (repeat' split) <;> simp +contextual [Keeps]
theorem execCouchCommit_keeps (j : Nat) (s : State) : Leads (execCouchCommit j s) (Keeps s) := by
  unfold execCouchCommit; (repeat' split) <;> simp +contextual [Keeps]
theorem execRoleFoldComplete_keeps (j : Nat) (s : State) : Leads (execRoleFoldComplete j s) (Keeps s) := by
  unfold execRoleFoldComplete; (repeat' split) <;> simp [Keeps]
theorem execCoreHalted_keeps (core : Nat) (s : State) : Leads (execCoreHalted core s) (Keeps s) := by
  unfold execCoreHalted; dsimp only; (repeat' split) <;> simp +contextual [Keeps]
theorem execInterludeResume_keeps (j : Nat) (s : State) : Leads (execInterludeResume j s) (Keeps s) := by
  unfold execInterludeResume; (repeat' split) <;> simp +contextual [Keeps]
theorem execRepulpTableBuilt_keeps (i : Nat) (s : State) : Leads (execRepulpTableBuilt i s) (Keeps s) := by
  unfold execRepulpTableBuilt; (repeat' split) <;> simp [Keeps]
theorem execVote_keeps (span m seq : Nat) (v : Vote) (divK duty : Nat) (dead : Bool) (s : State) (arr : Option Arrival) : Leads (execVote span m seq v divK duty dead s arr) (Keeps s) := by
  unfold execVote; (repeat' split) <;> simp +contextual [Keeps]
theorem execDecision_keeps (span seq : Nat) (d : Decision) (s : State) (arr : Option Arrival) (lost : Bool) : Leads (execDecision span seq d s arr lost) (Keeps s) := by
  unfold execDecision; (repeat' split) <;> simp +contextual [Keeps]
theorem execVoteTimeout_keeps (span m : Nat) (s : State) : Leads (execVoteTimeout span m s) (Keeps s) := by
  unfold execVoteTimeout; dsimp only; (repeat' split) <;> simp +contextual [Keeps]
theorem execDecisionTimeout_keeps (span : Nat) (s : State) : Leads (execDecisionTimeout span s) (Keeps s) := by
  unfold execDecisionTimeout; (repeat' split) <;> simp [Keeps]
theorem execDecisionRequest_keeps (span m seq : Nat) (s : State) (arr : Option Arrival) : Leads (execDecisionRequest span m seq s arr) (Keeps s) := by
  unfold execDecisionRequest; (repeat' split) <;> simp [Keeps]
theorem execInterludeCouch_keeps (j : Nat) (s : State) : Leads (execInterludeCouch j s) (Keeps s) := by
  unfold execInterludeCouch; (repeat' split) <;> simp +contextual [Keeps]
theorem execMacroSheetCouch_keeps (j : Nat) (finished last : Bool) (s : State) (bad : Option Nat) : Leads (execMacroSheetCouch j finished last s bad) (Keeps s) := by
  unfold execMacroSheetCouch; split
  · split <;> simp [Keeps]
  · exact macroSheet_keeps ..
theorem execStart_keeps (span tick hops : Nat) (agree : Bool) (s : State) (arr : Option Arrival) : Leads (execStart span tick hops agree s arr) (Keeps s) := by
  unfold execStart; (repeat' split) <;> simp [Keeps]
theorem execSpanSubmitTimeout_keeps (span : Nat) (s : State) : Leads (execSpanSubmitTimeout span s) (Keeps s) := by
  unfold execSpanSubmitTimeout; (repeat' split) <;> simp [Keeps]
theorem execStop_keeps (span cause : Nat) (s : State) (arr : Option Arrival) : Leads (execStop span cause s arr) (Keeps s) := by
  unfold execStop; (repeat' split) <;> simp [Keeps]
theorem execReamBoundary_keeps (s : State) : Leads (execReamBoundary s) (Keeps s) := by
  unfold execReamBoundary; (repeat' split) <;> simp [Keeps]
theorem execScheduleOverrun_keeps (j : Nat) (s : State) : Leads (execScheduleOverrun j s) (Keeps s) := by
  unfold execScheduleOverrun; (repeat' split) <;> simp [Keeps]
theorem execTick_keeps (s : State) : Leads (execTick s) (Keeps s) := by
  unfold execTick; (repeat' split) <;> simp +contextual [Keeps]
theorem execTickMessageSend_keeps (s : State) : Leads (execTickMessageSend s) (Keeps s) := by
  unfold execTickMessageSend; (repeat' split) <;> simp [Keeps]
theorem execCorrectionStorm_keeps (r : StormRes) (n : Nat) (s : State) : Leads (execCorrectionStorm r n s) (Keeps s) := by
  unfold execCorrectionStorm; (repeat' split) <;> simp [Keeps]
theorem execPcRetrain_keeps (pc : Nat) (s : State) : Leads (execPcRetrain pc s) (Keeps s) := by
  unfold execPcRetrain; dsimp only; (repeat' split) <;> simp [Keeps]
theorem execPcRetrainDone_keeps (pc data cmd : Nat) (s : State) : Leads (execPcRetrainDone pc data cmd s) (Keeps s) := by
  unfold execPcRetrainDone; dsimp only; (repeat' split) <;> simp [Keeps]
theorem execMigrationDone_keeps (pc : Nat) (lost : List Nat) (s : State) : Leads (execMigrationDone pc lost s) (Keeps s) := by
  unfold execMigrationDone; split; · simp [Keeps]
  split
  · rw [leads_next]
    have h : Keeps s (s.each (lost.filter (s.unmigrated pc)) fun s b => s.lostGranule pc b) :=
      each_keeps _ _ _ fun s b => ⟨by simp, fun h => by simp [h]⟩
    exact h.trans ⟨by simp, fun h => by simp [h]⟩
  · simp [Keeps]
theorem execUnitFilled_keeps (m k : Nat) (s : State) : Leads (execUnitFilled m k s) (Keeps s) := by
  unfold execUnitFilled; dsimp only; (repeat' split) <;> simp +contextual [Keeps]
theorem execSelfRefreshIdle_keeps (st : Nat) (s : State) : Leads (execSelfRefreshIdle st s) (Keeps s) := by
  unfold execSelfRefreshIdle; (repeat' split) <;> simp [Keeps]
theorem execPatrolScrub_keeps (pc byte corrected : Nat) (e : ReadErr) (s : State) : Leads (execPatrolScrub pc byte corrected e s) (Keeps s) := by
  unfold execPatrolScrub; dsimp only; (repeat' split) <;> simp +contextual [Keeps]
theorem execJobCreate_keeps (p : Port) (r : Nat) (s : State) : Leads (execJobCreate p r s) (Keeps s) := by
  unfold execJobCreate; dsimp only; (repeat' split) <;> simp [Keeps]
theorem execJobKill_keeps (p : Port) (r : Nat) (s : State) : Leads (execJobKill p r s) (Keeps s) := by
  unfold execJobKill; (repeat' split) <;> simp [Keeps]
theorem execJobWiped_keeps (j : Nat) (s : State) : Leads (execJobWiped j s) (Keeps s) := by
  unfold execJobWiped; (repeat' split) <;> simp [Keeps]
theorem execProgramLoad_keeps (p : Port) (r : Nat) (img : Option Bytes) (s : State) : Leads (execProgramLoad p r img s) (Keeps s) := by
  unfold execProgramLoad; dsimp only; (repeat' split) <;> simp +contextual [Keeps]
theorem execSubmit_keeps (p : Port) (r : Nat) (s : State) : Leads (execSubmit p r s) (Keeps s) := by
  unfold execSubmit; dsimp only; (repeat' split) <;> simp [Keeps]
theorem execPolicySetPeriod_keeps (p : Port) (r : Nat) (s : State) (groupJobs : Bool) : Leads (execPolicySetPeriod p r s groupJobs) (Keeps s) := by unfold execPolicySetPeriod; exact policyCommand_keeps ..
theorem execPolicySetReam_keeps (p : Port) (r : Nat) (s : State) : Leads (execPolicySetReam p r s) (Keeps s) := by unfold execPolicySetReam; exact policyCommand_keeps ..
theorem execPolicySetTimeout_keeps (p : Port) (r : Nat) (s : State) : Leads (execPolicySetTimeout p r s) (Keeps s) := by unfold execPolicySetTimeout; exact policyCommand_keeps ..
theorem execPolicySetSelftestInterval_keeps (p : Port) (r : Nat) (s : State) : Leads (execPolicySetSelftestInterval p r s) (Keeps s) := by unfold execPolicySetSelftestInterval; exact policyCommand_keeps ..
theorem execPolicySetAdminCap_keeps (p : Port) (r : Nat) (s : State) : Leads (execPolicySetAdminCap p r s) (Keeps s) := by unfold execPolicySetAdminCap; exact policyCommand_keeps ..
theorem execPolicySetAdmission_keeps (p : Port) (r : Nat) (s : State) : Leads (execPolicySetAdmission p r s) (Keeps s) := by unfold execPolicySetAdmission; exact policyCommand_keeps ..
theorem execPolicySetQuota_keeps (p : Port) (r : Nat) (s : State) : Leads (execPolicySetQuota p r s) (Keeps s) := by unfold execPolicySetQuota; exact policyCommand_keeps ..
theorem execClockReselect_keeps (p : Port) (r : Nat) (s : State) : Leads (execClockReselect p r s) (Keeps s) := by unfold execClockReselect; exact policyCommand_keeps ..
theorem execLinkRoute_keeps (p : Port) (r : Nat) (buf : Option Bytes) (s : State) : Leads (execLinkRoute p r buf s) (Keeps s) := by
  unfold execLinkRoute; dsimp only; (repeat' split) <;> simp [Keeps]
theorem execLinkTrained_keeps (k : Nat) (lanes polarity : BitVec 5) (peer peerLink delay : Nat) (peerEncrypt : Bool) (s : State) : Leads (execLinkTrained k lanes peer peerLink delay peerEncrypt s polarity) (Keeps s) := by
  unfold execLinkTrained; (repeat' split) <;> simp [Keeps]
theorem execLinkTrainingRetry_keeps (k : Nat) (s : State) : Leads (execLinkTrainingRetry k s) (Keeps s) := by
  unfold execLinkTrainingRetry; (repeat' split) <;> simp [Keeps]
theorem execLaneRecalibration_keeps (k lane : Nat) (ok : Bool) (s : State) (begins : Bool) : Leads (execLaneRecalibration k lane ok s begins) (Keeps s) := by
  unfold execLaneRecalibration; (repeat' split) <;> simp [Keeps]
theorem execLaneRetired_keeps (k lane corrections : Nat) (s : State) : Leads (execLaneRetired k lane corrections s) (Keeps s) := by
  unfold execLaneRetired; (repeat' split) <;> simp [Keeps]
theorem execLinkRetryExhausted_keeps (k resent quietUs : Nat) (s : State) : Leads (execLinkRetryExhausted k resent quietUs s) (Keeps s) := by
  unfold execLinkRetryExhausted; (repeat' split) <;> simp [Keeps]
theorem execLinkRetrainDone_keeps (k : Nat) (ok : Bool) (s : State) (found : Option Training) (lost : List Nat) : Leads (execLinkRetrainDone k ok s found lost) (Keeps s) := by
  unfold execLinkRetrainDone; (repeat' split) <;> simp [Keeps]
theorem execNak_keeps (k seq : Nat) (s : State) : Leads (execNak k seq s) (Keeps s) := by
  unfold execNak; (repeat' split) <;> simp [Keeps]
theorem execIdle_keeps (k : Nat) (h : FlitHdr) (s : State) (line : FlitLine) : Leads (execIdle k h s line) (Keeps s) := by
  unfold execIdle; (repeat' split) <;> simp [Keeps]
theorem execDataFlit_keeps (k : Nat) (h : FlitHdr) (payload : Bytes) (good auth : Bool) (s : State) (line : FlitLine) (cls : Nat) : Leads (execDataFlit k h payload good auth s line cls) (Keeps s) := by
  unfold execDataFlit; (repeat' split) <;> simp [Keeps]
theorem execTickMessage_keeps (k tickNo period hops delay : Nat) (s : State) (arr : Option Arrival) : Leads (execTickMessage k tickNo period hops delay s arr) (Keeps s) := by
  unfold execTickMessage; (repeat' split) <;> simp [Keeps]
theorem execMasterLost_keeps (reachable : List Nat) (s : State) : Leads (execMasterLost reachable s) (Keeps s) := by
  unfold execMasterLost; (repeat' split) <;> simp [Keeps]
theorem execPing_keeps (k stamp : Nat) (s : State) (arr : Option Arrival) : Leads (execPing k stamp s arr) (Keeps s) := by
  unfold execPing; (repeat' split) <;> simp [Keeps]
theorem execPong_keeps (k delay : Nat) (s : State) (arr : Option Arrival) : Leads (execPong k delay s arr) (Keeps s) := by
  unfold execPong; (repeat' split) <;> simp [Keeps]
theorem execDelayMeasurement_keeps (s : State) : Leads (execDelayMeasurement s) (Keeps s) := by
  unfold execDelayMeasurement; (repeat' split) <;> simp [Keeps]
theorem execLinkRekey_keeps (k : Nat) (s : State) : Leads (execLinkRekey k s) (Keeps s) := by
  unfold execLinkRekey; dsimp only; (repeat' split) <;> simp [Keeps]
theorem execLinkAuthDown_keeps (k failures : Nat) (s : State) : Leads (execLinkAuthDown k failures s) (Keeps s) := by
  unfold execLinkAuthDown; (repeat' split) <;> simp [Keeps]
theorem execDoorbell_keeps (p : Port) (r : Nat) (v : Reg) (s : State) : Leads (execDoorbell p r v s) (Keeps s) := by
  unfold execDoorbell; (repeat' split) <;> simp [Keeps]
theorem execCqHeadWrite_keeps (p : Port) (r : Nat) (v : Reg) (s : State) : Leads (execCqHeadWrite p r v s) (Keeps s) := by
  unfold execCqHeadWrite; (repeat' split) <;> simp [Keeps]
theorem execRingEnable_keeps (p : Port) (r : Nat) (v : Reg) (s : State) : Leads (execRingEnable p r v s) (Keeps s) := by
  unfold execRingEnable; (repeat' split) <;> simp [Keeps]
theorem execRingDisable_keeps (p : Port) (r : Nat) (v : Reg) (s : State) : Leads (execRingDisable p r v s) (Keeps s) := by
  unfold execRingDisable; (repeat' split) <;> simp [Keeps]
theorem execEvEnable_keeps (p : Port) (v : Reg) (s : State) : Leads (execEvEnable p v s) (Keeps s) := by
  unfold execEvEnable; (repeat' split) <;> simp [Keeps]
theorem execEvHeadWrite_keeps (p : Port) (v : Reg) (s : State) : Leads (execEvHeadWrite p v s) (Keeps s) := by
  unfold execEvHeadWrite; (repeat' split) <;> simp [Keeps]
theorem execCommandFetch_keeps (p : Port) (r : Nat) (bytes : Bytes) (s : State) : Leads (execCommandFetch p r bytes s) (Keeps s) := by
  unfold execCommandFetch; dsimp only; (repeat' split) <;> simp [Keeps]
theorem execQueryPrimes_keeps (p : Port) (r : Nat) (ok : Bool) (s : State) (written : Nat) : Leads (execQueryPrimes p r ok s written) (Keeps s) := by
  unfold execQueryPrimes; (repeat' split) <;> simp [Keeps]
theorem execQueryParamset_keeps (p : Port) (r : Nat) (ok : Bool) (s : State) (written : Nat) : Leads (execQueryParamset p r ok s written) (Keeps s) := by
  unfold execQueryParamset; (repeat' split) <;> simp [Keeps]
theorem execQueryReady_keeps (p : Port) (r : Nat) (ok : Bool) (s : State) (written : Nat) : Leads (execQueryReady p r ok s written) (Keeps s) := by
  unfold execQueryReady; (repeat' split) <;> simp [Keeps]
theorem execEventRecordPost_keeps (p : Port) (s : State) : Leads (execEventRecordPost p s) (Keeps s) := by
  unfold execEventRecordPost; dsimp only; (repeat' split) <;> simp [Keeps]
theorem execSnapCtrlWrite_keeps (p : Port) (v : Reg) (s : State) : Leads (execSnapCtrlWrite p v s) (Keeps s) := by
  unfold execSnapCtrlWrite; (repeat' split) <;> simp [Keeps]
theorem execStatsSnapshot_keeps (p : Port) (r : Nat) (s : State) : Leads (execStatsSnapshot p r s) (Keeps s) := by
  unfold execStatsSnapshot; (repeat' split) <;> simp [Keeps]
theorem execSnapshotFilled_keeps (p : Port) (s : State) : Leads (execSnapshotFilled p s) (Keeps s) := by
  unfold execSnapshotFilled; dsimp only; (repeat' split) <;> simp [Keeps]
theorem execErrStatusWrite_keeps (p : Port) (v : Reg) (s : State) : Leads (execErrStatusWrite p v s) (Keeps s) := by
  unfold execErrStatusWrite; (repeat' split) <;> simp [Keeps]
theorem execErrrecValidWrite_keeps (p : Port) (hi : Bool) (v : Reg) (s : State) : Leads (execErrrecValidWrite p hi v s) (Keeps s) := by
  unfold execErrrecValidWrite; (repeat' split) <;> simp [Keeps]
theorem execMsixUnmask_keeps (p : Port) (vector : Nat) (s : State) : Leads (execMsixUnmask p vector s) (Keeps s) := by
  unfold execMsixUnmask; (repeat' split) <;> simp [Keeps]
theorem execRegisterWrite_keeps (p : Port) (off : Nat) (v : Reg) (s : State) : Leads (execRegisterWrite p off v s) (Keeps s) := by
  unfold execRegisterWrite; (repeat' split) <;> simp +contextual [Keeps]
theorem execBusError_keeps (p : Port) (off : Nat) (q : Req) (s : State) (data : List Reg) : Leads (execBusError p off q s data) (Keeps s) := by
  unfold execBusError; dsimp only; (repeat' split) <;> simp +contextual [Keeps]
theorem execBar2Read_keeps (p : Port) (off len : Nat) (e : ReadErr) (s : State) : Leads (execBar2Read p off len e s) (Keeps s) := by
  unfold execBar2Read; (repeat' split) <;> simp [Keeps]
theorem execBar2Write_keeps (p : Port) (off : Nat) (data : Bytes) (e : ReadErr) (s : State) : Leads (execBar2Write p off data e s) (Keeps s) := by
  unfold execBar2Write; (repeat' split) <;> simp +contextual [Keeps]
theorem execCiphertextAdd_keeps (i : Issue) (a b dst : Loc) (e : ReadErr) (s : State) : Leads (execCiphertextAdd i a b dst e s) (Keeps s) := by unfold execCiphertextAdd; exact slotOp_keeps ..
theorem execCiphertextSubtract_keeps (i : Issue) (a b dst : Loc) (e : ReadErr) (s : State) : Leads (execCiphertextSubtract i a b dst e s) (Keeps s) := by unfold execCiphertextSubtract; exact slotOp_keeps ..
theorem execCiphertextNegate_keeps (i : Issue) (a dst : Loc) (e : ReadErr) (s : State) : Leads (execCiphertextNegate i a dst e s) (Keeps s) := by unfold execCiphertextNegate; exact slotOp_keeps ..
theorem execAddPlaintext_keeps (i : Issue) (a pt dst : Loc) (e : ReadErr) (s : State) : Leads (execAddPlaintext i a pt dst e s) (Keeps s) := by unfold execAddPlaintext; exact slotOp_keeps ..
theorem execMultiplyPlaintext_keeps (i : Issue) (a pt dst : Loc) (e : ReadErr) (s : State) : Leads (execMultiplyPlaintext i a pt dst e s) (Keeps s) := by unfold execMultiplyPlaintext; exact slotOp_keeps ..
theorem execMultiplyConstant_keeps (i : Issue) (a dst : Loc) (c : Int) (e : ReadErr) (s : State) : Leads (execMultiplyConstant i a dst c e s) (Keeps s) := by unfold execMultiplyConstant; exact slotOp_keeps ..
theorem execTensorProduct_keeps (i : Issue) (a b dst : Loc) (e : ReadErr) (s : State) : Leads (execTensorProduct i a b dst e s) (Keeps s) := by unfold execTensorProduct; exact slotOp_keeps ..
theorem execRelinearise_keeps (i : Issue) (a dst : Loc) (k : KeyRef) (e : ReadErr) (s : State) : Leads (execRelinearise i a dst k e s) (Keeps s) := by unfold execRelinearise; exact slotOp_keeps ..
theorem execMultiplyRelinearise_keeps (i : Issue) (a b dst : Loc) (k : KeyRef) (e : ReadErr) (s : State) : Leads (execMultiplyRelinearise i a b dst k e s) (Keeps s) := by unfold execMultiplyRelinearise; exact slotOp_keeps ..
theorem execRotate_keeps (i : Issue) (a dst : Loc) (r : Int) (k : KeyRef) (e : ReadErr) (s : State) : Leads (execRotate i a dst r k e s) (Keeps s) := by unfold execRotate; exact slotOp_keeps ..
theorem execHoistedRotate_keeps (i : Issue) (a : Loc) (outs : List (Loc × Int × Nat)) (k : KeyRef) (e : ReadErr) (s : State) : Leads (execHoistedRotate i a outs k e s) (Keeps s) := by unfold execHoistedRotate; exact slotOp_keeps ..
theorem execConjugate_keeps (i : Issue) (a dst : Loc) (k : KeyRef) (e : ReadErr) (s : State) : Leads (execConjugate i a dst k e s) (Keeps s) := by unfold execConjugate; exact slotOp_keeps ..
theorem execRescale_keeps (i : Issue) (a dst : Loc) (e : ReadErr) (s : State) : Leads (execRescale i a dst e s) (Keeps s) := by unfold execRescale; exact slotOp_keeps ..
theorem execLevelDrop_keeps (i : Issue) (a dst : Loc) (k : Nat) (e : ReadErr) (s : State) : Leads (execLevelDrop i a dst k e s) (Keeps s) := by unfold execLevelDrop; exact slotOp_keeps ..
theorem execFormConversion_keeps (i : Issue) (a dst : Loc) (toEval : Bool) (e : ReadErr) (s : State) : Leads (execFormConversion i a dst toEval e s) (Keeps s) := by unfold execFormConversion; exact slotOp_keeps ..
theorem execRepulp_keeps (i : Issue) (a : Loc) (slot : Nat) (e : ReadErr) (s : State) : Leads (execRepulp i a slot e s) (Keeps s) := by unfold execRepulp; exact slotOp_keeps ..
theorem execKeyStreamStart_keeps (i : Issue) (slot index d0 d1 l0 l1 : Nat) (group : List Nat) (s : State) : Leads (execKeyStreamStart i slot index d0 d1 l0 l1 group s) (Keeps s) := by unfold execKeyStreamStart; exact slotOp_keeps ..
theorem execAdd_keeps (i : Issue) (d a b : SReg) (s : State) : Leads (execAdd i d a b s) (Keeps s) := by unfold execAdd; exact slotOp_keeps ..
theorem execSub_keeps (i : Issue) (d a b : SReg) (s : State) : Leads (execSub i d a b s) (Keeps s) := by unfold execSub; exact slotOp_keeps ..
theorem execAnd_keeps (i : Issue) (d a b : SReg) (s : State) : Leads (execAnd i d a b s) (Keeps s) := by unfold execAnd; exact slotOp_keeps ..
theorem execOr_keeps (i : Issue) (d a b : SReg) (s : State) : Leads (execOr i d a b s) (Keeps s) := by unfold execOr; exact slotOp_keeps ..
theorem execXor_keeps (i : Issue) (d a b : SReg) (s : State) : Leads (execXor i d a b s) (Keeps s) := by unfold execXor; exact slotOp_keeps ..
theorem execShl_keeps (i : Issue) (d a b : SReg) (s : State) : Leads (execShl i d a b s) (Keeps s) := by unfold execShl; exact slotOp_keeps ..
theorem execShr_keeps (i : Issue) (d a b : SReg) (s : State) : Leads (execShr i d a b s) (Keeps s) := by unfold execShr; exact slotOp_keeps ..
theorem execSar_keeps (i : Issue) (d a b : SReg) (s : State) : Leads (execSar i d a b s) (Keeps s) := by unfold execSar; exact slotOp_keeps ..
theorem execMin_keeps (i : Issue) (d a b : SReg) (s : State) : Leads (execMin i d a b s) (Keeps s) := by unfold execMin; exact slotOp_keeps ..
theorem execMax_keeps (i : Issue) (d a b : SReg) (s : State) : Leads (execMax i d a b s) (Keeps s) := by unfold execMax; exact slotOp_keeps ..
theorem execMinu_keeps (i : Issue) (d a b : SReg) (s : State) : Leads (execMinu i d a b s) (Keeps s) := by unfold execMinu; exact slotOp_keeps ..
theorem execMaxu_keeps (i : Issue) (d a b : SReg) (s : State) : Leads (execMaxu i d a b s) (Keeps s) := by unfold execMaxu; exact slotOp_keeps ..
theorem execCmpeq_keeps (i : Issue) (d a b : SReg) (s : State) : Leads (execCmpeq i d a b s) (Keeps s) := by unfold execCmpeq; exact slotOp_keeps ..
theorem execCmplt_keeps (i : Issue) (d a b : SReg) (s : State) : Leads (execCmplt i d a b s) (Keeps s) := by unfold execCmplt; exact slotOp_keeps ..
theorem execCmpltu_keeps (i : Issue) (d a b : SReg) (s : State) : Leads (execCmpltu i d a b s) (Keeps s) := by unfold execCmpltu; exact slotOp_keeps ..
theorem execSel_keeps (i : Issue) (d a b c : SReg) (s : State) : Leads (execSel i d a b c s) (Keeps s) := by unfold execSel; exact slotOp_keeps ..
theorem execLi_keeps (i : Issue) (d : SReg) (imm : BitVec 32) (s : State) : Leads (execLi i d imm s) (Keeps s) := by unfold execLi; exact slotOp_keeps ..
theorem execLui_keeps (i : Issue) (d : SReg) (imm : BitVec 32) (s : State) : Leads (execLui i d imm s) (Keeps s) := by unfold execLui; exact slotOp_keeps ..
theorem execMul_keeps (i : Issue) (d a b : SReg) (s : State) : Leads (execMul i d a b s) (Keeps s) := by unfold execMul; exact slotOp_keeps ..
theorem execMulhu_keeps (i : Issue) (d a b : SReg) (s : State) : Leads (execMulhu i d a b s) (Keeps s) := by unfold execMulhu; exact slotOp_keeps ..
theorem execMulhs_keeps (i : Issue) (d a b : SReg) (s : State) : Leads (execMulhs i d a b s) (Keeps s) := by unfold execMulhs; exact slotOp_keeps ..
theorem execGetid_keeps (i : Issue) (d : SReg) (code : Nat) (s : State) : Leads (execGetid i d code s) (Keeps s) := by unfold execGetid; exact slotOp_keeps ..
theorem execBr_keeps (i : Issue) (dest : Nat) (s : State) : Leads (execBr i dest s) (Keeps s) := by unfold execBr; exact slotOp_keeps ..
theorem execBrz_keeps (i : Issue) (a : SReg) (dest : Nat) (s : State) : Leads (execBrz i a dest s) (Keeps s) := by unfold execBrz; exact slotOp_keeps ..
theorem execBrnz_keeps (i : Issue) (a : SReg) (dest : Nat) (s : State) : Leads (execBrnz i a dest s) (Keeps s) := by unfold execBrnz; exact slotOp_keeps ..
theorem execCall_keeps (i : Issue) (dest : Nat) (s : State) : Leads (execCall i dest s) (Keeps s) := by unfold execCall; exact slotOp_keeps ..
theorem execRet_keeps (i : Issue) (s : State) : Leads (execRet i s) (Keeps s) := by unfold execRet; exact slotOp_keeps ..
theorem execLoop_keeps (i : Issue) (n : Nat) (reg : Option SReg) (stopAt : Nat) (s : State) : Leads (execLoop i n reg stopAt s) (Keeps s) := by unfold execLoop; exact slotOp_keeps ..
theorem execLdS_keeps (i : Issue) (d : SReg) (l : Loc) (size : Nat) (signed : Bool) (s : State) : Leads (execLdS i d l size signed s) (Keeps s) := by unfold execLdS; exact slotOp_keeps ..
theorem execStS_keeps (i : Issue) (a : SReg) (l : Loc) (size : Nat) (s : State) : Leads (execStS i a l size s) (Keeps s) := by unfold execStS; exact slotOp_keeps ..
theorem execLdT_keeps (i : Issue) (t : TReg) (f : Fmt) (l : Loc) (form : TileForm) (s : State) : Leads (execLdT i t f l form s) (Keeps s) := by unfold execLdT; exact slotOp_keeps ..
theorem execStT_keeps (i : Issue) (t : TReg) (f : Fmt) (l : Loc) (form : TileForm) (s : State) : Leads (execStT i t f l form s) (Keeps s) := by unfold execStT; exact slotOp_keeps ..
theorem execSig_keeps (i : Issue) (sem k : Nat) (s : State) : Leads (execSig i sem k s) (Keeps s) := by unfold execSig; exact slotOp_keeps ..
theorem execWait_keeps (i : Issue) (sem k : Nat) (s : State) : Leads (execWait i sem k s) (Keeps s) := by unfold execWait; exact slotOp_keeps ..
theorem execBar_keeps (i : Issue) (b : Nat) (s : State) : Leads (execBar i b s) (Keeps s) := by unfold execBar; exact slotOp_keeps ..
theorem execCouch_keeps (i : Issue) (s : State) : Leads (execCouch i s) (Keeps s) := by unfold execCouch; exact slotOp_keeps ..
theorem execEndOp_keeps (i : Issue) (s : State) : Leads (execEndOp i s) (Keeps s) := by unfold execEndOp; exact slotOp_keeps ..
theorem execMmaStart_keeps (i : Issue) (m : Mma) (row col : Option SReg) (prime : Option PSel) (s : State) : Leads (execMmaStart i m row col prime s) (Keeps s) := by unfold execMmaStart; exact slotOp_keeps ..
theorem execMmaCont_keeps (i : Issue) (m : Mma) (s : State) : Leads (execMmaCont i m s) (Keeps s) := by unfold execMmaCont; exact slotOp_keeps ..
theorem execDrain_keeps (i : Issue) (d : Drain) (s : State) : Leads (execDrain i d s) (Keeps s) := by unfold execDrain; exact slotOp_keeps ..
theorem execNttF_keeps (i : Issue) (n : Ntt) (s : State) : Leads (execNttF i n s) (Keeps s) := by unfold execNttF; exact slotOp_keeps ..
theorem execNttI_keeps (i : Issue) (n : Ntt) (s : State) : Leads (execNttI i n s) (Keeps s) := by unfold execNttI; exact slotOp_keeps ..
theorem execVectorAdd_keeps (i : Issue) (v : VDst) (a b : VSrc) (s : State) : Leads (execVectorAdd i v a b s) (Keeps s) := by unfold execVectorAdd; exact slotOp_keeps ..
theorem execVectorSub_keeps (i : Issue) (v : VDst) (a b : VSrc) (s : State) : Leads (execVectorSub i v a b s) (Keeps s) := by unfold execVectorSub; exact slotOp_keeps ..
theorem execVectorMul_keeps (i : Issue) (v : VDst) (a b : VSrc) (s : State) : Leads (execVectorMul i v a b s) (Keeps s) := by unfold execVectorMul; exact slotOp_keeps ..
theorem execFma_keeps (i : Issue) (v : VDst) (a b c : VSrc) (s : State) : Leads (execFma i v a b c s) (Keeps s) := by unfold execFma; exact slotOp_keeps ..
theorem execNeg_keeps (i : Issue) (v : VDst) (a : VSrc) (s : State) : Leads (execNeg i v a s) (Keeps s) := by unfold execNeg; exact slotOp_keeps ..
theorem execAbs_keeps (i : Issue) (v : VDst) (a : VSrc) (s : State) : Leads (execAbs i v a s) (Keeps s) := by unfold execAbs; exact slotOp_keeps ..
theorem execVectorMin_keeps (i : Issue) (v : VDst) (a b : VSrc) (s : State) : Leads (execVectorMin i v a b s) (Keeps s) := by unfold execVectorMin; exact slotOp_keeps ..
theorem execVectorMax_keeps (i : Issue) (v : VDst) (a b : VSrc) (s : State) : Leads (execVectorMax i v a b s) (Keeps s) := by unfold execVectorMax; exact slotOp_keeps ..
theorem execVectorCmpeq_keeps (i : Issue) (v : VDst) (a b : VSrc) (s : State) : Leads (execVectorCmpeq i v a b s) (Keeps s) := by unfold execVectorCmpeq; exact slotOp_keeps ..
theorem execVectorCmplt_keeps (i : Issue) (v : VDst) (a b : VSrc) (s : State) : Leads (execVectorCmplt i v a b s) (Keeps s) := by unfold execVectorCmplt; exact slotOp_keeps ..
theorem execCmple_keeps (i : Issue) (v : VDst) (a b : VSrc) (s : State) : Leads (execCmple i v a b s) (Keeps s) := by unfold execCmple; exact slotOp_keeps ..
theorem execVectorSel_keeps (i : Issue) (v : VDst) (a b c : VSrc) (s : State) : Leads (execVectorSel i v a b c s) (Keeps s) := by unfold execVectorSel; exact slotOp_keeps ..
theorem execVectorAnd_keeps (i : Issue) (v : VDst) (a b : VSrc) (s : State) : Leads (execVectorAnd i v a b s) (Keeps s) := by unfold execVectorAnd; exact slotOp_keeps ..
theorem execVectorOr_keeps (i : Issue) (v : VDst) (a b : VSrc) (s : State) : Leads (execVectorOr i v a b s) (Keeps s) := by unfold execVectorOr; exact slotOp_keeps ..
theorem execVectorXor_keeps (i : Issue) (v : VDst) (a b : VSrc) (s : State) : Leads (execVectorXor i v a b s) (Keeps s) := by unfold execVectorXor; exact slotOp_keeps ..
theorem execNot_keeps (i : Issue) (v : VDst) (a : VSrc) (s : State) : Leads (execNot i v a s) (Keeps s) := by unfold execNot; exact slotOp_keeps ..
theorem execVectorShl_keeps (i : Issue) (v : VDst) (a b : VSrc) (s : State) : Leads (execVectorShl i v a b s) (Keeps s) := by unfold execVectorShl; exact slotOp_keeps ..
theorem execVectorShr_keeps (i : Issue) (v : VDst) (a b : VSrc) (s : State) : Leads (execVectorShr i v a b s) (Keeps s) := by unfold execVectorShr; exact slotOp_keeps ..
theorem execVectorSar_keeps (i : Issue) (v : VDst) (a b : VSrc) (s : State) : Leads (execVectorSar i v a b s) (Keeps s) := by unfold execVectorSar; exact slotOp_keeps ..
theorem execExp2_keeps (i : Issue) (v : VDst) (a : VSrc) (s : State) : Leads (execExp2 i v a s) (Keeps s) := by unfold execExp2; exact slotOp_keeps ..
theorem execRcp_keeps (i : Issue) (v : VDst) (a : VSrc) (s : State) : Leads (execRcp i v a s) (Keeps s) := by unfold execRcp; exact slotOp_keeps ..
theorem execRsqrt_keeps (i : Issue) (v : VDst) (a : VSrc) (s : State) : Leads (execRsqrt i v a s) (Keeps s) := by unfold execRsqrt; exact slotOp_keeps ..
theorem execAct_keeps (i : Issue) (v : VDst) (a : VSrc) (f : Act) (s : State) : Leads (execAct i v a f s) (Keeps s) := by unfold execAct; exact slotOp_keeps ..
theorem execMadd_keeps (i : Issue) (v : VDst) (a b : VSrc) (q : PSel) (s : State) : Leads (execMadd i v a b q s) (Keeps s) := by unfold execMadd; exact slotOp_keeps ..
theorem execMsub_keeps (i : Issue) (v : VDst) (a b : VSrc) (q : PSel) (s : State) : Leads (execMsub i v a b q s) (Keeps s) := by unfold execMsub; exact slotOp_keeps ..
theorem execMneg_keeps (i : Issue) (v : VDst) (a : VSrc) (q : PSel) (s : State) : Leads (execMneg i v a q s) (Keeps s) := by unfold execMneg; exact slotOp_keeps ..
theorem execMmul_keeps (i : Issue) (v : VDst) (a b : VSrc) (q : PSel) (s : State) : Leads (execMmul i v a b q s) (Keeps s) := by unfold execMmul; exact slotOp_keeps ..
theorem execMfma_keeps (i : Issue) (v : VDst) (a b c : VSrc) (q : PSel) (s : State) : Leads (execMfma i v a b c q s) (Keeps s) := by unfold execMfma; exact slotOp_keeps ..
theorem execMsubmul_keeps (i : Issue) (v : VDst) (a b c : VSrc) (q : PSel) (s : State) : Leads (execMsubmul i v a b c q s) (Keeps s) := by unfold execMsubmul; exact slotOp_keeps ..
theorem execMcentre_keeps (i : Issue) (v : VDst) (a : VSrc) (q q2 : PSel) (s : State) : Leads (execMcentre i v a q q2 s) (Keeps s) := by unfold execMcentre; exact slotOp_keeps ..
theorem execVcvt_keeps (i : Issue) (v : VDst) (a : VSrc) (df : Fmt) (q q2 : Option PSel) (sigma : Option SReg) (s : State) : Leads (execVcvt i v a df q q2 sigma s) (Keeps s) := by unfold execVcvt; exact slotOp_keeps ..
theorem execVmov_keeps (i : Issue) (d a : TReg) (s : State) : Leads (execVmov i d a s) (Keeps s) := by unfold execVmov; exact slotOp_keeps ..
theorem execVred_keeps (i : Issue) (v : VDst) (a : VSrc) (df : Fmt) (kind : Nat) (col : Bool) (q : Option PSel) (s : State) : Leads (execVred i v a df kind col q s) (Keeps s) := by unfold execVred; exact slotOp_keeps ..
theorem execXcopyMove_keeps (i : Issue) (h : CopyHead) (src dst : Mat) (slices : List Slice) (s : State) : Leads (execXcopyMove i h src dst slices s) (Keeps s) := by unfold execXcopyMove; exact slotOp_keeps ..
theorem execXcopyTranspose_keeps (i : Issue) (h : CopyHead) (src dst : Mat) (slices : List Slice) (s : State) : Leads (execXcopyTranspose i h src dst slices s) (Keeps s) := by unfold execXcopyTranspose; exact slotOp_keeps ..
theorem execXcopyGalois_keeps (i : Issue) (h : CopyHead) (src dst : Mat) (n g limbs stride : Nat) (s : State) : Leads (execXcopyGalois i h src dst n g limbs stride s) (Keeps s) := by unfold execXcopyGalois; exact slotOp_keeps ..
theorem execXcopyGather_keeps (i : Issue) (h : CopyHead) (src dst : Mat) (index : Loc) (s : State) : Leads (execXcopyGather i h src dst index s) (Keeps s) := by unfold execXcopyGather; exact slotOp_keeps ..
theorem execStrm_keeps (i : Issue) (f : Strm) (s : State) : Leads (execStrm i f s) (Keeps s) := by unfold execStrm; exact slotOp_keeps ..
theorem execStrmMark_keeps (i : Issue) (channel mark : Nat) (outbound : Bool) (s : State) : Leads (execStrmMark i channel mark outbound s) (Keeps s) := by unfold execStrmMark; exact slotOp_keeps ..
end Sys2Proof.Machine
end

