-- ==== Sys2Proof/Laws/MemoryFrame.lean ====
section
/-! SUPPORT. SRAM, HBM and the EEPROM: the shared operations that answer an outcome leave them, and so does every command but those
listed in the claim on them. -/

namespace Sys2Proof.Machine

/-- SRAM, HBM and EEPROM are the same. -/
def SameMems (s t : State) : Prop := t.mems = s.mems
theorem SameMems.trans {s t u : State} (h : SameMems s t) (k : SameMems t u) : SameMems s u := Eq.trans k h
theorem each_mems {α : Type} (s : State) (xs : List α) (f : State → α → State) (h : ∀ s x, SameMems s (f s x)) : SameMems s (s.each xs f) :=
  State.mems_each _ _ _ fun s x => h s x

/-- What an operation of a core does without storing keeps them. -/
theorem memsRel : OpRel SameMems where
  refl _ := rfl
  trans := SameMems.trans
  core _ _ _ := by simp [SameMems]
  job _ _ _ := by simp [SameMems]
  close _ _ _ _ := by simp [SameMems]
  program _ _ _ _ _ _ _ := by simp [SameMems]
  stop _ _ _ := by simp [SameMems]
  read _ _ _ _ _ _ _ _ := by simp [SameMems]
  work _ _ _ _ := by simp [SameMems]
  refresh _ _ _ _ _ := by simp [SameMems]
  stream _ _ _ _ _ := by simp [SameMems]
/-- A bundle none of whose operations stores. -/
theorem slotOp_mems (s : State) (i : Issue) (c : Instr) (hq : ∀ x ∈ (s.core i.core).staged ++ [c], slotStores x = false) :
    Leads (s.slotOp i c) (SameMems s) := memsRel.slotOp (fun s n => by simp [SameMems]) s i c hq
theorem spdmReq_mems (s : State) (p : Port) (need code : Nat) (body : Bytes) (f : State → State) (hf : ∀ s, SameMems s (f s)) :
    Leads (s.spdmReq p need code body f) (SameMems s) := by
  unfold State.spdmReq; split
  · simp [SameMems]
  split
  · simp [SameMems]
  · exact (leads_next _ _).2 (SameMems.trans (by simp [SameMems]) (hf _))
theorem spdmSigned_mems (s : State) (p : Port) (code : Nat) (body : Bytes) (f : State → State) (hf : ∀ s, SameMems s (f s)) :
    Leads (s.spdmSigned p code body f) (SameMems s) := by
  unfold State.spdmSigned; split
  · exact spdmReq_mems _ _ _ _ _ _ fun _ => rfl
  · exact spdmReq_mems _ _ _ _ _ _ hf
theorem inSession_mems (s : State) (p : Port) (id : Nat) (est : Bool) (code : Nat) (f : State → State) (hf : ∀ s, SameMems s (f s)) :
    Leads (s.inSession p id est code f) (SameMems s) := by
  unfold State.inSession; split
  · exact spdmReq_mems _ _ _ _ _ _ hf
  · exact spdmReq_mems _ _ _ _ _ _ fun _ => rfl
theorem handleCommand_mems (s : State) (p : Port) (r : Nat) (buf : Option Bytes) (first : Nat) : Leads (s.handleCommand p r buf first) (SameMems s) := by
  unfold State.handleCommand; dsimp only; (repeat' split) <;> simp [SameMems]
theorem powerCommand_mems (s : State) (p : Port) (r : Nat) (up : Bool) : Leads (s.powerCommand p r up) (SameMems s) := by
  unfold State.powerCommand; dsimp only; (repeat' split) <;> simp [SameMems]
theorem policyCommand_mems (s : State) (p : Port) (r item : Nat) (g : Bool) : Leads (s.policyCommand p r item g) (SameMems s) := by
  unfold State.policyCommand; (repeat' split) <;> simp [SameMems]
theorem execVinLow_mems (vin : Nat) (s : State) : Leads (execVinLow vin s) (SameMems s) := by
  unfold execVinLow; (repeat' split) <;> simp [SameMems]
theorem execVinInOperatingRange_mems (vin : Nat) (s : State) : Leads (execVinInOperatingRange vin s) (SameMems s) := by
  unfold execVinInOperatingRange; (repeat' split) <;> simp [SameMems]
theorem execFreeze_mems (ns : Nat) (s : State) : Leads (execFreeze ns s) (SameMems s) := by
  unfold execFreeze; (repeat' split) <;> simp [SameMems]
theorem execPwrGood_mems (moduleId : BitVec 3) (freezeN : Bool) (s : State) : Leads (execPwrGood moduleId freezeN s) (SameMems s) := by
  unfold execPwrGood; (repeat' split) <;> simp [SameMems]
theorem execMctpEventRead_mems (dev : Nat) (s : State) : Leads (execMctpEventRead s dev) (SameMems s) := by
  unfold execMctpEventRead; (repeat' split) <;> simp [SameMems]
theorem execIntegratorCapSet_mems (dev watts : Nat) (s : State) : Leads (execIntegratorCapSet watts s dev) (SameMems s) := by
  unfold execIntegratorCapSet; (repeat' split) <;> simp [SameMems]
theorem execThermalThrottleStep_mems (m : Nat) (s : State) : Leads (execThermalThrottleStep m s) (SameMems s) := by
  unfold execThermalThrottleStep; (repeat' split) <;> simp [SameMems]
theorem execThermalRecoveryStep_mems (m : Nat) (s : State) : Leads (execThermalRecoveryStep m s) (SameMems s) := by
  unfold execThermalRecoveryStep; (repeat' split) <;> simp [SameMems]
theorem execRegulatorCapStep_mems (s : State) : Leads (execRegulatorCapStep s) (SameMems s) := by
  unfold execRegulatorCapStep; (repeat' split) <;> simp [SameMems]
theorem execRegulatorCapRestore_mems (s : State) : Leads (execRegulatorCapRestore s) (SameMems s) := by
  unfold execRegulatorCapRestore; (repeat' split) <;> simp [SameMems]
theorem execSensorCalibration_mems (s : State) : Leads (execSensorCalibration s) (SameMems s) := by
  unfold execSensorCalibration; simp [SameMems]
theorem execHardwareLimiter_mems (watts : Nat) (s : State) : Leads (execHardwareLimiter watts s) (SameMems s) := by
  unfold execHardwareLimiter; (repeat' split) <;> simp [SameMems]
theorem execLimiterRelease_mems (watts : Nat) (s : State) : Leads (execLimiterRelease watts s) (SameMems s) := by
  unfold execLimiterRelease; (repeat' split) <;> simp [SameMems]
theorem execFirmwareCapEval_mems (watts ranks : Nat) (pt : CapPoint) (s : State) : Leads (execFirmwareCapEval watts ranks pt s) (SameMems s) := by
  unfold execFirmwareCapEval; dsimp only; (repeat' split) <;> simp [SameMems]
theorem execFirmwareRestore_mems (watts m : Nat) (byDuty : Bool) (s : State) : Leads (execFirmwareRestore watts m byDuty s) (SameMems s) := by
  unfold execFirmwareRestore; dsimp only; (repeat' split) <;> simp [SameMems]
theorem execDividerRampStep_mems (d : Nat) (s : State) : Leads (execDividerRampStep d s) (SameMems s) := by
  unfold execDividerRampStep; (repeat' split) <;> simp [SameMems]
theorem execRailRaised_mems (m : Nat) (s : State) : Leads (execRailRaised m s) (SameMems s) := by
  unfold execRailRaised; (repeat' split) <;> simp [SameMems]
theorem execFirmwareVerified_mems (s : State) : Leads (execFirmwareVerified s) (SameMems s) := by
  unfold execFirmwareVerified; (repeat' split) <;> simp [SameMems]
theorem execRecoveryImage_mems (img : FwImage) (s : State) : Leads (execRecoveryImage img s) (SameMems s) := by
  unfold execRecoveryImage; (repeat' split) <;> simp [SameMems]
theorem execSecurityReady_mems (s : State) : Leads (execSecurityReady s) (SameMems s) := by
  unfold execSecurityReady; (repeat' split) <;> simp [SameMems]
theorem execSvnAdvance_mems (s : State) (blown : Nat) : Leads (execSvnAdvance s blown) (SameMems s) := by
  unfold execSvnAdvance; (repeat' split) <;> simp [SameMems]
theorem execFwUpdate_mems (p : Port) (r : Nat) (img : Option FwImage) (s : State) : Leads (execFwUpdate p r img s) (SameMems s) := by
  unfold execFwUpdate; (repeat' split) <;> simp [SameMems]
theorem execFwUpdateDone_mems (p : Port) (r : Nat) (s : State) : Leads (execFwUpdateDone p r s) (SameMems s) := by
  unfold execFwUpdateDone; (repeat' split) <;> simp [SameMems]
theorem execDebugUnlock_mems (p : Port) (r : Nat) (t : Option Bytes) (c : Checks) (s : State) : Leads (execDebugUnlock p r t c s) (SameMems s) := by
  unfold execDebugUnlock; simp [SameMems]
theorem execAdminPortChange_mems (p : Port) (r : Nat) (t : Option Bytes) (c : Checks) (s : State) : Leads (execAdminPortChange p r t c s) (SameMems s) := by
  unfold execAdminPortChange; simp [SameMems]
theorem execRetire_mems (p : Port) (r : Nat) (t : Option Bytes) (c : Checks) (s : State) : Leads (execRetire p r t c s) (SameMems s) := by
  unfold execRetire; simp [SameMems]
theorem execPkeOperationDone_mems (owner : PkeOwner) (op : PkeOp) (operands : List (BitVec 8)) (arrived : List PkeReq) (s : State) :
    Leads (execPkeOperationDone owner op operands arrived s) (SameMems s) := by
  unfold execPkeOperationDone; dsimp only; (repeat' split) <;> simp [SameMems]
theorem execGetVersion_mems (p : Port) (s : State) : Leads (execGetVersion p s) (SameMems s) := by
  unfold execGetVersion; apply spdmReq_mems; intro s; simp [SameMems]
theorem execGetCapabilities_mems (p : Port) (s : State) : Leads (execGetCapabilities p s) (SameMems s) := by
  unfold execGetCapabilities; apply spdmReq_mems; intro s; simp [SameMems]
theorem execNegotiateAlgorithms_mems (p : Port) (offered : Bool) (s : State) : Leads (execNegotiateAlgorithms p offered s) (SameMems s) := by
  unfold execNegotiateAlgorithms; split <;> (apply spdmReq_mems; intro s; simp [SameMems])
theorem execGetDigests_mems (p : Port) (s : State) : Leads (execGetDigests p s) (SameMems s) := by
  unfold execGetDigests; apply spdmReq_mems; intro s; simp [SameMems]
theorem execGetCertificate_mems (p : Port) (slot : Nat) (s : State) : Leads (execGetCertificate p slot s) (SameMems s) := by
  unfold execGetCertificate; split <;> (apply spdmReq_mems; intro s; simp [SameMems])
theorem execChallenge_mems (p : Port) (slot : Nat) (nonce : Bytes) (s : State) : Leads (execChallenge p slot nonce s) (SameMems s) := by
  unfold execChallenge; dsimp only; split <;> first | (apply spdmSigned_mems; intro s; simp [SameMems]) | (apply spdmReq_mems; intro s; simp [SameMems])
theorem execGetMeasurements_mems (p : Port) (index : Nat) (nonce : Bytes) (s : State) : Leads (execGetMeasurements p index nonce s) (SameMems s) := by
  unfold execGetMeasurements; dsimp only; split <;> first | (apply spdmSigned_mems; intro s; simp [SameMems]) | (apply spdmReq_mems; intro s; simp [SameMems])
theorem execKeyExchange_mems (p : Port) (peer : Bytes) (s : State) : Leads (execKeyExchange p peer s) (SameMems s) := by
  unfold execKeyExchange; dsimp only; split <;> first | (apply spdmSigned_mems; intro s; simp [SameMems]) | (apply spdmReq_mems; intro s; simp [SameMems])
theorem execFinish_mems (p : Port) (session : Nat) (s : State) : Leads (execFinish p session s) (SameMems s) := by
  unfold execFinish; apply inSession_mems; intro s; simp [SameMems]
theorem execSpdmHeartbeat_mems (p : Port) (session : Nat) (s : State) : Leads (execSpdmHeartbeat p session s) (SameMems s) := by
  unfold execSpdmHeartbeat; apply inSession_mems; intro s; simp [SameMems]
theorem execKeyUpdate_mems (p : Port) (session : Nat) (s : State) : Leads (execKeyUpdate p session s) (SameMems s) := by
  unfold execKeyUpdate; apply inSession_mems; intro s; simp [SameMems]
theorem execEndSession_mems (p : Port) (session : Nat) (s : State) : Leads (execEndSession p session s) (SameMems s) := by
  unfold execEndSession; apply inSession_mems; intro s; simp [SameMems]
theorem execIdeKmKeyProg_mems (p : Port) (session stream : Nat) (rx : Bool) (s : State) : Leads (execIdeKmKeyProg p session stream rx s) (SameMems s) := by
  unfold execIdeKmKeyProg; split <;> first | (apply inSession_mems; intro s; simp [SameMems]) | simp [SameMems]
theorem execKSetGo_mems (p : Port) (session stream : Nat) (s : State) : Leads (execKSetGo p session stream s) (SameMems s) := by
  unfold execKSetGo; split <;> first | (apply inSession_mems; intro s; simp [SameMems]) | simp [SameMems]
theorem execPcieEqualisation_mems (_p : Port) (s : State) : Leads (execPcieEqualisation _p s) (SameMems s) := by
  unfold execPcieEqualisation; simp [SameMems]
theorem execScalarResultWritten_mems (core : Nat) (s : State) : Leads (execScalarResultWritten core s) (SameMems s) := by
  unfold execScalarResultWritten; dsimp only; (repeat' split) <;> simp [SameMems]
theorem execLoadDataDelivered_mems (core : Nat) (e : ReadErr) (s : State) : Leads (execLoadDataDelivered core e s) (SameMems s) := by
  unfold execLoadDataDelivered; dsimp only; (repeat' split) <;> simp [SameMems]
theorem execSigApplied_mems (core : Nat) (s : State) : Leads (execSigApplied core s) (SameMems s) := by
  unfold execSigApplied; dsimp only; (repeat' split) <;> simp [SameMems]
theorem execSigMessage_mems (span sem k : Nat) (s : State) (arr : Option Arrival) : Leads (execSigMessage span sem k s arr) (SameMems s) := by
  unfold execSigMessage; (repeat' split) <;> simp [SameMems]
theorem execPerstAssert_mems (p : Port) (s : State) : Leads (execPerstAssert p s) (SameMems s) := by
  unfold execPerstAssert; dsimp only; (repeat' split) <;> simp [SameMems]
theorem execPerstDeassert_mems (p : Port) (refclk : Bool) (s : State) : Leads (execPerstDeassert p s refclk) (SameMems s) := by
  unfold execPerstDeassert; (repeat' split) <;> simp [SameMems]
theorem execHotReset_mems (p : Port) (s : State) : Leads (execHotReset p s) (SameMems s) := by
  unfold execHotReset; (repeat' split) <;> simp [SameMems]
theorem execFlr_mems (p : Port) (s : State) : Leads (execFlr p s) (SameMems s) := by
  unfold execFlr; simp [SameMems]
theorem execD3hotEntry_mems (p : Port) (s : State) : Leads (execD3hotEntry p s) (SameMems s) := by
  unfold execD3hotEntry; (repeat' split) <;> simp [SameMems]
theorem execPortLinkUp_mems (p : Port) (gts width : Nat) (reversed : Bool) (polarity : BitVec 16) (s : State) : Leads (execPortLinkUp p gts width s reversed polarity) (SameMems s) := by
  unfold execPortLinkUp; (repeat' split) <;> simp [SameMems]
theorem execClockMonitorWindow_mems (ref : Source) (count : Nat) (s : State) : Leads (execClockMonitorWindow count s ref) (SameMems s) := by
  unfold execClockMonitorWindow; (repeat' split) <;> simp [SameMems]
theorem execReferenceEdgeTimeout_mems (ref : Source) (s : State) : Leads (execReferenceEdgeTimeout s ref) (SameMems s) := by
  unfold execReferenceEdgeTimeout; (repeat' split) <;> simp [SameMems]
theorem execPllRelock_mems (s : State) : Leads (execPllRelock s) (SameMems s) := by
  unfold execPllRelock; (repeat' split) <;> simp [SameMems]
theorem execSysrefQualified_mems (s : State) : Leads (execSysrefQualified s) (SameMems s) := by
  unfold execSysrefQualified; (repeat' split) <;> simp [SameMems]
theorem execCrystalRecovered_mems (s : State) : Leads (execCrystalRecovered s) (SameMems s) := by
  unfold execCrystalRecovered; (repeat' split) <;> simp [SameMems]
theorem execFmcStart_mems (p : Port) (v : Reg) (s : State) : Leads (execFmcStart p v s) (SameMems s) := by
  unfold execFmcStart; (repeat' split) <;> simp [SameMems]
theorem execFmcDone_mems (p : Port) (count : Nat) (stopped : Bool) (s : State) : Leads (execFmcDone p count stopped s) (SameMems s) := by
  unfold execFmcDone; (repeat' split) <;> simp [SameMems]
theorem execEssArm_mems (p : Port) (v : Reg) (s : State) : Leads (execEssArm p v s) (SameMems s) := by
  unfold execEssArm; simp [SameMems]
theorem execEssArmLapse_mems (p : Port) (s : State) : Leads (execEssArmLapse p s) (SameMems s) := by
  unfold execEssArmLapse; (repeat' split) <;> simp [SameMems]
theorem execEssKill_mems (p : Port) (v : Reg) (s : State) : Leads (execEssKill p v s) (SameMems s) := by
  unfold execEssKill; simp [SameMems]
theorem execEssFlr_mems (p : Port) (v : Reg) (s : State) : Leads (execEssFlr p v s) (SameMems s) := by
  unfold execEssFlr; simp [SameMems]
theorem execHeartbeat_mems (s : State) : Leads (execHeartbeat s) (SameMems s) := by
  unfold execHeartbeat; (repeat' split) <;> simp [SameMems]
theorem execHbStale_mems (us : Nat) (s : State) : Leads (execHbStale us s) (SameMems s) := by
  unfold execHbStale; (repeat' split) <;> simp [SameMems]
theorem execFusesSensed_mems (s : State) : Leads (execFusesSensed s) (SameMems s) := by
  unfold execFusesSensed; (repeat' split) <;> simp [SameMems]
theorem execEepromFieldsRead_mems (readable : Bool) (s : State) : Leads (execEepromFieldsRead readable s) (SameMems s) := by
  unfold execEepromFieldsRead; (repeat' split) <;> simp [SameMems]
theorem execConfigSpaceReady_mems (p : Port) (s : State) : Leads (execConfigSpaceReady p s) (SameMems s) := by
  unfold execConfigSpaceReady; (repeat' split) <;> simp [SameMems]
theorem execMillSramReady_mems (m : Nat) (badGroups : List Nat) (s : State) : Leads (execMillSramReady m badGroups s) (SameMems s) := by
  unfold execMillSramReady; (repeat' split) <;> simp [SameMems]
theorem execMillCoresReady_mems (m : Nat) (badSlots : List Nat) (s : State) : Leads (execMillCoresReady m badSlots s) (SameMems s) := by
  unfold execMillCoresReady; (repeat' split) <;> simp [SameMems]
theorem execHbmReady_mems (st : Nat) (trained : Bool) (data cmd : List (Nat × Nat)) (s : State) : Leads (execHbmReady st trained data cmd s) (SameMems s) := by
  unfold execHbmReady; dsimp only; (repeat' split) <;> simp [SameMems]
theorem execFirmwareRestarted_mems (s : State) : Leads (execFirmwareRestarted s) (SameMems s) := by
  unfold execFirmwareRestarted; (repeat' split) <;> simp [SameMems]
theorem execMmaLastResult_mems (core : Nat) (o : OBuf) (e : EngCheck) (s : State) : Leads (execMmaLastResult core o e s) (SameMems s) := by
  unfold execMmaLastResult; dsimp only; (repeat' split) <;> simp [SameMems]
theorem execNttLimbWritten_mems (core : Nat) (e : EngCheck) (s : State) : Leads (execNttLimbWritten core e s) (SameMems s) := by
  unfold execNttLimbWritten; dsimp only; (repeat' split) <;> simp [SameMems]
theorem execVectorResultWritten_mems (core : Nat) (e : EngCheck) (s : State) : Leads (execVectorResultWritten core e s) (SameMems s) := by
  unfold execVectorResultWritten; dsimp only; (repeat' split) <;> simp [SameMems]
theorem execXcopyStagingGranted_mems (core : Nat) (queue : BitVec 1) (s : State) : Leads (execXcopyStagingGranted core queue s) (SameMems s) := by
  unfold execXcopyStagingGranted; dsimp only; (repeat' split) <;> simp [SameMems]
theorem execXcRaceSeenWrite_mems (p : Port) (v : Reg) (s : State) : Leads (execXcRaceSeenWrite p v s) (SameMems s) := by
  unfold execXcRaceSeenWrite; (repeat' split) <;> simp [SameMems]
theorem execAtsTranslationCompletion_mems (p : Port) (pasid page : Nat) (x : Option Xlat) (s : State) : Leads (execAtsTranslationCompletion p pasid page x s) (SameMems s) := by
  unfold execAtsTranslationCompletion; dsimp only; (repeat' split) <;> simp [SameMems]
theorem execPageRequest_mems (p : Port) (pasid page : Nat) (s : State) : Leads (execPageRequest p pasid page s) (SameMems s) := by
  unfold execPageRequest; dsimp only; (repeat' split) <;> simp [SameMems]
theorem execPageResponse_mems (p : Port) (pasid page : Nat) (r : PageResp) (s : State) : Leads (execPageResponse p pasid page r s) (SameMems s) := by
  unfold execPageResponse; dsimp only; (repeat' split) <;> simp [SameMems]
theorem execPageTimeout_mems (j : Nat) (stream : Option (Nat × Nat)) (s : State) (ring : Option (Port × Nat)) : Leads (execPageTimeout j stream s ring) (SameMems s) := by
  unfold execPageTimeout; (repeat' split) <;> simp [SameMems]
theorem execAtsInvalidation_mems (p : Port) (pasid page len : Nat) (s : State) : Leads (execAtsInvalidation p pasid page len s) (SameMems s) := by
  unfold execAtsInvalidation; (repeat' split) <;> simp [SameMems]
theorem execPriReset_mems (p : Port) (ats pri pasid : Bool) (alloc : Nat) (s : State) : Leads (execPriReset p ats pri pasid s alloc) (SameMems s) := by
  unfold execPriReset; (repeat' split) <;> simp [SameMems]
theorem execKeyIngest_mems (p : Port) (r : Nat) (src : Option Bytes) (s : State) : Leads (execKeyIngest p r src s) (SameMems s) := by
  unfold execKeyIngest; (repeat' split) <;> simp [SameMems]
theorem execKeyringIncomplete_mems (p : Port) (r : Nat) (s : State) : Leads (execKeyringIncomplete p r s) (SameMems s) := by
  unfold execKeyringIncomplete; (repeat' split) <;> simp [SameMems]
theorem execKeySelfcheck_mems (p : Port) (r : Nat) (ok : Bool) (s : State) (written : Nat) : Leads (execKeySelfcheck p r ok s written) (SameMems s) := by
  unfold execKeySelfcheck; dsimp only; (repeat' split) <;> simp [SameMems]
theorem execKeyBlockAcknowledged_mems (m stream core : Nat) (e : HbCheck) (s : State) : Leads (execKeyBlockAcknowledged m stream core e s) (SameMems s) := by
  unfold execKeyBlockAcknowledged; (repeat' split) <;> simp [SameMems]
theorem execPassRequest_mems (link src : Nat) (keyset : Bytes) (index d0 d1 : Nat) (s : State) (arr : Option Arrival) : Leads (execPassRequest link src keyset index d0 d1 s arr) (SameMems s) := by
  unfold execPassRequest; (repeat' split) <;> simp [SameMems]
theorem execKeyMessage_mems (link : Nat) (h : FlitHdr) (keyset : Bytes) (payload : Bytes) (s : State) (line : FlitLine) (cls : Nat) : Leads (execKeyMessage link h keyset payload s line cls) (SameMems s) := by
  unfold execKeyMessage; (repeat' split) <;> simp [SameMems]
theorem execHandleMap_mems (p : Port) (r : Nat) (buf : Option Bytes) (s : State) : Leads (execHandleMap p r buf s) (SameMems s) := by unfold execHandleMap; exact handleCommand_mems ..
theorem execHandleUnmap_mems (p : Port) (r : Nat) (buf : Option Bytes) (s : State) : Leads (execHandleUnmap p r buf s) (SameMems s) := by unfold execHandleUnmap; exact handleCommand_mems ..
theorem execWindowOpen_mems (p : Port) (r : Nat) (buf : Option Bytes) (s : State) : Leads (execWindowOpen p r buf s) (SameMems s) := by unfold execWindowOpen; exact handleCommand_mems ..
theorem execWindowClose_mems (p : Port) (r : Nat) (buf : Option Bytes) (s : State) : Leads (execWindowClose p r buf s) (SameMems s) := by unfold execWindowClose; exact handleCommand_mems ..
theorem execBankPowerDown_mems (p : Port) (r : Nat) (s : State) : Leads (execBankPowerDown p r s) (SameMems s) := by unfold execBankPowerDown; exact powerCommand_mems ..
theorem execBankPowerUp_mems (p : Port) (r : Nat) (s : State) : Leads (execBankPowerUp p r s) (SameMems s) := by unfold execBankPowerUp; exact powerCommand_mems ..
theorem execBankGroupDark_mems (m g : Nat) (s : State) : Leads (execBankGroupDark m g s) (SameMems s) := by
  unfold execBankGroupDark; dsimp only; (repeat' split) <;> simp [SameMems]
theorem execBankGroupOff_mems (m g : Nat) (s : State) : Leads (execBankGroupOff m g s) (SameMems s) := by
  unfold execBankGroupOff; (repeat' split) <;> simp [SameMems]
theorem execEvacuationDone_mems (m g : Nat) (ok : Bool) (s : State) : Leads (execEvacuationDone m g ok s) (SameMems s) := by
  unfold execEvacuationDone; dsimp only; (repeat' split) <;> simp [SameMems]
theorem execReleaseComplete_mems (j n : Nat) (e : ReadErr) (s : State) : Leads (execReleaseComplete j s n e) (SameMems s) := by
  unfold execReleaseComplete; dsimp only; (repeat' split) <;> simp [SameMems]
theorem execGrant_mems (span stream credits : Nat) (s : State) (arr : Option Arrival) : Leads (execGrant span stream credits s arr) (SameMems s) := by
  unfold execGrant; (repeat' split) <;> simp [SameMems]
theorem execSelftestCore_mems (p : Port) (r : Nat) (s : State) : Leads (execSelftestCore p r s) (SameMems s) := by
  unfold execSelftestCore; dsimp only; (repeat' split) <;> simp [SameMems]
theorem execSelftestModule_mems (p : Port) (r : Nat) (s : State) : Leads (execSelftestModule p r s) (SameMems s) := by
  unfold execSelftestModule; (repeat' split) <;> simp [SameMems]
theorem execSelftestTurn_mems (m : Nat) (s : State) : Leads (execSelftestTurn m s) (SameMems s) := by
  unfold execSelftestTurn; (repeat' split) <;> simp [SameMems]
theorem execJtagAccess_mems (t : JtagTarget) (trstN : Bool) (s : State) : Leads (execJtagAccess t s trstN) (SameMems s) := by
  unfold execJtagAccess; (repeat' split) <;> simp [SameMems]
theorem execRoleFoldComplete_mems (j : Nat) (s : State) : Leads (execRoleFoldComplete j s) (SameMems s) := by
  unfold execRoleFoldComplete; (repeat' split) <;> simp [SameMems]
theorem execRepulpTableBuilt_mems (i : Nat) (s : State) : Leads (execRepulpTableBuilt i s) (SameMems s) := by
  unfold execRepulpTableBuilt; (repeat' split) <;> simp [SameMems]
theorem execDecisionTimeout_mems (span : Nat) (s : State) : Leads (execDecisionTimeout span s) (SameMems s) := by
  unfold execDecisionTimeout; (repeat' split) <;> simp [SameMems]
theorem execDecisionRequest_mems (span m seq : Nat) (s : State) (arr : Option Arrival) : Leads (execDecisionRequest span m seq s arr) (SameMems s) := by
  unfold execDecisionRequest; (repeat' split) <;> simp [SameMems]
theorem execStart_mems (span tick hops : Nat) (agree : Bool) (s : State) (arr : Option Arrival) : Leads (execStart span tick hops agree s arr) (SameMems s) := by
  unfold execStart; (repeat' split) <;> simp [SameMems]
theorem execSpanSubmitTimeout_mems (span : Nat) (s : State) : Leads (execSpanSubmitTimeout span s) (SameMems s) := by
  unfold execSpanSubmitTimeout; (repeat' split) <;> simp [SameMems]
theorem execStop_mems (span cause : Nat) (s : State) (arr : Option Arrival) : Leads (execStop span cause s arr) (SameMems s) := by
  unfold execStop; (repeat' split) <;> simp [SameMems]
theorem execReamBoundary_mems (s : State) : Leads (execReamBoundary s) (SameMems s) := by
  unfold execReamBoundary; (repeat' split) <;> simp [SameMems]
theorem execScheduleOverrun_mems (j : Nat) (s : State) : Leads (execScheduleOverrun j s) (SameMems s) := by
  unfold execScheduleOverrun; (repeat' split) <;> simp [SameMems]
theorem execTickMessageSend_mems (s : State) : Leads (execTickMessageSend s) (SameMems s) := by
  unfold execTickMessageSend; (repeat' split) <;> simp [SameMems]
theorem execCorrectionStorm_mems (r : StormRes) (n : Nat) (s : State) : Leads (execCorrectionStorm r n s) (SameMems s) := by
  unfold execCorrectionStorm; (repeat' split) <;> simp [SameMems]
theorem execPcRetrain_mems (pc : Nat) (s : State) : Leads (execPcRetrain pc s) (SameMems s) := by
  unfold execPcRetrain; dsimp only; (repeat' split) <;> simp [SameMems]
theorem execPcRetrainDone_mems (pc data cmd : Nat) (s : State) : Leads (execPcRetrainDone pc data cmd s) (SameMems s) := by
  unfold execPcRetrainDone; dsimp only; (repeat' split) <;> simp [SameMems]
theorem execSelfRefreshIdle_mems (st : Nat) (s : State) : Leads (execSelfRefreshIdle st s) (SameMems s) := by
  unfold execSelfRefreshIdle; (repeat' split) <;> simp [SameMems]
theorem execJobCreate_mems (p : Port) (r : Nat) (s : State) : Leads (execJobCreate p r s) (SameMems s) := by
  unfold execJobCreate; dsimp only; (repeat' split) <;> simp [SameMems]
theorem execJobKill_mems (p : Port) (r : Nat) (s : State) : Leads (execJobKill p r s) (SameMems s) := by
  unfold execJobKill; (repeat' split) <;> simp [SameMems]
theorem execJobWiped_mems (j : Nat) (s : State) : Leads (execJobWiped j s) (SameMems s) := by
  unfold execJobWiped; (repeat' split) <;> simp [SameMems]
theorem execSubmit_mems (p : Port) (r : Nat) (s : State) : Leads (execSubmit p r s) (SameMems s) := by
  unfold execSubmit; dsimp only; (repeat' split) <;> simp [SameMems]
theorem execPolicySetPeriod_mems (p : Port) (r : Nat) (s : State) (groupJobs : Bool) : Leads (execPolicySetPeriod p r s groupJobs) (SameMems s) := by unfold execPolicySetPeriod; exact policyCommand_mems ..
theorem execPolicySetReam_mems (p : Port) (r : Nat) (s : State) : Leads (execPolicySetReam p r s) (SameMems s) := by unfold execPolicySetReam; exact policyCommand_mems ..
theorem execPolicySetTimeout_mems (p : Port) (r : Nat) (s : State) : Leads (execPolicySetTimeout p r s) (SameMems s) := by unfold execPolicySetTimeout; exact policyCommand_mems ..
theorem execPolicySetSelftestInterval_mems (p : Port) (r : Nat) (s : State) : Leads (execPolicySetSelftestInterval p r s) (SameMems s) := by unfold execPolicySetSelftestInterval; exact policyCommand_mems ..
theorem execPolicySetAdminCap_mems (p : Port) (r : Nat) (s : State) : Leads (execPolicySetAdminCap p r s) (SameMems s) := by unfold execPolicySetAdminCap; exact policyCommand_mems ..
theorem execPolicySetAdmission_mems (p : Port) (r : Nat) (s : State) : Leads (execPolicySetAdmission p r s) (SameMems s) := by unfold execPolicySetAdmission; exact policyCommand_mems ..
theorem execPolicySetQuota_mems (p : Port) (r : Nat) (s : State) : Leads (execPolicySetQuota p r s) (SameMems s) := by unfold execPolicySetQuota; exact policyCommand_mems ..
theorem execClockReselect_mems (p : Port) (r : Nat) (s : State) : Leads (execClockReselect p r s) (SameMems s) := by unfold execClockReselect; exact policyCommand_mems ..
theorem execLinkRoute_mems (p : Port) (r : Nat) (buf : Option Bytes) (s : State) : Leads (execLinkRoute p r buf s) (SameMems s) := by
  unfold execLinkRoute; dsimp only; (repeat' split) <;> simp [SameMems]
theorem execLinkTrained_mems (k : Nat) (lanes polarity : BitVec 5) (peer peerLink delay : Nat) (peerEncrypt : Bool) (s : State) : Leads (execLinkTrained k lanes peer peerLink delay peerEncrypt s polarity) (SameMems s) := by
  unfold execLinkTrained; (repeat' split) <;> simp [SameMems]
theorem execLinkTrainingRetry_mems (k : Nat) (s : State) : Leads (execLinkTrainingRetry k s) (SameMems s) := by
  unfold execLinkTrainingRetry; (repeat' split) <;> simp [SameMems]
theorem execLaneRecalibration_mems (k lane : Nat) (ok : Bool) (s : State) (begins : Bool) : Leads (execLaneRecalibration k lane ok s begins) (SameMems s) := by
  unfold execLaneRecalibration; (repeat' split) <;> simp [SameMems]
theorem execLaneRetired_mems (k lane corrections : Nat) (s : State) : Leads (execLaneRetired k lane corrections s) (SameMems s) := by
  unfold execLaneRetired; (repeat' split) <;> simp [SameMems]
theorem execLinkRetryExhausted_mems (k resent quietUs : Nat) (s : State) : Leads (execLinkRetryExhausted k resent quietUs s) (SameMems s) := by
  unfold execLinkRetryExhausted; (repeat' split) <;> simp [SameMems]
theorem execLinkRetrainDone_mems (k : Nat) (ok : Bool) (s : State) (found : Option Training) (lost : List Nat) : Leads (execLinkRetrainDone k ok s found lost) (SameMems s) := by
  unfold execLinkRetrainDone; (repeat' split) <;> simp [SameMems]
theorem execNak_mems (k seq : Nat) (s : State) : Leads (execNak k seq s) (SameMems s) := by
  unfold execNak; (repeat' split) <;> simp [SameMems]
theorem execIdle_mems (k : Nat) (h : FlitHdr) (s : State) (line : FlitLine) : Leads (execIdle k h s line) (SameMems s) := by
  unfold execIdle; (repeat' split) <;> simp [SameMems]
theorem execDataFlit_mems (k : Nat) (h : FlitHdr) (payload : Bytes) (good auth : Bool) (s : State) (line : FlitLine) (cls : Nat) : Leads (execDataFlit k h payload good auth s line cls) (SameMems s) := by
  unfold execDataFlit; (repeat' split) <;> simp [SameMems]
theorem execTickMessage_mems (k tickNo period hops delay : Nat) (s : State) (arr : Option Arrival) : Leads (execTickMessage k tickNo period hops delay s arr) (SameMems s) := by
  unfold execTickMessage; (repeat' split) <;> simp [SameMems]
theorem execMasterLost_mems (reachable : List Nat) (s : State) : Leads (execMasterLost reachable s) (SameMems s) := by
  unfold execMasterLost; (repeat' split) <;> simp [SameMems]
theorem execPing_mems (k stamp : Nat) (s : State) (arr : Option Arrival) : Leads (execPing k stamp s arr) (SameMems s) := by
  unfold execPing; (repeat' split) <;> simp [SameMems]
theorem execPong_mems (k delay : Nat) (s : State) (arr : Option Arrival) : Leads (execPong k delay s arr) (SameMems s) := by
  unfold execPong; (repeat' split) <;> simp [SameMems]
theorem execDelayMeasurement_mems (s : State) : Leads (execDelayMeasurement s) (SameMems s) := by
  unfold execDelayMeasurement; (repeat' split) <;> simp [SameMems]
theorem execLinkRekey_mems (k : Nat) (s : State) : Leads (execLinkRekey k s) (SameMems s) := by
  unfold execLinkRekey; dsimp only; (repeat' split) <;> simp [SameMems]
theorem execLinkAuthDown_mems (k failures : Nat) (s : State) : Leads (execLinkAuthDown k failures s) (SameMems s) := by
  unfold execLinkAuthDown; (repeat' split) <;> simp [SameMems]
theorem execDoorbell_mems (p : Port) (r : Nat) (v : Reg) (s : State) : Leads (execDoorbell p r v s) (SameMems s) := by
  unfold execDoorbell; (repeat' split) <;> simp [SameMems]
theorem execCqHeadWrite_mems (p : Port) (r : Nat) (v : Reg) (s : State) : Leads (execCqHeadWrite p r v s) (SameMems s) := by
  unfold execCqHeadWrite; (repeat' split) <;> simp [SameMems]
theorem execRingEnable_mems (p : Port) (r : Nat) (v : Reg) (s : State) : Leads (execRingEnable p r v s) (SameMems s) := by
  unfold execRingEnable; (repeat' split) <;> simp [SameMems]
theorem execRingDisable_mems (p : Port) (r : Nat) (v : Reg) (s : State) : Leads (execRingDisable p r v s) (SameMems s) := by
  unfold execRingDisable; (repeat' split) <;> simp [SameMems]
theorem execEvEnable_mems (p : Port) (v : Reg) (s : State) : Leads (execEvEnable p v s) (SameMems s) := by
  unfold execEvEnable; (repeat' split) <;> simp [SameMems]
theorem execEvHeadWrite_mems (p : Port) (v : Reg) (s : State) : Leads (execEvHeadWrite p v s) (SameMems s) := by
  unfold execEvHeadWrite; (repeat' split) <;> simp [SameMems]
theorem execCommandFetch_mems (p : Port) (r : Nat) (bytes : Bytes) (s : State) : Leads (execCommandFetch p r bytes s) (SameMems s) := by
  unfold execCommandFetch; dsimp only; (repeat' split) <;> simp [SameMems]
theorem execQueryPrimes_mems (p : Port) (r : Nat) (ok : Bool) (s : State) (written : Nat) : Leads (execQueryPrimes p r ok s written) (SameMems s) := by
  unfold execQueryPrimes; (repeat' split) <;> simp [SameMems]
theorem execQueryParamset_mems (p : Port) (r : Nat) (ok : Bool) (s : State) (written : Nat) : Leads (execQueryParamset p r ok s written) (SameMems s) := by
  unfold execQueryParamset; (repeat' split) <;> simp [SameMems]
theorem execQueryReady_mems (p : Port) (r : Nat) (ok : Bool) (s : State) (written : Nat) : Leads (execQueryReady p r ok s written) (SameMems s) := by
  unfold execQueryReady; (repeat' split) <;> simp [SameMems]
theorem execEventRecordPost_mems (p : Port) (s : State) : Leads (execEventRecordPost p s) (SameMems s) := by
  unfold execEventRecordPost; dsimp only; (repeat' split) <;> simp [SameMems]
theorem execSnapCtrlWrite_mems (p : Port) (v : Reg) (s : State) : Leads (execSnapCtrlWrite p v s) (SameMems s) := by
  unfold execSnapCtrlWrite; (repeat' split) <;> simp [SameMems]
theorem execStatsSnapshot_mems (p : Port) (r : Nat) (s : State) : Leads (execStatsSnapshot p r s) (SameMems s) := by
  unfold execStatsSnapshot; (repeat' split) <;> simp [SameMems]
theorem execSnapshotFilled_mems (p : Port) (s : State) : Leads (execSnapshotFilled p s) (SameMems s) := by
  unfold execSnapshotFilled; dsimp only; (repeat' split) <;> simp [SameMems]
theorem execErrStatusWrite_mems (p : Port) (v : Reg) (s : State) : Leads (execErrStatusWrite p v s) (SameMems s) := by
  unfold execErrStatusWrite; (repeat' split) <;> simp [SameMems]
theorem execErrrecValidWrite_mems (p : Port) (hi : Bool) (v : Reg) (s : State) : Leads (execErrrecValidWrite p hi v s) (SameMems s) := by
  unfold execErrrecValidWrite; (repeat' split) <;> simp [SameMems]
theorem execMsixUnmask_mems (p : Port) (vector : Nat) (s : State) : Leads (execMsixUnmask p vector s) (SameMems s) := by
  unfold execMsixUnmask; (repeat' split) <;> simp [SameMems]
theorem execBusError_mems (p : Port) (off : Nat) (q : Req) (s : State) (data : List Reg) : Leads (execBusError p off q s data) (SameMems s) := by
  unfold execBusError; dsimp only; (repeat' split) <;> simp [SameMems]
theorem execBar2Read_mems (p : Port) (off len : Nat) (e : ReadErr) (s : State) : Leads (execBar2Read p off len e s) (SameMems s) := by
  unfold execBar2Read; (repeat' split) <;> simp [SameMems]
end Sys2Proof.Machine
end

