-- ==== Sys2Proof/Laws/Ticks.lean ====
section
/-! SUPPORT. The shared operations that leave the tick number and the sheet period as they are. -/

namespace Sys2Proof.Machine

/-- The number of the next tick, the sheet period in use, and the one set for the next tick. -/
def State.ticks (s : State) : Nat × Nat × Nat := (s.tick, s.period, s.periodNext)
@[simp] theorem State.ticks_mk (x_pins : Pins) (x_clk : Clk) (x_mills : Tbl Mill) (x_hbms : Tbl Stack) (x_boot : Boot) (x_sec : Sec) (x_grade : Grade) (x_ready : BitVec 64) (x_portA : PortSt) (x_portB : PortSt) (x_eeprom : Mem) (x_period : Nat) (x_periodNext : Nat) (x_periodSet : Bool) (x_reamLen : Nat) (x_reamNext : Nat) (x_sheetInReam : Nat) (x_boundary : Option (Tbl Nat)) (x_reamOn : Bool) (x_ticking : Bool) (x_tick : Nat) (x_reams : BitVec 32) (x_timeoutMs : Nat) (x_selftestHours : Nat) (x_admitA : Bool) (x_admitB : Bool) (x_quotaJobs : Nat) (x_quotaCores : Nat) (x_adminPort : Port) (x_admissions : Nat) (x_jobs : Tbl (Option Job)) (x_cores : Tbl CoreSt) (x_groups : Tbl Group) (x_sparesUsed : Tbl Nat) (x_units : Tbl HUnit) (x_sram : Mem) (x_hbm : Mem) (x_hbmTag : Tbl Nat) (x_headboxes : Tbl Headbox) (x_ingest : Option Ingest) (x_ingestQ : List IngestWait) (x_ingestLast : Port) (x_passes : List Pass) (x_building : List Nat) (x_tableUnits : Tbl (List Nat)) (x_xcOrder : Nat) (x_links : Tbl Link) (x_route : Option Route) (x_spans : Tbl Span) (x_tickGroup : TickGroup) (x_ctr : Tbl Nat) (x_ream : Tbl Nat) (x_pcStorm : Tbl (Option Nat)) (x_pcTag : Tbl (Option Nat)) (x_stests : Tbl STest) (x_modTest : Option ModTest) (x_freeCtr : Nat) (x_out : List Out) (x_pending : List Instr) :
    (State.mk x_pins x_clk x_mills x_hbms x_boot x_sec x_grade x_ready x_portA x_portB x_eeprom x_period x_periodNext x_periodSet x_reamLen x_reamNext x_sheetInReam x_boundary x_reamOn x_ticking x_tick x_reams x_timeoutMs x_selftestHours x_admitA x_admitB x_quotaJobs x_quotaCores x_adminPort x_admissions x_jobs x_cores x_groups x_sparesUsed x_units x_sram x_hbm x_hbmTag x_headboxes x_ingest x_ingestQ x_ingestLast x_passes x_building x_tableUnits x_xcOrder x_links x_route x_spans x_tickGroup x_ctr x_ream x_pcStorm x_pcTag x_stests x_modTest x_freeCtr x_out x_pending).ticks = (x_tick, x_period, x_periodNext) := rfl
@[simp] theorem State.ticks_eta (s : State) : (s.tick, s.period, s.periodNext) = s.ticks := rfl
@[simp] theorem State.ticks_ite (c : Prop) [Decidable c] (a b : State) : (if c then a else b).ticks = if c then a.ticks else b.ticks := by split <;> rfl
@[simp] theorem State.ticks_foldl {α : Type} (f : State → α → State) (h : ∀ s x, (f s x).ticks = s.ticks) (xs : List α) (s : State) :
    (xs.foldl f s).ticks = s.ticks := by
  induction xs generalizing s with
  | nil => rfl
  | cons x xs ih => rw [List.foldl_cons, ih, h]
@[simp] theorem State.ticks_each {α : Type} (s : State) (xs : List α) (f : State → α → State) (h : ∀ s x, (f s x).ticks = s.ticks) :
    (s.each xs f).ticks = s.ticks := State.ticks_foldl f h xs s
@[simp] theorem State.ticks_onPorts (s : State) (f : State → Port → State) (h : ∀ s x, (f s x).ticks = s.ticks) :
    (s.onPorts f).ticks = s.ticks := by simp [State.onPorts, h]
@[simp] theorem State.setPort_ticks (s : State) (p : Port) (x : PortSt) : (State.setPort s p x).ticks = s.ticks := by
  unfold State.setPort; (repeat' split) <;> simp
@[simp] theorem State.modPort_ticks (s : State) (p : Port) (f : PortSt → PortSt) : (State.modPort s p f).ticks = s.ticks := by
  unfold State.modPort; simp
@[simp] theorem State.setJob_ticks (s : State) (j : Nat) (x : Option Job) : (State.setJob s j x).ticks = s.ticks := by rfl
@[simp] theorem State.modJob_ticks (s : State) (j : Nat) (f : Job → Job) : (State.modJob s j f).ticks = s.ticks := by
  unfold State.modJob; (repeat' split) <;> simp
@[simp] theorem State.setCore_ticks (s : State) (n : Nat) (x : CoreSt) : (State.setCore s n x).ticks = s.ticks := by rfl
@[simp] theorem State.modCore_ticks (s : State) (n : Nat) (f : CoreSt → CoreSt) : (State.modCore s n f).ticks = s.ticks := by rfl
@[simp] theorem State.setMill_ticks (s : State) (m : Nat) (x : Mill) : (State.setMill s m x).ticks = s.ticks := by rfl
@[simp] theorem State.modMill_ticks (s : State) (m : Nat) (f : Mill → Mill) : (State.modMill s m f).ticks = s.ticks := by rfl
@[simp] theorem State.modStack_ticks (s : State) (k : Nat) (f : Stack → Stack) : (State.modStack s k f).ticks = s.ticks := by rfl
@[simp] theorem State.modGroup_ticks (s : State) (x : Nat) (f : Group → Group) : (State.modGroup s x f).ticks = s.ticks := by rfl
@[simp] theorem State.modUnit_ticks (s : State) (x : Nat) (f : HUnit → HUnit) : (State.modUnit s x f).ticks = s.ticks := by rfl
@[simp] theorem State.modHeadbox_ticks (s : State) (m : Nat) (f : Headbox → Headbox) : (State.modHeadbox s m f).ticks = s.ticks := by rfl
@[simp] theorem State.modStest_ticks (s : State) (m : Nat) (f : STest → STest) : (State.modStest s m f).ticks = s.ticks := by rfl
@[simp] theorem State.setRing_ticks (s : State) (p : Port) (r : Nat) (x : Ring) : (State.setRing s p r x).ticks = s.ticks := by
  unfold State.setRing; simp
@[simp] theorem State.draw_ticks (s : State) : (State.draw s).2.ticks = s.ticks := by rfl
@[simp] theorem State.emit_ticks (s : State) (o : Out) : (State.emit s o).ticks = s.ticks := by rfl
@[simp] theorem State.bump_ticks (s : State) (key n : Nat) : (State.bump s key n).ticks = s.ticks := by
  unfold State.bump; simp
@[simp] theorem State.work_ticks (s : State) (n i amount : Nat) : (State.work s n i amount).ticks = s.ticks := by
  unfold State.work; simp
@[simp] theorem State.raise_ticks (s : State) (p : Port) (v : Nat) : (State.raise s p v).ticks = s.ticks := by
  unfold State.raise; simp
@[simp] theorem State.post_ticks (s : State) (p : Port) (e : EvRec) : (State.post s p e).ticks = s.ticks := by
  unfold State.post; simp
@[simp] theorem State.moduleEvent_ticks (s : State) (p : Port) (code value : Nat) : (State.moduleEvent s p code value).ticks = s.ticks := by
  unfold State.moduleEvent; simp
@[simp] theorem State.noteCause_ticks (s : State) (code : Nat) : (State.noteCause s code).ticks = s.ticks := by rfl
@[simp] theorem State.moduleEvents_ticks (s : State) (code value : Nat) : (State.moduleEvents s code value).ticks = s.ticks := by rfl
@[simp] theorem State.mctpEvent_ticks (s : State) (code : Nat) : (State.mctpEvent s code).ticks = s.ticks := by rfl
@[simp] theorem State.jobEvent_ticks (s : State) (j type code units : Nat) (body : Bytes) (tick : Option Nat) : (State.jobEvent s j type code units body tick).ticks = s.ticks := by
  unfold State.jobEvent; (repeat' split) <;> simp
@[simp] theorem State.readyChanged_ticks (s : State) : (State.readyChanged s).ticks = s.ticks := by
  unfold State.readyChanged; simp
@[simp] theorem State.setReady_ticks (s : State) (i : Nat) (v : Bool) : (State.setReady s i v).ticks = s.ticks := by
  unfold State.setReady; simp
@[simp] theorem State.logErr_ticks (s : State) (p : Port) (off bar : Nat) (write : Bool) (kind : Nat) : (State.logErr s p off bar write kind).ticks = s.ticks := by
  unfold State.logErr; simp
@[simp] theorem State.putRec_ticks (s : State) (p : Port) (r : ErrRec) : (State.putRec s p r).ticks = s.ticks := by
  unfold State.putRec; simp
@[simp] theorem State.errRec_ticks (s : State) (r : ErrRec) : (State.errRec s r).ticks = s.ticks := by rfl
@[simp] theorem State.complete_ticks (s : State) (p : Port) (r : Nat) (d : Done) : (State.complete s p r d).ticks = s.ticks := by
  unfold State.complete; dsimp only; (repeat' split) <;> simp
@[simp] theorem State.refuse_ticks (s : State) (p : Port) (r status : Nat) : (State.refuse s p r status).ticks = s.ticks := by
  unfold State.refuse; simp
@[simp] theorem State.hold_ticks (s : State) (p : Port) (r : Nat) : (State.hold s p r).ticks = s.ticks := by
  unfold State.hold; simp
@[simp] theorem State.askXlat_ticks (s : State) (p : Port) (pg : Nat × Nat) : (State.askXlat s p pg).ticks = s.ticks := by
  unfold State.askXlat; simp
@[simp] theorem State.hostWrite_ticks (s : State) (p : Port) (pasid va : Nat) (data : Bytes) : (State.hostWrite s p pasid va data).ticks = s.ticks := by
  unfold State.hostWrite; simp
@[simp] theorem State.askPage_ticks (s : State) (p : Port) (r : Nat) (pg : Nat × Nat) (write : Bool) : (State.askPage s p r pg write).ticks = s.ticks := by
  unfold State.askPage; simp
@[simp] theorem State.turnAway_ticks (s : State) (p : Port) (r opcode : Nat) : (State.turnAway s p r opcode).ticks = s.ticks := by
  unfold State.turnAway; (repeat' split) <;> simp
@[simp] theorem State.modLink_ticks (s : State) (k : Nat) (f : Link → Link) : (State.modLink s k f).ticks = s.ticks := by rfl
@[simp] theorem State.modSpan_ticks (s : State) (i : Nat) (f : Span → Span) : (State.modSpan s i f).ticks = s.ticks := by rfl
@[simp] theorem State.useLink_ticks (s : State) (k : Nat) (js : List Nat) : (State.useLink s k js).ticks = s.ticks := by rfl
@[simp] theorem State.sendIdle_ticks (s : State) (k : Nat) (nak : Bool) : (State.sendIdle s k nak).ticks = s.ticks := by rfl
@[simp] theorem State.owe_ticks (s : State) (k cls : Nat) : (State.owe s k cls).ticks = s.ticks := by rfl
@[simp] theorem State.transmit_ticks (s : State) (k : Nat) (f : Flit) : (State.transmit s k f).ticks = s.ticks := by
  unfold State.transmit; dsimp only; (repeat' split) <;> simp
@[simp] theorem State.pump_ticks (n : Nat) (s : State) (k : Nat) : (State.pump n s k).ticks = s.ticks := by
  induction n generalizing s with
  | zero => rfl
  | succ n ih => unfold State.pump; split; · rfl
                 split; · rfl
                 rw [ih]; simp
@[simp] theorem State.enqueue_ticks (s : State) (k : Nat) (fs : List Flit) : (State.enqueue s k fs).ticks = s.ticks := by
  unfold State.enqueue; simp
@[simp] theorem State.sendMsg_ticks (s : State) (dst cls span tag : Nat) (payload : Bytes) (opens : Bool) (ends : Bool) : (State.sendMsg s dst cls span tag payload opens ends).ticks = s.ticks := by
  unfold State.sendMsg; dsimp only; (repeat' split) <;> simp
@[simp] theorem State.spanSend_ticks (s : State) (i cls tag : Nat) (payload : Bytes) : (State.spanSend s i cls tag payload).ticks = s.ticks := by
  unfold State.spanSend; simp
@[simp] theorem State.resend_ticks (s : State) (k : Nat) : (State.resend s k).ticks = s.ticks := by
  unfold State.resend; simp
@[simp] theorem State.takeAck_ticks (s : State) (k : Nat) (h : FlitHdr) : (State.takeAck s k h).ticks = s.ticks := by
  unfold State.takeAck; simp
@[simp] theorem State.takeFlit_ticks (s : State) (k : Nat) (h : FlitHdr) (cls : Nat) : (State.takeFlit s k h cls).ticks = s.ticks := by
  unfold State.takeFlit; simp
@[simp] theorem State.linkErr_ticks (s : State) (k bit : Nat) : (State.linkErr s k bit).ticks = s.ticks := by rfl
@[simp] theorem State.badFlit_ticks (s : State) (k : Nat) : (State.badFlit s k).ticks = s.ticks := by rfl
@[simp] theorem State.forward_ticks (s : State) (h : FlitHdr) (cls : Nat) (payload : Bytes) (via : Option Nat) : (State.forward s h cls payload via).ticks = s.ticks := by
  unfold State.forward; (repeat' split) <;> simp
@[simp] theorem State.takeIn_ticks (s : State) (k cls want : Nat) (h : FlitHdr) (line : FlitLine) (payload : Bytes) (act : State → State)
    (e : ∀ s, (act s).ticks = s.ticks) : (s.takeIn k cls want h line payload act).ticks = s.ticks := by
  unfold State.takeIn; split
  · rw [State.badFlit_ticks, State.ticks_each _ _ _ (fun s m => by simp)]
  · dsimp only; split <;> simp [e]
@[simp] theorem State.receive_ticks (s : State) (arr : Option Arrival) (want : Nat) (payload : Bytes) (act : State → State)
    (e : ∀ s, (act s).ticks = s.ticks) : (s.receive arr want payload act).ticks = s.ticks := by
  unfold State.receive; (repeat' split) <;> simp [e]
@[simp] theorem State.wipeGroup_ticks (s : State) (x : Nat) : (State.wipeGroup s x).ticks = s.ticks := by rfl
@[simp] theorem State.carry_ticks (s : State) (moves : Nat → Bool) (dest : Nat → Nat) : (State.carry s moves dest).ticks = s.ticks := by rfl
@[simp] theorem State.moveGranule_ticks (s : State) (key : Nat) : (State.moveGranule s key).ticks = s.ticks := by
  unfold State.moveGranule; simp
@[simp] theorem State.hbmWrite_ticks (s : State) (key : Nat) (b : Bytes) : (State.hbmWrite s key b).ticks = s.ticks := by
  unfold State.hbmWrite; simp
@[simp] theorem State.fillUnit_ticks (s : State) (x : Nat) : (State.fillUnit s x).ticks = s.ticks := by rfl
@[simp] theorem State.jobCores_ticks (s : State) (j : Nat) (f : CoreSt → CoreSt) : (State.jobCores s j f).ticks = s.ticks := by
  unfold State.jobCores; (repeat' split) <;> simp
@[simp] theorem State.endKeyStreams_ticks (s : State) (j : Nat) : (State.endKeyStreams s j).ticks = s.ticks := by
  unfold State.endKeyStreams; simp
@[simp] theorem State.clearDir_ticks (s : State) (j : Nat) (set : Option Bytes) : (State.clearDir s j set).ticks = s.ticks := by rfl
@[simp] theorem State.closeWins_ticks (s : State) (j : Nat) : (State.closeWins s j).ticks = s.ticks := by rfl
@[simp] theorem State.abortAll_ticks (s : State) (p : Port) (j : Nat) (keep : Option Nat) : (State.abortAll s p j keep).ticks = s.ticks := by
  unfold State.abortAll; simp
@[simp] theorem State.abortWaiting_ticks (s : State) (j : Nat) : (s.abortWaiting j).ticks = s.ticks := by
  unfold State.abortWaiting; dsimp only; split; · rfl
  rw [State.modJob_ticks, State.ticks_each _ _ _ (by simp), State.ticks_each _ _ _ (fun s k => by (repeat' split) <;> simp)]; simp
@[simp] theorem State.endRequests_ticks (s : State) (p : Port) : (State.endRequests s p).ticks = s.ticks := by
  unfold State.endRequests; simp
@[simp] theorem State.haltJob_ticks (s : State) (j : Nat) (m : CoreMode) : (State.haltJob s j m).ticks = s.ticks := by
  unfold State.haltJob; simp
@[simp] theorem State.stopErr_ticks (s : State) (j : Nat) (i : StopInfo) : (State.stopErr s j i).ticks = s.ticks := by
  unfold State.stopErr; simp
@[simp] theorem State.stopRec_ticks (s : State) (j : Nat) (i : StopInfo) : (State.stopRec s j i).ticks = s.ticks := by
  unfold State.stopRec; (repeat' split) <;> simp
@[simp] theorem State.stopNow_ticks (s : State) (j : Nat) (i : StopInfo) (tell : Bool) : (State.stopNow s j i tell).ticks = s.ticks := by
  unfold State.stopNow; dsimp only; (repeat' split) <;> simp
@[simp] theorem State.stopJob_ticks (s : State) (j : Nat) (i : StopInfo) (tell : Bool) : (State.stopJob s j i tell).ticks = s.ticks := by
  unfold State.stopJob; (repeat' split) <;> simp
@[simp] theorem State.stopAny_ticks (s : State) (j : Nat) (i : StopInfo) (tell : Bool) : (State.stopAny s j i tell).ticks = s.ticks := by
  unfold State.stopAny; (repeat' split) <;> simp
@[simp] theorem State.program_ticks (s : State) (n code detail slot : Nat) (handle : Nat) (data : Bytes) : (State.program s n code detail slot handle data).ticks = s.ticks := by
  unfold State.program; simp
@[simp] theorem State.beginWipe_ticks (s : State) (j : Nat) : (State.beginWipe s j).ticks = s.ticks := by
  unfold State.beginWipe; simp
@[simp] theorem State.killJob_ticks (s : State) (j : Nat) : (State.killJob s j).ticks = s.ticks := by
  unfold State.killJob; dsimp only; (repeat' split) <;> simp
@[simp] theorem State.tellStop_ticks (s : State) (j cause : Nat) : (State.tellStop s j cause).ticks = s.ticks := by
  unfold State.tellStop; (repeat' split) <;> simp
@[simp] theorem State.endJob_ticks (s : State) (j cause : Nat) (keep : Option Nat) : (State.endJob s j cause keep).ticks = s.ticks := by
  unfold State.endJob; (repeat' split) <;> simp
@[simp] theorem State.beginReplay_ticks (s : State) (j : Nat) (q : Quiesce) : (State.beginReplay s j q).ticks = s.ticks := by
  unfold State.beginReplay; dsimp only; (repeat' split) <;> simp
@[simp] theorem State.notePoints_ticks (s : State) : (State.notePoints s).ticks = s.ticks := by
  unfold State.notePoints; simp
@[simp] theorem State.powerFail_ticks (s : State) : (State.powerFail s).ticks = s.ticks := by
  unfold State.powerFail; simp
@[simp] theorem State.vinRead_ticks (s : State) (vin : Nat) : (State.vinRead s vin).ticks = s.ticks := by
  unfold State.vinRead; simp
@[simp] theorem State.restStacks_ticks (s : State) : (State.restStacks s).ticks = s.ticks := by
  unfold State.restStacks; simp
@[simp] theorem State.freezeNow_ticks (s : State) : (State.freezeNow s).ticks = s.ticks := by
  unfold State.freezeNow; simp
@[simp] theorem State.thermal_ticks (s : State) : (State.thermal s).ticks = s.ticks := by
  unfold State.thermal; simp
@[simp] theorem State.sampled_ticks (s : State) (r : Readings) : (State.sampled s r).ticks = s.ticks := by
  unfold State.sampled; simp
@[simp] theorem State.frozenSample_ticks (s : State) (r : Readings) : (State.frozenSample s r).ticks = s.ticks := by
  unfold State.frozenSample; simp
@[simp] theorem State.lowerMills_ticks (s : State) (ranks : Nat) (pt : CapPoint) : (s.lowerMills ranks pt).ticks = s.ticks := by
  unfold State.lowerMills; dsimp only
  rw [State.ticks_each _ _ _ (fun s m => by simp), State.ticks_each _ _ _ (fun s m => by simp)]
@[simp] theorem State.lowerFloor_ticks (s : State) (pt : CapPoint) : (State.lowerFloor s pt).ticks = s.ticks := by
  unfold State.lowerFloor; simp
@[simp] theorem State.freeActs_ticks (s : State) : (State.freeActs s).ticks = s.ticks := by
  unfold State.freeActs; simp
@[simp] theorem State.rampMill_ticks (s : State) (m : Nat) : (State.rampMill s m).ticks = s.ticks := by
  unfold State.rampMill; simp
@[simp] theorem State.noteRefs_ticks (s : State) : (State.noteRefs s).ticks = s.ticks := by
  unfold State.noteRefs; simp
@[simp] theorem State.bufPut_ticks (s : State) (p : Port) (c : Bytes) (off : Nat) (data : Bytes) : (State.bufPut s p c off data).ticks = s.ticks := by
  unfold State.bufPut; (repeat' split) <;> simp
@[simp] theorem State.writeBuffer_ticks (s : State) (p : Port) (r : Nat) (ok : Bool) (bytes : Bytes) (d : Done) (written : Nat) : (State.writeBuffer s p r ok bytes d written).ticks = s.ticks := by
  unfold State.writeBuffer; dsimp only; (repeat' split) <;> simp
@[simp] theorem State.failRec_ticks (s : State) (code unit index : Nat) : (State.failRec s code unit index).ticks = s.ticks := by rfl
@[simp] theorem State.controlUp_ticks (s : State) : (State.controlUp s).ticks = s.ticks := by
  unfold State.controlUp; simp
@[simp] theorem State.startImage_ticks (s : State) (b : Bool) (i : FwImage) (recovered : Bool) : (State.startImage s b i recovered).ticks = s.ticks := by
  unfold State.startImage; simp
@[simp] theorem State.bootSlots_ticks (s : State) (bs : List Bool) : (s.bootSlots bs).ticks = s.ticks := by
  induction bs generalizing s with
  | nil => rfl
  | cons b bs ih => unfold State.bootSlots; (repeat' split) <;> simp [ih]
@[simp] theorem State.purge_ticks (s : State) : (State.purge s).ticks = s.ticks := by
  unfold State.purge; simp
@[simp] theorem State.endSessions_ticks (s : State) (p : Port) : (State.endSessions s p).ticks = s.ticks := by
  unfold State.endSessions; simp
@[simp] theorem State.tokenDone_ticks (s : State) (w : TokenWait) : (State.tokenDone s w).ticks = s.ticks := by
  unfold State.tokenDone; simp
@[simp] theorem State.endAllSessions_ticks (s : State) : (State.endAllSessions s).ticks = s.ticks := by
  unfold State.endAllSessions; simp
@[simp] theorem State.finishToken_ticks (s : State) : (State.finishToken s).ticks = s.ticks := by
  unfold State.finishToken; dsimp only; (repeat' split) <;> simp
@[simp] theorem State.tokenWiped_ticks (s : State) (j : Nat) : (State.tokenWiped s j).ticks = s.ticks := by
  unfold State.tokenWiped; simp
@[simp] theorem State.retireNow_ticks (s : State) (w : TokenWait) : (State.retireNow s w).ticks = s.ticks := by
  unfold State.retireNow; simp
@[simp] theorem State.useToken_ticks (s : State) (p : Port) (r : Nat) (t : Bytes) : (State.useToken s p r t).ticks = s.ticks := by
  unfold State.useToken; simp
@[simp] theorem State.token_ticks (s : State) (kind : Nat) (p : Port) (r : Nat) (token : Option Bytes) (c : Checks) : (State.token s kind p r token c).ticks = s.ticks := by
  unfold State.token; dsimp only; (repeat' split) <;> simp
@[simp] theorem State.attestNow_ticks (s : State) (p : Port) (r : Nat) (ok : Bool) (digest c : Bytes) : (State.attestNow s p r ok digest c).ticks = s.ticks := by
  unfold State.attestNow; dsimp only; (repeat' split) <;> simp
@[simp] theorem State.runDummies_ticks (s : State) : (State.runDummies s).ticks = s.ticks := by rfl
@[simp] theorem State.runPke_ticks (s : State) (q : PkeReq) : (State.runPke s q).ticks = s.ticks := by rfl
@[simp] theorem State.spdm_ticks (s : State) (p : Port) (code : Nat) (body : Bytes) : (State.spdm s p code body).ticks = s.ticks := by rfl
@[simp] theorem State.putByte_ticks (s : State) (p : Place) (v : Byte) : (State.putByte s p v).ticks = s.ticks := by
  unfold State.putByte; (repeat' split) <;> simp
@[simp] theorem State.tagSector_ticks (s : State) (key tag : Nat) : (State.tagSector s key tag).ticks = s.ticks := by rfl
@[simp] theorem State.refill_ticks (s : State) (key : Nat) : (State.refill s key).ticks = s.ticks := by
  unfold State.refill; simp
@[simp] theorem State.writeSectors_ticks (s : State) (place : Nat → Nat) (off : Nat) (b : Bytes) (tag : Nat) : (State.writeSectors s place off b tag).ticks = s.ticks := by
  unfold State.writeSectors; simp
@[simp] theorem State.keepUndo_ticks (s : State) (j key : Nat) : (State.keepUndo s j key).ticks = s.ticks := by
  unfold State.keepUndo; simp
@[simp] theorem State.writeByte_ticks (s : State) (j : Nat) (undo : Bool) (p : Place) (v : Byte) : (State.writeByte s j undo p v).ticks = s.ticks := by
  unfold State.writeByte; (repeat' split) <;> simp
@[simp] theorem State.fillWet_ticks (s : State) (j b : Nat) (e : Handle) (k : Blk) : (s.fillWet j b e k).ticks = s.ticks := by
  unfold State.fillWet; exact State.ticks_each _ _ _ fun s m => by (try dsimp only); simp
@[simp] theorem State.openBlock_ticks (s : State) (j h : Nat) (e : Handle) (b lo hi : Nat) : (State.openBlock s j h e b lo hi).ticks = s.ticks := by
  unfold State.openBlock; dsimp only; (repeat' split) <;> simp
theorem State.writes_ticks (data : Bytes) (g : State → Nat → Byte → State) (h : ∀ s n v, (g s n v).ticks = s.ticks) (a : State × Nat) :
    (data.foldl (fun (a : State × Nat) v => (g a.1 a.2 v, a.2 + 1)) a).1.ticks = a.1.ticks := by
  induction data generalizing a with
  | nil => rfl
  | cons v vs ih => rw [List.foldl_cons, ih, h]
@[simp] theorem State.store_ticks (s : State) (j h off : Nat) (data : Bytes) : (s.store j h off data).ticks = s.ticks := by
  have k (e : Handle) : (if e.durable ∧ 0 < data.length then
      s.each (fromTo (off / 4096) ((off + data.length - 1) / 4096 + 1)) fun s b => s.openBlock j h e b off (off + data.length)
      else s).ticks = s.ticks := by
    split
    · exact State.ticks_each _ _ _ fun s b => by simp
    · rfl
  unfold State.store; dsimp only; split; · rfl
  split
  · exact k _
  · exact (State.writes_ticks data (fun s n v => s.writeByte j _ (s.place _ (Job.writeBase _ h _ n) n) v) (by simp) _).trans (k _)
@[simp] theorem State.retireRec_ticks (s : State) (res index : Nat) : (State.retireRec s res index).ticks = s.ticks := by rfl
@[simp] theorem State.retired_ticks (s : State) (code res index : Nat) : (State.retired s code res index).ticks = s.ticks := by rfl
@[simp] theorem State.retireStack_ticks (s : State) (k : Nat) : (State.retireStack s k).ticks = s.ticks := by
  unfold State.retireStack; simp
@[simp] theorem State.dropReleases_ticks (s : State) (j : Nat) : (State.dropReleases s j).ticks = s.ticks := by
  unfold State.dropReleases; simp
@[simp] theorem State.stopLost_ticks (s : State) (js hit : List Nat) (i : StopInfo) : (State.stopLost s js hit i).ticks = s.ticks := by
  unfold State.stopLost; simp
@[simp] theorem State.retirePc_ticks (s : State) (pc : Nat) (training : Bool) : (State.retirePc s pc training).ticks = s.ticks := by
  unfold State.retirePc; simp
@[simp] theorem State.wakeStacks_ticks (s : State) (m : Nat) : (State.wakeStacks s m).ticks = s.ticks := by
  unfold State.wakeStacks; simp
@[simp] theorem State.noteTag_ticks (s : State) (pc : Nat) : (State.noteTag s pc).ticks = s.ticks := by
  unfold State.noteTag; simp
@[simp] theorem State.storageFault_ticks (s : State) (j : Nat) (z : Zone) (res : ResIx) (e : ReadErr) (core slot bundle handle : Nat) (inRelease : Bool) : (State.storageFault s j z res e core slot bundle handle inRelease).ticks = s.ticks := by
  unfold State.storageFault; dsimp only; (repeat' split) <;> simp
@[simp] theorem State.readFault_ticks (s : State) (j h off : Nat) (e : ReadErr) (core slot bundle : Nat) : (State.readFault s j h off e core slot bundle).ticks = s.ticks := by
  unfold State.readFault; simp
@[simp] theorem State.tagRecord_ticks (s : State) (j h off t : Nat) : (State.tagRecord s j h off t).ticks = s.ticks := by
  unfold State.tagRecord; simp
@[simp] theorem State.lateFault_ticks (s : State) (j h off : Nat) (wet : List Nat) (e : ReadErr) (core slot bundle : Nat) : (State.lateFault s j h off wet e core slot bundle).ticks = s.ticks := by
  unfold State.lateFault; simp
@[simp] theorem State.seqFault_ticks (s : State) (n slot detail : Nat) : (State.seqFault s n slot detail).ticks = s.ticks := by
  unfold State.seqFault; simp
@[simp] theorem State.opFault_ticks (s : State) (n slot detail : Nat) (off : Nat) : (State.opFault s n slot detail off).ticks = s.ticks := by
  unfold State.opFault; simp
@[simp] theorem State.staleFault_ticks (s : State) (n slot detail h off : Nat) : (State.staleFault s n slot detail h off).ticks = s.ticks := by
  unfold State.staleFault; simp
@[simp] theorem State.absentFault_ticks (s : State) (n slot fmts engines : Nat) : (State.absentFault s n slot fmts engines).ticks = s.ticks := by
  unfold State.absentFault; simp
@[simp] theorem State.setAt_ticks (s : State) (n pos : Nat) : (State.setAt s n pos).ticks = s.ticks := by
  unfold State.setAt; simp
@[simp] theorem State.enterAt_ticks (s : State) (n pos : Nat) : (State.enterAt s n pos).ticks = s.ticks := by
  unfold State.enterAt; simp
@[simp] theorem State.enterAll_ticks (s : State) (j : Nat) (xs : List (Nat × Nat)) : (State.enterAll s j xs).ticks = s.ticks := by
  unfold State.enterAll; dsimp only; (repeat' split) <;> simp
@[simp] theorem State.arrive_ticks (s : State) (j : Nat) (x : Job) : (s.arrive j x).ticks = s.ticks := by
  unfold State.arrive; exact State.ticks_each _ _ _ fun s m => by (try dsimp only); (repeat' split) <;> simp
@[simp] theorem State.releaseBar_ticks (s : State) (j b : Nat) : (State.releaseBar s j b).ticks = s.ticks := by
  unfold State.releaseBar; dsimp only; (repeat' split) <;> simp
@[simp] theorem State.serveWait_ticks (s : State) (j n : Nat) : (State.serveWait s j n).ticks = s.ticks := by
  unfold State.serveWait; (repeat' split) <;> simp
@[simp] theorem State.settle_ticks (s : State) (j : Nat) : (State.settle s j).ticks = s.ticks := by
  unfold State.settle; dsimp only; (repeat' split) <;> simp
@[simp] theorem State.signal_ticks (s : State) (j sem k core slot bundle : Nat) : (State.signal s j sem k core slot bundle).ticks = s.ticks := by
  unfold State.signal; (repeat' split) <;> simp
@[simp] theorem State.sendSig_ticks (s : State) (j sem k core slot bundle : Nat) : (State.sendSig s j sem k core slot bundle).ticks = s.ticks := by
  unfold State.sendSig; dsimp only; (repeat' split) <;> simp
@[simp] theorem onCore_ticks (n : Nat) (f : CoreSt → CoreSt) (s : State) : (onCore n f s).ticks = s.ticks := by
  simp [onCore]
@[simp] theorem State.endBundle_ticks (s : State) (n : Nat) (b : Branch) (m : CoreMode) : (State.endBundle s n b m).ticks = s.ticks := by
  unfold State.endBundle; dsimp only; (repeat' split) <;> simp
@[simp] theorem State.sigNow_ticks (s : State) (span sem k : Nat) : (State.sigNow s span sem k).ticks = s.ticks := by
  unfold State.sigNow; (repeat' split) <;> simp
@[simp] theorem State.takeSnap_ticks (s : State) (j : Nat) : (State.takeSnap s j).ticks = s.ticks := by
  unfold State.takeSnap; simp
@[simp] theorem State.wipeScratch_ticks (s : State) (hs : Tbl Handle) : (State.wipeScratch s hs).ticks = s.ticks := by rfl
@[simp] theorem State.restoreHbm_ticks (s : State) (undo : Tbl Bytes) : (s.restoreHbm undo).ticks = s.ticks := by
  unfold State.restoreHbm; exact State.ticks_each _ _ _ fun s c => by dsimp only; split <;> simp
@[simp] theorem State.quiesceDone_ticks (s : State) (j : Nat) : (State.quiesceDone s j).ticks = s.ticks := by
  unfold State.quiesceDone; dsimp only; (repeat' split) <;> simp
@[simp] theorem State.portCheck_ticks (s : State) (p : Port) : (State.portCheck s p).ticks = s.ticks := by
  unfold State.portCheck; simp
@[simp] theorem State.dropWork_ticks (s : State) (p : Port) : (State.dropWork s p).ticks = s.ticks := by rfl
@[simp] theorem State.dropTests_ticks (s : State) (p : Port) : (s.dropTests p).ticks = s.ticks := by
  unfold State.dropTests; dsimp only; rw [State.ticks_each _ _ _ (fun s m => by simp)]; rfl
@[simp] theorem State.portReset_ticks (s : State) (p : Port) : (State.portReset s p).ticks = s.ticks := by
  unfold State.portReset; simp
@[simp] theorem State.endSecure_ticks (s : State) (p : Port) : (State.endSecure s p).ticks = s.ticks := by
  unfold State.endSecure; simp
@[simp] theorem State.flrNow_ticks (s : State) (p : Port) : (State.flrNow s p).ticks = s.ticks := by
  unfold State.flrNow; simp
@[simp] theorem State.stick_ticks (s : State) (b : BitVec 3) : (State.stick s b).ticks = s.ticks := by rfl
@[simp] theorem State.announce_ticks (s : State) (code : Nat) : (State.announce s code).ticks = s.ticks := by rfl
@[simp] theorem State.unroute_ticks (s : State) (k : Nat) : (State.unroute s k).ticks = s.ticks := by rfl
@[simp] theorem State.enterLimp_ticks (s : State) : (State.enterLimp s).ticks = s.ticks := by
  unfold State.enterLimp; simp
@[simp] theorem State.trainLinks_ticks (s : State) : (State.trainLinks s).ticks = s.ticks := by rfl
@[simp] theorem State.switchTo_ticks (s : State) (src : Source) : (State.switchTo s src).ticks = s.ticks := by
  unfold State.switchTo; simp
@[simp] theorem State.refFail_ticks (s : State) (ref : Source) : (State.refFail s ref).ticks = s.ticks := by
  unfold State.refFail; dsimp only; (repeat' split) <;> simp
@[simp] theorem State.refStops_ticks (s : State) (ref : Source) : (State.refStops s ref).ticks = s.ticks := by
  unfold State.refStops; dsimp only; (repeat' split) <;> simp
@[simp] theorem State.reselect_ticks (s : State) : (State.reselect s).ticks = s.ticks := by
  unfold State.reselect; (repeat' split) <;> simp
@[simp] theorem State.reselectIdle_ticks (s : State) : (State.reselectIdle s).ticks = s.ticks := by
  unfold State.reselectIdle; simp
@[simp] theorem State.fmcWrite_ticks (s : State) (p : Port) (v : Reg) : (State.fmcWrite s p v).ticks = s.ticks := by
  unfold State.fmcWrite; simp
@[simp] theorem State.warmReset_ticks (s : State) : s.warmReset.ticks = s.ticks := by
  unfold State.warmReset; dsimp only
  rw [State.reselectIdle_ticks, State.raise_ticks, State.raise_ticks, State.noteCause_ticks, State.readyChanged_ticks]
  exact State.ticks_each _ _ _ fun s m => by (repeat' split) <;> simp
@[simp] theorem State.startWarm_ticks (s : State) : (State.startWarm s).ticks = s.ticks := by
  unfold State.startWarm; simp
@[simp] theorem State.essArm_ticks (s : State) (p : Port) (v : Reg) : (State.essArm s p v).ticks = s.ticks := by
  unfold State.essArm; simp
@[simp] theorem State.essKill_ticks (s : State) (p : Port) (v : Reg) : (State.essKill s p v).ticks = s.ticks := by
  unfold State.essKill; simp
@[simp] theorem State.essFlr_ticks (s : State) (p : Port) (v : Reg) : (State.essFlr s p v).ticks = s.ticks := by
  unfold State.essFlr; simp
@[simp] theorem State.fieldInvalid_ticks (s : State) (off : Nat) : (State.fieldInvalid s off).ticks = s.ticks := by rfl
@[simp] theorem State.badGroup_ticks (s : State) (m g : Nat) : (State.badGroup s m g).ticks = s.ticks := by
  unfold State.badGroup; simp
@[simp] theorem State.coreFault_ticks (s : State) (n : Nat) (contained : Bool) (code : Nat) : (State.coreFault s n contained code).ticks = s.ticks := by
  unfold State.coreFault; simp
@[simp] theorem State.cutTest_ticks (s : State) (m n : Nat) : (State.cutTest s m n).ticks = s.ticks := by
  unfold State.cutTest; dsimp only; (repeat' split) <;> simp
@[simp] theorem State.millCheck_ticks (s : State) (m : Nat) : (State.millCheck s m).ticks = s.ticks := by
  unfold State.millCheck; simp
@[simp] theorem State.retireCore_ticks (s : State) (n : Nat) : (State.retireCore s n).ticks = s.ticks := by
  unfold State.retireCore; simp
@[simp] theorem State.datapathCheck_ticks (s : State) (n : Nat) : (State.datapathCheck s n).ticks = s.ticks := by
  unfold State.datapathCheck; (repeat' split) <;> simp
@[simp] theorem State.engineCheck_ticks (s : State) (n slot bundle : Nat) (m : Touched) (e : EngCheck) : (State.engineCheck s n slot bundle m e).ticks = s.ticks := by
  unfold State.engineCheck; (repeat' split) <;> simp
@[simp] theorem State.unwrite_ticks (s : State) (j : Nat) (m : Touched) (e : EngCheck) : (State.unwrite s j m e).ticks = s.ticks := by
  unfold State.unwrite; dsimp only; (repeat' split) <;> simp
@[simp] theorem State.storeBits_ticks (s : State) (j h b w v : Nat) : (State.storeBits s j h b w v).ticks = s.ticks := by
  unfold State.storeBits; simp
@[simp] theorem State.storeTile_ticks (s : State) (j : Nat) (f : Fmt) (l : Loc) (y : Layout) (t : Tile) : (State.storeTile s j f l y t).ticks = s.ticks := by
  unfold State.storeTile; (repeat' split) <;> simp
@[simp] theorem CoreSt.drainRun_ticks (c : CoreSt) (n : Nat) (d : Drain) (b : OBufSt) (s : State) : (CoreSt.drainRun c n d b s).ticks = s.ticks := by
  unfold CoreSt.drainRun; dsimp only; (repeat' split) <;> simp
@[simp] theorem State.nttLimb_ticks (s : State) (j : Nat) (x : Ntt) (fwd : Bool) (i : Nat) : (State.nttLimb s j x fwd i).ticks = s.ticks := by
  unfold State.nttLimb; dsimp only; (repeat' split) <;> simp
@[simp] theorem State.vecResult_ticks (s : State) (n : Nat) (v : VDst) (t : Tile) (w : Word) : (State.vecResult s n v t w).ticks = s.ticks := by rfl
@[simp] theorem State.vecTile_ticks (s : State) (n : Nat) (c : CoreSt) (v : VDst) (f : Nat → Nat × Hist) : (State.vecTile s n c v f).ticks = s.ticks := by rfl
@[simp] theorem State.noteRaces_ticks (s : State) (j : Nat) (others : List XcQ) (foot : List Nat) (h : Nat) (offs : List Nat) : (State.noteRaces s j others foot h offs).ticks = s.ticks := by
  unfold State.noteRaces; dsimp only; (repeat' split) <;> simp
@[simp] theorem State.queueCopy_ticks (s : State) (n : Nat) (hd : CopyHead) (staging h : Nat) (runs : List (Nat × Nat)) (mem : Touched) : (State.queueCopy s n hd staging h runs mem).ticks = s.ticks := by
  unfold State.queueCopy; simp
@[simp] theorem State.copyTag_ticks (s : State) (n h : Nat) (runs : List (Nat × Nat)) (go : State) (e : go.ticks = s.ticks) :
    (s.copyTag n h runs go).ticks = s.ticks := by
  unfold State.copyTag; dsimp only; split <;> simp [e]
@[simp] theorem State.writeCells_ticks (s : State) (j : Nat) (f : Fmt) (y : Layout) (m : Mat) (ws : List (Cell × Nat)) : (State.writeCells s j f y m ws).ticks = s.ticks := by
  unfold State.writeCells; simp
@[simp] theorem State.copyMoves_ticks (s : State) (j : Nat) : (State.copyMoves s j).ticks = s.ticks := by
  unfold State.copyMoves; simp
@[simp] theorem State.xcRaceWrite_ticks (s : State) (p : Port) (v : Reg) : (s.xcRaceWrite p v).ticks = s.ticks := by
  unfold State.xcRaceWrite; exact State.ticks_each _ _ _ fun s m => by (try dsimp only); (repeat' split) <;> simp
@[simp] theorem State.pageStop_ticks (s : State) (j code : Nat) (core slot bundle h channel element va : Nat) (inRelease : Bool) : (State.pageStop s j code core slot bundle h channel element va inRelease).ticks = s.ticks := by
  unfold State.pageStop; simp
@[simp] theorem State.storeRing_ticks (s : State) (j h at_ : Nat) (data : Bytes) : (State.storeRing s j h at_ data).ticks = s.ticks := by
  unfold State.storeRing; dsimp only; (repeat' split) <;> simp
@[simp] theorem State.stageElement_ticks (s : State) (j : Nat) (x : Job) (c : Chan) (data : Bytes) : (State.stageElement s j x c data).ticks = s.ticks := by
  unfold State.stageElement; simp
@[simp] theorem State.strmWrite_ticks (s : State) (j : Nat) (x : Job) (c : Chan) (data : Bytes) : (State.strmWrite s j x c data).ticks = s.ticks := by
  unfold State.strmWrite; simp
@[simp] theorem State.strmSignal_ticks (s : State) (j n : Nat) (c : Chan) : (State.strmSignal s j n c).ticks = s.ticks := by
  unfold State.strmSignal; dsimp only; (repeat' split) <;> simp
@[simp] theorem State.moveElement_ticks (s : State) (j n k : Nat) (x : Job) (c : Chan) (data : Bytes) : (State.moveElement s j n k x c data).ticks = s.ticks := by
  unfold State.moveElement; simp
@[simp] theorem State.wantPage_ticks (s : State) (p : Port) (pg : Nat × Nat) : (State.wantPage s p pg).ticks = s.ticks := by
  unfold State.wantPage; simp
@[simp] theorem State.mapChans_ticks (s : State) (j : Nat) (f : Chan → Chan) : (State.mapChans s j f).ticks = s.ticks := by
  unfold State.mapChans; simp
@[simp] theorem State.retryPage_ticks (s : State) (p : Port) (pg : Nat × Nat) (j : Nat) : (State.retryPage s p pg j).ticks = s.ticks := by
  unfold State.retryPage; dsimp only; (repeat' split) <;> simp
@[simp] theorem State.refusePage_ticks (s : State) (code : Nat) (p : Port) (pg : Nat × Nat) (j : Nat) : (State.refusePage s code p pg j).ticks = s.ticks := by
  unfold State.refusePage; (repeat' split) <;> simp
@[simp] theorem State.retryRing_ticks (s : State) (p : Port) (pg : Nat × Nat) (r : Nat) : (State.retryRing s p pg r).ticks = s.ticks := by
  unfold State.retryRing; dsimp only; (repeat' split) <;> simp
@[simp] theorem State.refuseRing_ticks (s : State) (p : Port) (pg : Nat × Nat) (r : Nat) : (State.refuseRing s p pg r).ticks = s.ticks := by
  unfold State.refuseRing; simp
@[simp] theorem State.refuseAll_ticks (s : State) (code : Nat) (p : Port) (pg : Nat × Nat) : (State.refuseAll s code p pg).ticks = s.ticks := by
  unfold State.refuseAll; simp
@[simp] theorem State.fillDir_ticks (s : State) (j slot : Nat) (k : KeySet) : (State.fillDir s j slot k).ticks = s.ticks := by
  unfold State.fillDir; (repeat' split) <;> simp
@[simp] theorem State.markDir_ticks (s : State) (j : Nat) (set : Bytes) (ix st : Nat) : (State.markDir s j set ix st).ticks = s.ticks := by rfl
@[simp] theorem State.notePasses_ticks (s : State) : (State.notePasses s).ticks = s.ticks := by rfl
@[simp] theorem State.stageBlock_ticks (s : State) (m q b : Nat) (t : KeyStream) : (State.stageBlock s m q b t).ticks = s.ticks := by
  unfold State.stageBlock; simp
@[simp] theorem State.grantKeys_ticks (n : Nat) (s : State) (m : Nat) : (State.grantKeys n s m).ticks = s.ticks := by
  induction n generalizing s with
  | zero => rfl
  | succ n ih => unfold State.grantKeys; split <;> simp [ih]
@[simp] theorem State.grant_ticks (s : State) (m : Nat) : (State.grant s m).ticks = s.ticks := by
  unfold State.grant; simp
@[simp] theorem State.lostShard_ticks (s : State) (j : Nat) (r : KeyRing) (ix : Nat) : (State.lostShard s j r ix).ticks = s.ticks := by
  unfold State.lostShard; simp
@[simp] theorem State.requestPass_ticks (s : State) (j : Nat) (k : KeySet) (ix : Nat) : (State.requestPass s j k ix).ticks = s.ticks := by
  unfold State.requestPass; dsimp only; (repeat' split) <;> simp
@[simp] theorem State.beginStream_ticks (s : State) (m q : Nat) (t : KeyStream) (k : KeySet) : (State.beginStream s m q t k).ticks = s.ticks := by
  unfold State.beginStream; simp
@[simp] theorem State.dropPass_ticks (s : State) (j slot ix : Nat) : (State.dropPass s j slot ix).ticks = s.ticks := by
  unfold State.dropPass; dsimp only; (repeat' split) <;> simp
@[simp] theorem State.retryKeys_ticks (s : State) (j : Nat) : (s.retryKeys j).ticks = s.ticks := by
  unfold State.retryKeys; split; · rfl
  exact State.ticks_each _ _ _ fun s c => by dsimp only; (repeat' split) <;> simp
@[simp] theorem State.resumeKeys_ticks (s : State) (j : Nat) : (s.resumeKeys j).ticks = s.ticks := by
  unfold State.resumeKeys; simp
@[simp] theorem State.countWork_ticks (s : State) (n : Nat) (p : ParamSet) (w : Work) : (s.countWork n p w).ticks = s.ticks := by
  simp only [State.countWork, State.work_ticks]
@[simp] theorem State.ctStop_ticks (s : State) (n : Nat) (z0 : CtVerdict) : (State.ctStop s n z0).ticks = s.ticks := by
  unfold State.ctStop; (repeat' split) <;> simp
@[simp] theorem State.feedOp_ticks (s : State) (n : Nat) (q : CtQ) : (State.feedOp s n q).ticks = s.ticks := by
  unfold State.feedOp; dsimp only; (repeat' split) <;> simp
@[simp] theorem State.feedOps_ticks (s : State) (m : Nat) : (State.feedOps s m).ticks = s.ticks := by
  unfold State.feedOps; simp
@[simp] theorem State.ctStart_ticks (s : State) (n : Nat) (o : CtOp) (p : ParamSet) (hs : List CtHdr) (d : Pred) : (State.ctStart s n o p hs d).ticks = s.ticks := by
  unfold State.ctStart; dsimp only; (repeat' split) <;> simp
@[simp] theorem State.haltWaiting_ticks (s : State) (j : Nat) : (State.haltWaiting s j).ticks = s.ticks := by
  unfold State.haltWaiting; simp
@[simp] theorem State.requestRefresh_ticks (s : State) (n slot : Nat) (auto : Bool) (cts : List Loc) :
    (s.requestRefresh n slot auto cts).ticks = s.ticks := by
  unfold State.requestRefresh; dsimp only; rw [State.haltWaiting_ticks]
  exact State.ticks_each _ _ _ fun s m => by (repeat' split) <;> simp
@[simp] theorem State.haltForRefresh_ticks (s : State) (n slot : Nat) (cts : List Loc) : (State.haltForRefresh s n slot cts).ticks = s.ticks := by
  unfold State.haltForRefresh; simp
@[simp] theorem State.placeKey_ticks (s : State) (j : Nat) (runs : List (Nat × Nat)) (b : Bytes) : (State.placeKey s j runs b).ticks = s.ticks := by
  unfold State.placeKey; simp
@[simp] theorem State.wipeKey_ticks (s : State) (j : Nat) (runs : List (Nat × Nat)) : (State.wipeKey s j runs).ticks = s.ticks := by
  unfold State.wipeKey; simp
@[simp] theorem State.stagingTag_ticks (s : State) (p : Port) (j : Nat) (c : Bytes) : (State.stagingTag s p j c).ticks = s.ticks := by
  unfold State.stagingTag; dsimp only; (repeat' split) <;> simp
@[simp] theorem State.takeIngest_ticks (n : Nat) (s : State) : (State.takeIngest n s).ticks = s.ticks := by
  induction n generalizing s with
  | zero => rfl
  | succ n ih => unfold State.takeIngest; dsimp only; (repeat' split) <;> first | rfl | (rw [ih]; first | rfl | simp)
@[simp] theorem State.ingestStep_ticks (s : State) : (State.ingestStep s).ticks = s.ticks := by
  unfold State.ingestStep; simp
@[simp] theorem State.endIngest_ticks (s : State) (g : Ingest) : (s.endIngest g).ticks = s.ticks := by
  unfold State.endIngest; dsimp only; split; · simp
  split; · simp
  rw [State.complete_ticks, State.ticks_foldl _ (fun s x => by simp)]; simp
@[simp] theorem State.takeTable_ticks (s : State) (i : Nat) : (State.takeTable s i).ticks = s.ticks := by
  unfold State.takeTable; simp
@[simp] theorem State.startBuild_ticks (s : State) (k : KeySet) : (State.startBuild s k).ticks = s.ticks := by
  unfold State.startBuild; (repeat' split) <;> simp
@[simp] theorem State.bindNow_ticks (s : State) (j : Nat) (k : KeySet) : (State.bindNow s j k).ticks = s.ticks := by
  unfold State.bindNow; dsimp only; (repeat' split) <;> simp
@[simp] theorem State.unbindNow_ticks (s : State) (j : Nat) (k : KeySet) : (State.unbindNow s j k).ticks = s.ticks := by
  unfold State.unbindNow; dsimp only; (repeat' split) <;> simp
@[simp] theorem State.takeBind_ticks (s : State) (j : Nat) (keep : List Bytes) (o : BindOp) : (State.takeBind s j keep o).ticks = s.ticks := by
  unfold State.takeBind; dsimp only; (repeat' split) <;> simp
@[simp] theorem State.takeBinds_ticks (s : State) (j : Nat) (keep : List Bytes) : (State.takeBinds s j keep).ticks = s.ticks := by
  unfold State.takeBinds; simp
@[simp] theorem State.expanderCheck_ticks (s : State) (m i : Nat) : (State.expanderCheck s m i).ticks = s.ticks := by
  unfold State.expanderCheck; simp
@[simp] theorem State.damage_ticks (s : State) (j : Nat) (id : Bytes) (ix : Nat) : (State.damage s j id ix).ticks = s.ticks := by
  unfold State.damage; simp
@[simp] theorem State.endStream_ticks (s : State) (m q : Nat) (t : KeyStream) : (State.endStream s m q t).ticks = s.ticks := by
  unfold State.endStream; simp
@[simp] theorem State.ackBlock_ticks (s : State) (m q n : Nat) (t : KeyStream) : (State.ackBlock s m q n t).ticks = s.ticks := by
  unfold State.ackBlock; simp
@[simp] theorem State.passOut_ticks (s : State) (link src : Nat) (keyset : Bytes) (index d0 d1 : Nat) : (State.passOut s link src keyset index d0 d1).ticks = s.ticks := by
  unfold State.passOut; (repeat' split) <;> simp
@[simp] theorem State.passArrives_ticks (s : State) (id : Bytes) (ix : Nat) (first : Bool) (b : Bytes) : (State.passArrives s id ix first b).ticks = s.ticks := by
  unfold State.passArrives; simp
@[simp] theorem State.passIn_ticks (s : State) (link : Nat) (h : FlitHdr) (keyset payload : Bytes) : (State.passIn s link h keyset payload).ticks = s.ticks := by
  unfold State.passIn; dsimp only; (repeat' split) <;> simp
@[simp] theorem State.beginPower_ticks (s : State) (w : PendPower) : (State.beginPower s w).ticks = s.ticks := by
  unfold State.beginPower; simp
@[simp] theorem State.endPower_ticks (s : State) (j : Nat) (couch : Bool) : (State.endPower s j couch).ticks = s.ticks := by
  unfold State.endPower; dsimp only; (repeat' split) <;> simp
@[simp] theorem State.couchHandles_ticks (s : State) (j : Nat) : (State.couchHandles s j).ticks = s.ticks := by
  unfold State.couchHandles; dsimp only; (repeat' split) <;> simp
@[simp] theorem State.guaranteeRec_ticks (s : State) (j kind place cause adm new : Nat) (down : Bool) : (State.guaranteeRec s j kind place cause adm new down).ticks = s.ticks := by
  unfold State.guaranteeRec; simp
@[simp] theorem State.reportCore_ticks (s : State) (j : Nat) (x : Job) : (State.reportCore s j x).ticks = s.ticks := by
  unfold State.reportCore; simp
@[simp] theorem State.reportKeys_ticks (s : State) (j : Nat) (x : Job) : (State.reportKeys s j x).ticks = s.ticks := by
  unfold State.reportKeys; simp
@[simp] theorem State.reportLat_ticks (s : State) (j : Nat) (x : Job) : (State.reportLat s j x).ticks = s.ticks := by
  unfold State.reportLat; simp
@[simp] theorem State.reportGuarantees_ticks (s : State) : (State.reportGuarantees s).ticks = s.ticks := by
  unfold State.reportGuarantees; simp
@[simp] theorem State.startRelease_ticks (s : State) (j : Nat) : (State.startRelease s j).ticks = s.ticks := by
  unfold State.startRelease; (repeat' split) <;> simp
@[simp] theorem State.sendEntry_ticks (s : State) (j : Nat) (e : RelEntry) : (State.sendEntry s j e).ticks = s.ticks := by
  unfold State.sendEntry; dsimp only; (repeat' split) <;> simp
@[simp] theorem State.finishRelease_ticks (s : State) (j : Nat) (r : Release) : (State.finishRelease s j r).ticks = s.ticks := by
  unfold State.finishRelease; dsimp only; (repeat' split) <;> simp
@[simp] theorem State.writeEntries_ticks (j n : Nat) (s : State) : (State.writeEntries j n s).ticks = s.ticks := by
  induction n generalizing s with
  | zero => rfl
  | succ n ih => unfold State.writeEntries; (repeat' split) <;> simp [ih]
@[simp] theorem State.staleEntry_ticks (s : State) (j : Nat) (p : RelEntry) (k : Nat) : (State.staleEntry s j p k).ticks = s.ticks := by
  unfold State.staleEntry; simp
@[simp] theorem State.meetEntry_ticks (s : State) (j : Nat) (p : RelEntry) (e : ReadErr) : (State.meetEntry s j p e).ticks = s.ticks := by
  unfold State.meetEntry; (repeat' split) <;> simp
@[simp] theorem State.releaseEndNow_ticks (s : State) (span stream seq bytes : Nat) : (State.releaseEndNow s span stream seq bytes).ticks = s.ticks := by
  unfold State.releaseEndNow; dsimp only; (repeat' split) <;> simp
@[simp] theorem State.grantNow_ticks (s : State) (span stream credits : Nat) : (State.grantNow s span stream credits).ticks = s.ticks := by
  unfold State.grantNow; (repeat' split) <;> simp
@[simp] theorem State.grantTo_ticks (s : State) (span m stream credits : Nat) : (State.grantTo s span m stream credits).ticks = s.ticks := by
  unfold State.grantTo; simp
@[simp] theorem State.grantRoom_ticks (s : State) (j span : Nat) : (State.grantRoom s j span).ticks = s.ticks := by
  unfold State.grantRoom; (repeat' split) <;> simp
@[simp] theorem State.commitAreas_ticks (s : State) (j : Nat) : (s.commitAreas j).ticks = s.ticks := by
  unfold State.commitAreas; dsimp only; split; · rfl
  rw [State.modJob_ticks]
  exact State.ticks_each _ _ _ fun s m => by (try dsimp only); (repeat' split) <;> simp
@[simp] theorem State.queueRelease_ticks (s : State) (j : Nat) (es : List RelEntry) (final inter : Bool) : (State.queueRelease s j es final inter).ticks = s.ticks := by
  unfold State.queueRelease; dsimp only; (repeat' split) <;> simp
@[simp] theorem State.endTest_ticks (s : State) (m : Nat) (u : SlotTest) (status : Nat) : (State.endTest s m u status).ticks = s.ticks := by
  unfold State.endTest; dsimp only; (repeat' split) <;> simp
@[simp] theorem State.askSuspend_ticks (s : State) (j : Nat) : (State.askSuspend s j).ticks = s.ticks := by
  unfold State.askSuspend; simp
@[simp] theorem State.beginTest_ticks (s : State) (m : Nat) (u : SlotTest) (spare : Bool) : (State.beginTest s m u spare).ticks = s.ticks := by
  unfold State.beginTest; simp
@[simp] theorem State.startRequest_ticks (s : State) (m : Nat) (q : Nat × Bool × Port × Nat) : (State.startRequest s m q).ticks = s.ticks := by
  unfold State.startRequest; dsimp only; (repeat' split) <;> simp
@[simp] theorem State.startTurn_ticks (s : State) (m : Nat) : (State.startTurn s m).ticks = s.ticks := by
  unfold State.startTurn; dsimp only; (repeat' split) <;> simp
@[simp] theorem State.nextTest_ticks (s : State) (m : Nat) : (State.nextTest s m).ticks = s.ticks := by
  unfold State.nextTest; dsimp only; (repeat' split) <;> simp
@[simp] theorem State.stepTest_ticks (s : State) (m j : Nat) (u : SlotTest) : (State.stepTest s m j u).ticks = s.ticks := by
  unfold State.stepTest; simp
@[simp] theorem State.testStep_ticks (s : State) (m j : Nat) : (State.testStep s m j).ticks = s.ticks := by
  unfold State.testStep; simp
@[simp] theorem State.testSteps_ticks (s : State) (j : Nat) : (State.testSteps s j).ticks = s.ticks := by
  unfold State.testSteps; simp
@[simp] theorem State.saveImages_ticks (s : State) (j : Nat) : (State.saveImages s j).ticks = s.ticks := by
  unfold State.saveImages; dsimp only; (repeat' split) <;> simp
@[simp] theorem State.suspendNow_ticks (s : State) (j : Nat) : (State.suspendNow s j).ticks = s.ticks := by
  unfold State.suspendNow; simp
@[simp] theorem State.modStart_ticks (s : State) : (State.modStart s).ticks = s.ticks := by
  unfold State.modStart; (repeat' split) <;> simp
@[simp] theorem State.testFailed_ticks (s : State) (res index sig : Nat) : (State.testFailed s res index sig).ticks = s.ticks := by rfl
@[simp] theorem State.stopMill_ticks (s : State) (m : Nat) (res : ResIx) : (State.stopMill s m res).ticks = s.ticks := by
  unfold State.stopMill; simp
@[simp] theorem State.loseCore_ticks (s : State) (m n : Nat) : (State.loseCore s m n).ticks = s.ticks := by
  unfold State.loseCore; simp
@[simp] theorem State.retireSlot_ticks (s : State) (m k sig : Nat) : (State.retireSlot s m k sig).ticks = s.ticks := by
  unfold State.retireSlot; dsimp only; (repeat' split) <;> simp
@[simp] theorem State.blockFailed_ticks (s : State) (sig : Nat) (z0 : Block) : (State.blockFailed s sig z0).ticks = s.ticks := by
  unfold State.blockFailed; dsimp only; (repeat' split) <;> simp
@[simp] theorem State.takeImages_ticks (s : State) (t : ModTest) : (State.takeImages s t).ticks = s.ticks := by
  unfold State.takeImages; simp
@[simp] theorem State.dropImages_ticks (s : State) (t : ModTest) : (State.dropImages s t).ticks = s.ticks := by
  unfold State.dropImages; simp
@[simp] theorem State.modScan_ticks (s : State) (t : ModTest) (b : Block) (pass : Bool) (sig : Nat) : (State.modScan s t b pass sig).ticks = s.ticks := by
  unfold State.modScan; dsimp only; (repeat' split) <;> simp
@[simp] theorem State.jtagFuse_ticks (s : State) (t : JtagTarget) : (State.jtagFuse s t).ticks = s.ticks := by
  unfold State.jtagFuse; dsimp only; (repeat' split) <;> simp
@[simp] theorem State.jtag_ticks (s : State) (t : JtagTarget) : (State.jtag s t).ticks = s.ticks := by
  unfold State.jtag; dsimp only; (repeat' split) <;> simp
@[simp] theorem State.leaveCouch_ticks (s : State) (j : Nat) : (State.leaveCouch s j).ticks = s.ticks := by
  unfold State.leaveCouch; (repeat' split) <;> simp
@[simp] theorem State.newStride_ticks (s : State) (j : Nat) : (State.newStride s j).ticks = s.ticks := by
  unfold State.newStride; simp
@[simp] theorem State.commit_ticks (s : State) (j : Nat) (final inter : Bool) (keep : List Bytes) : (State.commit s j final inter keep).ticks = s.ticks := by
  unfold State.commit; dsimp only; (repeat' split) <;> simp
@[simp] theorem State.ordinaryCouch_ticks (s : State) (j : Nat) : (State.ordinaryCouch s j).ticks = s.ticks := by
  unfold State.ordinaryCouch; (repeat' split) <;> simp
@[simp] theorem State.couchDue_ticks (s : State) (j : Nat) : (State.couchDue s j).ticks = s.ticks := by
  unfold State.couchDue; simp
@[simp] theorem State.storeFree_ticks (s : State) (j : Nat) (h : Option Nat) (off n : Nat) : (State.storeFree s j h off n).ticks = s.ticks := by
  unfold State.storeFree; simp
@[simp] theorem State.saveCore_ticks (s : State) (j n : Nat) : (State.saveCore s j n).ticks = s.ticks := by
  unfold State.saveCore; simp
@[simp] theorem State.peerHalt_ticks (s : State) (j : Nat) (x : Job) : (State.peerHalt s j x).ticks = s.ticks := by
  unfold State.peerHalt; simp
@[simp] theorem State.haltCore_ticks (s : State) (core : Nat) (x : Job) : (State.haltCore s core x).ticks = s.ticks := by
  unfold State.haltCore; simp
@[simp] theorem State.macroPasses_ticks (s : State) (j : Nat) : (State.macroPasses s j).ticks = s.ticks := by
  unfold State.macroPasses; (repeat' split) <;> simp
@[simp] theorem State.interludeCommit_ticks (s : State) (j : Nat) : (State.interludeCommit s j).ticks = s.ticks := by
  unfold State.interludeCommit; dsimp only; (repeat' split) <;> simp
@[simp] theorem State.repulpWork_ticks (s : State) (j : Nat) (p : ParamSet) : (State.repulpWork s j p).ticks = s.ticks := by
  unfold State.repulpWork; simp
@[simp] theorem State.refreshCt_ticks (s : State) (j : Nat) (keys : Bytes) (l : Loc) : (State.refreshCt s j keys l).ticks = s.ticks := by
  unfold State.refreshCt; dsimp only; (repeat' split) <;> simp
@[simp] theorem State.dirtyWork_ticks (s : State) (j : Nat) (cts : List Loc) : (State.dirtyWork s j cts).ticks = s.ticks := by
  unfold State.dirtyWork; (repeat' split) <;> simp
@[simp] theorem State.insertedRec_ticks (s : State) (j : Nat) (r : RepReq) : (State.insertedRec s j r).ticks = s.ticks := by
  unfold State.insertedRec; simp
@[simp] theorem State.macroCommit_ticks (s : State) (j : Nat) (last : Bool) : (State.macroCommit s j last).ticks = s.ticks := by
  unfold State.macroCommit; dsimp only; (repeat' split) <;> simp
@[simp] theorem State.unhalt_ticks (s : State) (j : Nat) (cores : List Nat) : (State.unhalt s j cores).ticks = s.ticks := by
  unfold State.unhalt; simp
@[simp] theorem State.resumeNow_ticks (s : State) (j : Nat) : (State.resumeNow s j).ticks = s.ticks := by
  unfold State.resumeNow; dsimp only; (repeat' split) <;> simp
@[simp] theorem State.tableReplay_ticks (s : State) (j : Nat) (r : ResIx) : (State.tableReplay s j r).ticks = s.ticks := by
  unfold State.tableReplay; simp
@[simp] theorem State.tableError_ticks (s : State) (i : Nat) (r : ResIx) : (State.tableError s i r).ticks = s.ticks := by
  unfold State.tableError; simp
@[simp] theorem State.macroRead_ticks (s : State) (j : Nat) (x : Job) (off : Nat) : (State.macroRead s j x off).ticks = s.ticks := by
  unfold State.macroRead; (repeat' split) <;> simp
@[simp] theorem State.lateTick_ticks (s : State) (j : Nat) : (State.lateTick s j).ticks = s.ticks := by
  unfold State.lateTick; simp
@[simp] theorem State.deadlockStop_ticks (s : State) (j : Nat) (tell : Bool) : (State.deadlockStop s j tell).ticks = s.ticks := by
  unfold State.deadlockStop; (repeat' split) <;> simp
@[simp] theorem State.commitSpan_ticks (s : State) (j : Nat) : (State.commitSpan s j).ticks = s.ticks := by
  unfold State.commitSpan; (repeat' split) <;> simp
@[simp] theorem State.deferSpan_ticks (s : State) (j : Nat) : (State.deferSpan s j).ticks = s.ticks := by
  unfold State.deferSpan; (repeat' split) <;> simp
@[simp] theorem State.rollbackSpan_ticks (s : State) (i j : Nat) (lost : Bool) : (State.rollbackSpan s i j lost).ticks = s.ticks := by
  unfold State.rollbackSpan; simp
@[simp] theorem State.takeDecision_ticks (s : State) (i j seq : Nat) (d : Decision) (lost : Bool) : (State.takeDecision s i j seq d lost).ticks = s.ticks := by
  unfold State.takeDecision; dsimp only; (repeat' split) <;> simp
@[simp] theorem State.decideAs_ticks (s : State) (i : Nat) (d : Decision) : (State.decideAs s i d).ticks = s.ticks := by
  unfold State.decideAs; dsimp only; (repeat' split) <;> simp
@[simp] theorem State.stopSpan_ticks (s : State) (i code : Nat) : (State.stopSpan s i code).ticks = s.ticks := by
  unfold State.stopSpan; dsimp only; (repeat' split) <;> simp
@[simp] theorem State.judge_ticks (s : State) (i : Nat) : (State.judge s i).ticks = s.ticks := by
  unfold State.judge; simp
@[simp] theorem State.takeVote_ticks (s : State) (i m seq : Nat) (v : Vote) (k d : Nat) (dead : Bool) : (State.takeVote s i m seq v k d dead).ticks = s.ticks := by
  unfold State.takeVote; simp
@[simp] theorem State.castVote_ticks (s : State) (i j : Nat) (v : Vote) (dead : Bool) : (State.castVote s i j v dead).ticks = s.ticks := by
  unfold State.castVote; dsimp only; (repeat' split) <;> simp
@[simp] theorem State.voteNow_ticks (s : State) (span m seq : Nat) (v : Vote) (divK duty : Nat) (dead : Bool) : (State.voteNow s span m seq v divK duty dead).ticks = s.ticks := by
  unfold State.voteNow; simp
@[simp] theorem State.decisionNow_ticks (s : State) (span seq : Nat) (d : Decision) (lost : Bool) : (State.decisionNow s span seq d lost).ticks = s.ticks := by
  unfold State.decisionNow; (repeat' split) <;> simp
@[simp] theorem State.answerDecision_ticks (s : State) (span m seq : Nat) : (State.answerDecision s span m seq).ticks = s.ticks := by
  unfold State.answerDecision; (repeat' split) <;> simp
@[simp] theorem State.launch_ticks (s : State) (j : Nat) : (State.launch s j).ticks = s.ticks := by
  unfold State.launch; dsimp only; (repeat' split) <;> simp
@[simp] theorem State.startNow_ticks (s : State) (span tick hops : Nat) (agree : Bool) : (State.startNow s span tick hops agree).ticks = s.ticks := by
  unfold State.startNow; dsimp only; (repeat' split) <;> simp
@[simp] theorem State.peerStop_ticks (s : State) (span cause : Nat) : (State.peerStop s span cause).ticks = s.ticks := by
  unfold State.peerStop; dsimp only; (repeat' split) <;> simp
@[simp] theorem State.latchReam_ticks (s : State) : (State.latchReam s).ticks = s.ticks := by
  unfold State.latchReam; dsimp only; (repeat' split) <;> simp
@[simp] theorem State.overrunNow_ticks (s : State) (j : Nat) : (State.overrunNow s j).ticks = s.ticks := by
  unfold State.overrunNow; simp
@[simp] theorem State.interludeDue_ticks (s : State) (j : Nat) : (State.interludeDue s j).ticks = s.ticks := by
  unfold State.interludeDue; simp
@[simp] theorem State.closeTick_ticks (s : State) : (State.closeTick s).ticks = s.ticks := by
  unfold State.closeTick; simp
@[simp] theorem State.beginStride_ticks (s : State) (j : Nat) : (s.beginStride j).ticks = s.ticks := by
  unfold State.beginStride; dsimp only; split; · rfl
  rw [State.settle_ticks, State.enterAll_ticks, State.ticks_each _ _ _ (fun s m => by simp)]
  split <;> simp
@[simp] theorem State.foldExc_ticks (s : State) (j : Nat) : (State.foldExc s j).ticks = s.ticks := by
  unfold State.foldExc; dsimp only; (repeat' split) <;> simp
@[simp] theorem State.countSheet_ticks (s : State) (j : Nat) (x : Job) : (State.countSheet s j x).ticks = s.ticks := by
  unfold State.countSheet; simp
@[simp] theorem State.closeSheet_ticks (s : State) (j : Nat) : (State.closeSheet s j).ticks = s.ticks := by
  unfold State.closeSheet; dsimp only; (repeat' split) <;> simp
@[simp] theorem State.endSheet_ticks (s : State) (j : Nat) (x : Job) : (State.endSheet s j x).ticks = s.ticks := by
  unfold State.endSheet; dsimp only; (repeat' split) <;> simp
@[simp] theorem State.faultVote_ticks (s : State) (j : Nat) (x : Job) : (State.faultVote s j x).ticks = s.ticks := by
  unfold State.faultVote; simp
@[simp] theorem State.tickJob_ticks (s : State) (j : Nat) : (State.tickJob s j).ticks = s.ticks := by
  unfold State.tickJob; dsimp only; (repeat' split) <;> simp
@[simp] theorem State.countModule_ticks (s : State) : (State.countModule s).ticks = s.ticks := by
  unfold State.countModule; simp
@[simp] theorem State.reamTick_ticks (s : State) : (State.reamTick s).ticks = s.ticks := by
  unfold State.reamTick; simp
@[simp] theorem State.stormRec_ticks (s : State) (r : ResIx) : (State.stormRec s r).ticks = s.ticks := by rfl
@[simp] theorem State.stormJobs_ticks (s : State) (js : List Nat) (r : ResIx) : (State.stormJobs s js r).ticks = s.ticks := by
  unfold State.stormJobs; simp
@[simp] theorem State.retireGroup_ticks (s : State) (m x : Nat) : (State.retireGroup s m x).ticks = s.ticks := by
  unfold State.retireGroup; dsimp only; (repeat' split) <;> simp
@[simp] theorem State.groupStorm_ticks (s : State) (m g : Nat) : (State.groupStorm s m g).ticks = s.ticks := by
  unfold State.groupStorm; dsimp only; (repeat' split) <;> simp
@[simp] theorem State.pcStormNow_ticks (s : State) (pc : Nat) : (State.pcStormNow s pc).ticks = s.ticks := by
  unfold State.pcStormNow; simp
@[simp] theorem State.damageKey_ticks (s : State) (j key : Nat) : (State.damageKey s j key).ticks = s.ticks := by
  unfold State.damageKey; (repeat' split) <;> simp
@[simp] theorem State.lostSector_ticks (s : State) (key : Nat) : (State.lostSector s key).ticks = s.ticks := by
  unfold State.lostSector; (repeat' split) <;> simp
@[simp] theorem State.lostGranule_ticks (s : State) (pc byte : Nat) : (State.lostGranule s pc byte).ticks = s.ticks := by
  unfold State.lostGranule; simp
@[simp] theorem State.endMigration_ticks (s : State) (pc : Nat) : (State.endMigration s pc).ticks = s.ticks := by rfl
@[simp] theorem State.scrubError_ticks (s : State) (pc byte : Nat) : (State.scrubError s pc byte).ticks = s.ticks := by
  unfold State.scrubError; dsimp only; (repeat' split) <;> simp
@[simp] theorem State.dropCtr_ticks (s : State) (gone : Nat → Bool) : (State.dropCtr s gone).ticks = s.ticks := by rfl
@[simp] theorem State.makeJob_ticks (s : State) (p : Port) (q : JobReq) (j : Nat) (g : Grant) : (State.makeJob s p q j g).ticks = s.ticks := by
  unfold State.makeJob; simp
@[simp] theorem State.placeImage_ticks (s : State) (j : Nat) (b : Bytes) : (State.placeImage s j b).ticks = s.ticks := by
  unfold State.placeImage; simp
@[simp] theorem State.routeLink_ticks (s : State) (old : Option Route) (new : Route) (k : Nat) : (State.routeLink s old new k).ticks = s.ticks := by
  unfold State.routeLink; dsimp only; (repeat' split) <;> simp
@[simp] theorem State.applyRoute_ticks (s : State) (new : Route) : (State.applyRoute s new).ticks = s.ticks := by
  unfold State.applyRoute; simp
@[simp] theorem State.replayLink_ticks (s : State) (js : List Nat) (contained : Bool) (code lane : Nat) : (State.replayLink s js contained code lane).ticks = s.ticks := by
  unfold State.replayLink; simp
@[simp] theorem State.downLink_ticks (s : State) (k : Nat) : (s.downLink k).ticks = s.ticks := by
  unfold State.downLink; dsimp only
  rw [State.ticks_each _ _ _ (fun s m => by (repeat' split) <;> simp), State.ticks_each _ _ _ (fun s m => by (repeat' split) <;> simp)]
  simp
@[simp] theorem State.retireLane_ticks (s : State) (k lane : Nat) : (State.retireLane s k lane).ticks = s.ticks := by
  unfold State.retireLane; simp
@[simp] theorem State.loseMembers_ticks (s : State) (lost : List Nat) : (s.loseMembers lost).ticks = s.ticks := by
  unfold State.loseMembers; dsimp only
  rw [State.ticks_each _ _ _ (fun s m => by (repeat' split) <;> simp), State.ticks_each _ _ _ (fun s m => by simp)]
@[simp] theorem State.retrainEnd_ticks (s : State) (k : Nat) (ok : Bool) (found : Option Training) : (State.retrainEnd s k ok found).ticks = s.ticks := by
  unfold State.retrainEnd; simp
@[simp] theorem State.hide_ticks (s : State) (h : FlitHdr) (payload : Bytes) : (State.hide s h payload).ticks = s.ticks := by
  unfold State.hide; (repeat' split) <;> simp
@[simp] theorem State.tell_ticks (s : State) (k cls tag : Nat) (payload : Bytes) : (State.tell s k cls tag payload).ticks = s.ticks := by
  unfold State.tell; simp
@[simp] theorem State.spanAfterMaster_ticks (s : State) (lost : Nat) (reachable : List Nat) (kept : Bool) (j : Nat) : (State.spanAfterMaster s lost reachable kept j).ticks = s.ticks := by
  unfold State.spanAfterMaster; (repeat' split) <;> simp
@[simp] theorem State.pingIn_ticks (s : State) (k stamp : Nat) : (State.pingIn s k stamp).ticks = s.ticks := by
  unfold State.pingIn; simp
@[simp] theorem State.pongIn_ticks (s : State) (k delay : Nat) : (State.pongIn s k delay).ticks = s.ticks := by
  unfold State.pongIn; simp
@[simp] theorem State.writeTail_ticks (s : State) (p : Port) (r : Nat) (v : Reg) : (State.writeTail s p r v).ticks = s.ticks := by
  unfold State.writeTail; simp
@[simp] theorem State.writeCqHead_ticks (s : State) (p : Port) (r : Nat) (v : Reg) : (State.writeCqHead s p r v).ticks = s.ticks := by
  unfold State.writeCqHead; simp
@[simp] theorem State.writeRingCfg_ticks (s : State) (p : Port) (r : Nat) (v : Reg) : (State.writeRingCfg s p r v).ticks = s.ticks := by
  unfold State.writeRingCfg; simp
@[simp] theorem State.writeEvCfg_ticks (s : State) (p : Port) (v : Reg) : (State.writeEvCfg s p v).ticks = s.ticks := by
  unfold State.writeEvCfg; simp
@[simp] theorem State.writeEvHead_ticks (s : State) (p : Port) (v : Reg) : (State.writeEvHead s p v).ticks = s.ticks := by
  unfold State.writeEvHead; simp
@[simp] theorem State.writeRecord_ticks (s : State) (p : Port) (e : EvRec) : (State.writeRecord s p e).ticks = s.ticks := by
  unfold State.writeRecord; simp
@[simp] theorem State.padRing_ticks (s : State) (p : Port) (n : Nat) : (State.padRing s p n).ticks = s.ticks := by
  unfold State.padRing; simp
@[simp] theorem State.reported_ticks (s : State) (e : EvRec) : (State.reported s e).ticks = s.ticks := by
  unfold State.reported; simp
@[simp] theorem State.snapshot_ticks (s : State) (p : Port) : (State.snapshot s p).ticks = s.ticks := by
  unfold State.snapshot; simp
@[simp] theorem State.writeSnap_ticks (s : State) (p : Port) (v : Reg) : (State.writeSnap s p v).ticks = s.ticks := by
  unfold State.writeSnap; simp
@[simp] theorem State.writeErrStatus_ticks (s : State) (p : Port) (v : Reg) : (State.writeErrStatus s p v).ticks = s.ticks := by
  unfold State.writeErrStatus; simp
@[simp] theorem State.writeValid_ticks (s : State) (p : Port) (hi : Bool) (v : Reg) : (State.writeValid s p hi v).ticks = s.ticks := by
  unfold State.writeValid; simp
@[simp] theorem State.unmask_ticks (s : State) (p : Port) (v : Nat) : (State.unmask s p v).ticks = s.ticks := by
  unfold State.unmask; simp
@[simp] theorem State.writeMsix_ticks (s : State) (p : Port) (o : Nat) (v : Reg) : (State.writeMsix s p o v).ticks = s.ticks := by
  unfold State.writeMsix; simp
@[simp] theorem State.writeDoor_ticks (s : State) (p : Port) (o : Nat) (v : Reg) : (State.writeDoor s p o v).ticks = s.ticks := by
  unfold State.writeDoor; dsimp only; (repeat' split) <;> simp
@[simp] theorem State.abort_ticks (s : State) (p : Port) : (State.abort s p).ticks = s.ticks := by
  unfold State.abort; simp
@[simp] theorem State.busError_ticks (s : State) (p : Port) (off : Nat) (write : Bool) (kind : Nat) : (State.busError s p off write kind).ticks = s.ticks := by
  unfold State.busError; simp
@[simp] theorem State.bar2Abort_ticks (s : State) (p : Port) (off : Nat) (write : Bool) (kind : Nat) : (State.bar2Abort s p off write kind).ticks = s.ticks := by
  unfold State.bar2Abort; simp
@[simp] theorem State.afterDrains_ticks (s : State) (n : Nat) (is : List Instr) : (State.afterDrains s n is).ticks = s.ticks := by rfl
@[simp] theorem State.storeLost_ticks (s : State) (n : Nat) : (State.storeLost s n).ticks = s.ticks := by
  unfold State.storeLost; simp
end Sys2Proof.Machine
end

