-- ==== Sys2Proof/Laws/TickFrame.lean ====
section
/-! SUPPORT. The tick number and the sheet period: the shared operations that answer an outcome leave them, and so does every command but those
listed in the claim on them. -/

namespace Sys2Proof.Machine

/-- The tick number, the sheet period and the one set for the next tick are the same. -/
def SameTicks (s t : State) : Prop := t.ticks = s.ticks
/-- The tick number and the sheet period in use are the same. -/
def SamePeriod (s t : State) : Prop := t.tick = s.tick ∧ t.period = s.period
theorem SamePeriod.trans {s t u : State} (h : SamePeriod s t) (k : SamePeriod t u) : SamePeriod s u := ⟨k.1.trans h.1, k.2.trans h.2⟩
theorem SameTicks.period {s t : State} (h : SameTicks s t) : SamePeriod s t :=
  ⟨congrArg (fun x : Nat × Nat × Nat => x.1) h, congrArg (fun x : Nat × Nat × Nat => x.2.1) h⟩
theorem SameTicks.trans {s t u : State} (h : SameTicks s t) (k : SameTicks t u) : SameTicks s u := Eq.trans k h
theorem each_ticks {α : Type} (s : State) (xs : List α) (f : State → α → State) (h : ∀ s x, SameTicks s (f s x)) : SameTicks s (s.each xs f) :=
  State.ticks_each _ _ _ fun s x => h s x

/-- What an operation of a core does keeps them. -/
theorem ticksRel : MemRel SameTicks where
  refl _ := rfl
  trans := SameTicks.trans
  core _ _ _ := by simp [SameTicks]
  job _ _ _ := by simp [SameTicks]
  close _ _ _ _ := by simp [SameTicks]
  program _ _ _ _ _ _ _ := by simp [SameTicks]
  stop _ _ _ := by simp [SameTicks]
  read _ _ _ _ _ _ _ _ := by simp [SameTicks]
  work _ _ _ _ := by simp [SameTicks]
  refresh _ _ _ _ _ := by simp [SameTicks]
  stream _ _ _ _ _ := by simp [SameTicks]
  store _ _ _ _ _ := by simp [SameTicks]
  tile _ _ _ _ _ _ := by simp [SameTicks]
  limb _ _ _ _ _ := by simp [SameTicks]
  cells _ _ _ _ _ _ := by simp [SameTicks]
  copy _ _ _ _ _ _ _ := by simp [SameTicks]
  ct _ _ _ _ _ _ := by simp [SameTicks]
theorem slotOp_ticks (s : State) (i : Issue) (c : Instr) : Leads (s.slotOp i c) (SameTicks s) :=
  ticksRel.slotOp (fun s n => by simp [SameTicks]) s i c
theorem spdmReq_ticks (s : State) (p : Port) (need code : Nat) (body : Bytes) (f : State → State) (hf : ∀ s, SameTicks s (f s)) :
    Leads (s.spdmReq p need code body f) (SameTicks s) := by
  unfold State.spdmReq; split
  · simp [SameTicks]
  split
  · simp [SameTicks]
  · exact (leads_next _ _).2 (SameTicks.trans (by simp [SameTicks]) (hf _))
theorem spdmSigned_ticks (s : State) (p : Port) (code : Nat) (body : Bytes) (f : State → State) (hf : ∀ s, SameTicks s (f s)) :
    Leads (s.spdmSigned p code body f) (SameTicks s) := by
  unfold State.spdmSigned; split
  · exact spdmReq_ticks _ _ _ _ _ _ fun _ => rfl
  · exact spdmReq_ticks _ _ _ _ _ _ hf
theorem inSession_ticks (s : State) (p : Port) (id : Nat) (est : Bool) (code : Nat) (f : State → State) (hf : ∀ s, SameTicks s (f s)) :
    Leads (s.inSession p id est code f) (SameTicks s) := by
  unfold State.inSession; split
  · exact spdmReq_ticks _ _ _ _ _ _ hf
  · exact spdmReq_ticks _ _ _ _ _ _ fun _ => rfl
theorem handleCommand_ticks (s : State) (p : Port) (r : Nat) (buf : Option Bytes) (first : Nat) : Leads (s.handleCommand p r buf first) (SameTicks s) := by
  unfold State.handleCommand; dsimp only; (repeat' split) <;> simp [SameTicks]
theorem powerCommand_ticks (s : State) (p : Port) (r : Nat) (up : Bool) : Leads (s.powerCommand p r up) (SameTicks s) := by
  unfold State.powerCommand; dsimp only; (repeat' split) <;> simp [SameTicks]
theorem execVinLow_ticks (vin : Nat) (s : State) : Leads (execVinLow vin s) (SameTicks s) := by
  unfold execVinLow; (repeat' split) <;> simp [SameTicks]
theorem execVinInOperatingRange_ticks (vin : Nat) (s : State) : Leads (execVinInOperatingRange vin s) (SameTicks s) := by
  unfold execVinInOperatingRange; (repeat' split) <;> simp [SameTicks]
theorem execFreeze_ticks (ns : Nat) (s : State) : Leads (execFreeze ns s) (SameTicks s) := by
  unfold execFreeze; (repeat' split) <;> simp [SameTicks]
theorem execPwrGood_ticks (moduleId : BitVec 3) (freezeN : Bool) (s : State) : Leads (execPwrGood moduleId freezeN s) (SameTicks s) := by
  unfold execPwrGood; (repeat' split) <;> simp [SameTicks]
theorem execMctpEventRead_ticks (dev : Nat) (s : State) : Leads (execMctpEventRead s dev) (SameTicks s) := by
  unfold execMctpEventRead; (repeat' split) <;> simp [SameTicks]
theorem execEepromWrite_ticks (dev addr : Nat) (data : Byte) (s : State) : Leads (execEepromWrite addr data s dev) (SameTicks s) := by
  unfold execEepromWrite; (repeat' split) <;> simp [SameTicks]
theorem execIntegratorCapSet_ticks (dev watts : Nat) (s : State) : Leads (execIntegratorCapSet watts s dev) (SameTicks s) := by
  unfold execIntegratorCapSet; (repeat' split) <;> simp [SameTicks]
theorem execThermalThrottleStep_ticks (m : Nat) (s : State) : Leads (execThermalThrottleStep m s) (SameTicks s) := by
  unfold execThermalThrottleStep; (repeat' split) <;> simp [SameTicks]
theorem execThermalRecoveryStep_ticks (m : Nat) (s : State) : Leads (execThermalRecoveryStep m s) (SameTicks s) := by
  unfold execThermalRecoveryStep; (repeat' split) <;> simp [SameTicks]
theorem execRegulatorCapStep_ticks (s : State) : Leads (execRegulatorCapStep s) (SameTicks s) := by
  unfold execRegulatorCapStep; (repeat' split) <;> simp [SameTicks]
theorem execRegulatorCapRestore_ticks (s : State) : Leads (execRegulatorCapRestore s) (SameTicks s) := by
  unfold execRegulatorCapRestore; (repeat' split) <;> simp [SameTicks]
theorem execSensorCalibration_ticks (s : State) : Leads (execSensorCalibration s) (SameTicks s) := by
  unfold execSensorCalibration; simp [SameTicks]
theorem execHardwareLimiter_ticks (watts : Nat) (s : State) : Leads (execHardwareLimiter watts s) (SameTicks s) := by
  unfold execHardwareLimiter; (repeat' split) <;> simp [SameTicks]
theorem execLimiterRelease_ticks (watts : Nat) (s : State) : Leads (execLimiterRelease watts s) (SameTicks s) := by
  unfold execLimiterRelease; (repeat' split) <;> simp [SameTicks]
theorem execFirmwareCapEval_ticks (watts ranks : Nat) (pt : CapPoint) (s : State) : Leads (execFirmwareCapEval watts ranks pt s) (SameTicks s) := by
  unfold execFirmwareCapEval; dsimp only; (repeat' split) <;> simp [SameTicks]
theorem execFirmwareRestore_ticks (watts m : Nat) (byDuty : Bool) (s : State) : Leads (execFirmwareRestore watts m byDuty s) (SameTicks s) := by
  unfold execFirmwareRestore; dsimp only; (repeat' split) <;> simp [SameTicks]
theorem execDividerRampStep_ticks (d : Nat) (s : State) : Leads (execDividerRampStep d s) (SameTicks s) := by
  unfold execDividerRampStep; (repeat' split) <;> simp [SameTicks]
theorem execRailRaised_ticks (m : Nat) (s : State) : Leads (execRailRaised m s) (SameTicks s) := by
  unfold execRailRaised; (repeat' split) <;> simp [SameTicks]
theorem execFirmwareVerified_ticks (s : State) : Leads (execFirmwareVerified s) (SameTicks s) := by
  unfold execFirmwareVerified; (repeat' split) <;> simp [SameTicks]
theorem execRecoveryImage_ticks (img : FwImage) (s : State) : Leads (execRecoveryImage img s) (SameTicks s) := by
  unfold execRecoveryImage; (repeat' split) <;> simp [SameTicks]
theorem execSecurityReady_ticks (s : State) : Leads (execSecurityReady s) (SameTicks s) := by
  unfold execSecurityReady; (repeat' split) <;> simp [SameTicks]
theorem execSvnAdvance_ticks (s : State) (blown : Nat) : Leads (execSvnAdvance s blown) (SameTicks s) := by
  unfold execSvnAdvance; (repeat' split) <;> simp [SameTicks]
theorem execFwUpdate_ticks (p : Port) (r : Nat) (img : Option FwImage) (s : State) : Leads (execFwUpdate p r img s) (SameTicks s) := by
  unfold execFwUpdate; (repeat' split) <;> simp [SameTicks]
theorem execFwUpdateDone_ticks (p : Port) (r : Nat) (s : State) : Leads (execFwUpdateDone p r s) (SameTicks s) := by
  unfold execFwUpdateDone; (repeat' split) <;> simp [SameTicks]
theorem execDebugUnlock_ticks (p : Port) (r : Nat) (t : Option Bytes) (c : Checks) (s : State) : Leads (execDebugUnlock p r t c s) (SameTicks s) := by
  unfold execDebugUnlock; simp [SameTicks]
theorem execAdminPortChange_ticks (p : Port) (r : Nat) (t : Option Bytes) (c : Checks) (s : State) : Leads (execAdminPortChange p r t c s) (SameTicks s) := by
  unfold execAdminPortChange; simp [SameTicks]
theorem execRetire_ticks (p : Port) (r : Nat) (t : Option Bytes) (c : Checks) (s : State) : Leads (execRetire p r t c s) (SameTicks s) := by
  unfold execRetire; simp [SameTicks]
theorem execPkeOperationDone_ticks (owner : PkeOwner) (op : PkeOp) (operands : List (BitVec 8)) (arrived : List PkeReq) (s : State) :
    Leads (execPkeOperationDone owner op operands arrived s) (SameTicks s) := by
  unfold execPkeOperationDone; dsimp only; (repeat' split) <;> simp [SameTicks]
theorem execGetVersion_ticks (p : Port) (s : State) : Leads (execGetVersion p s) (SameTicks s) := by
  unfold execGetVersion; apply spdmReq_ticks; intro s; simp [SameTicks]
theorem execGetCapabilities_ticks (p : Port) (s : State) : Leads (execGetCapabilities p s) (SameTicks s) := by
  unfold execGetCapabilities; apply spdmReq_ticks; intro s; simp [SameTicks]
theorem execNegotiateAlgorithms_ticks (p : Port) (offered : Bool) (s : State) : Leads (execNegotiateAlgorithms p offered s) (SameTicks s) := by
  unfold execNegotiateAlgorithms; split <;> (apply spdmReq_ticks; intro s; simp [SameTicks])
theorem execGetDigests_ticks (p : Port) (s : State) : Leads (execGetDigests p s) (SameTicks s) := by
  unfold execGetDigests; apply spdmReq_ticks; intro s; simp [SameTicks]
theorem execGetCertificate_ticks (p : Port) (slot : Nat) (s : State) : Leads (execGetCertificate p slot s) (SameTicks s) := by
  unfold execGetCertificate; split <;> (apply spdmReq_ticks; intro s; simp [SameTicks])
theorem execChallenge_ticks (p : Port) (slot : Nat) (nonce : Bytes) (s : State) : Leads (execChallenge p slot nonce s) (SameTicks s) := by
  unfold execChallenge; dsimp only; split <;> first | (apply spdmSigned_ticks; intro s; simp [SameTicks]) | (apply spdmReq_ticks; intro s; simp [SameTicks])
theorem execGetMeasurements_ticks (p : Port) (index : Nat) (nonce : Bytes) (s : State) : Leads (execGetMeasurements p index nonce s) (SameTicks s) := by
  unfold execGetMeasurements; dsimp only; split <;> first | (apply spdmSigned_ticks; intro s; simp [SameTicks]) | (apply spdmReq_ticks; intro s; simp [SameTicks])
theorem execKeyExchange_ticks (p : Port) (peer : Bytes) (s : State) : Leads (execKeyExchange p peer s) (SameTicks s) := by
  unfold execKeyExchange; dsimp only; split <;> first | (apply spdmSigned_ticks; intro s; simp [SameTicks]) | (apply spdmReq_ticks; intro s; simp [SameTicks])
theorem execFinish_ticks (p : Port) (session : Nat) (s : State) : Leads (execFinish p session s) (SameTicks s) := by
  unfold execFinish; apply inSession_ticks; intro s; simp [SameTicks]
theorem execSpdmHeartbeat_ticks (p : Port) (session : Nat) (s : State) : Leads (execSpdmHeartbeat p session s) (SameTicks s) := by
  unfold execSpdmHeartbeat; apply inSession_ticks; intro s; simp [SameTicks]
theorem execKeyUpdate_ticks (p : Port) (session : Nat) (s : State) : Leads (execKeyUpdate p session s) (SameTicks s) := by
  unfold execKeyUpdate; apply inSession_ticks; intro s; simp [SameTicks]
theorem execEndSession_ticks (p : Port) (session : Nat) (s : State) : Leads (execEndSession p session s) (SameTicks s) := by
  unfold execEndSession; apply inSession_ticks; intro s; simp [SameTicks]
theorem execIdeKmKeyProg_ticks (p : Port) (session stream : Nat) (rx : Bool) (s : State) : Leads (execIdeKmKeyProg p session stream rx s) (SameTicks s) := by
  unfold execIdeKmKeyProg; split <;> first | (apply inSession_ticks; intro s; simp [SameTicks]) | simp [SameTicks]
theorem execKSetGo_ticks (p : Port) (session stream : Nat) (s : State) : Leads (execKSetGo p session stream s) (SameTicks s) := by
  unfold execKSetGo; split <;> first | (apply inSession_ticks; intro s; simp [SameTicks]) | simp [SameTicks]
theorem execPcieEqualisation_ticks (_p : Port) (s : State) : Leads (execPcieEqualisation _p s) (SameTicks s) := by
  unfold execPcieEqualisation; simp [SameTicks]
theorem execScalarResultWritten_ticks (core : Nat) (s : State) : Leads (execScalarResultWritten core s) (SameTicks s) := by
  unfold execScalarResultWritten; dsimp only; (repeat' split) <;> simp [SameTicks]
theorem execLoadDataDelivered_ticks (core : Nat) (e : ReadErr) (s : State) : Leads (execLoadDataDelivered core e s) (SameTicks s) := by
  unfold execLoadDataDelivered; dsimp only; (repeat' split) <;> simp [SameTicks]
theorem execStoreAcknowledged_ticks (core : Nat) (e : ReadErr) (s : State) : Leads (execStoreAcknowledged core e s) (SameTicks s) := by
  unfold execStoreAcknowledged; dsimp only; (repeat' split) <;> simp [SameTicks]
theorem execSigApplied_ticks (core : Nat) (s : State) : Leads (execSigApplied core s) (SameTicks s) := by
  unfold execSigApplied; dsimp only; (repeat' split) <;> simp [SameTicks]
theorem execSigMessage_ticks (span sem k : Nat) (s : State) (arr : Option Arrival) : Leads (execSigMessage span sem k s arr) (SameTicks s) := by
  unfold execSigMessage; (repeat' split) <;> simp [SameTicks]
theorem execReplayQuiesceDone_ticks (j : Nat) (s : State) : Leads (execReplayQuiesceDone j s) (SameTicks s) := by
  unfold execReplayQuiesceDone; (repeat' split) <;> simp [SameTicks]
theorem execPerstAssert_ticks (p : Port) (s : State) : Leads (execPerstAssert p s) (SameTicks s) := by
  unfold execPerstAssert; dsimp only; (repeat' split) <;> simp [SameTicks]
theorem execPerstDeassert_ticks (p : Port) (refclk : Bool) (s : State) : Leads (execPerstDeassert p s refclk) (SameTicks s) := by
  unfold execPerstDeassert; (repeat' split) <;> simp [SameTicks]
theorem execHotReset_ticks (p : Port) (s : State) : Leads (execHotReset p s) (SameTicks s) := by
  unfold execHotReset; (repeat' split) <;> simp [SameTicks]
theorem execFlr_ticks (p : Port) (s : State) : Leads (execFlr p s) (SameTicks s) := by
  unfold execFlr; simp [SameTicks]
theorem execD3hotEntry_ticks (p : Port) (s : State) : Leads (execD3hotEntry p s) (SameTicks s) := by
  unfold execD3hotEntry; (repeat' split) <;> simp [SameTicks]
theorem execPortLinkUp_ticks (p : Port) (gts width : Nat) (reversed : Bool) (polarity : BitVec 16) (s : State) : Leads (execPortLinkUp p gts width s reversed polarity) (SameTicks s) := by
  unfold execPortLinkUp; (repeat' split) <;> simp [SameTicks]
theorem execClockMonitorWindow_ticks (ref : Source) (count : Nat) (s : State) : Leads (execClockMonitorWindow count s ref) (SameTicks s) := by
  unfold execClockMonitorWindow; (repeat' split) <;> simp [SameTicks]
theorem execReferenceEdgeTimeout_ticks (ref : Source) (s : State) : Leads (execReferenceEdgeTimeout s ref) (SameTicks s) := by
  unfold execReferenceEdgeTimeout; (repeat' split) <;> simp [SameTicks]
theorem execPllRelock_ticks (s : State) : Leads (execPllRelock s) (SameTicks s) := by
  unfold execPllRelock; (repeat' split) <;> simp [SameTicks]
theorem execSysrefQualified_ticks (s : State) : Leads (execSysrefQualified s) (SameTicks s) := by
  unfold execSysrefQualified; (repeat' split) <;> simp [SameTicks]
theorem execCrystalRecovered_ticks (s : State) : Leads (execCrystalRecovered s) (SameTicks s) := by
  unfold execCrystalRecovered; (repeat' split) <;> simp [SameTicks]
theorem execFmcStart_ticks (p : Port) (v : Reg) (s : State) : Leads (execFmcStart p v s) (SameTicks s) := by
  unfold execFmcStart; (repeat' split) <;> simp [SameTicks]
theorem execFmcDone_ticks (p : Port) (count : Nat) (stopped : Bool) (s : State) : Leads (execFmcDone p count stopped s) (SameTicks s) := by
  unfold execFmcDone; (repeat' split) <;> simp [SameTicks]
theorem execEssArm_ticks (p : Port) (v : Reg) (s : State) : Leads (execEssArm p v s) (SameTicks s) := by
  unfold execEssArm; simp [SameTicks]
theorem execEssArmLapse_ticks (p : Port) (s : State) : Leads (execEssArmLapse p s) (SameTicks s) := by
  unfold execEssArmLapse; (repeat' split) <;> simp [SameTicks]
theorem execEssKill_ticks (p : Port) (v : Reg) (s : State) : Leads (execEssKill p v s) (SameTicks s) := by
  unfold execEssKill; simp [SameTicks]
theorem execEssFlr_ticks (p : Port) (v : Reg) (s : State) : Leads (execEssFlr p v s) (SameTicks s) := by
  unfold execEssFlr; simp [SameTicks]
theorem execHeartbeat_ticks (s : State) : Leads (execHeartbeat s) (SameTicks s) := by
  unfold execHeartbeat; (repeat' split) <;> simp [SameTicks]
theorem execHbStale_ticks (us : Nat) (s : State) : Leads (execHbStale us s) (SameTicks s) := by
  unfold execHbStale; (repeat' split) <;> simp [SameTicks]
theorem execFusesSensed_ticks (s : State) : Leads (execFusesSensed s) (SameTicks s) := by
  unfold execFusesSensed; (repeat' split) <;> simp [SameTicks]
theorem execEepromFieldsRead_ticks (readable : Bool) (s : State) : Leads (execEepromFieldsRead readable s) (SameTicks s) := by
  unfold execEepromFieldsRead; (repeat' split) <;> simp [SameTicks]
theorem execConfigSpaceReady_ticks (p : Port) (s : State) : Leads (execConfigSpaceReady p s) (SameTicks s) := by
  unfold execConfigSpaceReady; (repeat' split) <;> simp [SameTicks]
theorem execMillSramReady_ticks (m : Nat) (badGroups : List Nat) (s : State) : Leads (execMillSramReady m badGroups s) (SameTicks s) := by
  unfold execMillSramReady; (repeat' split) <;> simp [SameTicks]
theorem execMillCoresReady_ticks (m : Nat) (badSlots : List Nat) (s : State) : Leads (execMillCoresReady m badSlots s) (SameTicks s) := by
  unfold execMillCoresReady; (repeat' split) <;> simp [SameTicks]
theorem execHbmReady_ticks (st : Nat) (trained : Bool) (data cmd : List (Nat × Nat)) (s : State) : Leads (execHbmReady st trained data cmd s) (SameTicks s) := by
  unfold execHbmReady; dsimp only; (repeat' split) <;> simp [SameTicks]
theorem execFirmwareRestarted_ticks (s : State) : Leads (execFirmwareRestarted s) (SameTicks s) := by
  unfold execFirmwareRestarted; (repeat' split) <;> simp [SameTicks]
theorem execMmaLastResult_ticks (core : Nat) (o : OBuf) (e : EngCheck) (s : State) : Leads (execMmaLastResult core o e s) (SameTicks s) := by
  unfold execMmaLastResult; dsimp only; (repeat' split) <;> simp [SameTicks]
theorem execDrainComplete_ticks (core : Nat) (o : OBuf) (e : EngCheck) (s : State) : Leads (execDrainComplete core o e s) (SameTicks s) := by
  unfold execDrainComplete; dsimp only; (repeat' split) <;> simp [SameTicks]
theorem execNttLimbWritten_ticks (core : Nat) (e : EngCheck) (s : State) : Leads (execNttLimbWritten core e s) (SameTicks s) := by
  unfold execNttLimbWritten; dsimp only; (repeat' split) <;> simp [SameTicks]
theorem execVectorResultWritten_ticks (core : Nat) (e : EngCheck) (s : State) : Leads (execVectorResultWritten core e s) (SameTicks s) := by
  unfold execVectorResultWritten; dsimp only; (repeat' split) <;> simp [SameTicks]
theorem execXcopyStagingGranted_ticks (core : Nat) (queue : BitVec 1) (s : State) : Leads (execXcopyStagingGranted core queue s) (SameTicks s) := by
  unfold execXcopyStagingGranted; dsimp only; (repeat' split) <;> simp [SameTicks]
theorem execXcopyComplete_ticks (core : Nat) (queue : BitVec 1) (e : EngCheck) (s : State) : Leads (execXcopyComplete core queue e s) (SameTicks s) := by
  unfold execXcopyComplete; dsimp only; (repeat' split) <;> simp [SameTicks]
theorem execXcRaceSeenWrite_ticks (p : Port) (v : Reg) (s : State) : Leads (execXcRaceSeenWrite p v s) (SameTicks s) := by
  unfold execXcRaceSeenWrite; (repeat' split) <;> simp [SameTicks]
theorem execStreamElementComplete_ticks (core channel upTo : Nat) (host : Bytes) (e : ReadErr) (s : State) : Leads (execStreamElementComplete core channel host e s upTo) (SameTicks s) := by
  unfold execStreamElementComplete; dsimp only; (repeat' split) <;> simp [SameTicks]
theorem execAtsTranslationCompletion_ticks (p : Port) (pasid page : Nat) (x : Option Xlat) (s : State) : Leads (execAtsTranslationCompletion p pasid page x s) (SameTicks s) := by
  unfold execAtsTranslationCompletion; dsimp only; (repeat' split) <;> simp [SameTicks]
theorem execPageRequest_ticks (p : Port) (pasid page : Nat) (s : State) : Leads (execPageRequest p pasid page s) (SameTicks s) := by
  unfold execPageRequest; dsimp only; (repeat' split) <;> simp [SameTicks]
theorem execPageResponse_ticks (p : Port) (pasid page : Nat) (r : PageResp) (s : State) : Leads (execPageResponse p pasid page r s) (SameTicks s) := by
  unfold execPageResponse; dsimp only; (repeat' split) <;> simp [SameTicks]
theorem execPageTimeout_ticks (j : Nat) (stream : Option (Nat × Nat)) (s : State) (ring : Option (Port × Nat)) : Leads (execPageTimeout j stream s ring) (SameTicks s) := by
  unfold execPageTimeout; (repeat' split) <;> simp [SameTicks]
theorem execAtsInvalidation_ticks (p : Port) (pasid page len : Nat) (s : State) : Leads (execAtsInvalidation p pasid page len s) (SameTicks s) := by
  unfold execAtsInvalidation; (repeat' split) <;> simp [SameTicks]
theorem execPriReset_ticks (p : Port) (ats pri pasid : Bool) (alloc : Nat) (s : State) : Leads (execPriReset p ats pri pasid s alloc) (SameTicks s) := by
  unfold execPriReset; (repeat' split) <;> simp [SameTicks]
theorem execCiphertextOutputWritten_ticks (core : Nat) (e : EngCheck) (s : State) : Leads (execCiphertextOutputWritten core e s) (SameTicks s) := by
  unfold execCiphertextOutputWritten; dsimp only; (repeat' split) <;> simp [SameTicks]
theorem execKeyIngest_ticks (p : Port) (r : Nat) (src : Option Bytes) (s : State) : Leads (execKeyIngest p r src s) (SameTicks s) := by
  unfold execKeyIngest; (repeat' split) <;> simp [SameTicks]
theorem execKeyIngestComplete_ticks (p : Port) (r : Nat) (s : State) : Leads (execKeyIngestComplete p r s) (SameTicks s) := by
  unfold execKeyIngestComplete; dsimp only; (repeat' split) <;> simp [SameTicks]
theorem execKeysetBind_ticks (p : Port) (r : Nat) (buf : Option Bytes) (s : State) : Leads (execKeysetBind p r buf s) (SameTicks s) := by
  unfold execKeysetBind; dsimp only; (repeat' split) <;> simp [SameTicks]
theorem execKeysetUnbind_ticks (p : Port) (r : Nat) (s : State) : Leads (execKeysetUnbind p r s) (SameTicks s) := by
  unfold execKeysetUnbind; dsimp only; (repeat' split) <;> simp [SameTicks]
theorem execKeyringBindComplete_ticks (p : Port) (r : Nat) (s : State) : Leads (execKeyringBindComplete p r s) (SameTicks s) := by
  unfold execKeyringBindComplete; (repeat' split) <;> simp [SameTicks]
theorem execKeyringIncomplete_ticks (p : Port) (r : Nat) (s : State) : Leads (execKeyringIncomplete p r s) (SameTicks s) := by
  unfold execKeyringIncomplete; (repeat' split) <;> simp [SameTicks]
theorem execKeySelfcheck_ticks (p : Port) (r : Nat) (ok : Bool) (s : State) (written : Nat) : Leads (execKeySelfcheck p r ok s written) (SameTicks s) := by
  unfold execKeySelfcheck; dsimp only; (repeat' split) <;> simp [SameTicks]
theorem execKeyBlockAcknowledged_ticks (m stream core : Nat) (e : HbCheck) (s : State) : Leads (execKeyBlockAcknowledged m stream core e s) (SameTicks s) := by
  unfold execKeyBlockAcknowledged; (repeat' split) <;> simp [SameTicks]
theorem execPassRequest_ticks (link src : Nat) (keyset : Bytes) (index d0 d1 : Nat) (s : State) (arr : Option Arrival) : Leads (execPassRequest link src keyset index d0 d1 s arr) (SameTicks s) := by
  unfold execPassRequest; (repeat' split) <;> simp [SameTicks]
theorem execKeyMessage_ticks (link : Nat) (h : FlitHdr) (keyset : Bytes) (payload : Bytes) (s : State) (line : FlitLine) (cls : Nat) : Leads (execKeyMessage link h keyset payload s line cls) (SameTicks s) := by
  unfold execKeyMessage; (repeat' split) <;> simp [SameTicks]
theorem execHandleMap_ticks (p : Port) (r : Nat) (buf : Option Bytes) (s : State) : Leads (execHandleMap p r buf s) (SameTicks s) := by unfold execHandleMap; exact handleCommand_ticks ..
theorem execHandleUnmap_ticks (p : Port) (r : Nat) (buf : Option Bytes) (s : State) : Leads (execHandleUnmap p r buf s) (SameTicks s) := by unfold execHandleUnmap; exact handleCommand_ticks ..
theorem execWindowOpen_ticks (p : Port) (r : Nat) (buf : Option Bytes) (s : State) : Leads (execWindowOpen p r buf s) (SameTicks s) := by unfold execWindowOpen; exact handleCommand_ticks ..
theorem execWindowClose_ticks (p : Port) (r : Nat) (buf : Option Bytes) (s : State) : Leads (execWindowClose p r buf s) (SameTicks s) := by unfold execWindowClose; exact handleCommand_ticks ..
theorem execBankPowerDown_ticks (p : Port) (r : Nat) (s : State) : Leads (execBankPowerDown p r s) (SameTicks s) := by unfold execBankPowerDown; exact powerCommand_ticks ..
theorem execBankPowerUp_ticks (p : Port) (r : Nat) (s : State) : Leads (execBankPowerUp p r s) (SameTicks s) := by unfold execBankPowerUp; exact powerCommand_ticks ..
theorem execBankGroupDark_ticks (m g : Nat) (s : State) : Leads (execBankGroupDark m g s) (SameTicks s) := by
  unfold execBankGroupDark; dsimp only; (repeat' split) <;> simp [SameTicks]
theorem execBankGroupWiped_ticks (m g : Nat) (s : State) : Leads (execBankGroupWiped m g s) (SameTicks s) := by
  unfold execBankGroupWiped; dsimp only; (repeat' split) <;> simp [SameTicks]
theorem execBankGroupOff_ticks (m g : Nat) (s : State) : Leads (execBankGroupOff m g s) (SameTicks s) := by
  unfold execBankGroupOff; (repeat' split) <;> simp [SameTicks]
theorem execEvacuationDone_ticks (m g : Nat) (ok : Bool) (s : State) : Leads (execEvacuationDone m g ok s) (SameTicks s) := by
  unfold execEvacuationDone; dsimp only; (repeat' split) <;> simp [SameTicks]
theorem execReleaseComplete_ticks (j n : Nat) (e : ReadErr) (s : State) : Leads (execReleaseComplete j s n e) (SameTicks s) := by
  unfold execReleaseComplete; dsimp only; (repeat' split) <;> simp [SameTicks]
theorem execReleaseEnd_ticks (span stream seq bytes : Nat) (s : State) (arr : Option Arrival) : Leads (execReleaseEnd span stream seq bytes s arr) (SameTicks s) := by
  unfold execReleaseEnd; (repeat' split) <;> simp [SameTicks]
theorem execGrant_ticks (span stream credits : Nat) (s : State) (arr : Option Arrival) : Leads (execGrant span stream credits s arr) (SameTicks s) := by
  unfold execGrant; (repeat' split) <;> simp [SameTicks]
theorem execSelftestCore_ticks (p : Port) (r : Nat) (s : State) : Leads (execSelftestCore p r s) (SameTicks s) := by
  unfold execSelftestCore; dsimp only; (repeat' split) <;> simp [SameTicks]
theorem execSelftestModule_ticks (p : Port) (r : Nat) (s : State) : Leads (execSelftestModule p r s) (SameTicks s) := by
  unfold execSelftestModule; (repeat' split) <;> simp [SameTicks]
theorem execSelftestTurn_ticks (m : Nat) (s : State) : Leads (execSelftestTurn m s) (SameTicks s) := by
  unfold execSelftestTurn; (repeat' split) <;> simp [SameTicks]
theorem execScanDone_ticks (b : Block) (pass : Bool) (s : State) (sig : Nat) : Leads (execScanDone b pass s sig) (SameTicks s) := by
  unfold execScanDone; dsimp only; (repeat' split) <;> simp [SameTicks]
theorem execJtagAccess_ticks (t : JtagTarget) (trstN : Bool) (s : State) : Leads (execJtagAccess t s trstN) (SameTicks s) := by
  unfold execJtagAccess; (repeat' split) <;> simp [SameTicks]
theorem execCouchCommit_ticks (j : Nat) (s : State) : Leads (execCouchCommit j s) (SameTicks s) := by
  unfold execCouchCommit; (repeat' split) <;> simp [SameTicks]
theorem execRoleFoldComplete_ticks (j : Nat) (s : State) : Leads (execRoleFoldComplete j s) (SameTicks s) := by
  unfold execRoleFoldComplete; (repeat' split) <;> simp [SameTicks]
theorem execCoreHalted_ticks (core : Nat) (s : State) : Leads (execCoreHalted core s) (SameTicks s) := by
  unfold execCoreHalted; dsimp only; (repeat' split) <;> simp [SameTicks]
theorem execInterludeResume_ticks (j : Nat) (s : State) : Leads (execInterludeResume j s) (SameTicks s) := by
  unfold execInterludeResume; (repeat' split) <;> simp [SameTicks]
theorem execRepulpTableBuilt_ticks (i : Nat) (s : State) : Leads (execRepulpTableBuilt i s) (SameTicks s) := by
  unfold execRepulpTableBuilt; (repeat' split) <;> simp [SameTicks]
theorem execVote_ticks (span m seq : Nat) (v : Vote) (divK duty : Nat) (dead : Bool) (s : State) (arr : Option Arrival) : Leads (execVote span m seq v divK duty dead s arr) (SameTicks s) := by
  unfold execVote; (repeat' split) <;> simp [SameTicks]
theorem execDecision_ticks (span seq : Nat) (d : Decision) (s : State) (arr : Option Arrival) (lost : Bool) : Leads (execDecision span seq d s arr lost) (SameTicks s) := by
  unfold execDecision; (repeat' split) <;> simp [SameTicks]
theorem execVoteTimeout_ticks (span m : Nat) (s : State) : Leads (execVoteTimeout span m s) (SameTicks s) := by
  unfold execVoteTimeout; dsimp only; (repeat' split) <;> simp [SameTicks]
theorem execDecisionTimeout_ticks (span : Nat) (s : State) : Leads (execDecisionTimeout span s) (SameTicks s) := by
  unfold execDecisionTimeout; (repeat' split) <;> simp [SameTicks]
theorem execDecisionRequest_ticks (span m seq : Nat) (s : State) (arr : Option Arrival) : Leads (execDecisionRequest span m seq s arr) (SameTicks s) := by
  unfold execDecisionRequest; (repeat' split) <;> simp [SameTicks]
theorem execInterludeCouch_ticks (j : Nat) (s : State) : Leads (execInterludeCouch j s) (SameTicks s) := by
  unfold execInterludeCouch; (repeat' split) <;> simp [SameTicks]
theorem macroSheet_ticks (s : State) (j : Nat) (finished last : Bool) : Leads (s.macroSheet j finished last) (SameTicks s) := by
  unfold State.macroSheet; dsimp only; (repeat' split) <;> simp [SameTicks]
theorem execMacroSheetCouch_ticks (j : Nat) (finished last : Bool) (s : State) (bad : Option Nat) : Leads (execMacroSheetCouch j finished last s bad) (SameTicks s) := by
  unfold execMacroSheetCouch; split
  · split <;> simp [SameTicks]
  · exact macroSheet_ticks ..
theorem execStart_ticks (span tick hops : Nat) (agree : Bool) (s : State) (arr : Option Arrival) : Leads (execStart span tick hops agree s arr) (SameTicks s) := by
  unfold execStart; (repeat' split) <;> simp [SameTicks]
theorem execSpanSubmitTimeout_ticks (span : Nat) (s : State) : Leads (execSpanSubmitTimeout span s) (SameTicks s) := by
  unfold execSpanSubmitTimeout; (repeat' split) <;> simp [SameTicks]
theorem execStop_ticks (span cause : Nat) (s : State) (arr : Option Arrival) : Leads (execStop span cause s arr) (SameTicks s) := by
  unfold execStop; (repeat' split) <;> simp [SameTicks]
theorem execReamBoundary_ticks (s : State) : Leads (execReamBoundary s) (SameTicks s) := by
  unfold execReamBoundary; (repeat' split) <;> simp [SameTicks]
theorem execScheduleOverrun_ticks (j : Nat) (s : State) : Leads (execScheduleOverrun j s) (SameTicks s) := by
  unfold execScheduleOverrun; (repeat' split) <;> simp [SameTicks]
theorem execTickMessageSend_ticks (s : State) : Leads (execTickMessageSend s) (SameTicks s) := by
  unfold execTickMessageSend; (repeat' split) <;> simp [SameTicks]
theorem execCorrectionStorm_ticks (r : StormRes) (n : Nat) (s : State) : Leads (execCorrectionStorm r n s) (SameTicks s) := by
  unfold execCorrectionStorm; (repeat' split) <;> simp [SameTicks]
theorem execPcRetrain_ticks (pc : Nat) (s : State) : Leads (execPcRetrain pc s) (SameTicks s) := by
  unfold execPcRetrain; dsimp only; (repeat' split) <;> simp [SameTicks]
theorem execPcRetrainDone_ticks (pc data cmd : Nat) (s : State) : Leads (execPcRetrainDone pc data cmd s) (SameTicks s) := by
  unfold execPcRetrainDone; dsimp only; (repeat' split) <;> simp [SameTicks]
theorem execMigrationDone_ticks (pc : Nat) (lost : List Nat) (s : State) : Leads (execMigrationDone pc lost s) (SameTicks s) := by
  unfold execMigrationDone; (repeat' split) <;> simp [SameTicks]
theorem execUnitFilled_ticks (m k : Nat) (s : State) : Leads (execUnitFilled m k s) (SameTicks s) := by
  unfold execUnitFilled; dsimp only; (repeat' split) <;> simp [SameTicks]
theorem execSelfRefreshIdle_ticks (st : Nat) (s : State) : Leads (execSelfRefreshIdle st s) (SameTicks s) := by
  unfold execSelfRefreshIdle; (repeat' split) <;> simp [SameTicks]
theorem execPatrolScrub_ticks (pc byte corrected : Nat) (e : ReadErr) (s : State) : Leads (execPatrolScrub pc byte corrected e s) (SameTicks s) := by
  unfold execPatrolScrub; (repeat' split) <;> simp [SameTicks]
theorem execJobCreate_ticks (p : Port) (r : Nat) (s : State) : Leads (execJobCreate p r s) (SameTicks s) := by
  unfold execJobCreate; dsimp only; (repeat' split) <;> simp [SameTicks]
theorem execJobKill_ticks (p : Port) (r : Nat) (s : State) : Leads (execJobKill p r s) (SameTicks s) := by
  unfold execJobKill; (repeat' split) <;> simp [SameTicks]
theorem execJobWiped_ticks (j : Nat) (s : State) : Leads (execJobWiped j s) (SameTicks s) := by
  unfold execJobWiped; (repeat' split) <;> simp [SameTicks]
theorem execProgramLoad_ticks (p : Port) (r : Nat) (img : Option Bytes) (s : State) : Leads (execProgramLoad p r img s) (SameTicks s) := by
  unfold execProgramLoad; dsimp only; (repeat' split) <;> simp [SameTicks]
theorem execSubmit_ticks (p : Port) (r : Nat) (s : State) : Leads (execSubmit p r s) (SameTicks s) := by
  unfold execSubmit; dsimp only; (repeat' split) <;> simp [SameTicks]
theorem execLinkRoute_ticks (p : Port) (r : Nat) (buf : Option Bytes) (s : State) : Leads (execLinkRoute p r buf s) (SameTicks s) := by
  unfold execLinkRoute; dsimp only; (repeat' split) <;> simp [SameTicks]
theorem execLinkTrained_ticks (k : Nat) (lanes polarity : BitVec 5) (peer peerLink delay : Nat) (peerEncrypt : Bool) (s : State) : Leads (execLinkTrained k lanes peer peerLink delay peerEncrypt s polarity) (SameTicks s) := by
  unfold execLinkTrained; (repeat' split) <;> simp [SameTicks]
theorem execLinkTrainingRetry_ticks (k : Nat) (s : State) : Leads (execLinkTrainingRetry k s) (SameTicks s) := by
  unfold execLinkTrainingRetry; (repeat' split) <;> simp [SameTicks]
theorem execLaneRecalibration_ticks (k lane : Nat) (ok : Bool) (s : State) (begins : Bool) : Leads (execLaneRecalibration k lane ok s begins) (SameTicks s) := by
  unfold execLaneRecalibration; (repeat' split) <;> simp [SameTicks]
theorem execLaneRetired_ticks (k lane corrections : Nat) (s : State) : Leads (execLaneRetired k lane corrections s) (SameTicks s) := by
  unfold execLaneRetired; (repeat' split) <;> simp [SameTicks]
theorem execLinkRetryExhausted_ticks (k resent quietUs : Nat) (s : State) : Leads (execLinkRetryExhausted k resent quietUs s) (SameTicks s) := by
  unfold execLinkRetryExhausted; (repeat' split) <;> simp [SameTicks]
theorem execLinkRetrainDone_ticks (k : Nat) (ok : Bool) (s : State) (found : Option Training) (lost : List Nat) : Leads (execLinkRetrainDone k ok s found lost) (SameTicks s) := by
  unfold execLinkRetrainDone; (repeat' split) <;> simp [SameTicks]
theorem execNak_ticks (k seq : Nat) (s : State) : Leads (execNak k seq s) (SameTicks s) := by
  unfold execNak; (repeat' split) <;> simp [SameTicks]
theorem execIdle_ticks (k : Nat) (h : FlitHdr) (s : State) (line : FlitLine) : Leads (execIdle k h s line) (SameTicks s) := by
  unfold execIdle; (repeat' split) <;> simp [SameTicks]
theorem execDataFlit_ticks (k : Nat) (h : FlitHdr) (payload : Bytes) (good auth : Bool) (s : State) (line : FlitLine) (cls : Nat) : Leads (execDataFlit k h payload good auth s line cls) (SameTicks s) := by
  unfold execDataFlit; (repeat' split) <;> simp [SameTicks]
theorem execMasterLost_ticks (reachable : List Nat) (s : State) : Leads (execMasterLost reachable s) (SameTicks s) := by
  unfold execMasterLost; (repeat' split) <;> simp [SameTicks]
theorem execPing_ticks (k stamp : Nat) (s : State) (arr : Option Arrival) : Leads (execPing k stamp s arr) (SameTicks s) := by
  unfold execPing; (repeat' split) <;> simp [SameTicks]
theorem execPong_ticks (k delay : Nat) (s : State) (arr : Option Arrival) : Leads (execPong k delay s arr) (SameTicks s) := by
  unfold execPong; (repeat' split) <;> simp [SameTicks]
theorem execDelayMeasurement_ticks (s : State) : Leads (execDelayMeasurement s) (SameTicks s) := by
  unfold execDelayMeasurement; (repeat' split) <;> simp [SameTicks]
theorem execLinkRekey_ticks (k : Nat) (s : State) : Leads (execLinkRekey k s) (SameTicks s) := by
  unfold execLinkRekey; dsimp only; (repeat' split) <;> simp [SameTicks]
theorem execLinkAuthDown_ticks (k failures : Nat) (s : State) : Leads (execLinkAuthDown k failures s) (SameTicks s) := by
  unfold execLinkAuthDown; (repeat' split) <;> simp [SameTicks]
theorem execDoorbell_ticks (p : Port) (r : Nat) (v : Reg) (s : State) : Leads (execDoorbell p r v s) (SameTicks s) := by
  unfold execDoorbell; (repeat' split) <;> simp [SameTicks]
theorem execCqHeadWrite_ticks (p : Port) (r : Nat) (v : Reg) (s : State) : Leads (execCqHeadWrite p r v s) (SameTicks s) := by
  unfold execCqHeadWrite; (repeat' split) <;> simp [SameTicks]
theorem execRingEnable_ticks (p : Port) (r : Nat) (v : Reg) (s : State) : Leads (execRingEnable p r v s) (SameTicks s) := by
  unfold execRingEnable; (repeat' split) <;> simp [SameTicks]
theorem execRingDisable_ticks (p : Port) (r : Nat) (v : Reg) (s : State) : Leads (execRingDisable p r v s) (SameTicks s) := by
  unfold execRingDisable; (repeat' split) <;> simp [SameTicks]
theorem execEvEnable_ticks (p : Port) (v : Reg) (s : State) : Leads (execEvEnable p v s) (SameTicks s) := by
  unfold execEvEnable; (repeat' split) <;> simp [SameTicks]
theorem execEvHeadWrite_ticks (p : Port) (v : Reg) (s : State) : Leads (execEvHeadWrite p v s) (SameTicks s) := by
  unfold execEvHeadWrite; (repeat' split) <;> simp [SameTicks]
theorem execCommandFetch_ticks (p : Port) (r : Nat) (bytes : Bytes) (s : State) : Leads (execCommandFetch p r bytes s) (SameTicks s) := by
  unfold execCommandFetch; dsimp only; (repeat' split) <;> simp [SameTicks]
theorem execQueryPrimes_ticks (p : Port) (r : Nat) (ok : Bool) (s : State) (written : Nat) : Leads (execQueryPrimes p r ok s written) (SameTicks s) := by
  unfold execQueryPrimes; (repeat' split) <;> simp [SameTicks]
theorem execQueryParamset_ticks (p : Port) (r : Nat) (ok : Bool) (s : State) (written : Nat) : Leads (execQueryParamset p r ok s written) (SameTicks s) := by
  unfold execQueryParamset; (repeat' split) <;> simp [SameTicks]
theorem execQueryReady_ticks (p : Port) (r : Nat) (ok : Bool) (s : State) (written : Nat) : Leads (execQueryReady p r ok s written) (SameTicks s) := by
  unfold execQueryReady; (repeat' split) <;> simp [SameTicks]
theorem execEventRecordPost_ticks (p : Port) (s : State) : Leads (execEventRecordPost p s) (SameTicks s) := by
  unfold execEventRecordPost; dsimp only; (repeat' split) <;> simp [SameTicks]
theorem execSnapCtrlWrite_ticks (p : Port) (v : Reg) (s : State) : Leads (execSnapCtrlWrite p v s) (SameTicks s) := by
  unfold execSnapCtrlWrite; (repeat' split) <;> simp [SameTicks]
theorem execStatsSnapshot_ticks (p : Port) (r : Nat) (s : State) : Leads (execStatsSnapshot p r s) (SameTicks s) := by
  unfold execStatsSnapshot; (repeat' split) <;> simp [SameTicks]
theorem execSnapshotFilled_ticks (p : Port) (s : State) : Leads (execSnapshotFilled p s) (SameTicks s) := by
  unfold execSnapshotFilled; dsimp only; (repeat' split) <;> simp [SameTicks]
theorem execErrStatusWrite_ticks (p : Port) (v : Reg) (s : State) : Leads (execErrStatusWrite p v s) (SameTicks s) := by
  unfold execErrStatusWrite; (repeat' split) <;> simp [SameTicks]
theorem execErrrecValidWrite_ticks (p : Port) (hi : Bool) (v : Reg) (s : State) : Leads (execErrrecValidWrite p hi v s) (SameTicks s) := by
  unfold execErrrecValidWrite; (repeat' split) <;> simp [SameTicks]
theorem execMsixUnmask_ticks (p : Port) (vector : Nat) (s : State) : Leads (execMsixUnmask p vector s) (SameTicks s) := by
  unfold execMsixUnmask; (repeat' split) <;> simp [SameTicks]
theorem execBusError_ticks (p : Port) (off : Nat) (q : Req) (s : State) (data : List Reg) : Leads (execBusError p off q s data) (SameTicks s) := by
  unfold execBusError; dsimp only; (repeat' split) <;> simp [SameTicks]
theorem execBar2Read_ticks (p : Port) (off len : Nat) (e : ReadErr) (s : State) : Leads (execBar2Read p off len e s) (SameTicks s) := by
  unfold execBar2Read; (repeat' split) <;> simp [SameTicks]
theorem execBar2Write_ticks (p : Port) (off : Nat) (data : Bytes) (e : ReadErr) (s : State) : Leads (execBar2Write p off data e s) (SameTicks s) := by
  unfold execBar2Write; (repeat' split) <;> simp [SameTicks]
theorem SamePeriod.ite {s a b : State} (c : Prop) [Decidable c] (h : SamePeriod s a) (k : SamePeriod s b) : SamePeriod s (if c then a else b) := by
  split
  · exact h
  · exact k
theorem applyPolicy_period (s : State) (c : Bytes) : SamePeriod s (s.applyPolicy c) := by
  unfold State.applyPolicy
  extract_lets v s1 s2 s3 s4 k s5 s6 s7
  have h1 : SamePeriod s s1 := .ite _ ⟨rfl, rfl⟩ ⟨rfl, rfl⟩
  have h2 : SamePeriod s1 s2 := .ite _ ⟨rfl, rfl⟩ ⟨rfl, rfl⟩
  have h3 : SamePeriod s2 s3 := .ite _ ⟨rfl, rfl⟩ ⟨rfl, rfl⟩
  have h4 : SamePeriod s3 s4 := .ite _ ⟨rfl, rfl⟩ ⟨rfl, rfl⟩
  have h5 : SamePeriod s4 s5 := .ite _ ⟨rfl, rfl⟩ ⟨rfl, rfl⟩
  have h6 : SamePeriod s5 s6 := .ite _ ⟨rfl, rfl⟩ ⟨rfl, rfl⟩
  have h7 : SamePeriod s6 s7 := .ite _ ⟨rfl, rfl⟩ ⟨rfl, rfl⟩
  exact (((((h1.trans h2).trans h3).trans h4).trans h5).trans h6).trans
    (h7.trans (.ite _ (SameTicks.period (State.reselect_ticks s7)) ⟨rfl, rfl⟩))
theorem policyCommand_period (s : State) (p : Port) (r item : Nat) : Leads (s.policyCommand p r item) (SamePeriod s) := by
  unfold State.policyCommand; (repeat' split) <;> rw [leads_next]
  · exact ⟨rfl, rfl⟩
  · exact ⟨rfl, rfl⟩
  · exact SameTicks.period (State.refuse_ticks s p r _)
  · exact (applyPolicy_period s _).trans (SameTicks.period (State.complete_ticks _ p r _))

theorem execPolicySetPeriod_period (p : Port) (r : Nat) (s : State) : Leads (execPolicySetPeriod p r s) (SamePeriod s) := by unfold execPolicySetPeriod; exact policyCommand_period ..
theorem execPolicySetReam_period (p : Port) (r : Nat) (s : State) : Leads (execPolicySetReam p r s) (SamePeriod s) := by unfold execPolicySetReam; exact policyCommand_period ..
theorem execPolicySetTimeout_period (p : Port) (r : Nat) (s : State) : Leads (execPolicySetTimeout p r s) (SamePeriod s) := by unfold execPolicySetTimeout; exact policyCommand_period ..
theorem execPolicySetSelftestInterval_period (p : Port) (r : Nat) (s : State) : Leads (execPolicySetSelftestInterval p r s) (SamePeriod s) := by unfold execPolicySetSelftestInterval; exact policyCommand_period ..
theorem execPolicySetAdminCap_period (p : Port) (r : Nat) (s : State) : Leads (execPolicySetAdminCap p r s) (SamePeriod s) := by unfold execPolicySetAdminCap; exact policyCommand_period ..
theorem execPolicySetAdmission_period (p : Port) (r : Nat) (s : State) : Leads (execPolicySetAdmission p r s) (SamePeriod s) := by unfold execPolicySetAdmission; exact policyCommand_period ..
theorem execPolicySetQuota_period (p : Port) (r : Nat) (s : State) : Leads (execPolicySetQuota p r s) (SamePeriod s) := by unfold execPolicySetQuota; exact policyCommand_period ..
theorem execClockReselect_period (p : Port) (r : Nat) (s : State) : Leads (execClockReselect p r s) (SamePeriod s) := by unfold execClockReselect; exact policyCommand_period ..
theorem execLimpQuiesceComplete_ticks (s : State) : Leads (execLimpQuiesceComplete s) (SameTicks s) := by
  unfold execLimpQuiesceComplete; split
  · simp [SameTicks]
  dsimp only
  rw [leads_next]
  generalize hm : State.each _ (State.runningJobs _) _ = m
  have h : SameTicks s m := by
    subst hm
    refine Eq.trans (State.ticks_each _ _ _ ?_) ?_
    · intro s j; (repeat' split) <;> simp
    · exact State.thermal_ticks _
  split
  · exact (State.warmReset_ticks _).trans ((State.reselectIdle_ticks m).trans h)
  · exact (State.reselectIdle_ticks m).trans h

/-- A tick counts, and the period set before it is in use after it (R95, R96). -/
theorem State.tickNow_ticks (s : State) : s.tickNow.ticks = (s.tick + 1, s.periodNext, s.periodNext) := by
  unfold State.tickNow; extract_lets s1 s2 s3 s4 s5 s6
  have h : s3.ticks = s.ticks := by simp [s1, s2, s3]
  have h1 : s3.tick = s.tick := congrArg (fun x : Nat × Nat × Nat => x.1) h
  have h2 : s3.periodNext = s.periodNext := congrArg (fun x : Nat × Nat × Nat => x.2.2) h
  simp [s4, s5, s6, h1, h2]

end Sys2Proof.Machine
end

