-- ==== Sys2Proof/Tests/Slice0.lean ====
section
/-! SUPPORT. Small tests of the block, and for each statement a state and operands that meet its hypotheses. Expected values are from the spec's own
tables, examples and formulas, or worked by hand from them. -/

namespace Sys2Proof.Tests
open Sys2Proof.Machine Sys2Proof.Claims

-- One theorem after another: many kernel evaluations at once would need as many stacks.
set_option Elab.async false

/-! ### Small states -/

/-- An image of a job with four semaphores and one barrier, of cores 0 and 1. -/
def image0 : Image :=
  { bytes := 256, digest := [], formats := 0, engines := 0, semaphores := 4, barriers := 1, paramSet := 0, handles := 8, semInit := [], barMask := [3],
    cores := [(0, zeros 192, 0), (1, zeros 192, 0)] }

/-- Handles: 0 scratch in SRAM, 1 durable in SRAM, 2 scratch in HBM. -/
def handles0 : Tbl Handle :=
  [(0, { space := 1, bound := 65536 }), (1, { space := 1, attr := 1, bound := 8192, baseA := 131072, baseB := 139264 }),
   (2, { space := 2, mode := 16, bound := 65536 })]

/-- A job of port A that runs on cores 0 and 1. -/
def job0 : Job := { st := .running, cores := [0, 1], image := some image0, handles := handles0, sems := [(0, 5)], near := [4] }

/-- A core of the job, at the first of its three bundles. -/
def core0 : CoreSt := { job := 1, mode := .issuing, code := zeros 192, starts := [0, 48, 96], sreg := [(1, 7), (2, 3)] }

/-- A module that runs, ready in every bit, with that job. -/
def demo : State :=
  { pins := { power := .on, pwrGood := true, perstA := true, perstB := true }, ready := BitVec.allOnes 64,
    jobs := [(1, some job0)], cores := [(0, core0), (1, { core0 with index := 1 })], groups := [(0, { st := .owned, owner := 1, mapped := true })],
    portA := { linkUp := true, cfgReady := true }, portB := { linkUp := true, cfgReady := true } }

/-- The module with its first core changed. -/
def withCore (c : CoreSt) : State := { demo with cores := [(0, c), (1, { core0 with index := 1 })] }

/-- The module with its job changed. -/
def withJob (x : Job) : State := { demo with jobs := [(1, some x)] }

/-- An operation of core 0 that ends its bundle. -/
def iss : Issue := { core := 0, last := true, good := true }

/-- Bytes with a little-endian field put in. -/
def put (o n v : Nat) (b : Bytes) : Bytes := b.take o ++ le n v ++ b.drop (o + n)
/-- A command of an opcode for a job. -/
def cmd (opcode job : Nat) : Bytes := put 0 1 opcode (put 2 1 job (zeros 64))
/-- A state whose ring 0 of port A holds a command. -/
def holding (s : State) (c : Bytes) : State := s.setRing .a 0 { current := some c }

/-! ### Hypotheses met: cores -/

theorem witness_StepRunsFront : { demo with pending := [.tick] }.pending = .tick :: [] ∧ demo.pending = [] := by decide +kernel
theorem witness_StepKeepsCanonical : demo.Inv ∧ step demo = .next demo := ⟨by decide +kernel, rfl⟩
theorem witness_Frames : exec (.scalarResultWritten 0) demo = .next demo ∧ movesTick (.scalarResultWritten 0) = false ∧
    writesMemory (.scalarResultWritten 0) = false := ⟨rfl, rfl, rfl⟩

theorem witness_ScalarAlu : CanIssue demo iss { reads := [rS 1, rS 2], writes := [rS 3] } := by decide +kernel
theorem witness_ScalarMoves : CanIssue demo iss { reads := [rS 1, rS 2, rS 3], writes := [rS 4] } ∧
    CanIssue demo iss { writes := [rS 4] } ∧ CanIssue demo iss { reads := [rS 4], writes := [rS 4] } ∧
    demo.job (demo.core 0).job = some job0 := by decide +kernel
theorem witness_ScalarResultWritten : CanIssue demo iss { reads := [rS 1, rS 2], writes := [rS 3] } ∧
    (demo.core 0).isBundle ((demo.core 0).nextPos .none).1 = true ∧ ((demo.core 0).nextPos .none).1 = 48 ∧ demo.haltsAt 0 = false := by decide +kernel
/-- The core with a MOVE of a tile waiting for the rest of its bundle. -/
def paired : State := withCore { core0 with staged := [.vmov iss 3 1] }
theorem witness_BundleReads : paired.canIssue 0 = true ∧ iss.last = true ∧ iss.good = true ∧ (paired.core 0).staged = [.vmov iss 3 1] ∧
    Present paired [] [engVector] ∧ paired.blocked 0 { reads := [rS 1, rS 2], writes := [rS 3] } = false ∧
    paired.blocked 0 { reads := [rT 1], writes := [rT 3] } = false ∧ ({ iss with last := false } : Issue).last = false := by decide +kernel
theorem witness_ScalarMultiply : (withCore { core0 with scalarQ := [⟨3, 21⟩] }).live = true ∧
    ((withCore { core0 with scalarQ := [⟨3, 21⟩] }).core 0).scalarQ = [⟨3, 21⟩] := by decide +kernel
theorem witness_ControlFlow : CanIssue demo iss {} ∧ (demo.core 0).isBundle 96 = true ∧ (demo.core 0).isBundle 192 = false ∧
    (demo.core 0).stack.length < 16 ∧ CanIssue demo iss { reads := [rS 1] } ∧
    CanIssue (withCore { core0 with stack := [48] }) iss {} ∧ ((withCore { core0 with stack := [48] }).core 0).stack = [48] ∧
    (demo.core 0).bundle < 96 ∧ (demo.core 0).loops.length < 4 ∧ ((demo.core 0).loops.all fun l => 96 ≤ l.stop) = true := by decide +kernel
theorem witness_Synchronisation : CanIssue demo iss {} ∧ demo.job (demo.core 0).job = some job0 ∧ 3 < job0.semCount ∧ 5 ≤ job0.sem 0 ∧
    job0.sem 0 < 6 ∧ 0 < job0.barCount ∧ bit (job0.mask 0) (demo.core 0).index = true := by decide +kernel

def signalled : State := withCore { core0 with sigQ := [⟨0, 0, 255, 0⟩] }
theorem witness_SignalsApplied : signalled.live = true ∧ (signalled.core 0).sigQ = [⟨0, 0, 255, 0⟩] ∧ (signalled.core 0).owes 0 = false ∧
    signalled.job (signalled.core 0).job = some job0 ∧ job0.span = none ∧ job0.st = .running ∧ job0.quiesce = none ∧ job0.sem 0 + 255 ≤ 65535 ∧
    65535 < ({ job0 with sems := [(0, 65300)] } : Job).sem 0 + 255 := by decide +kernel

/-- The module as one of a span of two, its job being span 1. -/
def spanned : State :=
  { withJob { job0 with span := some 1 } with
    route := some { self := 0, master := 0, backup := 1, encrypt := false, links := [], forwards := [(1, 1)],
                    spans := [{ id := 1, job := 1, members := [0, 1] }] } }
theorem witness_SigMessage : spanned.live = true ∧ spanned.spanJob 1 = some 1 ∧ spanned.job 1 = some { job0 with span := some 1 } ∧
    ({ job0 with span := some 1 } : Job).sem 0 + 255 ≤ 65535 := by decide +kernel

/-! ### Hypotheses met: loads, stores and tiles -/

theorem witness_ScalarMemory : CanIssue demo iss { writes := [rS 3], mem := [0] } ∧ CanIssue demo iss { reads := [rS 1], mem := [0] } ∧
    demo.accessFault 1 0 65528 8 false [spSram] = none ∧ demo.accessFault 1 0 65535 1 true [spSram] = none ∧
    demo.accessFault 1 0 65536 1 true [spSram] = some shBound ∧ demo.accessFault 1 7 0 8 true [spSram] = some shUnmapped ∧
    demo.accessFault 1 2 0 8 true [spSram] = some shSpace := by decide +kernel
theorem witness_StoreBytes : demo.Inv ∧ CanIssue demo iss { reads := [rS 1], mem := [0] } ∧ CanIssue demo iss { reads := [rS 1], mem := [1] } ∧ demo.job (demo.core 0).job = some job0 ∧
    demo.accessFault 1 0 4088 8 true [spSram] = none ∧ demo.accessFault 1 1 4088 8 true [spSram] = none ∧ (job0.handle 0).durable = false ∧
    (job0.handle 1).durable = true := by decide +kernel
def loading : State := withCore { core0 with loadQ := [⟨.scalar 3 9, [0], 0, 0, 0⟩], storeQ := [⟨0, 0, [], 1, 0, true, []⟩] }
theorem witness_MemoryCompletions : loading.live = true ∧ (loading.core 0).loadQ = [⟨.scalar 3 9, [0], 0, 0, 0⟩] ∧
    (loading.core 0).storeQ = [⟨0, 0, [], 1, 0, true, []⟩] ∧ ((withCore { core0 with loadQ := [⟨.tile 3 {}, [], 0, 0, 0⟩] }).core 0).loadQ =
      [⟨.tile 3 {}, [], 0, 0, 0⟩] := by decide +kernel
theorem witness_TileMemory : CanIssue demo iss { writes := [rT 3], mem := [0] } ∧ CanIssue demo iss { reads := [rT 3], mem := [0] } ∧
    CanIssue demo iss { reads := [rT 1], writes := [rT 3] } ∧ Present demo [.f32e8] [engVector] ∧
    demo.tileLayout 1 ⟨0, 0⟩ (.rowMajor 128 1) = some (.rows 128 1) ∧ misaligned .f32e8 (.rows 128 1) 0 = false ∧
    badStrides .f32e8 (.rows 128 1) false = false ∧ badStrides .f32e8 (.rows 128 1) true = false ∧
    demo.extentFault 1 0 (extentOf .f32e8 (.rows 128 1) 0 32 32) false [spSram] = none ∧
    demo.extentFault 1 0 (extentOf .f32e8 (.rows 128 1) 0 32 32) true [spSram] = none := by decide +kernel
/-! ### Hypotheses met: vector engine, array and NTT engine -/

/-- A vector destination T3 of a format, unmasked, with its status in S5. -/
def vd (f : Fmt) : VDst := { fmt := f, alt := none, d := 3, mask := { row := none, col := none, zero := false }, status := some 5 }

theorem witness_VectorFloat : fmtClass (vd .f16e5).fmt = .float ∧ VectorIssue demo iss (vd .f16e5) [.tile 1, .tile 2] [] [.f16e5] ∧
    VectorIssue demo iss (vd .f16e5) [.tile 1, .scalar 1, .rowBcast 2] [] [.f16e5] ∧ VectorIssue demo iss (vd .f16e5) [.tile 1] [] [.f16e5] ∧
    Fmt.s8 ≠ (vd .f16e5).fmt ∧ CanIssue demo iss { reads := [VSrc.tile 1, .tile 2].flatMap srcRegs, writes := vdstWrites { vd .f16e5 with alt := some .s8 } } ∧
    Present demo [.f16e5, .s8] [engVector] := by
  decide +kernel
theorem witness_VectorExact : fmtClass (vd .s8).fmt = .int ∧ VectorIssue demo iss (vd .s8) [.tile 1, .tile 2] [] [.s8] ∧
    VectorIssue demo iss (vd .s8) [.tile 1, .tile 2, .colBcast 4] [] [.s8] ∧ VectorIssue demo iss (vd .s8) [.tile 1] [] [.s8] := by decide +kernel
theorem witness_VectorModular :
    fmtFamily (vd .z36).fmt = some .z36 ∧ (demo.core 0).primesOk .z36 (.uniform 1) = true ∧
    VectorIssue demo iss (vd .z36) [.tile 1, .tile 2, .tile 4] (selRegs (.uniform 1)) [.z36] ∧
    VectorIssue demo iss (vd .z36) [.tile 1, .tile 2] (selRegs (.uniform 1)) [.z36] ∧
    VectorIssue demo iss (vd .z36) [.tile 1] (selRegs (.uniform 1) ++ selRegs (.uniform 2)) [.z36] ∧
    (demo.core 0).primesOk .z36 (.uniform 2) = true := by decide +kernel
theorem witness_VectorActConvert : VectorIssue demo iss (vd .f32e8) [.tile 1] (actRegs (.clamp 3 4)) [.f32e8] ∧ fmtClass (vd .f32e8).fmt = .float ∧
    Act.clamp 3 4 ≠ .unknown ∧ badClamp (.clamp 3 4) ((demo.core 0).actPar (.clamp 3 4)) true = false := by decide +kernel
/-- The module with a valid scale in S6. -/
def scaledCore : State := withCore { core0 with sreg := [(1, 7), (2, 3), (6, 0x800000)] }
theorem witness_Vcvt : VectorIssue scaledCore iss (vd .z36) [.tile 1] (selRegsFor .z36 (some (.uniform 1)) ++ selRegsFor .f32e8 none ++ [rS 6])
      [.z36, .f32e8] ∧ (vd .z36).fmt ≠ .f32e8 ∧ selMissing .z36 (some (.uniform 1)) = false ∧ selMissing .f32e8 none = false ∧
    (scaledCore.core 0).selOk .z36 (some (.uniform 1)) = true ∧ (scaledCore.core 0).selOk .f32e8 none = true ∧ scaled .z36 .f32e8 = true ∧
    ((some 6 : Option SReg).bind fun r => scaleOf ((scaledCore.core 0).s r)).isSome = true ∧
    VectorIssue demo iss (vd .f16e5) [.tile 1] (selRegsFor .f16e5 none ++ selRegsFor .f8e4 none ++ []) [.f16e5, .f8e4] ∧
    scaled .f16e5 .f8e4 = false := by decide +kernel
theorem witness_VectorReduce : VectorIssue demo iss (vd .s8) [.tile 1] [] [.s8, .s32] ∧ fmtClass (vd .s8).fmt = .int ∧ fmtClass Fmt.s32 = .int ∧
    VectorIssue demo iss (vd .z36) [.tile 1] (selRegs (.uniform 1)) [.z36, .z36] ∧ fmtClass (vd .z36).fmt = .residue ∧
    (demo.core 0).primesOk .z36 (.uniform 1) = true ∧ msumAxis true (.uniform 1) = true ∧ msumAxis true (.perCol 1) = true := by decide +kernel
theorem witness_VectorWrites : ((withCore { core0 with vecQ := [⟨0, 3, [], some 5, 9, 0⟩] }).core 0).vecQ = [⟨0, 3, [], some 5, 9, 0⟩] ∧
    (withCore { core0 with vecQ := [⟨0, 3, [], some 5, 9, 0⟩] }).live = true := by decide +kernel

/-- A product of two tiles. -/
def mma0 (f : Fmt) : Mma := { o := 0, a := .tile 1, b := .tile 2, k := 32, fa := f, fb := f, trace := false }
/-- The module with an open S8 group of one product in its output buffer O0. -/
def opened (q : List MmaQ) : State := withCore { core0 with o0 := { isOpen := true, fa := .s8, fb := .s8, k := 32, inFlight := q } }
/-- One product in flight. -/
def flying : List MmaQ := [{ bundle := 0, mem := {} }]
theorem witness_MatrixProducts : CanIssue demo iss { reads := [rT 1, rT 2], ready := !(demo.core 0).drains 0 } ∧
    fmtFamily (mma0 .s8).fa = none ∧ productOk demo iss (mma0 .s8) ∧ productOk demo iss { mma0 .s8 with a := .panel ⟨0, 0⟩ false, b := .panel ⟨0, 0⟩ true, k := 64 } ∧
    CanIssue demo iss { reads := [rT 1, rT 2] ++ selRegs (.uniform 1), ready := !(demo.core 0).drains 0 } ∧
    fmtFamily (mma0 .z36).fa = some .z36 ∧ (demo.core 0).primesOk .z36 (.uniform 1) = true ∧ productOk demo iss (mma0 .z36) := by decide +kernel
theorem witness_MatrixCont : CanIssue (opened flying) iss { reads := [rT 1, rT 2], ready := !((opened flying).core 0).drains 0 } ∧
    productOk (opened flying) iss (mma0 .s8) ∧ (((opened flying).core 0).obuf 0).isOpen = true ∧ (mma0 .s8).fa = (((opened flying).core 0).obuf 0).fa ∧
    (opened flying).traceOn 1 (mma0 .s8) = (((opened flying).core 0).obuf 0).trace ∧ (opened flying).live = true ∧
    (((opened flying).core 0).obuf 0).inFlight = { bundle := 0, mem := {} } :: [] := by decide +kernel
theorem witness_MatrixSums : isB8 (mma0 .s8).fa = true ∧ isB8 (mma0 .u8).fa = true ∧
    CanIssue demo iss { reads := [rT 1, rT 2] ++ [rS 1] ++ [rS 2], ready := !(demo.core 0).drains 0 } ∧
    productOk demo iss (mma0 .u8) := by decide +kernel
def drain0 (x : DrainDst) : Drain := { o := 0, dst := x, fmt := .s32, scale := none, bias := none, act := .relu, zero := true, status := some 5 }
theorem witness_MatrixDrain : CanIssue (opened []) iss { reads := [], writes := drainWrites (drain0 (.tile 3)), ready := true } ∧
    CanIssue (opened []) iss { reads := [], writes := drainWrites (drain0 (.leaf ⟨0, 64⟩)), mem := [0], ready := true } ∧
    Present (opened []) (drainFmts (drain0 (.tile 3)) (((opened []).core 0).obuf 0)) [engArray] ∧ (((opened []).core 0).obuf 0).isOpen = true ∧
    ((((opened []).core 0).obuf 0).inFlight.isEmpty && !(((opened []).core 0).obuf 0).draining) = true ∧
    ((opened []).core 0).epiBad (drain0 (.tile 3)) (((opened []).core 0).obuf 0) = false ∧
    (opened []).accessFault 1 0 64 (leafBytes .s32) true [spSram] = none ∧
    ((withCore { core0 with drainQ := [⟨0, none, none, 0, 0, 0, true, {}⟩] }).core 0).drainQ.find? (fun y => y.o == 0) =
      some ⟨0, none, none, 0, 0, 0, true, {}⟩ := by decide +kernel
def ntt0 : Ntt := { src := ⟨0, 0⟩, dst := ⟨0, 0⟩, n := 8192, limbs := 1, stride := 36864, fmt := .z36, prime := .fixed .z36 0 }
theorem witness_NttLimbs : CanIssue demo iss { mem := [0, 0] } ∧ Present demo [.z36] [engNtt] ∧ nttDetail ntt0 = none ∧
    demo.accessFault 1 0 0 (nttSpan ntt0) false [spSram] = none ∧ demo.accessFault 1 0 0 (nttSpan ntt0) true [spSram] = none ∧
    ((withCore { core0 with nttQ := [⟨0, 2, 0, {}⟩] }).core 0).nttQ = [⟨0, 2, 0, {}⟩] := by decide +kernel

/-! ### Hypotheses met: ciphertexts and interludes -/

/-- The header unit's error lies within its bound. -/
theorem unitErr_bounds (x : Int) : -(2 ^ 40) ≤ unitErr x ∧ unitErr x < 2 ^ 40 := by
  unfold unitErr; dsimp only; omega

/-- A headroom that is far enough above a code keeps it, whatever the unit's error. -/
theorem le_floorCode (h : Int) (lo : Nat) (k : lo ≤ 0xFFFF) (hl : (lo : Int) * 2 ^ 56 + 2 ^ 40 ≤ h) (x : Int) : lo ≤ floorCode (h + unitErr x) := by
  have := unitErr_bounds x
  unfold floorCode; omega

def set1 : ParamSet := (paramSet 1).getD ⟨0, 0, 0, .z36, 0, 0, 0, 0, 0, 0, 0, 0, 0⟩
def set18 : ParamSet := (paramSet 0x12).getD set1
/-- A ciphertext header: CKKS of set 0x01 with one limb and HEADROOM 16.0. -/
def hdr0 : CtHdr := { scheme := 1, set := 1, limbs := 1, form := 1, comps := 2, scale := 0x2000, head := 0x1000, slots := 12, plain := 0, keyset := zeros 16, gen := 1 }
/-- The same with a HEADROOM below the set's floor. -/
def hdrLow : CtHdr := { hdr0 with head := 0x100 }
/-- A BGV header of set 0x12 with a HEADROOM below its floor. -/
def hdrBgv : CtHdr := { hdr0 with scheme := 2, set := 0x12, head := 0x10, slots := 0xFF, scale := 0 }
/-- The job with a handle on a ciphertext, and the module with its header in SRAM. -/
def jobCt : Job := { job0 with handles := handles0 ++ [(3, { space := 1, bound := 2 ^ 20, baseA := 2 ^ 20 })] }
def ctState (h : CtHdr) (p : ParamSet) : State := { withJob jobCt with sram := Mem.write [] (2 ^ 20) (h.bytes p) }
def opCt (k : CtKind) (n : Nat) : CtOp := { kind := k, srcs := List.replicate n ⟨3, 0⟩, dsts := [⟨3, 0⟩] }

/-- A negation in flight, with the keys that it has still to stream. -/
def ctq0 (keys : List Nat) : CtQ := { op := opCt .neg 1, data := [hdr0.bytes set1], keys := keys, got := [], foot := [], stamp := 0, bundle := 0 }

theorem witness_Ciphertexts : CtGoes (ctState hdr0 set1) iss (opCt .neg 1) .good jobCt set1 [hdr0] (predict set1 .neg [hdr0]) ∧
    CtRow (.ciphertextNegate iss ⟨3, 0⟩ ⟨3, 0⟩ .good) iss (opCt .neg 1) .good ∧
    ({ ctq0 [] with mem := { handles := [3] } } : CtQ).mem.handles.contains 3 = true ∧ ((withCore { core0 with ctQ := [ctq0 []] }).core 0).ctQ = [ctq0 []] ∧ ((withCore { core0 with ctQ := [ctq0 [0]] }).core 0).ctQ = [ctq0 [0]] :=
  ⟨by decide +kernel, .neg _ _ _ _, by decide +kernel⟩

/-- The checks of R141 that pass, one by one. -/
theorem ctVerdict_go (s : State) (m j : Nat) (x : Job) (o : CtOp) (e : ReadErr) (p : ParamSet) (hs : List CtHdr)
    (h : ((o.srcs.zipIdx.map fun c => (c.1, s.readOutcome j c.1.h c.1.off 64 (headerErr e c.2))).find? fun c => c.2 != .good) = none ∧
      (((o.srcs.zip (o.srcs.map fun l => s.load j l.h l.off 64)).zipIdx).findSome? fun c =>
        (hdrDetail o.kind c.2 ((x.handle c.1.1.h).bound - c.1.1.off) c.1.2).map fun k => (k, c.1.1.h, c.2)) = none ∧
      (o.srcs.map fun l => s.load j l.h l.off 64).map readHdr = hs ∧ compatDetail o.kind hs = none ∧
      paramSet (hs.getD 0 (readHdr [])).set = some p ∧ keysetsDiffer o.kind hs = false ∧
      s.keyFault m j x o p (hs.getD 0 (readHdr [])) = none ∧ (predict p o.kind hs).badScale = false ∧
      s.ctExtents j o p hs (predict p o.kind hs) = none)
    (goes : (predict p o.kind hs).exhaust = 0) : s.ctVerdict m j x o e = .go p hs (predict p o.kind hs) := by
  obtain ⟨reads, hdrs, rfl, kinds, set, keysets, keys, scale, extents⟩ := h
  unfold State.ctVerdict
  simp only [reads, hdrs, kinds, set, keysets, keys, scale, goes, extents]
  simp

/-- An operation whose predicted HEADROOM lies above the floor does not exhaust. -/
theorem exhaust_none (p : ParamSet) (k : CtKind) (a b : CtHdr) (hs : List CtHdr) (ha : hs.getD 0 (readHdr []) = a) (hb : hs.getD 1 a = b)
    (h : (k == .rescale && a.scheme == ckks && a.limbs == 1) = false ∧ exactHead k a = false ∧ p.floor ≤ 0xFFFF ∧
      (p.floor : Int) * 2 ^ 56 + 2 ^ 40 ≤ outHead p k a b) : (predict p k hs).exhaust = 0 := by
  obtain ⟨once, inexact, short, above⟩ := h
  have := le_floorCode (outHead p k a b) p.floor short above (outHead p k a b)
  simp only [predict, ha, hb, once, inexact]; simp; omega

theorem witness_CiphertextSums : ∃ d, CtGoes (ctState hdr0 set1) iss (opCt .add 2) .good jobCt set1 [hdr0, hdr0] d :=
  have goes := exhaust_none set1 .add hdr0 hdr0 [hdr0, hdr0] rfl rfl (by decide +kernel)
  ⟨_, by decide +kernel, rfl, by decide, rfl, ctVerdict_go _ _ _ _ _ _ _ _ (by decide +kernel) goes, by decide +kernel⟩

theorem witness_Prediction : hdr0.scheme = ckks ∧ hdr0.limbs = 1 := by decide +kernel

theorem witness_Exhaustion : CtRow (.ciphertextNegate iss ⟨3, 0⟩ ⟨3, 0⟩ .good) iss (opCt .neg 1) .good ∧ CanIssue (ctState hdrLow set1) iss (ctUses (opCt .neg 1)) ∧
    (ctState hdrLow set1).job ((ctState hdrLow set1).core 0).job = some jobCt ∧ 
    Present (ctState hdrLow set1) [] [engCt] ∧ Exhausts (ctState hdrLow set1) 0 1 jobCt (opCt .neg 1) .good set1 ∧ jobCt.auto = false ∧
    hdrBgv.scheme ≠ ckks :=
  ⟨.neg _ _ _ _, by decide +kernel⟩

/-- A negation of a BGV ciphertext leaves its HEADROOM, whatever the primes. -/
theorem outHead_neg_bgv (p : ParamSet) (a b : CtHdr) (h : a.scheme = bgv) : outHead p .neg a b = ofCode a.head := by
  have e : CtKind.neg.asPt b = .neg := by simp [CtKind.asPt, CtKind.plaintext]
  simp only [outHead, noiseExact, CtHdr.noise, outLimbs, h, ckks, bgv, e]; simp

theorem exhaust_bgv : (predict set18 .neg [hdrBgv]).exhaust = 2 := by
  have h := outHead_neg_bgv set18 hdrBgv hdrBgv rfl
  have e : (predict set18 .neg [hdrBgv]).exhaust = if floorCode (outHead set18 .neg hdrBgv hdrBgv) < set18.floor then 2 else 0 := by
    simp [predict, exactHead]
  rw [e, h]; decide +kernel

theorem witness_ExhaustionAuto : CanIssue { ctState hdrBgv set18 with jobs := [(1, some { jobCt with auto := true })] } iss (ctUses (opCt .neg 1)) ∧
    Exhausts (ctState hdrBgv set18) 0 1 { jobCt with auto := true } (opCt .neg 1) .good set18 ∧ hdrBgv.scheme ≠ ckks :=
  ⟨by decide +kernel, ⟨by decide, rfl, by decide +kernel, by decide +kernel, rfl, by decide +kernel, by decide +kernel, rfl, by decide +kernel, fun h => by
      have := exhaust_bgv
      have e : (opCt .neg 1).srcs.map (fun l => readHdr ((ctState hdrBgv set18).load 1 l.h l.off 64)) = [hdrBgv] := by decide +kernel
      simp_all [opCt]⟩, by decide +kernel⟩

/-- The job with a bound key set that holds the family of a REPULP for set 0x01, and work and save areas. -/
def jobRep : Job :=
  { jobCt with work := some 4, save := some 5,
               handles := jobCt.handles ++ [(4, { space := 2, mode := 16, bound := 2 ^ 28 }), (5, { space := 2, mode := 16, bound := 2 ^ 20, baseA := 2 ^ 28 })],
               sets := [{ id := zeros 16, scheme := 1, set := 1, plainMod := 0, flags := 1, slot := some 0,
                          entries := (repFamily 13).map fun f => { kind := f.1, flags := 1, galois := f.2, bytes := 0, digest := [] },
                          placed := (List.range (repFamily 13).length).map fun n => (n, { header := [], body := [] }) }] }
/-- A key set that holds nothing. -/
def set0 : KeySet := { id := [], scheme := 0, set := 0, plainMod := 0, flags := 0, entries := [] }
def repState : State := { ctState hdr0 set1 with jobs := [(1, some jobRep)], headboxes := [(0, { dir := (jobRep.sets.getD 0 set0).dirEntries 1 0 })] }
def opRep : CtOp := { kind := .repulp, srcs := [⟨3, 0⟩], dsts := [⟨3, 0⟩], slot := 0 }

theorem witness_Interludes : ∃ d, CanIssue repState iss (ctUses opRep) ∧ repState.job 1 = some jobRep ∧ Present repState [] [engCt, engKey] ∧
    repState.ctStale 1 jobRep opRep = none ∧ repState.ctVerdict 0 1 jobRep opRep .good = .go set1 [hdr0] d :=
  have goes := exhaust_none set1 .repulp hdr0 hdr0 [hdr0] rfl rfl (by decide +kernel)
  ⟨_, by decide +kernel, rfl, by decide +kernel, by decide +kernel, ctVerdict_go _ _ _ _ _ _ _ _ (by decide +kernel) goes⟩

/-- The job in a phase of an interlude. -/
def inPhase (p : Inter) : Job := { job0 with inter := { ph := p }, couching := true }
theorem witness_InterludePhases : (withJob (inPhase .halting)).live = true ∧ (withJob (inPhase .halting)).job 1 = some (inPhase .halting) ∧
    (inPhase .halting).inter.saved 0 = false ∧ ((withJob (inPhase .halting)).core 0).finished = true ∧
    ((withJob (inPhase .halting)).core 0).mode = .issuing ∧ (withJob (inPhase .working)).clk.switching = .none ∧ (inPhase .couching).span = none ∧
    (inPhase .working).couching = true ∧ (inPhase .resuming).quiesce = none ∧ ({ demo with building := [2], ready := 0 } : State).live = true ∧
    ({ demo with building := [2], ready := 0 } : State).building.contains 2 = true ∧
    ({ demo with building := [2], ready := 0 } : State).isReady (bitRepulp 2) = false := by decide +kernel

/-! ### Hypotheses met: copies and streams -/

/-- A row-major S8 matrix of 2 by 2 in handle 0. -/
def mat0 (off : Nat) : Mat := { loc := ⟨0, off⟩, form := .rowMajor 32 1, rows := 2, cols := 2 }
/-- A copy on queue 0 that signals semaphore 3. -/
def head0 : CopyHead := { queue := 0, fmt := .s8, sem := some 3 }
/-- A slice of a whole matrix with no deckle. -/
def slice0 : Slice := { rs := 0, cs := 0, rd := 0, cd := 0, h := 2, w := 2, t := 0, b := 0, l := 0, r := 0, value := none }

theorem witness_CopyIssues : CopyIssues demo iss head0 [] [0, 0] ∧ CopyIssues demo iss head0 [] [0, 0, 0] :=
  ⟨⟨by decide +kernel, by decide +kernel, job0, by decide +kernel, fun k h => by cases h; decide +kernel⟩,
    by decide +kernel, by decide +kernel, job0, by decide +kernel, fun k h => by cases h; decide +kernel⟩

theorem witness_Copies : ([slice0].flatMap fun x => (x.value.map rS).toList) = [] ∧ [slice0].any (sliceBad true (mat0 0) (mat0 4096)) = false ∧
    [slice0].any (sliceBad false (mat0 0) (mat0 4096)) = false ∧
    CopyEnds demo iss head0 (mat0 0) (mat0 4096) (.rows 32 1) (.rows 32 1) (([slice0].flatMap (sliceData true)).map Prod.fst)
      (([slice0].flatMap fun x => sliceDeckle true (.rows 32 1) (mat0 4096) x) ++ ([slice0].flatMap (sliceData true)).map Prod.snd) ∧
    overlapOf (demo.sectors 1 0 (cellRuns .s8 (.rows 32 1) (mat0 0) (rect 0 0 2 2))) (demo.sectors 1 0 (cellRuns .s8 (.rows 32 1) (mat0 4096) (rect 0 0 2 2)))
      ≤ maxStaging ∧
    TagsLet demo 1 0 (cellRuns .s8 (.rows 32 1) (mat0 0) (rect 0 0 2 2)) := by decide +kernel
theorem witness_Gather : CopyEnds demo iss head0 (mat0 0) (mat0 4096) (.rows 32 1) (.rows 32 1) (rect 0 0 2 2)
      ((gatherDeckle (.rows 32 1) (mat0 4096)).map Prod.fst ++ rect 0 0 2 2) ∧
    demo.accessFault 1 0 8192 (4 * 4) false [spSram, spHbm] = none ∧ TagsLet demo 1 0 [(8 * 8192, 128)] ∧
    overlapOf (demo.sectors 1 0 (cellRuns .s8 (.rows 32 1) (mat0 0) (rect 0 0 2 2)) ++ demo.sectors 1 0 [(8 * 8192, 32 * 4)]).dedup
      (demo.sectors 1 0 (cellRuns .s8 (.rows 32 1) (mat0 4096) (rect 0 0 2 2))) ≤ maxStaging ∧
    ((List.range 4).all fun e => leVal (demo.load 1 0 (8192 + 4 * e) 4) < 4) = true := by decide +kernel

def copying (g : Bool) (k : Option Nat) : State := withCore { core0 with xq0 := [{ stamp := 0, order := 0, staging := 4 * 2 ^ 20, granted := g, sem := k, bundle := 0, foot := [] }] }
theorem witness_CopyProgress : (copying false none).live = true ∧ (((copying false none).core 0).xq 0).find? (fun y => !y.granted) =
      some { stamp := 0, order := 0, staging := 4 * 2 ^ 20, granted := false, sem := none, bundle := 0, foot := [] } ∧
    (((copying false none).millCopies ((copying false none).millOf 0)).all fun y => y.granted || decide (0 ≤ y.order)) = true ∧
    ((((copying false none).millCopies ((copying false none).millOf 0)).filter XcQ.granted).map XcQ.staging).sum + 4 * 2 ^ 20 ≤ 4 * 2 ^ 20 ∧
    (((copying true (some 3)).core 0).xq 0).map XcQ.sem = [some 3] ∧ demo.regOk .a = true ∧ (demo.job (0 + 1)).map Job.owner = some .a := by
  decide +kernel

/-- An inbound stream of 64-byte elements from HBM to SRAM: it takes semaphore 0 and signals semaphore 1. -/
def strm0 : Strm :=
  { outbound := false, link := false, channel := 7, e := 64, far := ⟨2, 0⟩, dims := [(64, 1024)], buf := ⟨0, 0⟩, depth := 4096, full := 1, empty := 0,
    release := 0xFFFF, mark0 := 2, done := some 2 }
def chan0 : Chan := { f := strm0, bundle := 0, pos := 1, sub := 0, mark := 2, halt := none }
def streaming (c : Chan) : State := withCore { core0 with chans := [(7, some c)] }
theorem witness_StreamIssue : CanIssue demo iss { mem := [0, 2], ready := ((demo.core 0).chan 7).isNone } ∧
    Present demo [] (if strm0.link then [engLink] else []) ∧ strm0.full < job0.semCount ∧ strm0.empty < job0.semCount ∧ 2 < job0.semCount ∧
    strmMisaligned strm0 = false ∧ strmBad strm0 = false ∧ job0.badRelease strm0 = false ∧ demo.strmStale 1 job0 strm0 = none ∧
    CanIssue (streaming chan0) iss {} ∧ ((streaming chan0).core 0).chan 7 = some chan0 ∧ strmCredit chan0.f = false ∧
    chan0.f.outbound = false ∧ strmCredit { strm0 with depth := 2 ^ 21 } = true ∧ (demo.core 0).chan 7 = none := by decide +kernel
theorem witness_StreamElements : ((streaming chan0).core 0).chan 7 = some chan0 ∧ (streaming chan0).job ((streaming chan0).core 0).job = some job0 ∧
    (streaming chan0).enginesRun 1 = true ∧ chan0.halt = none ∧ job0.strmReady chan0 64 = true ∧ (streaming chan0).strmAwaits job0 chan0 = none ∧
    job0.readsHost chan0.f = false ∧ chan0.part 1 = 64 ∧ chan0.moved = 0 ∧ (streaming chan0).elementStale 1 job0 chan0 64 = none ∧
    ((streaming chan0).elementStale 1 job0 { chan0 with f := { strm0 with buf := ⟨7, 0⟩ } } 64).isSome = true ∧
    ({ chan0 with f := { strm0 with e := 128 } } : Chan).part 1 = 64 ∧ (streaming chan0).readOutcome 1 chan0.reads.h chan0.reads.off 64 .good = .good ∧
    job0.strmReady { chan0 with pos := 2 } 64 = false ∧ chan0.opens = true ∧ ({ chan0 with f := { strm0 with depth := 2 ^ 21 } } : Chan).opens = false := by
  decide +kernel
def paging : State :=
  { demo with portA := { demo.portA with ats := true, pri := true, pasidEn := true, pageReqs := [(1, 5)], pageWait := [(1, 6)], atsReqs := [(1, 5)], pageAlloc := 8 },
              cores := [(0, { core0 with chans := [(7, some { chan0 with halt := some (1, 5) })] })] }
theorem witness_HostPages : paging.live = true ∧ (paging.port .a).servesHost = true ∧ (paging.port .a).pageReqs.contains (1, 7) = false ∧
    (paging.port .a).pageWait.contains (1, 7) = false ∧ (paging.port .a).priFailed = false ∧ (paging.port .a).pageReqs.length < min 512 (paging.port .a).pageAlloc ∧ (paging.port .a).atsReqs.contains (1, 5) = true ∧
    (paging.port .a).atsReqs.contains (1, 7) = false ∧
    (paging.port .a).pageWait.contains (1, 6) = true ∧ (paging.port .a).pageReqs.contains (1, 5) = true ∧
    ({ paging with portA := { paging.portA with ats := false } } : State).live = true ∧
    ({ paging.portA with ats := false } : PortSt).servesHost = false ∧ ({ job0 with relHalt := some (1, 5) } : Job).relHalt = some (1, 5) ∧
    ((paging.setRing .a 0 { current := some (cmd 0x10 1), page := some ⟨1, 5, false, true⟩ }).ring .a 0).page = some ⟨1, 5, false, true⟩ ∧
    (paging.core 0).job = 1 ∧ (paging.core 0).chan 7 = some { chan0 with halt := some (1, 5) } ∧ paging.job 1 = some job0 := by decide +kernel

/-! ### Hypotheses met: evaluation keys -/


/-- A manifest of set 0x01 for CKKS with one relinearisation key (R152, R153). -/
def manifest0 : Bytes :=
  put 0 4 0x4D4B4A46 (put 4 1 1 (put 5 1 1 (put 6 1 1 (put 8 2 1 (zeros 64))))) ++
    put 2 1 1 (put 8 4 (128 + set1.keyBody) (zeros 64))
/-- A command whose source is handle 2, and port A with a key staging window over it. -/
def stageCmd : Bytes := put 0x28 1 1 (put 0x2A 2 2 (put 0x10 4 128 (cmd 0x12 1)))
def staging : State := { demo with portA := { demo.portA with wins := [(0, some { keyStaging := true, job := 1, handle := 2, baseGib := 0 })] } }
theorem witness_KeyIngest : Holds (holding demo (cmd 0x12 1)) .a 0 0x12 (cmd 0x12 1) ∧ (holding demo (cmd 0x12 1)).ingest = none ∧
    field (cmd 0x12 1) 0x28 1 ≠ 1 ∧ ({ demo with ingest := some { port := .a, ring := 0, job := 1, set := [], src := manifest0 } } : State).live = true ∧
    (holding demo (cmd 0x12 1)).ingestQ = [] ∧ Holds (holding staging stageCmd) .a 0 0x12 stageCmd ∧ field stageCmd 0x28 1 = 1 ∧
    (State.stagingBytes { (holding staging stageCmd).hold .a 0 with ingestLast := .a } .a (field stageCmd 2 1) stageCmd).isSome = true ∧
    (holding demo stageCmd).stages .a (field stageCmd 2 1) (field stageCmd 0x2A 2) = false ∧
    ({ holding demo (cmd 0x12 1) with ingest := some { port := .b, ring := 3, job := 1, set := [], src := manifest0 } } : State).ingest.isSome = true := by
  decide +kernel
theorem witness_KeyManifest : field manifest0 0 4 = 0x4D4B4A46 ∧ manifestOk manifest0 = true ∧ manifestOk (zeros 128) = false ∧
    job0.sets = [] ∧ 256 ≤ ({ job0 with sets := List.replicate 256 { id := [], scheme := 0, set := 0, plainMod := 0, flags := 0, entries := [] } } : Job).sets.length ∧ demo.allSets.length < 1024 ∧ demo.keyFull 1 job0 manifest0.length = true ∧
    (withJob { job0 with keyUnits := 1 }).keyFull 1 { job0 with keyUnits := 1 } manifest0.length = false := by decide +kernel

/-- A container's header for that key (R156). -/
def contHdr : Bytes := put 0 4 0x594B4A46 (put 4 1 1 (put 5 1 1 (put 6 1 1 (put 0xA 1 set1.dnum (put 0xB 1 (set1.l + set1.k) (put 0x30 4 set1.keyBody (zeros 128)))))))
def cont0 : Bytes := contHdr ++ List.replicate set1.keyBody 0
def keySet0 : KeySet :=
  { id := zeros 16, scheme := 1, set := 1, plainMod := 0, flags := 0, entries := [{ kind := 1, flags := 0, galois := 0, bytes := 0, digest := sha384 cont0 }] }
theorem field_append (h t : Bytes) (o n : Nat) (k : o + n ≤ h.length) : field (h ++ t) o n = field h o n := by
  unfold field; rw [List.drop_append_of_le_length (by omega), List.take_append_of_le_length (by simp; omega)]
theorem contHdr_length : contHdr.length = 128 := by decide +kernel
theorem witness_KeyContainer : field cont0 0 4 = 0x594B4A46 ∧ containerOk cont0 = true ∧ cont0.length = 128 + set1.keyBody ∧
    keySet0.entry (field cont0 8 2) = some { kind := 1, flags := 0, galois := 0, bytes := 0, digest := sha384 cont0 } ∧
    keySet0.lists cont0 = true ∧ { keySet0 with set := 2 }.lists cont0 = false ∧ keySet0.remote (field cont0 8 2) = false ∧
    keySet0.present (field cont0 8 2) = false ∧ keySet0.damagedKey (field cont0 8 2) = false ∧ demo.keyFull 1 job0 cont0.length = true ∧
    (withJob { job0 with keyUnits := 1 }).keyFull 1 { job0 with keyUnits := 1 } cont0.length = false := by
  have f (o n : Nat) (k : o + n ≤ 128) : field cont0 o n = field contHdr o n := field_append _ _ _ _ (by rw [contHdr_length]; exact k)
  have l : cont0.length = 128 + set1.keyBody := by simp [cont0, contHdr_length]
  have z : (cont0.drop 0x34).take 76 = (contHdr.drop 0x34).take 76 := by
    unfold cont0; rw [List.drop_append_of_le_length (by rw [contHdr_length]; omega), List.take_append_of_le_length (by simp [contHdr_length])]
  have listed (k : KeySet) : k.lists cont0 = k.lists contHdr := by
    unfold KeySet.lists; simp (disch := omega) only [f]
  have formed : containerOk cont0 = true := by
    unfold containerOk; simp (disch := omega) only [f, z, l]; decide +kernel
  simp (disch := omega) only [listed, formed, f, l]
  exact ⟨by decide +kernel, trivial, trivial, rfl, by decide +kernel⟩

/-- The job with a complete set of one placed key, not bound, bound in slot 0, and over a ring of two modules. -/
def placedSet : KeySet := { keySet0 with entries := [{ kind := 1, flags := 0, galois := 0, bytes := 0, digest := [] }], placed := [(0, { header := [], body := [] })] }
def withSet (k : KeySet) : State := withJob { job0 with sets := [k] }
def bindCmd (ring : Nat) : Bytes := put 0x2A 1 ring (put 0x10 4 (2 * ring) (cmd 0x11 1))
theorem witness_KeyBinding : Holds (holding (withSet placedSet) (bindCmd 0)) .a 0 0x11 (bindCmd 0) ∧
    (withSet placedSet).bindFault { job0 with sets := [placedSet] } (zeros 16) 0 none = none ∧
    (withSet placedSet).bindFault { job0 with sets := [placedSet] } (le 16 1) 0 none = some 0x0232 ∧
    (withSet placedSet).bindFault { job0 with sets := [{ placedSet with slot := some 0 }] } (zeros 16) 0 none = some 0x0238 ∧
    field (bindCmd 0) 2 1 = 1 ∧ field (bindCmd 0) 0x29 1 = 0 ∧ ((bindCmd 0).drop 0x18).take 16 = zeros 16 ∧
    (withSet placedSet).bindFault { job0 with sets := [placedSet] } (zeros 16) 0 (ringOf (bindCmd 2) (le 2 0 ++ le 2 1)) = none ∧
    2 * field (bindCmd 2) 0x2A 1 ≤ field (bindCmd 2) 0x10 4 ∧ field (bindCmd 2) 0x2A 1 ≠ 0 ∧
    (({ job0 with sets := [placedSet], st := .created } : Job)).st ≠ .running := by decide +kernel
/-- A bind over a ring that waits for the other member. -/
def ringSet : KeySet := { placedSet with ring := some { members := [0, 1], pos := 0 }, binding := some (0, .a, 0) }
theorem witness_KeyringBinds : (withSet ringSet).live = true ∧ (withSet ringSet).ringBind .a 0 = some (1, ringSet) ∧
    (withSet { ringSet with unbinding := some (.a, 1) }).ringBind .a 0 = some (1, { ringSet with unbinding := some (.a, 1) }) ∧
    field (put 0x29 1 1 (bindCmd 0)) 0x29 1 = 1 ∧ ({ job0 with sets := [{ placedSet with slot := some 0 }] } : Job).keySet (zeros 16) =
      some { placedSet with slot := some 0 } := by decide +kernel
theorem witness_KeySelfcheck : Holds (holding demo (put 0x3B 1 1 (cmd 0x13 0))) .a 0 0x13 (put 0x3B 1 1 (cmd 0x13 0)) ∧
    field (put 0x3B 1 1 (cmd 0x13 0)) 0x3B 1 = 1 ∧ field (put 0x3B 1 1 (cmd 0x13 0)) 0x3C 1 < famCount .z36 ∧ field (cmd 0x13 0) 0x3B 1 ≠ 1 ∧
    field (put 0x3B 1 2 (cmd 0x13 0)) 0x3B 1 = 2 := by decide +kernel
def boundSet : KeySet := { placedSet with slot := some 0 }
/-- The directory's entry of its key. -/
def dir0 : DirEntry := { job := 1, keyset := zeros 16, scheme := 1, set := 1, plainMod := 0, kind := 1, galois := 0, state := dirValid, slot := 0, index := 0, block := 0 }
theorem witness_KeyStreams : CanIssue (withSet boundSet) iss {} ∧ Present (withSet boundSet) [] [engKey] ∧
    (withSet boundSet).passFresh 1 boundSet 0 = true ∧ ((withSet boundSet).headbox 0).entry 1 0 0 = none ∧
    ({ dir := boundSet.dirEntries 1 0 } : Headbox).entry 1 0 0 = some dir0 ∧ dir0.state ≠ 2 ∧
    ({ dir := [{ dir0 with state := 2 }] } : Headbox).entry 1 0 0 = some { dir0 with state := 2 } ∧
    ((withSet boundSet).headbox 0).freeStream = some 0 ∧ ({ job0 with sets := [boundSet] } : Job).boundSet 0 = some boundSet ∧
    (boundSet.entry 0).isSome = true ∧ paramSet boundSet.set = some set1 ∧ set1.dnum - 1 < set1.dnum ∧ set1.l + set1.k - 1 < set1.l + set1.k ∧
    ([0, 1].all fun c => ({ job0 with sets := [boundSet] } : Job).cores.contains c && (withSet boundSet).millOf c == (withSet boundSet).millOf 0) = true ∧
    boundSet.damagedKey 0 = false := by decide +kernel
def stream0 : KeyStream :=
  { job := 1, slot := 0, index := 0, d0 := 0, d1 := 0, limbs := [0], group := [0, 1], blocks := 4, staged := 2, acked := [(0, 1)], ops := [], remote := false }
def keyStreaming (t : KeyStream) : State := { withSet boundSet with headboxes := [(0, { streams := [(7, some t)], lastCheck := [(15, some 0)] })] }
theorem witness_KeyBlocks : (keyStreaming stream0).live = true ∧ Tbl.get none ((keyStreaming stream0).headbox 0).streams 7 = some stream0 ∧
    stream0.group.contains 0 = true ∧ Tbl.get 0 stream0.acked 0 < stream0.staged ∧ { stream0 with acked := [(0, 2)] }.returned < stream0.blocks ∧
    ({ stream0 with blocks := 1, acked := [(0, 1), (1, 1)] } : KeyStream).blocks ≤ ({ stream0 with blocks := 1, acked := [(0, 1), (1, 1)] } : KeyStream).returned ∧
    ((keyStreaming stream0).headbox 0).retired.contains 15 = false ∧
    (keyStreaming stream0).within16 (Tbl.get none ((keyStreaming stream0).headbox 0).lastCheck 0) = false ∧
    (keyStreaming stream0).within16 (Tbl.get none ((keyStreaming stream0).headbox 0).lastCheck 15) = true ∧
    ((keyStreaming stream0).job stream0.job).map Job.st = some .running ∧
    (keyStreaming stream0).job stream0.job = some { job0 with sets := [boundSet] } ∧
    ({ job0 with sets := [boundSet] } : Job).keySet boundSet.id = some boundSet := by decide +kernel
/-- A member of a key ring of modules 0 and 1 with a link up, holding key 0. -/
def passSet : KeySet := { boundSet with ring := some { members := [0, 1], pos := 0 } }
def passing : State :=
  { withSet passSet with links := [(3, { st := .up, peer := 1, peerLink := 3 })],
                         route := some { self := 0, master := 0, backup := 1, encrypt := false, links := [⟨3, 1, 3⟩], forwards := [(1, 8)], spans := [] } }
def flit0 : FlitHdr := { dst := 0, src := 1, seq := 0, ack := 0, nak := false, credClass := 0, credits := 0, span := 0, tag := 0, first := true, last := true, encrypted := false }
theorem witness_KeyPasses : passing.live = true ∧ (passing.link 3).carries = true ∧ 1 ≠ passing.self ∧ passing.boundBy (zeros 16) 0 = [(1, passSet)] ∧
    passSet.ring = some { members := [0, 1], pos := 0 } ∧ (passSet.placed.find? fun c => c.1 == 0 && !c.2.damaged) = some (0, { header := [], body := [] }) ∧
    passSet.remote 0 = false ∧ passing.flitBad 3 2 clsKey flit0 .good = none ∧ (passing.takeFlit 3 flit0 clsKey).self = 0 ∧
    (passing.takeFlit 3 flit0 clsKey).boundBy (zeros 16) 0 = [(1, passSet)] ∧ (passing.takeFlit 3 flit0 clsKey).boundBy (zeros 16) 1 = [] := by
  decide +kernel

/-! ### Hypotheses met: handles, banks, HBM and jobs -/

/-- The result is good and meets a test. -/
def okWith {ε α : Type} (r : Except ε α) (f : α → Bool) : Bool := match r with | .ok a => f a | .error _ => false
/-- The result is a refusal that meets a test. -/
def badWith {ε α : Type} (r : Except ε α) (f : ε → Bool) : Bool := match r with | .ok _ => false | .error e => f e

/-- HANDLE_MAP of one operation, and its buffer. -/
def mapCmd : Bytes := put 0x10 4 40 (cmd 0x21 1)
def mapBuf (op h : Nat) : Bytes := put 0 2 h (put 2 1 op (zeros 40))
def scan0 (s : State) (x : Job) (op h : Nat) : Except (Nat × Nat × Nat) MapScan :=
  s.scanOps 1 x 0 { wins := (s.port .a).wins, view := x.view, now := x.handles } (readHOps (fit 40 (mapBuf op h)) 1)
theorem witness_HandleCommands : Holds (holding demo mapCmd) .a 0 0x21 mapCmd ∧ field mapCmd 2 1 = 1 ∧ field mapCmd 0x10 4 / 40 = 1 ∧
    (List.range 4).all (fun k => (readHOps (fit 40 (mapBuf (k + 1) 2)) 1).head?.map HOp.op == some (k + 1) &&
      hopsBad (fit 40 (mapBuf (k + 1) 2)) 1 == none) = true ∧
    okWith (scan0 demo job0 2 2) (fun m => m.ops != []) = true ∧ okWith (scan0 demo job0 3 2) (fun m => m.ops == []) = true ∧
    okWith (scan0 demo job0 4 2) (fun m => m.ops == []) = true ∧ badWith (scan0 demo job0 1 2) (fun e => e == (0x0250, 0, hdMode)) = true ∧
    badWith (scan0 demo job0 2 4096) (fun e => e == (0x0250, 0, hdNumber)) = true := by decide +kernel
/-- An entry for 4 KiB of scratch in SRAM. -/
def rawEntry : Bytes := put 0 1 1 (put 8 8 4096 (zeros 32))
theorem witness_HandleOps : demo.entryFault 1 job0 job0.view 5 (readHandle rawEntry) = none ∧ demo.entryFault 1 job0 job0.view 4096 (readHandle rawEntry) = some hdNumber ∧
    4095 ≤ 4095 ∧ windowOk (Tbl.get {} job0.handles 2) = true ∧ (Tbl.get none (demo.port .a).wins 0) = none ∧
    (Tbl.get none [(0, some ({ keyStaging := false, job := 1, handle := 2, baseGib := 0 } : Win))] 0).isSome = true := by decide +kernel
/-- BANK_POWER of group 1, which the job owns and no handle keeps. -/
def powerCmd (up : Nat) : Bytes := put 0x18 1 up (put 0x20 16 2 (cmd 0x22 1))
def banked (g : Group) : State := { demo with groups := [(0, { st := .owned, owner := 1, mapped := true }), (1, g)] }
theorem witness_BankPower : Holds (holding demo (powerCmd 0)) .a 0 0x22 (powerCmd 0) ∧ powerGroups (powerCmd 0) = [1] ∧
    (banked { st := .owned, owner := 1, mapped := true }).powerFault 1 job0 false [1] = none ∧ (banked { st := .dark, owner := 1 }).powerFault 1 job0 true [1] = none ∧
    (banked {}).powerFault 1 job0 false [1] = some 0x0252 ∧ (banked { st := .owned, owner := 1, pend := some false }).powerFault 1 job0 false [1] = some 0x0253 ∧
    demo.powerFault 1 job0 false [0] = some 0x0251 ∧ field (powerCmd 1) 0x18 1 = 1 ∧ field (powerCmd 0) 0x18 1 = 0 := by decide +kernel
theorem witness_BankGroups : (banked { st := .draining, owner := 1 }).live = true ∧ ((banked { st := .draining, owner := 1 }).group (128 * 0 + 1)).st = .draining ∧
    ((banked { st := .wiping }).group 1).st = .wiping ∧ (banked { st := .wiping }).job ((banked { st := .wiping }).group 1).owner = none ∧
    (banked { st := .wiping, owner := 1 }).job ((banked { st := .wiping, owner := 1 }).group 1).owner = some job0 ∧ job0.st ≠ .wiping ∧
    ((banked { st := .free }).group 1).st = .free ∧ ((banked { st := .evacuating, owner := 1 }).group 1).st = .evacuating := by decide +kernel

def stacked (x : Stack) : State := { demo with hbms := [(11, x)], tick := 100 }
theorem witness_CorrectionStorms : (stacked { st := 1 }).live = true ∧ ((stacked { st := 1 }).stack (767 / 64)).st ≠ 3 ∧
    ((stacked { st := 1 }).stack (767 / 64)).retired.contains (767 % 64) = false ∧
    (((stacked { st := 1 }).stack (767 / 64)).migrating.any fun c => c.1 == 767 % 64) = false ∧
    (stacked { st := 1 }).within16 none = false ∧ (stacked { st := 1 }).within16 (some (stacked {}).now) = true ∧
    (List.range 40).any (fun n => (stacked {}).now == n + 16 && !(stacked {}).within16 (some n)) = false := by decide +kernel
theorem witness_PseudoChannels : (stacked { st := 1 }).live = true ∧ ((stacked { st := 1 }).stack (767 / 64)).retraining = none ∧
    ((stacked { st := 1 }).stack (767 / 64)).retired.contains (767 % 64) = false ∧
    Tbl.get 0 ((stacked { st := 1 }).stack 11).dataSpares 63 + 2 ≤ 2 ∧ Tbl.get 0 ((stacked { st := 1 }).stack 11).cmdSpares 31 + 1 ≤ 1 ∧
    2 < Tbl.get 0 ((stacked { st := 1, dataSpares := [(63, 2)] }).stack 11).dataSpares 63 + 1 ∧
    ((stacked { st := 1, retraining := some 63 }).stack 11).retraining = some (767 % 64) ∧
    ((stacked { st := 1, retraining := some 5 }).stack 11).due.contains 63 = false ∧ ((stacked { st := 1 }).stack 11).redirected 63 0 = false ∧
    ((stacked { st := 1, retired := [63], migrating := [(63, 0), (5, 0)], moved := [63 * 2 ^ 22] }).stack 11).redirected 63 0 = true ∧
    ((stacked { st := 1, migrating := [(63, 0), (5, 0)] }).stack 11).migrating = (767 % 64, 0) :: [(5, 0)] ∧
    (stacked { st := 1 }).millIdle (11 / 3) = true := by decide +kernel
theorem witness_UnitFilled : ({ demo with units := [(4, { owner := 1, filling := true })] } : State).live = true ∧
    (({ demo with units := [(4, { owner := 1, filling := true })] } : State).hunit (1536 * 0 + 4)).filling = true ∧
    ({ demo with units := [(4, { owner := 1, filling := true })] } : State).fillHeld 0 = false := by decide +kernel
/-- The module with a durable handle in HBM. -/
def scrubbed : State :=
  { withJob { job0 with handles := [(9, { space := 2, attr := 1, mode := 0x10, bound := 4096, baseA := 0, baseB := 4096 })] } with hbms := [(0, { st := 1 })] }
theorem witness_PatrolScrub : ((stacked { st := 1 }).stack (767 / 64)).st = 1 ∧ uncorrectable .good = false ∧ uncorrectable (.checkBits 0) = true ∧
    (stacked { st := 1 }).tableAt (hbmKey 767 0) = none ∧ (stacked { st := 1 }).regionAt (hbmKey 767 0) = none ∧
    (stacked { st := 1 }).job ((stacked { st := 1 }).storedTag (hbmKey 767 0)) = none ∧
    ({ scrubbed with units := [(unitAt (hbmKey 0 0), { owner := 1, use := .key })] } : State).regionAt (hbmKey 0 0) = some 1 ∧
    ({ scrubbed with hbmTag := [(64 * 8, 1)] } : State).storedTag (hbmKey 0 (64 * 64 * 8)) = 1 ∧
    ({ scrubbed with hbmTag := [(0, 1)] } : State).dryHolder (hbmKey 0 0) = some (1, 9, false) ∧ (scrubbed.stack 0).st = 1 ∧
    ({ scrubbed with hbmTag := [(64 * 8, 1)] } : State).dryHolder (hbmKey 0 (64 * 64 * 8)) = none := by decide +kernel

/-- JOB_CREATE of one core, one group and one NEAR unit on mill 0, with a core share where asked. -/
def createCmd (share : Nat) : Bytes := put 0x18 1 1 (put 0x1C 1 1 (put 0x20 2 1 (put 0x2C 1 share (cmd 1 0))))
def reset0 : State := { demo with jobs := [], cores := [], groups := [] }
theorem witness_JobCreate : Holds (holding reset0 (createCmd 0)) .a 0 0x01 (createCmd 0) ∧ 2 ≤ reset0.sec.lifecycle ∧
    reset0.freeJob = some 1 ∧ ({ reset0 with jobs := (List.range 16).map fun j => (j + 1, some {}) } : State).freeJob = none ∧
    reset0.overQuota .a (readJobReq (createCmd 0)) = false ∧
    ({ reset0 with quotaCores := 0 } : State).overQuota .b (readJobReq (createCmd 0)) = true ∧
    ({ reset0 with sec := { reset0.sec with fuses := { reset0.sec.fuses with production := false } } } : State).sec.lifecycle < 2 := by decide +kernel
theorem witness_JobGrant : okWith (reset0.allot (readJobReq (createCmd 0))) (fun g => g.cores == [0] && g.groups == [0] && g.units.map Prod.fst == [0] &&
      reset0.guaranteeFault .a (readJobReq (createCmd 0)) g.cores == none) = true ∧
    badWith (({ reset0 with grade := .fx1208c } : State).allot (readJobReq (put 0x18 1 13 (createCmd 0)))) (fun k => k == 1) = true ∧
    (reset0.guaranteeFault .a (readJobReq (createCmd 17)) [0]).isSome = true := by decide +kernel
theorem witness_JobLife : Holds (holding demo (cmd 2 1)) .a 0 0x02 (cmd 2 1) ∧ (withJob { job0 with st := .wiping }).live = true ∧
    (withJob { job0 with st := .wiping }).wiped { job0 with st := .wiping } = true ∧
    (withJob { job0 with st := .wiping }).wiped { job0 with st := .wiping, wipeUnits := [4] } = false := by decide +kernel

/-- An image of one core with eight bytes of code (R222 to R226). -/
def imageTail : Bytes := zeros 8 ++ le 4 0x80 ++ le 4 8 ++ le 4 0 ++ le 1 0xFF ++ zeros 3
def imageHead : Bytes :=
  put 0 4 0x49504A46 (put 4 1 1 (put 5 1 1 (put 7 1 0xB0 (put 0xD 1 1 (put 0x12 2 1 (put 0x20 4 0x88 (put 0x24 4 152
    (put 0x28 48 (leVal (sha384 imageTail)) (zeros 124)))))))))
def imageFile : Bytes := imageHead ++ le 4 (crc32 imageHead) ++ imageTail
def loadCmd : Bytes := put 0x10 4 152 (cmd 0x10 1)
/-- The job before it is submitted, with a unit of image area. -/
def unsent (st : JobSt) (x : Job) : State := { withJob { x with st := st } with units := [(4, { owner := 1, use := .image })] }
theorem witness_ProgramLoad : Holds (holding (unsent .created job0) loadCmd) .a 0 0x10 loadCmd ∧ field loadCmd 0x10 4 = 152 ∧
    okWith ((unsent .created job0).loadImage 1 { job0 with cores := [0] } imageFile 152) (fun g => g.bytes == 152) = true ∧
    badWith (demo.loadImage 1 { job0 with cores := [0] } imageFile 152) (fun e => e == (0x0204, 0)) = true ∧
    badWith (demo.loadImage 1 job0 imageFile 152) (fun e => e == (0x0206, 0)) = true := by decide +kernel
theorem witness_Submit : Holds (holding (unsent .loaded job0) (put 0x18 1 1 (cmd 0x20 1))) .a 0 0x20 (put 0x18 1 1 (cmd 0x20 1)) ∧ bit (field (cmd 0x20 1) 0x1A 1) 0 = false ∧
    bit (field (put 0x1A 1 1 (cmd 0x20 1)) 0x1A 1) 0 = true ∧ bit Grade.fx1224.engineMask 5 = true ∧ bit Grade.fx1208c.engineMask 5 = false ∧
    job0.areasOk 0xFFFF 0xFFFF = true ∧ jobRep.areasOk 0xFFFF 0xFFFF = false ∧ job0.span = none := by decide +kernel
/-- POLICY_SET with some items valid. -/
def policyCmd (valid period : Nat) : Bytes := put 0x18 2 valid (put 0x1A 1 period (cmd 0x41 0))
theorem witness_PolicySet : Holds (holding reset0 (policyCmd 1 100)) .a 0 0x41 (policyCmd 1 100) ∧
    ((List.range 8).find? (bit (field (policyCmd 0x80 0) 0x18 2))).getD 0 = 7 ∧ reset0.policyFault (policyCmd 1 20) false = none ∧
    reset0.policyFault (policyCmd 1 250) false = none ∧ reset0.policyFault (policyCmd 1 251) false = some 0x0103 ∧ demo.policyFault (policyCmd 1 100) false = some 0x0104 ∧
    reset0.policyFault (policyCmd 1 100) true = some 0x0104 ∧ reset0.policyFault (policyCmd 0x80 0) false = none ∧ (Claims.policyRow 7 .a 0 true = .clockReselect .a 0) := by decide +kernel
theorem witness_PolicyRefusals : demo.serves .b = true ∧ (({ demo with portB := { demo.portB with rings := [(0, { enable := true, sqTail := 1 })] } } : State).ring .b 0).mayFetch = true ∧
    Port.b ≠ demo.adminPort ∧ field (policyCmd 1 100) 0 1 = 0x41 ∧ (policyCmd 1 100).length = 64 ∧
    (({ demo with portB := { demo.portB with rings := [(0, { enable := true, sqTail := 1 })] } } : State).setRing .b 0
      { enable := true, sqTail := 1, sqHead := 1, seq := 1, current := some (policyCmd 1 100) }).fieldFault (policyCmd 1 100) = none := by decide +kernel

/-! ### Hypotheses met: sheets, couches and spans -/

/-- The two cores of the job in a mode. -/
def bothIn (s : State) (m : CoreMode) : State := { s with cores := [(0, { core0 with mode := m }), (1, { core0 with index := 1, mode := m })] }
theorem witness_Ticks : ({ demo with ticking := true } : State).live = true ∧ ({ demo with ticking := true } : State).ticking = true ∧
    demo.clk.switching = .none ∧ demo.ticking = false ∧ State.reset.live = false ∧
    ({ demo with tickGroup := { role := 1 } } : State).tickGroup.role = 1 := by decide +kernel
theorem witness_DueCouch : demo.job 1 = some job0 ∧ job0.span = none ∧ (demo.waitsNow 1 job0 && job0.stuck && demo.someWait job0) = false ∧
    job0.elapsed + 1 < ({ job0 with stride := 4 } : Job).stride ∧ (demo.allCouched 1 job0 && demo.allEnded job0) = false ∧
    job0.stride ≤ job0.elapsed + 1 ∧ (bothIn demo .couch).allCouched 1 job0 = true ∧ demo.allCouched 1 job0 = false ∧
    sheetD job0.stride job0.kMax job0.dMin ≤ ({ job0 with sheet := 9 } : Job).sheet ∧ job0.sheet < sheetD 4 job0.kMax job0.dMin := by decide +kernel
theorem witness_Couches : (withJob { job0 with couching := true }).live = true ∧ (withJob { job0 with couching := true }).clk.switching = .none ∧
    (withJob { job0 with couching := true }).job 1 = some { job0 with couching := true } ∧ job0.st = .running ∧ job0.quiesce = none ∧
    job0.inter.ph = .none ∧ job0.span = none ∧ (bothIn (withJob { job0 with couching := true }) .ended).allEnded { job0 with couching := true } = true ∧
    (bothIn (withJob { job0 with couching := true }) .couch).allEnded { job0 with couching := true } = false ∧
    (withJob { job0 with overrun := true }).job 1 = some { job0 with overrun := true } := by decide +kernel
theorem witness_Reams : ({ demo with boundary := some [(5, 7)] } : State).live = true ∧ ({ demo with boundary := some [(5, 7)] } : State).boundary = some [(5, 7)] ∧
    demo.jobNums.contains 1 = true ∧ demo.boundary = none := by decide +kernel
/-- The job as it is brought to a stop for a replay. -/
def quieting : Job := { job0 with quiesce := some ⟨false, 0x0602, {}, 0, 0, false, none⟩ }
theorem witness_Replays : (withJob quieting).job 1 = some quieting ∧
    (((withJob quieting).groupsOf 1).all fun g => ((withJob quieting).group g).st != .evacuating) = true := by decide +kernel

/-- A release of the job to the host that is under way, and an area that waits for the end of a peer's release. -/
def release0 : Release := { begun := true, seq := 1, entries := [], report := ⟨1, 1, 1, 0, 0, []⟩, final := false }
def entry0 : RelEntry := { h := 0, off := 0, len := 64, dst := .host .a 1 0x5000 }
/-- Its page is translated. -/
def atc0 : List AtsEntry := [{ pasid := 1, page := 5, bus := 0x9000, len := 4096, read := true, write := true }]
def releasing (atc : List AtsEntry) : State :=
  { withJob { job0 with rels := [{ release0 with entries := [entry0] }] } with portA := { paging.portA with atc := atc } }
def receiving : Job :=
  { job0 with span := some 1, handles := [(4, { space := 1, attr := 8, bound := 65536 })], rxHidden := [(4, [1, 2, 3])] }
theorem witness_ReleasesAndGrants : (withJob { job0 with rels := [release0] }).live = true ∧ release0.begun = true ∧
    release0.entries[release0.done]? = none ∧ ({ release0 with entries := [entry0] } : Release).entries[0]? = some entry0 ∧
    (releasing atc0).entryGoes 1 entry0 = true ∧ demo.entryRefused entry0 = some 0x5000 ∧ (releasing []).entryRefused entry0 = none ∧
    (releasing []).entryStale 1 entry0 = none ∧ ((releasing []).entryStale 1 { entry0 with h := 7 }).isSome = true ∧
    ({ spanned with jobs := [(1, some receiving)] } : State).ringFault 1 4 0 3 true = none ∧
    ({ demo with jobs := [(1, some receiving)], groups := [] } : State).ringFault 1 4 0 3 true = some shBank ∧
    ({ job0 with relHalt := some (1, 5) } : Job).relHalt.isSome = true ∧
    (releasing []).entryAwaits entry0 = some (.a, 1, 5) ∧ (releasing []).readOutcome 1 0 0 64 .good = .good ∧
    (releasing atc0).readOutcome 1 0 0 64 (.checkBits 8) ≠ .good ∧
    ({ spanned with jobs := [(1, some receiving)] } : State).spanJob 1 = some 1 ∧ (receiving.handle 4).receive = true ∧ 1 ≠ 0 ∧
    ({ spanned with jobs := [(1, some receiving)] } : State).job 1 = some receiving := by decide +kernel

/-- The span's master, and a member of it that has voted or that waits for START. -/
def mastering (votes : List (Nat × Vote)) : State := { spanned with tickGroup := { role := 1 }, spans := [(1, { votes := votes })] }
def member (x : Span) : State := { spanned with tickGroup := { role := 2, master := 1 }, spans := [(1, x)] }
theorem witness_SpanVotes : (mastering []).live = true ∧ (mastering []).masterNo = (mastering []).self ∧ ((mastering []).spanEntry 1).isSome = true ∧
    ((mastering []).members 1).contains 1 = true ∧ (((mastering []).span 1).votes.any fun c => c.1 == 1) = false ∧ (mastering []).decided 1 = false ∧
    ((((mastering []).spanJob 1).bind (mastering []).job).any fun x => x.seq != 0) = false ∧
    ((([] ++ [(1, Vote.ready)]).any fun c => c.2 == Vote.fault) = false ∧ ((mastering []).members 1).all (fun n => ([(1, Vote.ready)]).any fun c => c.1 == n) = false) ∧
    (((mastering [(0, .ready)]).span 1).votes ++ [(1, Vote.ready)]).all (fun c => c.2 == Vote.ready) = true ∧
    ((mastering [(0, .ready)]).members 1).all (fun n => (((mastering [(0, .ready)]).span 1).votes ++ [(1, Vote.ready)]).any fun c => c.1 == n) = true ∧
    ((mastering [(0, .ready)]).span 1).votes ≠ [] ∧ (member {}).masterNo ≠ (member {}).self ∧ (member {}).spanJob 1 = some 1 ∧ ((member { mine := some .ready }).span 1).mine = some .ready ∧
    (((member { decisions := [(0, 0, .commit)] }).span 1).decisions.find? fun d => d.1 == 0 && (mastering []).now ≤ d.2.1 + 16) = some (0, 0, .commit) := by
  decide +kernel
theorem witness_SpanDecisions : (member { mine := some .ready }).job 1 = some { job0 with span := some 1 } ∧
    ((member { mine := some .ready }).span 1).deferred = none ∧ ((member { mine := some .ready }).span 1).mine = some .ready ∧
    ((member {}).span 1).mine ≠ some .ready ∧ job0.seq = 0 ∧ job0.seq ≠ 1 := by decide +kernel
def submitted : State :=
  (member { submit := some (.a, 0) }).setRing .a 0 { current := some (cmd 0x20 1), held := true }
theorem witness_SpanStartStop : submitted.live = true ∧ submitted.masterNo ≠ submitted.self ∧ submitted.waitingSubmit 1 = some (1, .a, 0) ∧
    submitted.spanJob 1 = some 1 ∧ submitted.job 1 = some { job0 with span := some 1 } ∧ 0x0602 ∉ [0x0304, 0x0703, 0x0704] ∧
    0x0501 ∉ [0x0304, 0x0306, 0x0602, 0x0703, 0x0704] := by decide +kernel

/-! ### Hypotheses met: registers and rings -/

/-- The module with its port A changed. -/
def atA (q : PortSt) : State := { demo with portA := { q with linkUp := true, cfgReady := true } }
theorem witness_Snapshots : demo.essOk .a = true ∧ ((0x00010001 : Reg).getLsbD 0 && (0x00010001 : Reg).getLsbD 16) = true ∧ demo.portA.snapBusy = false ∧
    ((0x00000001 : Reg).getLsbD 0 && (0x00000001 : Reg).getLsbD 16) = false ∧ demo.sees .a 0 = true ∧
    Holds (holding demo (cmd 0x38 0)) .a 0 0x38 (cmd 0x38 0) ∧ (holding demo (cmd 0x38 0)).portA.snapBusy = false ∧
    Holds (holding (atA { snapBusy := true }) (cmd 0x38 0)) .a 0 0x38 (cmd 0x38 0) ∧
    (atA { snapBusy := true, snapRing := some 0 }).live = true ∧ (atA { snapBusy := true, snapRing := some 0 }).portA.snapRing = some 0 ∧
    (atA { snapBusy := true }).portA.snapBusy = true ∧ (atA { snapBusy := true }).portA.snapRing = none := by decide +kernel
theorem witness_LogsAndVectors : (atA { errStatus := 3 }).essOk .a = true ∧ (0x00010001 : Reg).toNat / 65536 ≠ 0 ∧ (0x00000001 : Reg).toNat / 65536 = 0 ∧
    (3 : BitVec 4) &&& ~~~(BitVec.ofNat 4 (w1c 0x00010001)) ≠ 0 ∧ (3 : BitVec 4) &&& ~~~(BitVec.ofNat 4 (w1c 0x00030003)) = 0 ∧
    demo.regOk .a = true ∧ ((0x87FF8000 : Reg).getLsbD 31 && (0x87FF8000 : Reg).getLsbD 15) = true ∧ demo.portA.fmc.start = false ∧
    clockCode (bits (masked demo.portA.fmc.ctrl 0xFFFF8000) 11 6) = true ∧ clockCode (bits (masked demo.portA.fmc.ctrl 0xFFFF8000) 5 0) = true ∧
    clockCode (bits (masked demo.portA.fmc.ctrl 0xFFFF8007) 5 0) = false ∧ (atA { fmc := { start := true } }).portA.fmc.start = true ∧ (atA { fmc := { start := true } }).fmcHangs .a = false ∧
    (atA { fmc := { start := true, hung := true } }).fmcHangs .a = true ∧
    (atA { msixPend := 1 }).portA.msixPend.getLsbD 0 = true ∧ demo.portA.msixPend.getLsbD 63 = false := by decide +kernel
theorem witness_RegisterAccess : decodeReg 0x3FFFC = none ∧ decodeReg 0x11000 = some (.sheet, 0) ∧ demo.gated .sheet 0 = false ∧
    ({ demo with boot := { demo.boot with warm := true } } : State).gated .sheet 0 = true ∧
    busKind 0x3FFFC { write := false, dws := 1, byteEn := 15 } = some 1 ∧ busKind 0x11000 { write := false, dws := 3, byteEn := 15 } = some 2 ∧
    busKind 0x11000 { write := false, dws := 1, byteEn := 15 } = none ∧
    ((reqPlaces 0x11000 { write := false, dws := 1, byteEn := 15 }).filterMap id).any Machine.holding = false ∧
    busKind 0x40000 { write := true, dws := 2, byteEn := 255 } = none ∧
    (((reqPlaces 0x40000 { write := true, dws := 2, byteEn := 255 }).filterMap id).all fun b => b.1 == .msix) = true ∧
    ((reqPlaces 0x11008 { write := false, dws := 1, byteEn := 15 }).filterMap id).any Machine.holding = true := by decide +kernel

/-- Port A with a window over handle 0 of the job. -/
def windowed (x : Job) (k : Bool) : State :=
  { atA { wins := [(0, some { keyStaging := k, job := 1, handle := 0, baseGib := 0 })] } with jobs := [(1, some x)] }
theorem witness_Bar2Access : (windowed job0 false).essOk .a = true ∧ demo.bar2Place .a 0 8 = none ∧
    (windowed job0 false).bar2Place .a 65528 8 = some ({ job := 1, handle := 0 }, 65528, job0) ∧ (windowed job0 false).bar2Place .a 65529 8 = none ∧
    (windowed job0 false).readOutcome 1 0 0 8 .good = .good ∧ (windowed job0 false).readOutcome 1 0 0 8 (.checkBits 0) = .checkBits 0 ∧
    (windowed job0 false).readOutcome 1 0 0 8 (.tag 3 0) = .tag 3 0 ∧ (job0.handle 0).readonly = false ∧
    (windowed { job0 with st := .loaded } false).bar2Place .a 0 8 = some ({ job := 1, handle := 0 }, 0, { job0 with st := .loaded }) ∧
    uncorrectable .good = false ∧ uncorrectable (.checkBits 0) = true ∧ partSector 0 64 = false ∧ partSector 0 8 = true := by decide +kernel
theorem witness_RingRegisters : demo.regOk .a = true ∧ demo.isReady bitControl = true ∧ ({ demo with ready := 0 } : State).isReady bitControl = false ∧
    (demo.ring .a 0).enable = false ∧ (bit (masked (demo.ring .a 0).cfg 0xFFFF8C04) 15 = true ∧ bits (masked (demo.ring .a 0).cfg 0xFFFF8C04) 3 0 = 4 ∧
      bits (masked (demo.ring .a 0).cfg 0xFFFF8C04) 11 8 = 12) ∧
    (let g : Ring := { enable := true }
     bit (masked g.cfg 0x80000000) 15 = false ∧ bit (masked g.cfg 0x80008000) 15 = true) ∧
    demo.portA.ev.enable = false ∧ bit (masked demo.portA.ev.cfg 0xFFFF8006) 15 = true ∧ bits (masked demo.portA.ev.cfg 0xFFFF8006) 3 0 = 6 := by
  decide +kernel

/-- Port A with a command waiting in its ring 0. -/
def fetching : State := demo.setRing .a 0 { enable := true, sqTail := 1 }
theorem witness_CommandFetch : fetching.serves .a = true ∧ (fetching.ring .a 0).mayFetch = true ∧
    fetching.checkCommand .a (cmd 2 1) = none ∧ fetching.checkCommand .a (cmd 0x55 0) = some { status := 0x0001 } ∧
    opcodes.contains (field (cmd 0x55 0) 0 1) = false ∧ fetching.fieldFault (cmd 2 17) = some 2 ∧ fetching.fieldFault (cmd 2 1) = none ∧
    adminOpcodes.contains (field (cmd 0x50 0) 0 1) = false ∧ adminOpcodes.contains (field (cmd 0x41 0) 0 1) = true ∧ Port.b ≠ fetching.adminPort ∧
    jobOpcodes.contains (field (cmd 2 2) 0 1) = true ∧ fetching.job 2 = none ∧ fetching.job 1 = some job0 ∧ job0.owner ≠ .b := by decide +kernel
theorem witness_Completions : ((holding demo (cmd 2 1)).ring .a 0).current = some (cmd 2 1) ∧ bit (field (cmd 2 1) 1 1) 0 = false ∧
    bit (field (put 1 1 1 (cmd 2 1)) 1 1) 0 = true := by decide +kernel
theorem witness_QueriesAndEvents : Holds (holding demo (cmd 0x30 0)) .a 0 0x30 (cmd 0x30 0) ∧ Holds (holding demo (cmd 0x31 0)) .a 0 0x31 (cmd 0x31 0) ∧
    Holds (holding demo (cmd 0x32 0)) .a 0 0x32 (cmd 0x32 0) ∧ field (cmd 0x32 0) 8 8 = 0 ∧ field (put 8 8 4096 (cmd 0x32 0)) 8 8 ≠ 0 ∧
    (atA { ev := { enable := true, waiting := [⟨1, 1, 0, 0, 0, []⟩] } }).serves .a = true ∧
    (let g : EvRing := { enable := true, tail := 63, head := 40, waiting := [⟨1, 2, 0, 0, 0, []⟩] }
     g.pad 2 = 1 ∧ g.pad 2 + 2 ≤ g.room) ∧
    (let g : EvRing := { enable := true, waiting := [⟨1, 1, 0, 0, 0, []⟩] }
     g.pad 1 + 1 ≤ g.room) := by decide +kernel

/-! ### Hypotheses met: power, clocks and resets -/

/-- Readings of every sensor alike. -/
def readings (d : Nat) : Readings := { mills := [d, d, d, d], hub := d, hbm := List.replicate 12 d, regs := d }
theorem witness_PowerUpAndDown : State.reset.pins.power = .starting ∧ ({ demo with pins := { demo.pins with power := .off } } : State).pins.power = .off ∧
    demo.pins.power = .on ∧ ({ demo with pins := { demo.pins with power := .shutdown } } : State).pins.power = .shutdown ∧ demo.boot.frozen = false ∧
    ({ demo with boot := { demo.boot with frozen := true } } : State).boot.frozen = true ∧ demo.live = true ∧ 42000 < 60000 ∧ 39999 < 40000 := by decide +kernel
theorem witness_ManagementBus : demo.live = true ∧ ({ demo with pins := { demo.pins with mctp := [0x0706] } } : State).pins.mctp = [0x0706] ∧
    demo.pins.moduleId = 0 ∧ 0x50 ≠ 0x58 + demo.pins.moduleId.toNat ∧ reset0.pins.power = .on ∧ reset0.jobNums = [] ∧ demo.jobNums ≠ [] ∧ 1000 % 10 = 0 ∧ 601 % 10 ≠ 0 := by decide +kernel
theorem witness_SensorSamples : demo.pins.power = .on ∧ ({ demo with boot := { demo.boot with frozen := true } } : State).boot.frozen = true ∧ demo.clk.switching = .none ∧ ({ demo with clk := { switching := .ramping } } : State).clk.switching ≠ .none ∧
    ((readings 110).mills.any (110 ≤ ·) || 110 ≤ (readings 110).hub || (readings 110).hbm.any (100 ≤ ·) || 130 ≤ (readings 110).regs) = true ∧
    ((readings 99).mills.any (110 ≤ ·) || 110 ≤ (readings 99).hub || (readings 99).hbm.any (100 ≤ ·) || 130 ≤ (readings 99).regs) = false := by decide +kernel
def clocked (c : Clk) : State := { demo with clk := c }
theorem witness_ThrottleSteps : ({ demo with mills := [(3, { hot := true })] } : State).live = true ∧
    (({ demo with mills := [(3, { hot := true })] } : State).mill 3).hot = true ∧ (demo.mill 3).hot = false ∧ demo.cooled 3 = true ∧
    ({ demo with mills := [(3, { temp := 98 })] } : State).cooled 3 = false ∧ (clocked { hubHot := true }).clk.switching = .none ∧
    (clocked { hubHot := true }).clk.hubHot = true ∧ demo.clk.hubTemp ≤ 97 ∧ (clocked { regHot := true }).clk.regHot = true ∧ demo.clk.regHot = false := by
  decide +kernel
theorem witness_PowerLoops : demo.live = true ∧ demo.isReady bitControl = true ∧ demo.clk.switching = .none ∧ 1080 < 1081 ∧ 999 < demo.cap ∧
    demo.cap ≤ 1000 ∧ ([(16, 16)] : List (Nat × Nat))[0]? = some (16, 16) ∧ 97 * demo.cap ≤ 100 * 970 ∧ 100 * 969 < 97 * demo.cap ∧ demo.atFloorEdge = false ∧ demo.raisable 3 = false ∧
    (let s : State := { demo with mills := (List.range 4).map fun m => (m, { capK := 32, divK := 32, capDuty := 1, goal := 1 }) }
     s.atFloorEdge = true ∧ s.raisable 3 = true) ∧ demo.capPlace 0 = 0 := by decide +kernel
theorem witness_Ramps : demo.live = true ∧
    (let s : State := { demo with mills := [(3, { ramped := true })] }
     s.targetDiv 3 < (s.mill 3).divK ∧ (s.mill 3).rail < railFor (s.targetDiv 3)) ∧
    (let s : State := { demo with mills := [(3, { rail := 800, ramped := true })] }
     s.targetDiv 3 < (s.mill 3).divK ∧ railFor (s.targetDiv 3) ≤ (s.mill 3).rail) ∧
    (let s : State := { demo with mills := [(3, { divK := 16, ramped := true, capK := 20 })] }
     (s.mill 3).divK < s.targetDiv 3 ∧ s.targetDiv 3 ≤ 64) := by decide +kernel
theorem witness_References : demo.live = true ∧ demo.clk.source = .crystal ∧ (clocked { source := .oscillator }).clk.source = .oscillator ∧
    (clocked { source := .sysref }).clk.source = .sysref ∧ (clocked { switching := .ramping }).clk.switching = .ramping ∧
    (clocked { switching := .ramping }).atTargets = false ∧ demo.atTargets = true ∧
    (let s : State := { reset0 with clk := { switching := .relocked } }
     s.live = true ∧ s.atTargets = true ∧ s.better = none ∧ s.clk.warmWaits = false ∧ s.runningJobs = []) ∧
    ({ demo with boot := { demo.boot with fusesSensed := true } } : State).boot.fusesSensed = true ∧ demo.jobNums ≠ [] ∧ reset0.jobNums = [] := by decide +kernel
theorem witness_PortResets : demo.live = true ∧ demo.pins.pwrGood = true ∧ State.reset.pins.pwrGood = false ∧ demo.limp = false ∧
    (clocked { source := .oscillator }).limp = true ∧ ({ clocked { source := .oscillator } with pins := { demo.pins with refclkA := true } } : State).refclk .a = true ∧
    (atA {}).perst .a = true ∧ ({ demo with portA := { linkUp := true } } : State).portA.cfgReady = false ∧ (demo.port .a).linkUp = true ∧ (demo.port .a).inReset = false ∧
    ((atA { inReset := true }).port .a).inReset = true ∧ demo.perst .b = true ∧ (demo.port .b).cfgReady = true ∧
    (({ demo with portB := {} } : State).port .b).linkUp = false := by decide +kernel
theorem witness_WarmResetSequence : demo.essOk .b = true ∧ Port.b ≠ demo.adminPort ∧ demo.essOk demo.adminPort = true ∧ demo.clk.switching = .none ∧
    ((atA { armed := 1 }).port .a).armed = 1 := by decide +kernel
theorem witness_Essentials : demo.essOk demo.adminPort = true ∧ (0x5AA50002 : Reg).toNat / 256 = 0x5AA500 ∧ (0x5AA50002 : Reg).toNat % 256 = 2 ∧
    (0x5AA50003 : Reg).toNat % 256 = 3 ∧ ((atA { armed := 2 }).port .a).armed = 2 ∧ ((atA { armed := 3 }).port .a).armed = 3 ∧
    (demo.port .a).inReset = false ∧ ((atA { inReset := true }).port .a).inReset = true ∧ demo.essOk .a = true ∧ demo.essOk .b = true ∧
    (demo.port .a).armed = 0 ∧ demo.better = none ∧ demo.isReady bitControl = true := by decide +kernel
theorem witness_BringUp : (let s : State := { reset0 with boot := { fusesSensed := true }, ready := 0, eeprom := Mem.write [] 0x40 [0x01, 0x80, 0x58, 0x02] }
     s.live = true ∧ s.boot.eepromRead = false ∧ (s.eeprom.get 0x40).toNat = 1 ∧ (s.eeprom.get 0x41).toNat = 0x80 ∧ capOk (leVal (s.eeprom.read 0x42 2)) = true ∧
     s.isReady (bitSram 3) = false) ∧
    (let s : State := { reset0 with ready := 1 }
     s.isReady bitControl = true ∧ s.isReady (bitCores 3) = false ∧ s.boot.safe = false ∧ s.usableCores 3 ≠ [] ∧ (s.stack 11).st = 0 ∧ (s.stack 11).retired = [] ∧
     2 < ([] ++ (List.range 64).filter fun c => decide (2 < Tbl.get 0 [(0, 3), (1, 3), (2, 3)] c) || decide (1 < Tbl.get 0 [] (c / 2)) : List Nat).dedup.length) ∧
    (let s : State := { reset0 with boot := { warm := true }, sec := { reset0.sec with running := some ⟨false, 0, [], false⟩ } }
     s.live = true ∧ s.boot.warm = true ∧ s.sec.running.isSome = true) := by decide +kernel

/-! ### Hypotheses met: security -/

/-- Bytes with others put in. -/
def putB (o : Nat) (x b : Bytes) : Bytes := b.take o ++ x ++ b.drop (o + x.length)
/-- A firmware image under the fused keys, of an SVN and a sequence number, whose digest is right or not (R448). -/
def image (svn seq : Nat) (ok : Bool) : FwImage :=
  { header := put 0 4 0x57464A46 (put 4 1 1 (put 5 1 svn (put 6 1 0xB0 (put 7 1 7 (put 8 4 seq (put 0xC 4 1
      (putB 0x10 (if ok then sha384 [0] else zeros 48) (zeros 4096)))))))), body := [0], checks := { ecdsa := true, hss := true } }
/-- Fuses of an SVN, with the hashes of the two keys of those images. -/
def fuses0 (svn : Nat) : Fuses := { svn := svn, fwKeyHash := sha384 (zeros 97) ++ sha384 (zeros 60) }
/-- The module before its firmware runs, with the security block given. -/
def secured (x : Sec) : State := { reset0 with sec := x, boot := { fusesSensed := true, eepromRead := true } }
def booting (svn : Nat) (ok : Bool) : State :=
  secured { fuses := fuses0 2, slotA := { img := some (image svn 8 ok), valid := true, seq := 8 }, slotB := { img := some (image 2 9 true), seq := 9 } }
theorem witness_SecureBoot_slot : ((booting 2 true).sec.slot false).img = some (image 2 8 true) := rfl
theorem witness_SecureBoot : (booting 2 true).live = true ∧ (booting 2 true).boot.eepromRead = true ∧ (booting 2 true).sec.fuses.retired = false ∧
    (booting 2 true).sec.running = none ∧ (booting 2 true).sec.recovery = false ∧ (booting 2 true).sec.candidates = [false] ∧
    (booting 2 true).imageFits (image 2 8 true) = true ∧
    (booting 2 true).keysFused (image 2 8 true) = true ∧ imageVerifies (image 2 8 true) = true ∧ (image 1 8 true).svn < (booting 1 true).sec.fuses.svn ∧
    (booting 1 true).imageFits (image 1 8 true) = true ∧ imageVerifies (image 2 8 false) = false ∧ (booting 2 true).imageFits (image 65 8 true) = false ∧
    (secured {}).sec.slotA.valid = false ∧ (secured {}).sec.slotB.valid = false ∧ (secured { recovery := true }).sec.recovery = true ∧
    (secured { recovery := true }).live = true ∧
    (secured { slotA := { valid := true, seq := 8 }, slotB := { valid := true, seq := 9 } }).sec.candidates = [true, false] := by decide +kernel

/-- The module whose firmware runs from slot A. -/
def running (x : Sec) : State := secured { x with running := some ⟨false, 3, zeros 48, false⟩ }
theorem witness_Firmware_update : (running { update := some (.a, 0, image 3 9 true) }).sec.update = some (.a, 0, image 3 9 true) := rfl
theorem witness_Firmware : Holds (holding (running {}) (cmd 0x51 0)) .a 0 0x51 (cmd 0x51 0) ∧ (running {}).sec.update = none ∧
    (running {}).imageFits (image 65 9 true) = false ∧ (running { fuses := fuses0 0 }).keysFused { image 3 9 true with header := zeros 4096 } = true ∧
    (running { fuses := fuses0 0 }).keysFused { image 3 9 true with header := put 0x40 1 1 (zeros 4096) } = false ∧
    (running {}).imageFits (image 0 9 true) = true ∧ (running { fuses := fuses0 0 }).keysFused (image 0 9 true) = true ∧
    (image 0 9 true).svn < (running { fuses := { svn := 1 } }).sec.fuses.svn ∧ imageVerifies (image 3 9 true) = true ∧ imageVerifies (image 3 9 false) = false ∧
    (running {}).sec.running = some ⟨false, 3, zeros 48, false⟩ ∧ (running {}).isReady bitControl = true ∧ (running {}).sec.fuses.svn < 3 ∧
    (running {}).sec.fuses.udsKill = false := by decide +kernel

/-- A token of a kind, its COUNT 0 and its serial number that of the default fuses (R442). -/
def token (kind target : Nat) : Bytes :=
  put 0 4 0x4B544A46 (put 4 1 1 (put 5 1 kind (put 6 1 target (zeros 8 ++ List.replicate 12 0x30 ++ zeros 3564))))
def fused (t : Bytes) : State := secured { fuses := { tokenKeyHash := tokenKeys t } }
def both : Checks := { ecdsa := true, hss := true }
/-- The command of a token, and the module whose last job is wiped for the token of a kind. -/
def tokenCmd : Bytes := put 0x10 4 3584 (cmd 0x70 0)
def wait0 (retire : Bool) : TokenWait := { port := .a, ring := 0, retire := retire, jobs := [1] }
def wiping (retire : Bool) : State := { withJob { job0 with st := .wiping } with sec := { token := some (wait0 retire) }, groups := [] }
theorem witness_Tokens : Holds (holding (fused (token 1 0)) tokenCmd) .a 0 0x70 tokenCmd ∧ (fused (token 1 0)).sec.update = none ∧
    (fused (token 1 0)).sec.token = none ∧ (wiping true).live = true ∧ (wiping false).wiped { job0 with st := .wiping } = true ∧
    (wiping true).sec.token = some (wait0 true) ∧ (wait0 true).jobs = [1] ∧ (wiping true).job 1 = some { job0 with st := .wiping } ∧
    ({ wiping true with sec := { token := some (wait0 true), fuses := { udsKill := true } } } : State).sec.fuses.udsKill = true ∧
    field (token 1 0) 5 1 = 1 ∧ field (token 2 1) 5 1 = 2 ∧ field (token 3 0) 5 1 = 3 ∧ (fused (token 1 0)).jobNums = [] ∧ demo.jobNums ≠ [] ∧
    (wiping true).pending = [] ∧ (wiping true).pins.power ≠ .shutdown := by decide +kernel
theorem witness_TokensAccepted : (fused (token 1 0)).tokenStatus (field tokenCmd 0x10 4) (token 1 0) both = cSuccess ∧
    (fused (token 2 1)).tokenStatus 3584 (token 2 1) both = cSuccess ∧ (fused (token 3 0)).tokenStatus 3584 (token 3 0) both = cSuccess := by decide +kernel
theorem witness_TokensRefused : tokenFormed [] = false ∧ tokenFormed (token 1 0) = true ∧ tokenKeys (token 1 0) ≠ (secured {}).sec.fuses.tokenKeyHash ∧
    (fused (token 2 0)).tokenStatus 3584 (token 2 0) both ≠ cSuccess ∧ (secured {}).tokenStatus 3584 (token 1 0) both ≠ cSuccess ∧
    (secured {}).tokenStatus 3584 (token 3 0) both ≠ cSuccess ∧ field (token 1 0) 0x14 4 = (fused (token 1 0)).sec.tokenCount 1 ∧
    field (token 1 0) 0x14 4 ≠ (secured { fuses := { unlockCount := 1 } }).sec.tokenCount 1 ∧
    ((token 1 0).drop 8).take 12 = (fused (token 1 0)).sec.fuses.serial := by decide +kernel
/-- A security block with an identity, in the last leaf of its first block. -/
def attesting : Sec := { keys := some { deviceId := 1, hss := [], cdiFw := [], alias_ := 2 }, entries := [journalEntry 0], block := some 0, leaf := 1023 }
theorem witness_Attestation : Holds (holding (withJob job0) (cmd 0x50 0)) .a 0 0x50 (cmd 0x50 0) ∧ field (cmd 0x50 0) 0x38 1 = 0 ∧
    field (put 0x38 1 2 (cmd 0x50 0)) 0x38 1 ≠ 0 ∧ demo.job 2 = none ∧ demo.sec.keys = none ∧ attesting.keys.isSome = true ∧ attesting.takeLeaf.isSome = true ∧
    attesting.bucket ≠ 0 ∧ ({ attesting with bucket := 0 } : Sec).bucket = 0 ∧ ({ attesting with leaf := 1024 } : Sec).needsBlock = true ∧
    ({ attesting with leaf := 1024 } : Sec).takeLeaf.isSome = true ∧ attesting.fuses.retired = false ∧ attesting.journal = 1 ∧
    attesting.takeLeaf = some (1023, { attesting with leaf := 1024 }) ∧
    Sec.takeLeaf { attesting with leaf := 1024 } =
      some (1024, { attesting with entries := [journalEntry 0, journalEntry 1], block := some 1, leaf := 1 }) ∧ demo.sec.attestQ = [] := by decide +kernel
/-- No signature is left once the journal is full. -/
theorem takeLeaf_none (x : Sec) (h : x.needsBlock = true) (k : 32768 ≤ x.journal) : x.takeLeaf = none := by
  unfold Sec.takeLeaf; rw [if_pos h, if_neg (by omega)]
/-- The base point of P-384, from the standard that R460 names. -/
def pointG : PkePoint :=
  .xy 0xaa87ca22be8b05378eb1c71ef320ad746e1d3b628ba79b9859f741e082542a385502f25dbf55296c3a545e3872760ab7
    0x3617de4a96262c6f5d9e98bf9292dc29f8f41dbd289a147ce9da3113b5f0b8c00a60b1ce1d7e819d7a431d7c90ea0e5f
/-- A request of the firmware. -/
def pke0 : PkeReq := { owner := .firmware, op := .keygen, operands := [1, 2] }
theorem witness_PublicKeyEngine : demo.live = true ∧ demo.sec.pkeQ = [] ∧ ({ demo.sec with pkeQ := [pke0] } : Sec).pkeQ = pke0 :: [] ∧ { pke0 with op := .hssSign } ≠ pke0 ∧
    demo.sec.owner ≠ pke0.owner ∧ demo.sec.dummies = 0 ∧
    badScalar 0 = true ∧ badScalar 1 = false ∧ badPoint (.xy 0 0) = true ∧ badPoint pointG = false ∧ lmsKnown ⟨24, 8, 10⟩ = true ∧ lmsKnown ⟨24, 8, 11⟩ = false ∧
    ({ demo.sec with owner := .firmware } : Sec).owner = .firmware := by decide +kernel

/-- Port A with its SPDM agreement and its sessions. -/
def talking (n : Nat) (l : List Session) : State := atA { agreed := n, sessions := l }
theorem witness_SpdmAndIde : (talking 3 []).spdmReady .a = true ∧ (talking 3 []).sec.pkeQ = [] ∧
    ({ talking 3 [] with sec := { demo.sec with pkeQ := [pke0] } } : State).sec.pkeQ ≠ [] ∧ ((talking 0 []).port .a).agreed = 0 ∧ 3 ≤ ((talking 3 []).port .a).agreed ∧
    4 ≤ ((talking 3 [{ id := 0 }, { id := 1 }, { id := 2 }, { id := 3 }]).port .a).sessions.length ∧ ((talking 3 []).port .a).sessions.length < 4 ∧
    (((talking 3 [{ id := 3, finished := true }]).port .a).sessions.any fun x => x.id == 3 && x.finished) = true ∧
    (((talking 3 [{ id := 3 }]).port .a).sessions.any fun x => x.id == 3) = true ∧
    (((talking 3 [{ id := 3 }]).port .a).sessions.any fun x => x.id == 3 && x.finished) = false ∧
    ((atA { ideLink := { rx := some 0, tx := some 1 } }).port .a).ideLink.rx.isSome = true ∧
    ((atA { ideLink := { rx := some 0, tx := some 1 } }).port .a).ideLink.tx.isSome = true ∧
    ({ (talking 3 [{ id := 3, finished := true }]) with sec := { demo.sec with owner := .session .a 3 } } : State).sec.owner = .session .a 3 := by decide +kernel

/-! ### Hypotheses met: self-test and JTAG -/

def stestCmd (scope core force : Nat) : Bytes := put 0x18 1 scope (put 0x19 1 force (put 0x1A 1 core (cmd 0x40 0)))
/-- A test under way in mill 0, where the spare stands in. -/
def tested (s : State) (u : SlotTest) : State := { s with stests := [(0, { under := [u], spare := 1 })] }
def testing (u : SlotTest) : State := tested reset0 u
def slot2 : SlotTest := { slot := 2, core := some 2, asker := none, scanning := true, result := none, spare := true }
theorem witness_SelfTests : Holds (holding (testing slot2) (stestCmd 0 2 0)) .a 0 0x40 (stestCmd 0 2 0) ∧ field (stestCmd 0 2 0) 0x18 1 = 0 ∧
    (((testing slot2).stest 0).under.any fun u => u.core == some 2) = true ∧ reset0.modTest = none ∧
    ((testing slot2).stest 0).queue = [] ∧ ((testing slot2).stest 0).turn = false ∧ ((testing slot2).stest 0).spare ≠ 0 ∧
    (∀ u ∈ ((testing slot2).stest 0).under, u.core ≠ some 15 ∧ u.scanning = true ∧ u.result = none) ∧ (testing slot2).millOf 15 = 0 ∧
    field (stestCmd 0 0 1) 0x19 1 = 1 ∧ (tested demo slot2).jobOn 0 ≠ 0 ∧ (tested demo slot2).standIn 0 0 = some 3 ∧ (tested demo slot2).jobOn 3 = 0 ∧
    field (stestCmd 1 0 0) 0x18 1 = 1 ∧ reset0.jobNums = [] ∧ (∀ m, m < 4 → (reset0.stest m).under = [] ∧ (reset0.stest m).queue = []) ∧
    reset0.isReady bitControl = true ∧ (reset0.stest 3).spare = 0 ∧ reset0.slotFrom 3 (reset0.stest 3).nextSlot = some 0 ∧
    reset0.jobOn (3 * reset0.grade.coresPerMill + 0) = 0 ∧ (testing slot2).testReady { slot2 with result := some true } 0 = true ∧
    slot2.slot ∉ ((testing slot2).stest 0).retiredSlots ∧ ((testing slot2).stest 0).spare < 2 ∧
    (tested demo { slot2 with core := some 0 }).testReady { slot2 with core := some 0 } 0 = false ∧
    (let x : ModTest := { asker := none, scanning := true, left := [.core 0 0, .core 0 1], failed := false }
     Block.core 0 1 ∈ x.left ∧ (x.left.erase (.core 0 1)).isEmpty = false) := by decide +kernel
theorem witness_Jtag : demo.pins.power = .on ∧ demo.sec.lifecycle = 2 ∧ ({ demo.sec with fuses := { retired := true } } : Sec).lifecycle = 4 ∧
    ({ demo.sec with debug := true } : Sec).lifecycle = 3 ∧
    ({ demo.sec with fuses := { provisioned := false, production := false } } : Sec).lifecycle = 0 ∧
    ({ demo.sec with fuses := { production := false } } : Sec).lifecycle = 1 ∧ (demo.group (8 / 2 ^ 22)).st ≠ .free ∧
    ({ demo with hbmTag := [(0, 1)] } : State).placeTag (hbmKey 0 0) ≠ 0 := by decide +kernel

/-! ### Hypotheses met: quire links, and rules stated whole -/

/-- A route table of one link, number 23, to module 1, which is the master (R431). -/
def routeTable : Bytes :=
  put 0 1 0 (put 1 1 1 (put 2 1 0xFF (put 4 1 1 (put 5 1 1 (zeros 16))))) ++ [23, 1, 4, 0] ++ [1, 0, 0, 0x80]
def routeCmd : Bytes := put 0x10 4 24 (cmd 0x60 0)
theorem witness_LinkRoute : Holds (holding demo routeCmd) .a 0 0x60 routeCmd ∧ field routeCmd 0x10 4 = 24 ∧ fit 24 routeTable = routeTable ∧
    demo.routeInvalid routeTable 24 = none ∧ demo.routeInvalid routeTable 20 = some 1 ∧ demo.linksAbsent (readRoute routeTable) = 0 ∧
    ({ demo with grade := .fx1208c } : State).linksAbsent (readRoute routeTable) ≠ 0 ∧ demo.routeBusy (readRoute routeTable) = false ∧
    spanned.routeBusy (readRoute routeTable) = true ∧ ((readRoute routeTable).links.find? fun l => l.k == 22) = none := by decide +kernel

/-- The module with that route, and its link 23 in a state. -/
def linked (x : Link) : State :=
  { demo with route := some (readRoute routeTable), links := [(23, { x with peer := 1, peerLink := 4 })], tickGroup := { role := 2, master := 1 } }
theorem witness_LinkLanes : (linked { st := .training }).live = true ∧ (linked { st := .training }).limp = false ∧
    ((linked { st := .training }).link 23).st = .training ∧ (linked { st := .training }).routeEntry 23 = some ⟨23, 1, 4⟩ ∧
    4 ≤ (lanesGood 0x17).length ∧ (lanesGood 0x13).length < 4 ∧ ((linked {}).link 23).waiting = [] ∧
    Carries (linked { st := .up, good := 31 }) 23 ∧ ((linked { st := .up, good := 31 }).link 23).serves 3 = true ∧
    ((linked { st := .up, good := 31 }).link 23).good.getLsbD 3 = true ∧ ((linked { st := .up, good := 31 }).link 23).spareFree = true ∧
    ((linked { st := .up, good := 31, spareFor := some 0 }).link 23).spareFree = false ∧ (linked { st := .up, good := 31 }).linkJobs 23 = [] ∧
    (linked { st := .up, good := 31 }).linkUsers 23 = [] ∧ ((linked { st := .retrain }).link 23).st = .retrain ∧
    ((linked { st := .retrain }).link 23).waiting = [] ∧ ((linked { st := .retrain }).link 23).retry = [] ∧
    (linked { st := .retrain }).route.any Route.encrypt ≠ true := by
  unfold Carries; decide +kernel

/-- A flit of span 1 for the module, or for another one. -/
def flitTo (d n : Nat) : FlitHdr :=
  { dst := d, src := 1, seq := n, ack := 0, nak := false, credClass := 0, credits := 0, span := 1, tag := 4, first := true, last := true, encrypted := false }
/-- A control message for module 9 that comes over link 23. -/
def arrival0 : Arrival := { k := 23, cls := clsControl, hdr := flitTo 9 0 }
theorem witness_LinkFlits : Carries (linked { st := .up }) 23 ∧ ((linked { st := .up, encrypted := true }).link 23).encrypted = true ∧
    (flitTo 0 4095).seq = ((linked { st := .up, rxSeq := 4095 }).link 23).rxSeq ∧ (flitTo 0 1).seq ≠ ((linked { st := .up }).link 23).rxSeq ∧
    ((linked { st := .up }).link 23).waiting = [] ∧ (flitTo 0 0).nak = false ∧ (flitTo 9 0).dst ≠ (linked { st := .up }).self ∧
    (linked { st := .up }).routeTo 9 1 4 = none ∧ (flitTo 0 0).dst = (linked { st := .up }).self ∧
    arrives (.grant 1 0 8 (some arrival0)) = some (arrival0, clsControl) ∧
    (linked { st := .up }).flitBad 23 clsControl clsControl (flitTo 9 0) .good = none ∧ (flitTo 9 0).dst ≠ ((linked { st := .up }).takeFlit 23 (flitTo 9 0) clsControl).self ∧
    ((linked { st := .up }).flitBad 23 clsTick clsControl (flitTo 9 0) .good).isSome = true ∧
    ((linked { st := .up }).flitBad 23 clsControl clsControl (flitTo 9 1) .good).isSome = true ∧
    (let s : State := { spanned with links := [(23, { st := .up })] }
     Carries s 23 ∧ s.spanJob 1 = some 1 ∧ s.job 1 = some { job0 with span := some 1 } ∧ job0.st = .running) := by unfold Carries; decide +kernel
theorem witness_TickGroups : Carries (linked { st := .up }) 23 ∧ (linked { st := .up }).tickGroup.role = 2 ∧ (linked { st := .up }).tickGroup.next ≠ 5 ∧
    (linked { st := .up }).tickGroup.hops ≤ 1 ∧ (linked {}).route = some (readRoute routeTable) ∧ ({ linked {} with jobs := [] } : State).runningJobs = [] ∧
    ({ linked {} with jobs := [] } : State).live = true ∧ ((linked {}).link 23).carries = false ∧
    ((linked { st := .up }).link 23).paused = false ∧ ((linked { st := .up }).link 23).waiting = [] ∧
    Tbl.get 0 ((linked { st := .up }).link 23).used clsControl < 128 ∧ ((linked { st := .up }).link 23).retry.length < 512 := by
  unfold Carries; decide +kernel
theorem witness_LinkKeys : Carries (linked { st := .up, encrypted := true }) 23 ∧
    ((linked { st := .up, encrypted := true }).link 23).encrypted = true ∧
    2 ^ 40 ≤ ((linked { st := .up, encrypted := true, txCount := 2 ^ 40 }).link 23).txCount ∧
    2 ^ 40 ≤ ((linked { st := .up, encrypted := true, rxCount := 2 ^ 40 }).link 23).rxCount ∧
    ((linked { st := .up, encrypted := true }).link 23).txCount < 2 ^ 40 ∧ ((linked { st := .up, encrypted := true }).link 23).rxCount < 2 ^ 40 := by
  unfold Carries; decide +kernel
theorem witness_LimbPacking : 16 % 8 = 0 ∧ (List.replicate 16 (2 ^ 36 - 1)).length = 16 ∧ ((List.replicate 16 (2 ^ 36 - 1)).all fun x => decide (x < 2 ^ 36)) = true ∧
    ((List.replicate 16 (2 ^ 28 - 1)).all fun x => decide (x < 2 ^ 28)) = true ∧ (zeros 72).length = 16 / 8 * 36 := by decide +kernel
/-- The matrix that names a limb of N = 8192. -/
def matG (h : Nat) : Mat := { loc := ⟨h, 0⟩, form := .rowMajor 576 1, rows := 1, cols := 1 }
theorem witness_Galois : CopyIssues demo iss { head0 with fmt := .z36 } [] [0, 2] ∧ demo.matLayout 1 (matG 0) = some (.rows 576 1) ∧
    demo.matLayout 1 (matG 2) = some (.rows 576 1) ∧ misaligned .z36 (.rows 576 1) 0 = false ∧ matBad (matG 0) = false ∧
    badStrides .z36 (.rows 576 1) false = false ∧ badStrides .z36 (.rows 576 1) true = false ∧ galoisDetail .z36 8192 16383 1 36864 = none ∧ sizeLog 8192 = some 13 ∧
    demo.limbFault 1 ⟨0, 0⟩ 1 36864 36864 false = none ∧ demo.limbFault 1 ⟨2, 0⟩ 1 36864 36864 true = none ∧
    TagsLet demo 1 0 [(0, 8 * 36864)] ∧ (List.range 8).length = 2 ^ 3 := by
  refine ⟨⟨by decide +kernel, ⟨rfl, rfl⟩, job0, rfl, fun k sem => ?_⟩, by decide +kernel⟩
  cases sem; decide +kernel
theorem overlap_le (n m : List Nat) (h : n.length ≤ 576) : overlapOf n m ≤ maxStaging := by
  have := List.length_filter_le m.contains n
  have : 64 * 576 ≤ maxStaging := by decide
  unfold overlapOf
  omega
theorem sectors_galois : (demo.sectors 1 0 [(0, 8 * 36864)]).length ≤ 576 := by
  unfold State.sectors
  rw [show demo.job 1 = some job0 from rfl]
  simp only [List.length_map]
  exact le_trans (List.dedup_sublist _).length_le (by decide +kernel)
theorem witness_GaloisOverlap : overlapOf (demo.sectors 1 0 [(0, 8 * 36864)]) (demo.sectors 1 2 [(0, 8 * 36864)]) ≤ maxStaging :=
  overlap_le _ _ sectors_galois
theorem witness_FloatLayouts : (5 : Nat) < 2 ^ 4 ∧ (7 : Nat) < 2 ^ 3 ∧ (15 = 2 ^ 4 - 1 ∧ (1 = 0 ∨ (1 = 1 ∧ 7 = 7))) ∧ ¬(14 = 2 ^ 4 - 1) := by decide

/-! ### Values that the spec works out -/

/-- The lateness example of R56: stride 2 at divider 20 and duty 12 may couch at sheet 5 at the latest. -/
theorem test_sheetD : sheetD 2 20 12 = 5 ∧ sheetD 1 16 16 = 2 := by decide
/-- The ramp of R52's example: the clock of a mill moves by one step towards its target, and its rail falls last. -/
theorem test_ramp : (match exec (.dividerRampStep 1) { demo with mills := [(1, { divK := 19, capK := 20, ramped := true, rail := 800 })] } with
    | .next t => (t.mill 1).divK == 20 | _ => false) = true := by decide +kernel
/-- The frequency measurement of R74's example: START, window 7, target 0x01, reference 0x03. -/
theorem test_fmc : (match exec (.fmcStart .a 0xFFFFF043) demo with
    | .next t => (t.port .a).fmc == { start := true, windowExp := 7, targetSel := 1, refSel := 3 } | _ => false) = true := by decide +kernel
/-- SHEET_CFG reads 0x0064_2710 at the reset values: 100 µs and 10,000 sheets (R119's example). -/
theorem test_sheetCfg : demo.readReg .a 0x11000 = some 0x00642710 := by decide +kernel
/-- JOB_SHEET_3 of R119's example. -/
theorem test_jobSheet : ({ demo with jobs := [(3, some { job0 with stride := 2, sheet := 2, lateReam := 5 })] } : State).readReg .a 0x11048 =
    some 0x80021005 := by decide +kernel
/-- CORE_STATE_3 of R230's example: WAIT on semaphore 10 at bundle position 0x1890, in job 4. -/
theorem test_coreState : ({ demo with jobs := [(4, some { job0 with cores := [3] })],
                                      cores := [(3, { core0 with job := 4, mode := .wait 10 1, bundle := 0x1890 })] } : State).readReg .a 0x1200C =
    some 0x440A0312 := by decide +kernel
/-- The SPREAD address of R350's example: pseudo-channel 450, byte 8,721,920. -/
theorem test_spread : demo.hbmAddr 0x20 0x18F424000 = hbmKey 450 8721920 := by decide +kernel
/-- The STRIPED address of R295's example. -/
theorem test_striped : sramAddr 1 0x0C400000 0x51234 = 0x0C80A234 := by decide +kernel
/-- Element (70, 250) of R310's example: a 100 × 300 matrix of F16E5 in posts of 2 × 4, of 98,304 bytes. -/
theorem test_posts : elemBit .f16e5 (.blocked 1 2) 0 300 70 250 = 8 * 72116 ∧ extentOf .f16e5 (.blocked 1 2) 0 100 300 = (0, 98304) := by decide +kernel
/-- The rejection sampling of R165's example: two words of four chunks. -/
theorem test_sampling : expandFrom 4 0xDFFF00001 36 2
    [0x3C, 0x91, 0x07, 0xA2, 0xF5, 0x00, 0x00, 0x00, 0xF0, 0xEF, 0x01, 0x00, 0xF0, 0xFF, 0x3D, 0x00, 0x00, 0xF0, 0xFF, 0x1D] =
    ([0x5A207913C, 0xDFFF00000], 4) := by decide +kernel
/-- The header of R140's example: set 0x03 at 19 limbs has a body of 0x0055_8000 bytes. -/
theorem test_header : ((paramSet 3).map fun p =>
    let b := ({ scheme := 1, set := 3, limbs := 19, form := 1, comps := 2, scale := 0x2400, head := 0x1500, slots := 14, plain := 0,
                keyset := zeros 16, gen := 0 } : CtHdr).bytes p
    (b.length, field b 0 4, field b 0xA 2, field b 0xC 2, field b 0x24 4)) = some (64, 0x54434A46, 0x2400, 0x1500, 0x00558000) := by decide +kernel
/-- Results written as F8E4 (R267's example), with whether they overflow. -/
theorem test_f8e4 : [FVal.fin false 232 0, .fin false 1983 (-3), .fin false 248 0, .fin true 1000 0, .fin false 31 (-11), .fin false 15 (-10)].map
      (fSpec .f8e4).write = [(0x76, false), (0x77, false), (0x78, true), (0xF8, true), (0x08, false), (0x00, false)] := by decide +kernel
/-- The same results, and 463 and 464, written as F8E4S. -/
theorem test_f8e4s : [FVal.fin false 248 0, .fin false 463 0, .fin false 464 0, .fin true 1000 0, .fin false 31 (-11), .fin false 15 (-10)].map
      (fSpec .f8e4s).write = [(0x78, false), (0x7E, false), (0x7E, true), (0xFE, true), (0x08, false), (0x00, false)] := by decide +kernel
/-- Values written as F4E2S (R268's example). -/
theorem test_f4e2s : [FVal.fin false 3277 (-13), .fin false 7 (-3), .fin false 5 (-1), .fin false 5 0, .fin false 13 (-1), .fin false 7 0, .fin true 9 0].map
      (fSpec .f4e2s).write = [(0, false), (2, false), (4, false), (6, false), (7, false), (7, true), (0xF, true)] := by decide +kernel
/-- CRC-32 of IEEE 802.3, whose check value of the digits 1 to 9 is 0xCBF43926. -/
theorem test_crc32 : crc32 [0x31, 0x32, 0x33, 0x34, 0x35, 0x36, 0x37, 0x38, 0x39] = 0xCBF43926 := by decide +kernel

/-- SHA-384 of the three letters abc, from FIPS 180-4. -/
theorem test_sha384 : bytesVal (sha384 [0x61, 0x62, 0x63]).reverse =
    0xcb00753f45a35e8bb5a03d699ac65007272c32ab0eded1631a8b605a43ff5bed8086072ba1e7cc2358baeca134c825a7 := by decide +kernel

/-! ### One command each -/

/-- The scalar that a core waits to be given after a command: its register and value. -/
def scalarOf (c : Instr) : Option (SReg × Word) := match exec c (withCore { core0 with sreg := [(1, 7), (2, 0xFFFFFFFFFFFFFFFD)] }) with
  | .next t => ((t.core 0).scalarQ.head?.map fun x => (x.d, x.v)).orElse fun _ => some (4, (t.core 0).s 4)
  | _ => none
/-- R211: 7 + (−3), 7 × (−3), the signed and unsigned high halves, and shifts by the low six bits. -/
theorem test_scalar : scalarOf (.add iss 4 1 2) = some (4, 4) ∧ scalarOf (.mul iss 4 1 2) = some (4, 0xFFFFFFFFFFFFFFEB) ∧
    scalarOf (.mulhs iss 4 1 2) = some (4, 0xFFFFFFFFFFFFFFFF) ∧ scalarOf (.mulhu iss 4 1 2) = some (4, 6) ∧
    scalarOf (.sar iss 4 2 1) = some (4, 0xFFFFFFFFFFFFFFFF) ∧ scalarOf (.cmplt iss 4 2 1) = some (4, 1) ∧ scalarOf (.cmpltu iss 4 2 1) = some (4, 0) := by
  decide +kernel
/-- R96: a tick counts; the front of the queue runs first, and the rest waits. -/
theorem test_tick : (match step { demo with ticking := true, pending := [.tick, .heartbeat] } with
    | .next t => t.tick == 1 && t.pending == [.heartbeat] | _ => false) = true := by decide +kernel
/-- A block with no command waiting idles. -/
theorem test_idle : step demo = .next demo := rfl
/-- R396: an arm and the GO of the freeze that follows it. -/
theorem test_arm : (match exec (.essArm .a 0xA55A0002) demo with
    | .next t => (match exec (.essFreeze .a 0x5AA50002) t with | .next u => u.boot.frozen && !u.live | _ => false) | _ => false) = true := by decide +kernel

/-! ### What is not a well-formed command is refused as one -/

theorem test_wf_counts : Instr.wf (.coldReset 65536 true) = false ∧ Instr.wf (.eepromWrite 8192 0 0x50) = false ∧ Instr.wf (.integratorCapSet 65536 0x58) = false ∧
    Instr.wf (.mctpEventRead 128) = false ∧
    Instr.wf (.sensorSample { readings 20 with mills := [] }) = false ∧ Instr.wf (.thermalThrottleStep 5) = false ∧ Instr.wf (.dividerRampStep 18) = false ∧
    Instr.wf (.railRaised 4) = false ∧ Instr.wf (.firmwareRestore 0 4 true) = false ∧ Instr.wf (.firmwareCapEval 0 5 ⟨1, 16, 1⟩) = false ∧
    Instr.wf (.hbmReady 12 true [] []) = false ∧ Instr.wf (.repulpTableBuilt 64) = false ∧ Instr.wf (.couchCommit 0) = false ∧ Instr.wf (.jobWiped 17) = false ∧
    Instr.wf (.unitFilled 5 0) = false ∧ Instr.wf (.pcRetrain 768) = false ∧ Instr.wf (.portLinkUp .a 64 3 false 0) = false ∧ Instr.wf (.msixUnmask .a 64) = false := by decide
theorem test_wf_links : Instr.wf (.linkTrained 24 0 0 0 0 false 0) = false ∧ Instr.wf (.linkTrained 0 0 128 0 0 false 0) = false ∧
    Instr.wf (.laneRetired 0 5 0) = false ∧ Instr.wf (.ping 24 0) = false ∧ Instr.wf (.masterLost [128]) = false ∧
    Instr.wf (.vote 0 0 0 .ready 16 16 true) = false ∧ Instr.wf (.voteTimeout 1 128) = false ∧ Instr.wf (.decisionRequest 65536 0 0) = false ∧
    Instr.wf (.grant 0 0 0) = false ∧ Instr.wf (.sigMessage 1 0 0) = false ∧ Instr.wf (.passRequest 0 0 [] 0 0 0) = false ∧
    Instr.wf (.keyMessage 0 { flitTo 0 0 with seq := 4096 } (zeros 16) []) = false ∧ Instr.wf (.correctionStorm (.group 0 128) 0) = false ∧
    Instr.wf (.correctionStorm (.pc 768) 0) = false ∧ Instr.wf (.bankGroupDark 4 0) = false ∧ Instr.wf (.ideKmKeyProg .a 0 3 true) = false := by decide
theorem test_wf_host : Instr.wf (.submit .a 8) = false ∧ Instr.wf (.commandFetch .a 0 []) = false ∧ Instr.wf (.registerWrite .a 2 0) = false ∧
    Instr.wf (.busError .a 0 { write := false, dws := 0, byteEn := 15 }) = false ∧ Instr.wf (.pageRequest .a (2 ^ 20) 0) = false ∧
    Instr.wf (.migrationDone 0 [1]) = false ∧ Instr.wf (.migrationDone 768 []) = false := by decide
theorem test_wf_core : Instr.wf (.add { iss with core := 64 } 1 1 1) = false ∧ Instr.wf (.getid iss 1 3) = false ∧ Instr.wf (.br iss (2 ^ 18)) = false ∧
    Instr.wf (.ldS iss 1 ⟨0, 0⟩ 3 false) = false ∧ Instr.wf (.ldT iss 1 .s8 ⟨65536, 0⟩ .leaf) = false ∧ Instr.wf (.wait iss 0 256) = false ∧
    Instr.wf (.sig iss 256 1) = false ∧ Instr.wf (.bar iss 32) = false ∧ Instr.wf (.vred iss (vd .s8) (.tile 1) .s8 4 false none) = false ∧
    Instr.wf (.mmaCont iss { mma0 .s8 with a := .panel ⟨0, 2 ^ 64⟩ false }) = false ∧ Instr.wf (.nttF iss { ntt0 with src := ⟨65536, 0⟩ }) = false ∧
    Instr.wf (.coreHalted 64) = false ∧ Instr.wf (.streamElementComplete 0 8 [] .good 1) = false ∧ Instr.wf (.strm iss { strm0 with channel := 8 }) = false ∧
    Instr.wf (.strmMark iss 8 0 false) = false ∧ Instr.wf (.xcopyMove iss head0 { mat0 0 with rows := 2 ^ 32 } (mat0 0) []) = false ∧
    Instr.wf (.xcopyGalois iss head0 { mat0 0 with loc := ⟨65536, 0⟩ } (mat0 0) 0 0 0 0) = false := by decide +kernel
theorem test_wf_keys : Instr.wf (.ciphertextAdd iss ⟨65536, 0⟩ ⟨0, 0⟩ ⟨0, 0⟩ .good) = false ∧ Instr.wf (.rescale iss ⟨0, 2 ^ 64⟩ ⟨0, 0⟩ .good) = false ∧
    Instr.wf (.relinearise iss ⟨0, 0⟩ ⟨0, 0⟩ ⟨256, 0, ⟨0, 0⟩⟩ .good) = false ∧ Instr.wf (.hoistedRotate iss ⟨0, 0⟩ [] ⟨0, 0, ⟨0, 0⟩⟩ .good) = false ∧
    Instr.wf (.multiplyRelinearise iss ⟨0, 0⟩ ⟨0, 0⟩ ⟨0, 0⟩ ⟨0, 65536, ⟨0, 0⟩⟩ .good) = false ∧ Instr.wf (.repulp iss ⟨0, 0⟩ 256 .good) = false ∧
    Instr.wf (.keyBlockAcknowledged 0 8 0 .good) = false ∧ Instr.wf (.keyBlockAcknowledged 0 0 0 (.expander 16)) = false ∧
    Instr.wf (.keyStreamStart iss 0 0 0 0 0 0 [64]) = false := by decide
theorem test_wf_good : Instr.wf (.add iss 1 1 1) = true ∧ Instr.wf (.mmaCont iss (mma0 .s8)) = true ∧ Instr.wf (.strm iss strm0) = true ∧
    Instr.wf (.correctionStorm (.pc 767) 0) = true ∧ Instr.wf (.keyMessage 23 (flitTo 127 4095) (zeros 16) []) = true := by decide +kernel

end Sys2Proof.Tests
end

section
/-! The essentials page's arm and GO (R78, R396): what a write of each is on the administrative port and on the other one, and the
warm-reset sequence made of them. -/

namespace Sys2Proof.Machine

/-! ### The writes as commands -/

theorem exec_essArm (p : Port) (v : Reg) (s : State) : exec (.essArm p v) s = .next (s.essArm p v) := rfl
theorem exec_warmReset (p : Port) (v : Reg) (s : State) : exec (.warmReset p v) s = .next (s.essGo p v) := rfl

/-! ### On the other port both are discarded and logged as ESS_NOT_ADMIN -/

theorem State.essArm_of_ne_adminPort {s : State} {p : Port} (v : Reg) (hok : s.essOk p = true) (hp : p ≠ s.adminPort) :
    s.essArm p v = s.logErr p 0x030 0 true 6 := by
  simp [State.essArm, hok, hp]

theorem State.essGo_of_ne_adminPort {s : State} {p : Port} (v : Reg) (hok : s.essOk p = true) (hp : p ≠ s.adminPort) :
    s.essGo p v = s.logErr p 0x034 0 true 6 := by
  simp [State.essGo, hok, hp]

/-! ### On the administrative port -/

/-- A well-formed arm holds its action until the GO, in place of what was armed before. -/
theorem State.essArm_adminPort {s : State} {v : Reg} (hok : s.essOk s.adminPort = true) (hkey : v.toNat / 256 = 0xA55A00)
    (hlo : 1 ≤ v.toNat % 256) (hhi : v.toNat % 256 ≤ 3) :
    s.essArm s.adminPort v = s.modPort s.adminPort fun q => { q with armed := v.toNat % 256 } := by
  simp [State.essArm, hok, hkey, hlo, hhi]

/-- A GO of action 1 that finds action 1 armed disarms and starts the warm reset. -/
theorem State.essGo_adminPort_warm {s : State} {v : Reg} (hok : s.essOk s.adminPort = true) (hkey : v.toNat / 256 = 0x5AA500)
    (hnn : v.toNat % 256 = 1) (harm : (s.port s.adminPort).armed = 1) :
    s.essGo s.adminPort v = (s.modPort s.adminPort fun q => { q with armed := 0 }).startWarm := by
  simp [State.essGo, hok, hkey, hnn, harm]

/-- With no switch of the clock's source under way, a warm reset does not wait (R87). -/
theorem State.startWarm_of_not_switching {s : State} (h : s.clk.switching = .none) : s.startWarm = s.warmReset := if_pos h

/-! ### The sequence -/

/-- Settles O24: each write is its rule above, for the port that it comes from. -/
theorem warmResetSequence : Obligations.WarmResetSequence := by
  refine ⟨fun s p v hok hp => ⟨?otherArm, ?otherGo⟩, fun s hok hsw => ⟨?arm, fun harm => ?go⟩⟩
  case otherArm => rw [exec_essArm, State.essArm_of_ne_adminPort v hok hp]
  case otherGo => rw [exec_warmReset, State.essGo_of_ne_adminPort v hok hp]
  case arm =>
    rw [exec_essArm, State.essArm_adminPort hok (by decide) (by decide) (by decide)]
    rfl
  case go =>
    have hdisarmed : (s.modPort s.adminPort fun q => { q with armed := 0 }).clk.switching = .none := by
      rw [State.modPort_clk, hsw]
    rw [exec_warmReset, State.essGo_adminPort_warm hok (by decide) (by decide) harm, State.startWarm_of_not_switching hdisarmed]
    rfl

end Sys2Proof.Machine
end

section
/-! A limb as bytes (R137): groups of eight residues as the digits, in base 2^w, of the little-endian number that `w` bytes hold, and the
packing and its reverse as inverses of each other. Everything before the limbs holds for any width up to the 36 bits of an element. -/

namespace Sys2Proof.Machine

/-! ### Bytes as a little-endian number -/

@[simp] theorem length_valBytes (n v : Nat) : (valBytes n v).length = n := by
  induction n generalizing v with
  | zero => rfl
  | succ n ih => simp [valBytes, ih]

theorem bytesVal_lt (b : Bytes) : bytesVal b < 256 ^ b.length := by
  induction b with
  | nil => simp [bytesVal]
  | cons x b ih =>
    have := x.isLt
    simp only [bytesVal, List.length_cons, Nat.pow_succ]
    omega

/-- `n` bytes hold a value modulo 256^n. -/
theorem bytesVal_valBytes (n v : Nat) : bytesVal (valBytes n v) = v % 256 ^ n := by
  induction n generalizing v with
  | zero => simp [valBytes, bytesVal, Nat.mod_one]
  | succ n ih => simp [valBytes, bytesVal, ih, Nat.pow_succ', Nat.mod_mul]

theorem valBytes_bytesVal (b : Bytes) : valBytes b.length (bytesVal b) = b := by
  induction b with
  | nil => rfl
  | cons x b ih =>
    have hhead : BitVec.ofNat 8 (x.toNat + 256 * bytesVal b) = x := BitVec.eq_of_toNat_eq (by simpa using x.isLt)
    have htail : (x.toNat + 256 * bytesVal b) / 256 = bytesVal b := by have := x.isLt; omega
    simp only [bytesVal, List.length_cons, valBytes, hhead, htail, ih]

/-! ### A group of eight elements as a number -/

@[simp] theorem length_splitGroup (w v : Nat) : (splitGroup w v).length = 8 := by simp [splitGroup]

theorem joinGroup_lt (w : Nat) (xs : List (BitVec 36)) : joinGroup w xs < 2 ^ (w * xs.length) := by
  induction xs with
  | nil => simp [joinGroup]
  | cons x xs ih =>
    have hx : x.toNat % 2 ^ w < 2 ^ w := Nat.mod_lt _ (by positivity)
    calc x.toNat % 2 ^ w + 2 ^ w * joinGroup w xs
        < 2 ^ w * (joinGroup w xs + 1) := by rw [Nat.mul_succ]; omega
      _ ≤ 2 ^ w * 2 ^ (w * xs.length) := Nat.mul_le_mul_left _ ih
      _ = 2 ^ (w * (x :: xs).length) := by rw [← Nat.pow_add, List.length_cons, Nat.mul_succ, Nat.add_comm]

/-- Element `i` stands in bits w·i to w·i + w − 1 of the number (R137). -/
theorem joinGroup_field (w : Nat) (xs : List (BitVec 36)) (i : Nat) :
    joinGroup w xs / 2 ^ (w * i) % 2 ^ w = (xs.getD i 0).toNat % 2 ^ w := by
  induction xs generalizing i with
  | nil => simp [joinGroup]
  | cons x xs ih =>
    cases i with
    | zero => simp [joinGroup]
    | succ i =>
      have hrest : joinGroup w (x :: xs) / 2 ^ w = joinGroup w xs := by
        rw [joinGroup, Nat.add_mul_div_left _ _ (by positivity), Nat.div_eq_of_lt (Nat.mod_lt _ (by positivity)), Nat.zero_add]
      rw [Nat.mul_succ, Nat.add_comm, Nat.pow_add, ← Nat.div_div_eq_div_mul, hrest, ih, List.getD_cons_succ]

theorem splitGroup_joinGroup {w : Nat} {xs : List (BitVec 36)} (hlen : xs.length = 8) (hlt : ∀ x ∈ xs, x.toNat < 2 ^ w) :
    splitGroup w (joinGroup w xs) = xs := by
  refine List.ext_getElem (by simp [hlen]) fun i _ hi => ?_
  have hx : xs[i].toNat < 2 ^ w := hlt _ (List.getElem_mem hi)
  simp [splitGroup, joinGroup_field, hi, Nat.mod_eq_of_lt hx]

/-- The first `k` fields of a number, joined, are its low w·k bits. -/
theorem joinGroup_fields {w : Nat} (hw : w ≤ 36) (k v : Nat) :
    joinGroup w ((List.range k).map fun i => BitVec.ofNat 36 (v / 2 ^ (w * i) % 2 ^ w)) = v % 2 ^ (w * k) := by
  induction k generalizing v with
  | zero => simp [joinGroup, Nat.mod_one]
  | succ k ih =>
    have hfield : v % 2 ^ w % 2 ^ 36 % 2 ^ w = v % 2 ^ w := by
      rw [Nat.mod_mod_of_dvd _ (Nat.pow_dvd_pow 2 hw), Nat.mod_mod]
    have hshift (i : Nat) : v / 2 ^ (w * (i + 1)) = v / 2 ^ w / 2 ^ (w * i) := by
      rw [Nat.div_div_eq_div_mul, ← Nat.pow_add, Nat.mul_succ, Nat.add_comm]
    rw [List.range_succ_eq_map, List.map_cons, List.map_map, joinGroup]
    simp only [Function.comp_def, Nat.succ_eq_add_one, hshift, ih, BitVec.toNat_ofNat, Nat.mul_zero, Nat.pow_zero, Nat.div_one, hfield]
    rw [Nat.mul_succ, Nat.add_comm (w * k), Nat.pow_add, Nat.mod_mul]

theorem joinGroup_splitGroup {w v : Nat} (hw : w ≤ 36) (hv : v < 2 ^ (w * 8)) : joinGroup w (splitGroup w v) = v := by
  rw [splitGroup, joinGroup_fields hw, Nat.mod_eq_of_lt hv]

theorem two_pow_width_mul_eight (w : Nat) : 2 ^ (w * 8) = 256 ^ w := by rw [Nat.mul_comm, Nat.pow_mul]

/-- The `w` bytes that eight elements pack into hold their number whole. -/
theorem bytesVal_valBytes_joinGroup {w : Nat} {xs : List (BitVec 36)} (hlen : xs.length ≤ 8) :
    bytesVal (valBytes w (joinGroup w xs)) = joinGroup w xs := by
  have hle : 2 ^ (w * xs.length) ≤ 2 ^ (w * 8) := Nat.pow_le_pow_right (by decide) (Nat.mul_le_mul_left w hlen)
  rw [bytesVal_valBytes, Nat.mod_eq_of_lt]
  exact ((joinGroup_lt w xs).trans_le hle).trans_eq (two_pow_width_mul_eight w)

/-! ### Runs of groups -/

@[simp] theorem length_pack (w n : Nat) (xs : List (BitVec 36)) : (pack w n xs).length = n * w := by
  induction n generalizing xs with
  | zero => simp [pack]
  | succ n ih => simp [pack, ih, Nat.succ_mul, Nat.add_comm]

/-- Group `j` stands in the `w` bytes from w·j on. -/
theorem take_drop_pack {w n j : Nat} (hj : j < n) (xs : List (BitVec 36)) :
    ((pack w n xs).drop (w * j)).take w = valBytes w (joinGroup w ((xs.drop (8 * j)).take 8)) := by
  induction n generalizing j xs with
  | zero => omega
  | succ n ih =>
    cases j with
    | zero => simp [pack]
    | succ j =>
      have hskip : (pack w (n + 1) xs).drop (w * (j + 1)) = (pack w n (xs.drop 8)).drop (w * j) := by
        rw [pack, Nat.mul_succ, Nat.add_comm, ← List.drop_drop, List.drop_left' (length_valBytes ..)]
      rw [hskip, ih (by omega), List.drop_drop, Nat.mul_succ, Nat.add_comm]

theorem unpack_pack {w n : Nat} {xs : List (BitVec 36)} (hlen : xs.length = 8 * n) (hlt : ∀ x ∈ xs, x.toNat < 2 ^ w) :
    unpack w n (pack w n xs) = xs := by
  induction n generalizing xs with
  | zero => simp [unpack, List.length_eq_zero_iff.mp hlen]
  | succ n ih =>
    have hgroup : splitGroup w (joinGroup w (xs.take 8)) = xs.take 8 :=
      splitGroup_joinGroup (by simp; omega) fun x hx => hlt x (List.mem_of_mem_take hx)
    have hrest : unpack w n (pack w n (xs.drop 8)) = xs.drop 8 :=
      ih (by simp; omega) fun x hx => hlt x (List.mem_of_mem_drop hx)
    rw [unpack, pack, List.take_left' (length_valBytes ..), List.drop_left' (length_valBytes ..),
      bytesVal_valBytes_joinGroup (List.length_take_le ..), hgroup, hrest, List.take_append_drop]

theorem pack_unpack {w n : Nat} {b : Bytes} (hw : w ≤ 36) (hlen : b.length = n * w) : pack w n (unpack w n b) = b := by
  induction n generalizing b with
  | zero => simp [pack, List.length_eq_zero_iff.mp (by simpa using hlen)]
  | succ n ih =>
    rw [Nat.succ_mul] at hlen
    have hgroup : (b.take w).length = w := by simp; omega
    have hval : bytesVal (b.take w) < 2 ^ (w * 8) := by
      have := bytesVal_lt (b.take w)
      rwa [hgroup, ← two_pow_width_mul_eight] at this
    have hbytes : valBytes w (bytesVal (b.take w)) = b.take w := by
      have := valBytes_bytesVal (b.take w)
      rwa [hgroup] at this
    rw [pack, unpack, List.take_left' (length_splitGroup ..), List.drop_left' (length_splitGroup ..),
      joinGroup_splitGroup hw hval, hbytes, ih (by simp; omega), List.take_append_drop]

/-! ### Limbs -/

theorem fmtWidth_le (f : Fmt) : fmtWidth f ≤ 36 := by cases f <;> decide

/-- A residue that fits its field is kept by the 36 bits of an element. -/
theorem toNat_ofNat_of_fits {f : Fmt} {x : Nat} (hx : x < 2 ^ fmtWidth f) : (BitVec.ofNat 36 x).toNat = x :=
  Nat.mod_eq_of_lt (hx.trans_le (Nat.pow_le_pow_right (by decide) (fmtWidth_le f)))

theorem length_packLimb (f : Fmt) (n : Nat) (xs : List Nat) : (packLimb f n xs).length = n / 8 * fmtWidth f := length_pack ..

/-- Residue `i` of group `j` stands in its field of the group's number. -/
theorem packLimb_field {f : Fmt} {n j i : Nat} {xs : List Nat} (hlt : ∀ x ∈ xs, x < 2 ^ fmtWidth f) (hj : j < n / 8) (hi : i < 8) :
    bytesVal (((packLimb f n xs).drop (fmtWidth f * j)).take (fmtWidth f)) / 2 ^ (fmtWidth f * i) % 2 ^ fmtWidth f =
      xs.getD (8 * j + i) 0 := by
  have hfits : xs.getD (8 * j + i) 0 < 2 ^ fmtWidth f := by
    rw [List.getD_eq_getElem?_getD]
    cases hx : xs[8 * j + i]? with
    | none => exact Nat.two_pow_pos _
    | some x => exact hlt x (List.mem_of_getElem? hx)
  have helem : ((((xs.map (BitVec.ofNat 36)).drop (8 * j)).take 8).getD i 0) = BitVec.ofNat 36 (xs.getD (8 * j + i) 0) := by
    simp only [List.getD_eq_getElem?_getD, List.getElem?_take_of_lt hi, List.getElem?_drop, List.getElem?_map]
    cases xs[8 * j + i]? <;> rfl
  rw [packLimb, take_drop_pack hj, bytesVal_valBytes_joinGroup (List.length_take_le ..), joinGroup_field, helem,
    toNat_ofNat_of_fits hfits, Nat.mod_eq_of_lt hfits]

theorem unpackLimb_packLimb {f : Fmt} {n : Nat} {xs : List Nat} (hn : n % 8 = 0) (hlen : xs.length = n)
    (hlt : ∀ x ∈ xs, x < 2 ^ fmtWidth f) : unpackLimb f n (packLimb f n xs) = xs := by
  have hfits (x : Nat) (hx : x ∈ xs) : (BitVec.ofNat 36 x).toNat = x := toNat_ofNat_of_fits (hlt x hx)
  have helems : ∀ x ∈ xs.map (BitVec.ofNat 36), x.toNat < 2 ^ fmtWidth f := by
    rw [List.forall_mem_map]
    exact fun x hx => (hfits x hx).trans_lt (hlt x hx)
  rw [unpackLimb, packLimb, unpack_pack (by simp; omega) helems, List.map_map]
  exact (List.map_congr_left hfits).trans (List.map_id xs)

theorem packLimb_unpackLimb {f : Fmt} {n : Nat} {b : Bytes} (hlen : b.length = n / 8 * fmtWidth f) :
    packLimb f n (unpackLimb f n b) = b := by
  have helems : ((unpack (fmtWidth f) (n / 8) b).map BitVec.toNat).map (BitVec.ofNat 36) = unpack (fmtWidth f) (n / 8) b := by
    simp [Function.comp_def]
  rw [packLimb, unpackLimb, helems, pack_unpack (fmtWidth_le f) hlen]

/-- Settles O26: Z36 and Z28 are two of the formats for which the packing has its fields in place and is undone by the reading. -/
theorem limbPacking : Obligations.LimbPacking := by
  intro f w hf n xs hn hlen hlt b
  obtain rfl : fmtWidth f = w := by obtain ⟨rfl, rfl⟩ | ⟨rfl, rfl⟩ := hf <;> rfl
  have hb : b.length = n / 8 * fmtWidth f := length_packLimb f n xs
  refine ⟨hb, ?bits, fun j i hj hi => packLimb_field hlt hj hi, unpackLimb_packLimb hn hlen hlt, fun c hc => packLimb_unpackLimb hc⟩
  case bits => rw [hb, ← Nat.mul_assoc, Nat.mul_div_cancel' (Nat.dvd_of_mod_eq_zero hn), Nat.mul_comm]

end Sys2Proof.Machine
end

section
/-! The automorphism X → X^g of a limb in evaluation form (R187): reversing bits undoes itself, multiplying the odd exponents by an odd g
modulo 2N moves each to another place, and so the limb is permuted. -/

namespace Sys2Proof.Machine

/-! ### Bit reversal -/

theorem bitRev_lt (n k : Nat) : bitRev n k < 2 ^ n := by
  induction n generalizing k with
  | zero => exact Nat.one_pos
  | succ n ih =>
    have htop : k % 2 * 2 ^ n ≤ 1 * 2 ^ n := Nat.mul_le_mul_right _ (by omega)
    have hlow := ih (k / 2)
    rw [bitRev, Nat.pow_succ]
    omega

/-- Bit `j` of the reversal is the bit as far from the top. -/
theorem testBit_bitRev {n j : Nat} (hj : j < n) (k : Nat) : (bitRev n k).testBit j = k.testBit (n - 1 - j) := by
  induction n generalizing k with
  | zero => omega
  | succ n ih =>
    rw [bitRev, Nat.mul_comm, Nat.testBit_two_pow_mul_add _ (bitRev_lt n _)]
    split
    case isTrue hlow =>
      rw [ih hlow, Nat.testBit_div_two]
      congr 1
      omega
    case isFalse htop =>
      obtain rfl : j = n := by omega
      simp [Nat.testBit_zero]

theorem bitRev_bitRev {n k : Nat} (hk : k < 2 ^ n) : bitRev n (bitRev n k) = k := by
  refine Nat.eq_of_testBit_eq fun j => ?_
  by_cases hj : j < n
  · rw [testBit_bitRev hj, testBit_bitRev (by omega)]
    congr 1
    omega
  · have hle : 2 ^ n ≤ 2 ^ j := Nat.pow_le_pow_right (by decide) (by omega)
    rw [Nat.testBit_eq_false_of_lt ((bitRev_lt ..).trans_le hle), Nat.testBit_eq_false_of_lt (hk.trans_le hle)]

theorem bitRev_inj {n a b : Nat} (ha : a < 2 ^ n) (hb : b < 2 ^ n) (h : bitRev n a = bitRev n b) : a = b := by
  rw [← bitRev_bitRev ha, h, bitRev_bitRev hb]

/-! ### The places that the automorphism takes -/

theorem galoisFrom_lt (logN g k : Nat) : galoisFrom logN g k < 2 ^ logN := bitRev_lt ..

/-- An odd g keeps the odd exponents modulo 2N apart. -/
theorem odd_mul_mod_inj {n g a b : Nat} (hg : g % 2 = 1) (ha : a < 2 ^ n) (hb : b < 2 ^ n)
    (h : g * (2 * a + 1) % 2 ^ (n + 1) = g * (2 * b + 1) % 2 ^ (n + 1)) : a = b := by
  have hcop : (2 ^ (n + 1)).gcd g = 1 := ((Nat.odd_iff.mpr hg).coprime_two_left).pow_left _
  have hmod : 2 * a + 1 ≡ 2 * b + 1 [MOD 2 ^ (n + 1)] := Nat.ModEq.cancel_left_of_coprime hcop h
  have := hmod.eq_of_lt_of_lt (by rw [Nat.pow_succ]; omega) (by rw [Nat.pow_succ]; omega)
  omega

theorem odd_mul_mod {n g : Nat} (hg : g % 2 = 1) (a : Nat) : g * (2 * a + 1) % 2 ^ (n + 1) % 2 = 1 := by
  rw [Nat.mod_mod_of_dvd _ (Dvd.intro_left _ (Nat.pow_succ ..).symm), Nat.mul_mod, hg]
  omega

theorem galoisFrom_inj {n g a b : Nat} (hg : g % 2 = 1) (ha : a < 2 ^ n) (hb : b < 2 ^ n)
    (h : galoisFrom n g a = galoisFrom n g b) : a = b := by
  have hlt (k : Nat) : (g * (2 * bitRev n k + 1) % 2 ^ (n + 1) - 1) / 2 < 2 ^ n := by
    have := Nat.mod_lt (g * (2 * bitRev n k + 1)) (Nat.two_pow_pos (n + 1))
    rw [Nat.pow_succ] at this ⊢
    omega
  have hhalf := bitRev_inj (hlt a) (hlt b) h
  have hodd (k : Nat) := odd_mul_mod (n := n) hg (bitRev n k)
  exact bitRev_inj ha hb (odd_mul_mod_inj hg (bitRev_lt ..) (bitRev_lt ..) (by have := hodd a; have := hodd b; omega))

/-- The positions taken are the N positions, in another order. -/
theorem map_galoisFrom_perm {n g : Nat} (hg : g % 2 = 1) : ((List.range (2 ^ n)).map (galoisFrom n g)).Perm (List.range (2 ^ n)) := by
  have hnodup : ((List.range (2 ^ n)).map (galoisFrom n g)).Nodup :=
    List.nodup_range.map_on fun a ha b hb => galoisFrom_inj hg (List.mem_range.mp ha) (List.mem_range.mp hb)
  have hsub : (List.range (2 ^ n)).map (galoisFrom n g) ⊆ List.range (2 ^ n) := by
    simp [List.subset_def, galoisFrom_lt]
  exact (hnodup.subperm hsub).perm_of_length_le (by simp)

/-! ### The limb -/

theorem map_range_getD (a : List Nat) : (List.range a.length).map (a.getD · 0) = a :=
  List.ext_getElem (by simp) fun i _ hi => by simp [hi]

theorem galoisLimb_perm {n g : Nat} {a : List Nat} (hg : g % 2 = 1) (ha : a.length = 2 ^ n) : (galoisLimb n g a).Perm a := by
  have hmap : galoisLimb n g a = ((List.range (2 ^ n)).map (galoisFrom n g)).map (a.getD · 0) := by simp [galoisLimb]
  have hall : (List.range (2 ^ n)).map (a.getD · 0) = a := ha ▸ map_range_getD a
  rw [hmap]
  exact ((map_galoisFrom_perm hg).map _).trans (.of_eq hall)

theorem galoisLimb_getD {n k : Nat} (g : Nat) (a : List Nat) (hk : k < 2 ^ n) :
    (galoisLimb n g a).getD k 0 = a.getD (galoisFrom n g k) 0 := by
  simp [galoisLimb, hk]

end Sys2Proof.Machine
end

section
/-! The issue of an operation that comes alone in its bundle (R208, R228), whatever it is: it acts and the bundle ends, or its first check
that fails decides. -/

namespace Sys2Proof.Machine
open Sys2Proof.Claims

variable {s : State} {i : Issue} {c : Instr} {o : Op} {f : State → State}

theorem State.slotOp_alone (h : CanIssue s i o.uses) (ho : opOf s (s.afterDrains i.core [c]) c = some o) :
    s.slotOp i c = .next (s.issueOps i.core [o]) := by
  obtain ⟨hcan, hstaged, hlast, hgood, -, -⟩ := h
  simp [State.slotOp_last s i c hcan hstaged hlast hgood, ho]

/-- A check that fails decides alone, whatever its rank. -/
theorem State.slotOp_alone_stop {r : Nat} (h : CanIssue s i o.uses) (ho : opOf s (s.afterDrains i.core [c]) c = some o)
    (hact : o.act = .stop r f) : s.slotOp i c = .next (f s) := by
  obtain ⟨-, -, -, -, hnodup, hfree⟩ := id h
  simp [State.slotOp_alone h ho, State.issueOps_one, hnodup, hact, hfree]

/-- Every operation has its turn among the operations of its bundle. -/
theorem opsInOrder_one (hplace : o.place < 7) : opsInOrder [o] = [o] := by
  simp only [opsInOrder, List.filter_cons, List.filter_nil, beq_iff_eq]
  generalize o.place = k at hplace ⊢
  interval_cases k <;> rfl

theorem State.mode_of_canIssue {n : Nat} (h : s.canIssue n = true) : (s.core n).mode = .issuing := by
  simp only [State.canIssue, Bool.and_eq_true, beq_iff_eq] at h
  obtain ⟨⟨-, hmode⟩, -⟩ := h
  exact hmode

/-- An operation that acts does so on the state with its stamp, and its bundle ends. -/
theorem State.slotOp_alone_effect (h : CanIssue s i o.uses) (ho : opOf s (s.afterDrains i.core [c]) c = some o)
    (hact : o.act = .effect f) (hplace : o.place < 7) : s.slotOp i c = .next (ended i (f (began s i))) := by
  obtain ⟨hcan, -, -, -, hnodup, hfree⟩ := id h
  simp [State.slotOp_alone h ho, State.issueOps_one, opsInOrder_one hplace, hnodup, hfree, hact, OpAct.effect, State.runOps, State.each,
    State.mode_of_canIssue hcan, bundleBranch, bundleMode, ended, began]

end Sys2Proof.Machine
end

section
/-! XCOPY GALOIS (R187, R316): its checks one after the other, and the limbs that it writes. -/

namespace Sys2Proof.Machine
open Sys2Proof.Claims

/-! ### The checks that every copy goes through -/

/-- With its format in the grade and its semaphore in the job, a copy is what its own part says. -/
theorem State.copyOp_act {s : State} {i : Issue} {hd : CopyHead} {reads mem : List Nat} (h : CopyIssues s i hd reads mem) (act : OpAct) :
    (s.copyOp i hd reads mem act).act = act := by
  obtain ⟨-, ⟨hfmt, heng⟩, x, hx, hsem⟩ := h
  simp only [State.copyOp, State.needs, hfmt, heng, and_self, if_true, hx]
  split
  next k x' hk hx' =>
    obtain rfl : x = x' := Option.some.inj hx'
    rw [if_neg (Nat.not_le.mpr (hsem k hk))]
  next => rfl

theorem State.copyEnds_of_good {s : State} {n : Nat} {f : Fmt} {src dst : Mat} {ys yd : Layout} (act : Layout → Layout → OpAct)
    (hys : s.matLayout (s.core n).job src = some ys) (hyd : s.matLayout (s.core n).job dst = some yd)
    (hsrc : misaligned f ys src.loc.off = false) (hdst : misaligned f yd dst.loc.off = false)
    (hsize : (matBad src || matBad dst || badStrides f ys false || badStrides f yd true) = false) :
    s.copyEnds n f src dst false none act = act ys yd := by
  simp [State.copyEnds, hys, hyd, hsrc, hdst, hsize]

theorem overlapStop_of_le {n v : Nat} {dst : Loc} {act : OpAct} (h : v ≤ maxStaging) : overlapStop n v dst act = act :=
  if_neg (Nat.not_lt.mpr h)

theorem State.copyTag_of_tagsLet {s : State} {n h : Nat} {runs : List (Nat × Nat)} (hlet : TagsLet s (s.core n).job h runs) (go : State) :
    s.copyTag n h runs go = go := by
  have hnone : (runs.findSome? fun p => (s.tagRefuses (s.core n).job h (runBytes p).1 (runBytes p).2).map fun t => ((runBytes p).1, t)) = none :=
    List.findSome?_eq_none_iff.mpr fun p hp => by rw [hlet p hp]; rfl
  simp only [State.copyTag, hnone]

/-! ### GALOIS -/

/-- The limbs one after the other, each read whole, permuted and written. -/
def State.galoisLimbs (s : State) (j : Nat) (f : Fmt) (src dst : Loc) (n logN g limbs stride : Nat) : State :=
  s.each (List.range limbs) fun s x => s.store j dst.h (dst.off + x * stride)
    (packLimb f n (galoisLimb logN g (unpackLimb f n (s.load j src.h (src.off + x * stride) (n / 8 * fmtWidth f)))))

/-- The bits of the limbs of either end. -/
def galoisRuns (f : Fmt) (n limbs stride : Nat) (l : Loc) : List (Nat × Nat) :=
  (List.range limbs).flatMap fun x => [(8 * (l.off + x * stride), 8 * (n / 8 * fmtWidth f))]

/-- The largest overlap of a source limb with its destination (R318). -/
def State.galoisOverlap (s : State) (j : Nat) (f : Fmt) (src dst : Loc) (n limbs stride : Nat) : Nat :=
  ((List.range limbs).map fun x => overlapOf (s.sectors j src.h [(8 * (src.off + x * stride), 8 * (n / 8 * fmtWidth f))])
    (s.sectors j dst.h [(8 * (dst.off + x * stride), 8 * (n / 8 * fmtWidth f))])).foldl max 0

/-- Past the checks that it shares with every copy, a GALOIS whose limbs can be reached and staged writes them and joins its queue, unless
an owner tag refuses the read. -/
theorem opXcopyGalois_act {s : State} {i : Issue} {hd : CopyHead} {src dst : Mat} {n g limbs stride k : Nat} {ys yd : Layout}
    (hissue : CopyIssues s i hd [] [src.loc.h, dst.loc.h]) (hsrc64 : src.loc.off % 64 = 0) (hdst64 : dst.loc.off % 64 = 0)
    (hends : ∀ act, s.copyEnds i.core hd.fmt src dst false none act = act ys yd) (hown : galoisDetail hd.fmt n g limbs stride = none)
    (hlog : sizeLog n = some k)
    (hread : s.limbFault (s.core i.core).job src.loc limbs stride (n / 8 * fmtWidth hd.fmt) false = none)
    (hwrite : s.limbFault (s.core i.core).job dst.loc limbs stride (n / 8 * fmtWidth hd.fmt) true = none)
    (hfits : s.galoisOverlap (s.core i.core).job hd.fmt src.loc dst.loc n limbs stride ≤ maxStaging) :
    (opXcopyGalois i hd src dst n g limbs stride s).act = .effect fun t =>
      t.copyTag i.core src.loc.h (galoisRuns hd.fmt n limbs stride src.loc)
        ((t.galoisLimbs (s.core i.core).job hd.fmt src.loc dst.loc n k g limbs stride).queueCopy i.core hd
          (s.galoisOverlap (s.core i.core).job hd.fmt src.loc dst.loc n limbs stride) dst.loc.h (galoisRuns hd.fmt n limbs stride dst.loc)
          (t.copyTouched (s.core i.core).job [(src.loc.h, galoisRuns hd.fmt n limbs stride src.loc)] dst.loc.h [])) := by
  have hloose : (src.loc.off % 64 != 0 || dst.loc.off % 64 != 0) = false := by simp [hsrc64, hdst64]
  rw [opXcopyGalois, State.copyOp_act hissue, hloose, hown, hends, hread, hwrite]
  exact (overlapStop_of_le hfits).trans (by rw [hlog]; rfl)

theorem exec_xcopyGalois (i : Issue) (hd : CopyHead) (src dst : Mat) (n g limbs stride : Nat) (s : State) :
    exec (.xcopyGalois i hd src dst n g limbs stride) s = s.slotOp i (.xcopyGalois i hd src dst n g limbs stride) := rfl

/-- Settles O27: the reversal of bits is the spec's, the places taken are a permutation, and the copy's checks leave its limbs to write. -/
theorem galois : Obligations.Galois := by
  refine ⟨fun logN g a hg ha => ⟨galoisLimb_perm hg ha, fun k hk => ?place⟩, fun n k j hj => testBit_bitRev hj k, ?copy⟩
  case place => rw [galoisLimb_getD g a hk, galoisFrom, Nat.pow_succ']
  case copy =>
    intro s i hd src dst n g limbs stride k ys yd j w run v hissue hsrc64 hdst64 hys hyd hsrc hdst hms hmd hbs hbd hown hlog hread hwrite
      hfits hlet
    have hends := fun act => State.copyEnds_of_good act hys hyd hsrc hdst (by simp [hms, hmd, hbs, hbd])
    have hact := opXcopyGalois_act (g := g) hissue hsrc64 hdst64 hends hown hlog hread hwrite hfits
    have hlet' : TagsLet (began s i) ((began s i).core i.core).job src.loc.h (galoisRuns hd.fmt n limbs stride src.loc) := by
      rw [began, State.core_modCore_self]
      exact hlet
    rw [exec_xcopyGalois, State.slotOp_alone_effect hissue.1 rfl hact (by decide : slotStore < 7), State.copyTag_of_tagsLet hlet']
    rfl

end Sys2Proof.Machine
end

section
/-! What a stop of a job keeps (R12, R107): the jobs stay the jobs they are through its records, completions and messages, so that the job
that is stopped is still there, and says so. -/

namespace Sys2Proof.Machine

/-! ### Operations that leave the table of jobs as it is -/

theorem State.job_eq_of_jobs {s t : State} (h : s.jobs = t.jobs) (j : Nat) : s.job j = t.job j := by rw [State.job, State.job, h]

@[simp] theorem State.each_jobs {α : Type} (s : State) (xs : List α) (f : State → α → State) (h : ∀ s x, (f s x).jobs = s.jobs) :
    (s.each xs f).jobs = s.jobs := by
  unfold State.each
  induction xs generalizing s with
  | nil => rfl
  | cons x xs ih => rw [List.foldl_cons, ih, h]

@[simp] theorem State.onPorts_jobs (s : State) (f : State → Port → State) (h : ∀ s p, (f s p).jobs = s.jobs) :
    (s.onPorts f).jobs = s.jobs := by simp [State.onPorts, h]

@[simp] theorem State.raise_jobs (s : State) (p : Port) (v : Nat) : (s.raise p v).jobs = s.jobs := by
  unfold State.raise; split <;> simp

@[simp] theorem State.complete_jobs (s : State) (p : Port) (r : Nat) (d : Done) : (s.complete p r d).jobs = s.jobs := by
  unfold State.complete
  dsimp only
  split
  · rfl
  · split <;> simp

@[simp] theorem State.errRec_jobs (s : State) (r : ErrRec) : (s.errRec r).jobs = s.jobs := by
  simp [State.errRec, State.putRec]

@[simp] theorem State.jobEvent_jobs (s : State) (j type code units : Nat) (body : Bytes) (tick : Option Nat) :
    (s.jobEvent j type code units body tick).jobs = s.jobs := by
  unfold State.jobEvent; split <;> simp [State.post]

@[simp] theorem State.closeWins_jobs (s : State) (j : Nat) : (s.closeWins j).jobs = s.jobs := by simp [State.closeWins]

@[simp] theorem State.endRequests_jobs (s : State) (p : Port) : (s.endRequests p).jobs = s.jobs := by simp [State.endRequests]

@[simp] theorem State.jobCores_jobs (s : State) (j : Nat) (f : CoreSt → CoreSt) : (s.jobCores j f).jobs = s.jobs := by
  unfold State.jobCores
  split
  · rfl
  · exact State.each_jobs _ _ _ fun s n => State.modCore_jobs ..

/-! ### Messages to the other members of a span -/

@[simp] theorem State.modLink_jobs (s : State) (k : Nat) (f : Link → Link) : (s.modLink k f).jobs = s.jobs := rfl

@[simp] theorem State.transmit_jobs (s : State) (k : Nat) (f : Flit) : (s.transmit k f).jobs = s.jobs := by
  unfold State.transmit; dsimp only; split <;> simp [State.useLink, State.owe, State.sendIdle]

@[simp] theorem State.pump_jobs (n : Nat) (s : State) (k : Nat) : (State.pump n s k).jobs = s.jobs := by
  induction n generalizing s with
  | zero => rfl
  | succ n ih =>
    rw [State.pump]
    split
    · rfl
    · split
      · rfl
      · simp [ih]

@[simp] theorem State.sendMsg_jobs (s : State) (dst cls span tag : Nat) (payload : Bytes) (opens ends : Bool) :
    (s.sendMsg dst cls span tag payload opens ends).jobs = s.jobs := by
  unfold State.sendMsg; split <;> simp [State.enqueue]

@[simp] theorem State.spanSend_jobs (s : State) (i cls tag : Nat) (payload : Bytes) : (s.spanSend i cls tag payload).jobs = s.jobs := by
  simp [State.spanSend]

/-! ### Operations that change jobs and take none away -/

theorem State.isSome_job_modJob (s : State) (j k : Nat) (f : Job → Job) : ((s.modJob j f).job k).isSome = (s.job k).isSome := by
  rw [State.job_modJob]
  split
  next h => rw [h, Option.isSome_map]
  next => rfl

theorem State.stopRec_jobs (s : State) (j : Nat) (i : StopInfo) : (s.stopRec j i).jobs = s.jobs := by
  unfold State.stopRec State.stopErr
  split
  · rfl
  · split <;> simp

theorem State.isSome_job_abortWaiting (s : State) (j k : Nat) : ((s.abortWaiting j).job k).isSome = (s.job k).isSome := by
  unfold State.abortWaiting
  cases h : s.job j with
  | none => rfl
  | some x =>
    rw [State.isSome_job_modJob, State.job_eq_of_jobs]
    rw [State.each_jobs _ _ _ fun s g => State.modGroup_jobs .., State.each_jobs _ _ _ fun s y => by split <;> simp]
    simp

theorem State.isSome_job_haltJob (s : State) (j k : Nat) (m : CoreMode) : ((s.haltJob j m).job k).isSome = (s.job k).isSome := by
  rw [State.haltJob, State.job_eq_of_jobs (State.onPorts_jobs _ _ State.endRequests_jobs), State.isSome_job_modJob, State.endKeyStreams,
    State.isSome_job_modJob]
  exact congrArg Option.isSome (State.job_eq_of_jobs (by simp) k)

/-! ### The stop -/

/-- A job as its stop leaves it. -/
def Job.stoppedBy (x : Job) (i : StopInfo) : Job :=
  { x with st := .stopped, rels := if i.inRelease then [] else x.rels.filter Release.begun }

theorem State.stopNow_jobs {s : State} {j : Nat} {x : Job} (hx : s.job j = some x) (i : StopInfo) (tell : Bool) :
    (s.stopNow j i tell).jobs = ((((s.stopRec j i).abortWaiting j).haltJob j .idle).modJob j (Job.stoppedBy · i)).jobs := by
  rw [State.stopNow, hx]
  dsimp only
  split
  · rfl
  · split
    · rfl
    · exact State.spanSend_jobs ..

/-- A stop leaves the job stopped, whatever its cause. -/
theorem State.job_stopNow {s : State} {j : Nat} {x : Job} (hx : s.job j = some x) (i : StopInfo) (tell : Bool) :
    ∃ y, (s.stopNow j i tell).job j = some y ∧ y.st = .stopped := by
  obtain ⟨z, hz⟩ : ∃ z, (((s.stopRec j i).abortWaiting j).haltJob j .idle).job j = some z := by
    rw [← Option.isSome_iff_exists, State.isSome_job_haltJob, State.isSome_job_abortWaiting, State.job_eq_of_jobs (State.stopRec_jobs ..), hx]
    rfl
  exact ⟨z.stoppedBy i, by rw [State.job_eq_of_jobs (State.stopNow_jobs hx i tell), State.job_modJob, if_pos rfl, hz]; rfl, rfl⟩

/-- A PROGRAM fault of a core whose job runs stops that job and stores nothing. -/
theorem State.program_stops {s : State} {n : Nat} {x : Job} (hx : s.job (s.core n).job = some x) (hrun : x.st = .running)
    (code detail slot handle : Nat) (data : Bytes) :
    (∃ y, (s.program n code detail slot handle data).job (s.core n).job = some y ∧ y.st = .stopped) ∧
      (s.program n code detail slot handle data).mems = s.mems := by
  refine ⟨?_, by simp [State.program]⟩
  rw [State.program, State.stopJob, hx]
  dsimp only
  rw [if_neg (by simp [hrun])]
  exact State.job_stopNow hx ..

end Sys2Proof.Machine
end

section
/-! An exhausting ciphertext operation (R189, R191): every check before the prediction lets it pass, and the prediction stops it before
anything is stored. -/

namespace Sys2Proof.Machine
open Sys2Proof.Claims

/-! ### The rows of ciphertext operations -/

/-- An instruction is a ciphertext operation with checks, whatever it does once they pass. -/
def ChecksAs (c : Instr) (i : Issue) (o : CtOp) (e : ReadErr) (s : State) : Prop :=
  exec c s = s.slotOp i c ∧ ∃ go, ∀ t, opOf s t c = some (s.ctCheck i o e go)

theorem checksAs_of_ctRow {c : Instr} {i : Issue} {o : CtOp} {e : ReadErr} (h : CtRow c i o e) (s : State) : ChecksAs c i o e s := by
  cases h <;> exact ⟨rfl, _, fun _ => rfl⟩

theorem checksAs_repulp (i : Issue) (a : Loc) (slot : Nat) (e : ReadErr) (s : State) :
    ChecksAs (.repulp i a slot e) i { kind := .repulp, srcs := [a], dsts := [a], slot := slot } e s := ⟨rfl, _, fun _ => rfl⟩

/-! ### The checks -/

/-- The headers that the operands hold. -/
def State.ctHeads (s : State) (j : Nat) (o : CtOp) : List CtHdr := o.srcs.map fun l => readHdr (s.load j l.h l.off 64)

/-- CAUSE_DATA of an exhaustion (R192): HEADROOM predicted, the floor, and the detail of the prediction. -/
def exhaustData (p : ParamSet) (d : Pred) : Bytes := le 2 d.head ++ le 2 p.floor ++ le 1 d.exhaust

/-- The checks of R141 pass up to the prediction, and the policy of the job stops what exhausts. -/
theorem State.ctVerdict_of_exhausts {s : State} {m j code detail : Nat} {x : Job} {o : CtOp} {e : ReadErr} {p : ParamSet}
    (h : Exhausts s m j x o e p)
    (hstop : x.exhaustion p o (s.ctHeads j o) (predict p o.kind (s.ctHeads j o)) = .stop code detail) :
    s.ctVerdict m j x o e =
      .stop code detail (o.srcs.getD 0 ⟨0, 0⟩).h (exhaustData p (predict p o.kind (s.ctHeads j o))) := by
  obtain ⟨-, -, hreads, hheaders, hcompat, hset, hkeysets, hkeys, hscale, hexhaust⟩ := h
  have hgood : ((o.srcs.zipIdx.map fun c => (c.1, s.readOutcome j c.1.h c.1.off 64 (headerErr e c.2))).find? fun c => c.2 != .good) = none := by
    simpa [List.find?_eq_none] using fun a b hab => hreads (a, b) hab
  have hheads : (o.srcs.map fun l => s.load j l.h l.off 64).map readHdr = s.ctHeads j o := List.map_map
  rw [hheads] at hcompat hset hkeysets hkeys hscale hexhaust
  simp only [State.ctVerdict, hgood, hheaders, hheads, hcompat, hset, hkeysets, hkeys, hscale]
  simp [hexhaust, hstop, exhaustData]

theorem State.ctCheck_act_of_stop {s : State} {i : Issue} {o : CtOp} {e : ReadErr} {x : Job} {code detail h : Nat} {data : Bytes}
    (hx : s.job (s.core i.core).job = some x)
    (hpresent : Present s [] (engCt :: if o.kind.switches ∨ o.kind = .repulp then [engKey] else [])) (hdsts : o.dsts ≠ [])
    (hfresh : s.ctStale (s.core i.core).job x o = none)
    (hverdict : s.ctVerdict (s.millOf i.core) (s.core i.core).job x o e = .stop code detail h data)
    (go : ParamSet → List CtHdr → Pred → OpAct) :
    (s.ctCheck i o e go).act = .stop 7 fun t => t.program i.core code detail slotMatrix h data := by
  obtain ⟨hfmts, hengines⟩ := hpresent
  simp [State.ctCheck, hx, State.needs, hfmts, hengines, hdsts, hfresh, hverdict, State.ctStop]

/-! ### The policy of the job (R189, R191) -/

/-- Under STRICT every exhaustion stops the job with NOISE_EXHAUSTED. -/
theorem Job.exhaustion_strict {x : Job} (hstrict : x.auto = false) (p : ParamSet) (o : CtOp) (hs : List CtHdr) (d : Pred) :
    x.exhaustion p o hs d = .stop 0x0302 d.exhaust := by
  simp [Job.exhaustion, hstrict]

/-- Under AUTO nothing refreshes a BGV or BFV operand. -/
theorem Job.exhaustion_auto_of_ne_ckks {x : Job} (hauto : x.auto = true) (p : ParamSet) (o : CtOp) {hs : List CtHdr} (d : Pred)
    (hscheme : (hs.getD 0 (readHdr [])).scheme ≠ ckks) : x.exhaustion p o hs d = .stop 0x0303 2 := by
  rw [Job.exhaustion, if_pos hscheme, if_pos hauto]

/-! ### The operation -/

/-- An exhausting operation that the policy stops is a PROGRAM fault and nothing else. -/
theorem exec_of_exhausts {s : State} {c : Instr} {i : Issue} {o : CtOp} {e : ReadErr} {x : Job} {p : ParamSet} {code detail : Nat}
    (hrow : ChecksAs c i o e s) (hissue : CanIssue s i (ctUses o)) (hx : s.job (s.core i.core).job = some x)
    (hpresent : Present s [] (engCt :: if o.kind.switches ∨ o.kind = .repulp then [engKey] else []))
    (hexhausts : Exhausts s (s.millOf i.core) (s.core i.core).job x o e p)
    (hstop : x.exhaustion p o (s.ctHeads (s.core i.core).job o) (predict p o.kind (s.ctHeads (s.core i.core).job o)) = .stop code detail) :
    exec c s = .next (s.program i.core code detail slotMatrix (o.srcs.getD 0 ⟨0, 0⟩).h
      (exhaustData p (predict p o.kind (s.ctHeads (s.core i.core).job o)))) := by
  obtain ⟨hexec, go, hop⟩ := hrow
  obtain ⟨hdsts, hfresh, -⟩ := id hexhausts
  have hact := State.ctCheck_act_of_stop hx hpresent hdsts hfresh (State.ctVerdict_of_exhausts hexhausts hstop) go
  rw [hexec, State.slotOp_alone_stop hissue (hop _) hact]

/-- The job of a core that may issue runs. -/
theorem State.running_of_canIssue {s : State} {n : Nat} {x : Job} (h : s.canIssue n = true) (hx : s.job (s.core n).job = some x) :
    x.st = .running := by
  simp only [State.canIssue, hx, Bool.and_eq_true, beq_iff_eq] at h
  obtain ⟨-, ⟨hrun, -⟩, -⟩ := h
  exact hrun

/-- Settles O28: the job's policy gives the stop, and a stop is all that happens. -/
theorem exhaustion : Obligations.Exhaustion := by
  intro s c i o e x p hrow hissue hx hpresent hexhausts hs d scheme fault
  have hchecks : ChecksAs c i o e s := by
    obtain hct | ⟨a, slot, rfl, rfl⟩ := hrow
    · exact checksAs_of_ctRow hct s
    · exact checksAs_repulp i a slot e s
  refine ⟨fun hstrict => ?strict, fun hauto hscheme => ?auto, fun code k => ?stopped⟩
  case strict => exact exec_of_exhausts hchecks hissue hx hpresent hexhausts (Job.exhaustion_strict hstrict ..)
  case auto => exact exec_of_exhausts hchecks hissue hx hpresent hexhausts (Job.exhaustion_auto_of_ne_ckks hauto _ _ _ hscheme)
  case stopped =>
    obtain ⟨hjob, hmems⟩ := State.program_stops hx (State.running_of_canIssue hissue.1 hx) code k slotMatrix
      (o.srcs.getD 0 ⟨0, 0⟩).h (exhaustData p d)
    exact ⟨hjob, congrArg Prod.fst hmems, congrArg (fun m => m.2.1) hmems⟩

end Sys2Proof.Machine
end

section
/-! The codes of the storable float formats (R261, R262): the three fields of a code and its value, for any layout; a finite value in
normal form is written back as the code that it was read from; and the table of the nine formats. -/

namespace Sys2Proof.Machine

/-! ### A finite value with an odd significand -/

theorem trim_of_odd {m : Nat} (hodd : m % 2 = 1) (n : Nat) (e : Int) : trim n m e = (m, e) := by
  cases n with
  | zero => rfl
  | succ n => exact if_neg (by omega)

/-- Enough steps of `trim` for the bits of a significand leave its odd part. -/
theorem trim_odd_mul_two_pow {k j n : Nat} (hodd : k % 2 = 1) (hn : j ≤ n) (e : Int) : trim n (k * 2 ^ j) e = (k, e + j) := by
  induction j generalizing n e with
  | zero => simp [trim_of_odd hodd]
  | succ j ih =>
    obtain ⟨n, rfl⟩ : ∃ l, n = l + 1 := ⟨n - 1, by omega⟩
    have hhalf : k * 2 ^ (j + 1) = k * 2 ^ j * 2 := by rw [Nat.pow_succ, Nat.mul_assoc]
    have hpos : 0 < k * 2 ^ j := Nat.mul_pos (by omega) (Nat.two_pow_pos j)
    rw [trim, hhalf, if_pos (by omega), Nat.mul_div_cancel _ (by decide), ih (by omega)]
    push_cast
    ring_nf

theorem log2_mul_two_pow {k : Nat} (hk : k ≠ 0) (j : Nat) : Nat.log2 (k * 2 ^ j) = Nat.log2 k + j := by
  induction j with
  | zero => simp
  | succ j ih =>
    rw [Nat.pow_succ', Nat.mul_left_comm, Nat.log2_two_mul (Nat.mul_ne_zero hk (Nat.two_pow_pos j).ne'), ih, Nat.add_assoc]

theorem bitLen_of_ne_zero {m : Nat} (hm : m ≠ 0) : bitLen m = Nat.log2 m + 1 := if_neg hm

theorem FVal.canon_of_ne_zero {m : Nat} (hm : m ≠ 0) (a : Bool) (e : Int) :
    (FVal.fin a m e).canon = .fin a (trim (bitLen m) m e).1 (trim (bitLen m) m e).2 := by
  cases m with
  | zero => exact absurd rfl hm
  | succ m => rfl

/-- The normal form of a finite value has the odd part of its significand. -/
theorem FVal.canon_odd_mul_two_pow {k : Nat} (hodd : k % 2 = 1) (a : Bool) (j : Nat) (e : Int) :
    (FVal.fin a (k * 2 ^ j) e).canon = .fin a k (e + j) := by
  have hk : k ≠ 0 := by omega
  have hm : k * 2 ^ j ≠ 0 := Nat.mul_ne_zero hk (Nat.two_pow_pos j).ne'
  have hbits : j ≤ bitLen (k * 2 ^ j) := by rw [bitLen_of_ne_zero hm, log2_mul_two_pow hk]; omega
  rw [FVal.canon_of_ne_zero hm, trim_odd_mul_two_pow hodd hbits]

theorem FVal.canon_of_odd {k : Nat} (hodd : k % 2 = 1) (a : Bool) (e : Int) : (FVal.fin a k e).canon = .fin a k e := by
  simpa using FVal.canon_odd_mul_two_pow hodd a 0 e

/-- The odd part of a significand of `n + 1` bits, and the factors of two beside it, have those bits between them. -/
theorem log2_odd_part {k j n f : Nat} (hodd : k % 2 = 1) (hsig : k * 2 ^ j = 2 ^ n + f) (hf : f < 2 ^ n) : Nat.log2 k + j = n := by
  rw [← log2_mul_two_pow (by omega), hsig, Nat.log2_eq_iff (by omega), Nat.pow_succ]
  omega

/-! ### The order of dyadic values -/

/-- `dyLt` compares the rational numbers that its arguments stand for. -/
theorem dyLt_iff (m : Nat) (e : Int) (n : Nat) (f : Int) : dyLt m e n f = true ↔ (m : ℚ) * 2 ^ e < n * 2 ^ f := by
  have hscale (x : Nat) (g : Int) (hg : min e f ≤ g) : (x : ℚ) * 2 ^ g = (x * 2 ^ (g - min e f).toNat : Nat) * 2 ^ min e f := by
    rw [Nat.cast_mul, Nat.cast_pow, Nat.cast_ofNat, mul_assoc, ← zpow_natCast, ← zpow_add₀ two_ne_zero]
    congr 2
    omega
  rw [hscale m e (min_le_left ..), hscale n f (min_le_right ..), mul_lt_mul_iff_left₀ (by positivity), Nat.cast_lt, dyLt,
    decide_eq_true_iff]

/-- Factors of two may stand in the significand or in the exponent. -/
theorem dyLt_mul_two_pow (k j : Nat) (e : Int) (n : Nat) (f : Int) : dyLt (k * 2 ^ j) e n f = dyLt k (e + j) n f := by
  rw [Bool.eq_iff_iff, dyLt_iff, dyLt_iff, zpow_add₀ two_ne_zero, zpow_natCast]
  push_cast
  rw [mul_assoc, mul_comm ((2 : ℚ) ^ j)]

/-- A value that is not above another lies below the other plus half a unit of its last place. -/
theorem dyLt_half_ulp {m n i j : Nat} {g : Int} (h : m * 2 ^ i ≤ n * 2 ^ j) : dyLt m (i + g) (2 * n + 1) (j + g - 1) = true := by
  have hle : (m : ℚ) * 2 ^ i ≤ n * 2 ^ j := by exact_mod_cast h
  have hleft : (m : ℚ) * 2 ^ ((i : Int) + g) = m * 2 ^ i * 2 ^ g := by
    rw [zpow_add₀ two_ne_zero, zpow_natCast, mul_assoc]
  have hright : ((2 * n + 1 : Nat) : ℚ) * 2 ^ ((j : Int) + g - 1) = (n * 2 ^ j + 2 ^ j / 2) * 2 ^ g := by
    rw [zpow_sub_one₀ two_ne_zero, zpow_add₀ two_ne_zero, zpow_natCast]
    push_cast
    ring
  rw [dyLt_iff, hleft, hright]
  exact mul_lt_mul_of_pos_right (lt_add_of_le_of_pos hle (by positivity)) (by positivity)

/-! ### The fields of a code -/

/-- The code of a sign, an exponent field and a fraction field: the sign on top, the fraction at the bottom (R262). -/
def FSpec.code (p : FSpec) (s : Bool) (x f : Nat) : Nat := (if s then 2 ^ (p.e + p.f) else 0) + x * 2 ^ p.f + f

/-- The codes of the top exponent field that are not finite (R262): all of them, or the one of the greatest fraction. -/
def FSpec.Special (p : FSpec) (x f : Nat) : Prop := x = 2 ^ p.e - 1 ∧ (p.top = 0 ∨ (p.top = 1 ∧ f = 2 ^ p.f - 1))

section
variable {p : FSpec} {x f : Nat} (s : Bool)

theorem FSpec.code_eq (x f : Nat) : p.code s x f = (s.toNat * 2 ^ p.e + x) * 2 ^ p.f + f := by
  cases s <;> simp [FSpec.code, Nat.pow_add, Nat.add_mul]

theorem FSpec.code_fraction (hf : f < 2 ^ p.f) : p.code s x f % 2 ^ p.f = f := by
  rw [FSpec.code_eq, Nat.add_comm, Nat.add_mul_mod_self_right, Nat.mod_eq_of_lt hf]

theorem FSpec.code_above_fraction (hf : f < 2 ^ p.f) : p.code s x f / 2 ^ p.f = s.toNat * 2 ^ p.e + x := by
  rw [FSpec.code_eq, Nat.add_comm, Nat.add_mul_div_right _ _ (Nat.two_pow_pos _), Nat.div_eq_of_lt hf, Nat.zero_add]

theorem FSpec.code_exponent (hx : x < 2 ^ p.e) (hf : f < 2 ^ p.f) : p.code s x f / 2 ^ p.f % 2 ^ p.e = x := by
  rw [FSpec.code_above_fraction s hf, Nat.add_comm, Nat.add_mul_mod_self_right, Nat.mod_eq_of_lt hx]

theorem FSpec.code_sign (hx : x < 2 ^ p.e) (hf : f < 2 ^ p.f) : (p.code s x f / 2 ^ (p.e + p.f) % 2 == 1) = s := by
  have htop : p.code s x f / 2 ^ (p.e + p.f) = s.toNat := by
    rw [Nat.add_comm, Nat.pow_add, ← Nat.div_div_eq_div_mul, FSpec.code_above_fraction s hf, Nat.add_comm,
      Nat.add_mul_div_right _ _ (Nat.two_pow_pos _), Nat.div_eq_of_lt hx, Nat.zero_add]
  cases s <;> simp [htop]

/-! ### The value of a code -/

/-- The reading of a code in terms of its fields. -/
theorem FSpec.decode_code (hx : x < 2 ^ p.e) (hf : f < 2 ^ p.f) : p.decode (p.code s x f) =
    if x = 0 then .fin s 0 0
    else if x = 2 ^ p.e - 1 ∧ p.top = 0 then (if f = 0 then .inf s else .nan)
    else if x = 2 ^ p.e - 1 ∧ p.top = 1 ∧ f = 2 ^ p.f - 1 then .nan
    else (FVal.fin s (2 ^ p.f + f) ((x : Int) - p.bias - p.f)).canon := by
  rw [FSpec.decode, FSpec.code_sign s hx hf, FSpec.code_exponent s hx hf, FSpec.code_fraction s hf]

theorem FSpec.decode_code_of_special (hx : x < 2 ^ p.e) (hf : f < 2 ^ p.f) (he : 1 ≤ p.e) (hF : 1 ≤ p.f) (h : p.Special x f) :
    p.decode (p.code s x f) = if f = 0 then .inf s else .nan := by
  have hpow : 2 ≤ 2 ^ p.e := Nat.le_self_pow (by omega) 2
  have hx0 : x ≠ 0 := by have := h.1; omega
  obtain ⟨htop, hinf | ⟨hsat, hlast⟩⟩ := h
  · rw [FSpec.decode_code s hx hf, if_neg hx0, if_pos ⟨htop, hinf⟩]
  · have hf0 : f ≠ 0 := by have := Nat.one_lt_two_pow (by omega : p.f ≠ 0); omega
    rw [FSpec.decode_code s hx hf, if_neg hx0, if_neg (by omega), if_pos ⟨htop, hsat, hlast⟩, if_neg hf0]

theorem FSpec.decode_code_of_not_special (hx : x < 2 ^ p.e) (hf : f < 2 ^ p.f) (h1 : 1 ≤ x) (h : ¬p.Special x f) :
    p.decode (p.code s x f) = (FVal.fin s (2 ^ p.f + f) ((x : Int) - p.bias - p.f)).canon := by
  have hx0 : x ≠ 0 := by omega
  rw [FSpec.decode_code s hx hf, if_neg hx0, if_neg fun hinf => h ⟨hinf.1, .inl hinf.2⟩,
    if_neg fun hnan => h ⟨hnan.1, .inr hnan.2⟩]

/-! ### What is written -/

theorem FSpec.write_nan (p : FSpec) : p.write .nan = (p.nanCode, false) := rfl

/-- In a format with infinities they are the top exponent field with fraction 0, and −∞ has the sign bit besides. -/
theorem FSpec.write_inf (htop : p.top = 0) :
    p.write (.inf s) = ((2 ^ p.e - 1) * 2 ^ p.f + if s then 2 ^ (p.e + p.f) else 0, false) := by
  rw [FSpec.write, FSpec.round, if_pos htop, FSpec.encode, Nat.add_comm]

/-- The exponent field of the largest finite value. -/
def FSpec.topExp (p : FSpec) : Nat := if p.top = 0 then 2 ^ p.e - 2 else 2 ^ p.e - 1

theorem FSpec.largest_snd (he : 1 ≤ p.e) : p.largest.2 = p.topExp + (-p.bias - p.f) := by
  have hpow : 2 ≤ 2 ^ p.e := Nat.le_self_pow (by omega) 2
  have hcast : ((2 ^ p.e : Nat) : Int) = 2 ^ p.e := by push_cast; rfl
  simp only [FSpec.largest, FSpec.topExp]
  split <;> omega

/-- The significand of the largest finite value, whose fraction is all ones, but for F8E4S, where that fraction is the NaN. -/
theorem FSpec.largest_fst (p : FSpec) : p.largest.1 = if p.top = 1 then 2 ^ (p.f + 1) - 2 else 2 ^ (p.f + 1) - 1 := rfl

/-- No finite code stands above the largest. -/
theorem FSpec.significand_le_largest (hx : x < 2 ^ p.e) (hf : f < 2 ^ p.f) (hF : 1 ≤ p.f) (h : ¬p.Special x f) :
    (2 ^ p.f + f) * 2 ^ x ≤ p.largest.1 * 2 ^ p.topExp := by
  have hpow : 2 ≤ 2 ^ p.f := Nat.le_self_pow (by omega) 2
  have hnext : 2 ^ (p.f + 1) = 2 * 2 ^ p.f := Nat.pow_succ'
  have hfst := p.largest_fst
  rw [FSpec.Special] at h
  obtain hbelow | rfl : x + 1 ≤ p.topExp ∨ x = p.topExp := by rw [FSpec.topExp]; split <;> omega
  · have hsig : 2 ^ p.f + f ≤ p.largest.1 * 2 := by rw [hfst]; split <;> omega
    calc (2 ^ p.f + f) * 2 ^ x ≤ p.largest.1 * 2 * 2 ^ x := Nat.mul_le_mul_right _ hsig
      _ = p.largest.1 * 2 ^ (x + 1) := by rw [Nat.pow_succ', Nat.mul_assoc]
      _ ≤ p.largest.1 * 2 ^ p.topExp := Nat.mul_le_mul_left _ (Nat.pow_le_pow_right (by decide) hbelow)
  · have hlast (hsat : p.top = 1) : f ≠ 2 ^ p.f - 1 := fun hf1 =>
      h ⟨by rw [FSpec.topExp, if_neg (by omega)], .inr ⟨hsat, hf1⟩⟩
    have hsig : 2 ^ p.f + f ≤ p.largest.1 := by rw [hfst]; split <;> omega
    exact Nat.mul_le_mul_right _ hsig

/-- A normal value within the format's precision and below its threshold is written as it stands. -/
theorem FSpec.round_of_fits {m : Nat} {e : Int} (hodd : m % 2 = 1) (hbits : Nat.log2 m ≤ p.f) (hmin : p.minExp ≤ Nat.log2 m + e)
    (hlt : dyLt m e (2 * p.largest.1 + 1) (p.largest.2 - 1) = true) : p.round (.fin s m e) = (.fin s m e, false) := by
  have hm : m ≠ 0 := by omega
  have hkept : roundBits (p.f + 1) m e = (m, e) := if_pos (by rw [bitLen_of_ne_zero hm]; omega)
  simp only [FSpec.round, if_neg hm, if_pos hlt, hkept, if_neg (by omega : ¬(Nat.log2 m : Int) + e < p.minExp),
    FVal.canon_of_odd hodd]

/-- The code of a value in normal form has the fields that the value was made of. -/
theorem FSpec.encode_odd {k j : Nat} (hodd : k % 2 = 1) (hsig : k * 2 ^ j = 2 ^ p.f + f) (hf : f < 2 ^ p.f) :
    p.encode (.fin s k ((x : Int) - p.bias - p.f + j)) = p.code s x f := by
  have hk : k ≠ 0 := by omega
  have hlog : Nat.log2 k + j = p.f := log2_odd_part hodd hsig hf
  have hexp : ((Nat.log2 k : Int) + ((x : Int) - p.bias - p.f + j) + p.bias).toNat = x := by omega
  have hfrac : k * 2 ^ (p.f - Nat.log2 k) % 2 ^ p.f = f := by
    rw [← hlog, Nat.add_sub_cancel_left, hlog, hsig, Nat.add_mod_left, Nat.mod_eq_of_lt hf]
  simp only [FSpec.encode, if_neg hk, hexp, if_pos (by omega : Nat.log2 k ≤ p.f), hfrac, FSpec.code]

/-- A finite code is written back from its value, with no event. -/
theorem FSpec.write_decode_code (hx : x < 2 ^ p.e) (hf : f < 2 ^ p.f) (h1 : 1 ≤ x) (he : 1 ≤ p.e) (hF : 1 ≤ p.f)
    (h : ¬p.Special x f) : p.write (p.decode (p.code s x f)) = (p.code s x f, false) := by
  obtain ⟨j, k, hk, hsig⟩ := Nat.exists_eq_two_pow_mul_odd (n := 2 ^ p.f + f) (by omega)
  rw [Nat.mul_comm] at hsig
  have hodd : k % 2 = 1 := Nat.odd_iff.mp hk
  have hlog : Nat.log2 k + j = p.f := log2_odd_part hodd hsig.symm hf
  have hlt : dyLt k ((x : Int) - p.bias - p.f + j) (2 * p.largest.1 + 1) (p.largest.2 - 1) = true := by
    have := dyLt_half_ulp (g := -p.bias - p.f) (FSpec.significand_le_largest hx hf hF h)
    rwa [← FSpec.largest_snd he, hsig, dyLt_mul_two_pow, ← add_sub_assoc, ← sub_eq_add_neg] at this
  have hround : p.round (.fin s k ((x : Int) - p.bias - p.f + j)) = (.fin s k ((x : Int) - p.bias - p.f + j), false) :=
    FSpec.round_of_fits s hodd (by omega) (by rw [FSpec.minExp]; omega) hlt
  rw [FSpec.decode_code_of_not_special s hx hf h1 h, hsig, FVal.canon_odd_mul_two_pow hodd, FSpec.write, hround,
    FSpec.encode_odd s hodd hsig.symm hf]

end

/-! ### The nine formats -/

/-- A row of the table of R262 (the format, the bits of exponent and fraction, the bias, the use of the top exponent, the written NaN and
+∞) is the model's layout of the format, with the codes that the layout writes. -/
def RowGives : Fmt × Nat × Nat × Int × Nat × Nat × Nat → Prop
  | (fmt, e, f, bias, top, nan, inf) =>
    let p := fSpec fmt
    fmtWidth fmt = 1 + p.e + p.f ∧ (p.e = e ∧ p.f = f ∧ p.bias = bias ∧ p.top = top) ∧
      (p.top ≠ 2 → p.nanCode = nan) ∧ (p.top = 0 → (2 ^ p.e - 1) * 2 ^ p.f = inf) ∧ (p.top = 1 → 2 ^ p.f - 1 = 7) ∧ 1 ≤ p.e ∧ 1 ≤ p.f

/-- Settles O30: each row of the table gives the model's layout, and the rest holds of the codes of any layout. -/
theorem floatLayouts : Obligations.FloatLayouts := by
  refine ⟨by decide, fun row hrow => ?rows⟩
  case rows =>
    have hgives : RowGives row := by revert row; unfold RowGives; decide
    obtain ⟨fmt, e, f, bias, top, nan, inf⟩ := row
    obtain ⟨hwidth, ⟨rfl, rfl, hbias, rfl⟩, hnan, hinf, hlast, he, hF⟩ := hgives
    refine ⟨hwidth, fun htop => by rw [FSpec.write_nan, hnan htop], fun htop => ?infinities, fun s x f hx hf => ?codes⟩
    case infinities =>
      rw [FSpec.write_inf false htop, FSpec.write_inf true htop, hinf htop]
      exact ⟨rfl, rfl⟩
    case codes =>
      intro c special
      have hspecial : special ↔ (fSpec fmt).Special x f :=
        and_congr_right' (or_congr_right (and_congr_right fun hsat => by rw [hlast hsat]))
      refine ⟨fun h hf0 => ?inf, fun h hf0 => ?nan, fun h h1 => ⟨?value, ?written⟩⟩
      case inf => exact (FSpec.decode_code_of_special s hx hf he hF (hspecial.mp h)).trans (if_pos hf0)
      case nan => exact (FSpec.decode_code_of_special s hx hf he hF (hspecial.mp h)).trans (if_neg hf0)
      case value =>
        rw [← hbias]
        exact FSpec.decode_code_of_not_special s hx hf h1 (mt hspecial.mpr h)
      case written => exact FSpec.write_decode_code s hx hf h1 he hF (mt hspecial.mpr h)

end Sys2Proof.Machine
end

section
/-! The refusals of POLICY_SET (R366, R367): which command is refused when it is read, which of the items that VALID selects is
refused and with what status, and that a command with a refused item completes with that status and applies no item. -/

namespace Sys2Proof.Machine
open Sys2Proof.Claims

/-! ### A command refused when it is read (R409) -/

theorem fit_of_length {n : Nat} {b : Bytes} (hlen : b.length = n) : fit n b = b := by
  rw [fit, List.take_append_of_le_length hlen.ge, ← hlen, List.take_length]

/-- A ring once the command at its head is read: it is in execution, the last one read of its port. -/
def State.reading (s : State) (p : Port) (r : Nat) (c : Bytes) : State :=
  s.setRing p r { s.ring p r with
    current := some c, held := false, seq := s.lastRead p + 1, page := none, sent := 0
    sqHead := ((s.ring p r).sqHead + 1) % 2 ^ (s.ring p r).sqLog2 }

theorem exec_commandFetch_of_refused {s : State} {p : Port} {r : Nat} {b : Bytes} {d : Done} (hserves : s.serves p = true)
    (hr : r < 8) (hmay : (s.ring p r).mayFetch = true) (hcheck : (s.reading p r (fit 64 b)).checkCommand p (fit 64 b) = some d) :
    exec (.commandFetch p r b) s = .next ((s.reading p r (fit 64 b)).complete p r d) := by
  have hgo : ¬((!s.serves p) = true ∨ 8 ≤ r ∨ (!(s.ring p r).mayFetch) = true) := by simp [hserves, hmay, hr]
  unfold State.reading at hcheck ⊢
  show execCommandFetch p r b s = _
  simp only [execCommandFetch, if_neg hgo, hcheck]

theorem opcodes_contains_of_adminOpcodes {op : Nat} (h : adminOpcodes.contains op = true) : opcodes.contains op = true :=
  List.contains_iff_mem.mpr ((by decide : adminOpcodes ⊆ opcodes) (List.contains_iff_mem.mp h))

/-- An administrative command with no wrong field is NOT_ADMINISTRATIVE on the other port. -/
theorem State.checkCommand_of_ne_adminPort {s : State} {p : Port} {c : Bytes} (hadmin : adminOpcodes.contains (field c 0 1) = true)
    (hfields : s.fieldFault c = none) (hp : p ≠ s.adminPort) : s.checkCommand p c = some { status := 0x0102 } := by
  have hknown := opcodes_contains_of_adminOpcodes hadmin
  rw [State.checkCommand]
  simp only [hknown, hfields, hadmin, ne_eq, hp, not_false_eq_true, and_self, Bool.not_true, Bool.false_eq_true, if_true, if_false]

/-! ### The items that VALID selects (R366, R367) -/

/-- Some item that VALID selects has a value outside its range. -/
abbrev PolicyOutside (c : Bytes) : Prop :=
  let has := bit (field c 0x18 2)
  (has 0 = true ∧ (field c 0x1A 1 < 20 ∨ 250 < field c 0x1A 1)) ∨ (has 1 = true ∧ field c 0x1C 2 = 0) ∨
    (has 2 = true ∧ (field c 0x1E 2 = 0 ∨ 10000 < field c 0x1E 2)) ∨ (has 3 = true ∧ (field c 0x1B 1 = 0 ∨ 168 < field c 0x1B 1)) ∨
    (has 4 = true ∧ (field c 0x20 2 < 600 ∨ 1000 < field c 0x20 2 ∨ field c 0x20 2 % 10 ≠ 0)) ∨ (has 5 = true ∧ 3 < field c 0x22 1) ∨
    (has 6 = true ∧ (16 < field c 0x23 1 ∨ 64 < field c 0x24 1))

/-- The command selects the period. -/
abbrev SetsPeriod (c : Bytes) : Prop := bit (field c 0x18 2) 0 = true

/-- An item is refused where VALID selects it and its value does not pass. -/
theorem itemRefused_iff {sel ok : Bool} {bad : Prop} (h : ok = false ↔ bad) : (sel && !ok) = true ↔ sel = true ∧ bad := by
  rw [Bool.and_eq_true, Bool.not_eq_true', h]

/-- A value is outside a closed range. -/
theorem range_eq_false_iff (lo hi x : Nat) : (decide (lo ≤ x) && decide (x ≤ hi)) = false ↔ x < lo ∨ hi < x := by
  simp only [Bool.and_eq_false_iff, decide_eq_false_iff_not, not_le]

theorem capOk_eq_false_iff (w : Nat) : capOk w = false ↔ w < 600 ∨ 1000 < w ∨ w % 10 ≠ 0 := by
  rw [capOk, Bool.and_eq_false_iff, range_eq_false_iff, beq_eq_false_iff_ne, or_assoc]

/-- The refusal of an item in closed form: an item out of range or a period at a follower of the tick group, and then a period
while a job exists (R95, R367, R433). -/
theorem State.policyFault_eq (s : State) (c : Bytes) (g : Bool) :
    s.policyFault c g =
      if PolicyOutside c ∨ (SetsPeriod c ∧ s.tickGroup.role = 2) then some 0x0103
      else if SetsPeriod c ∧ (s.jobNums ≠ [] ∨ g = true) then some 0x0104 else none := by
  rw [State.policyFault]
  refine if_congr ?invalid rfl (if_congr ?busy rfl rfl)
  case busy => exact itemRefused_iff (by simp [imp_iff_not_or])
  case invalid =>
    simp only [Bool.or_eq_true, or_assoc]
    refine or_congr (itemRefused_iff (range_eq_false_iff ..)) <| or_congr (itemRefused_iff ?ream) <|
      or_congr (itemRefused_iff ?timeout) <| or_congr (itemRefused_iff ?selftest) <|
      or_congr (itemRefused_iff (capOk_eq_false_iff _)) <| or_congr (itemRefused_iff ?admission) <|
      or_congr (itemRefused_iff ?quota) (itemRefused_iff ?follower)
    case ream => simp
    case timeout => rw [range_eq_false_iff, Nat.lt_one_iff]
    case selftest => rw [range_eq_false_iff, Nat.lt_one_iff]
    case admission => simp
    case quota => simp only [Bool.and_eq_false_iff, decide_eq_false_iff_not, not_le]
    case follower => simp

theorem State.policyFault_of_outside (s : State) {c : Bytes} (g : Bool) (h : PolicyOutside c) : s.policyFault c g = some 0x0103 := by
  rw [State.policyFault_eq, if_pos (.inl h)]

theorem State.policyFault_of_busy {s : State} {c : Bytes} {g : Bool} (hin : ¬PolicyOutside c) (hper : SetsPeriod c)
    (hrole : s.tickGroup.role ≠ 2) (hjobs : s.jobNums ≠ [] ∨ g = true) : s.policyFault c g = some 0x0104 := by
  rw [State.policyFault_eq, if_neg (not_or.mpr ⟨hin, fun h => hrole h.2⟩), if_pos ⟨hper, hjobs⟩]

/-- The first of two refusals is none where neither applies. -/
theorem refusal_eq_none_iff {a b : Prop} [Decidable a] [Decidable b] (x y : Nat) :
    (if a then some x else if b then some y else none) = none ↔ ¬a ∧ ¬b := by
  simp only [ite_eq_right_iff, reduceCtorEq, imp_false, ite_eq_iff, and_false, false_or]

/-- A command of any items is accepted only where every one of them is. -/
theorem State.policyFault_eq_none_iff (s : State) (c : Bytes) (g : Bool) :
    s.policyFault c g = none ↔ ¬PolicyOutside c ∧ (SetsPeriod c → s.tickGroup.role ≠ 2 ∧ s.jobNums = [] ∧ g = false) := by
  rw [State.policyFault_eq, refusal_eq_none_iff, not_or, and_assoc]
  have hidle : ¬(s.jobNums ≠ [] ∨ g = true) ↔ s.jobNums = [] ∧ g = false := by simp
  rw [not_and, not_and, ← imp_and, hidle]

/-! ### The command -/

/-- A POLICY_SET is the command of the row of its lowest item (assumption 91); only the row of the period looks at the other modules
of the tick group (R433). -/
theorem exec_policyRow {k : Nat} (hk : k < 8) (p : Port) (r : Nat) (g : Bool) (s : State) :
    exec (policyRow k p r g) s = s.policyCommand p r k (decide (k = 0) && g) := by
  interval_cases k <;> rfl

theorem State.policyCommand_of_refused {s : State} {p : Port} {r k st : Nat} {c : Bytes} {g : Bool} (hc : s.command p r 0x41 = some c)
    (hlowest : ((List.range 8).find? (bit (field c 0x18 2))).getD 0 = k) (hfault : s.policyFault c g = some st) :
    s.policyCommand p r k g = .next (s.complete p r { status := st }) := by
  simp only [State.policyCommand, hc, hlowest, ne_eq, not_true_eq_false, if_false, hfault, State.refuse]

theorem State.command_of_holds {s : State} {p : Port} {r opcode : Nat} {c : Bytes} (h : Holds s p r opcode c) :
    s.command p r opcode = some c := by
  obtain ⟨hcur, hop, hheld, hlive, hretired, hturn, htakes, hbuf⟩ := h
  exact (s.command_eq_some ..).mpr ⟨(s.fetched_eq_some ..).mpr ⟨hcur, hop, hheld, hlive, hretired, hturn⟩, htakes, hbuf⟩

/-- Settles O29: the check at the reading, the refusal of an item in closed form, and the command that completes with it. -/
theorem policyRefusals : Obligations.PolicyRefusals := by
  refine ⟨fun s p r b hserves hr hmay hp hop hlen => ?notAdministrative, fun s c g => ?items,
    fun s p r k c g st hholds hk hlowest hfault => ?command⟩
  case notAdministrative =>
    intro s' hfields
    have hadmin : adminOpcodes.contains (field b 0 1) = true := by rw [hop]; decide
    have hadminPort : s'.adminPort = s.adminPort := State.setRing_adminPort ..
    have hcheck := State.checkCommand_of_ne_adminPort hadmin hfields (hadminPort ▸ hp)
    have hexec := exec_commandFetch_of_refused (b := b) (d := { status := 0x0102 }) hserves hr hmay
    rw [fit_of_length hlen] at hexec
    exact hexec hcheck
  case items => exact ⟨s.policyFault_of_outside g, State.policyFault_of_busy, s.policyFault_eq_none_iff c g⟩
  case command => rw [exec_policyRow hk, State.policyCommand_of_refused (State.command_of_holds hholds) hlowest hfault]

end Sys2Proof.Machine
end


section
/-! What every command keeps (R15, R30, R95, R102, R439): each one goes on, with the memories in canonical form, and leaves the queue, the
grade, the EEPROM, the tick and the bytes of memory but for the commands named. -/

namespace Sys2Proof.Machine
open Sys2Proof.Claims

theorem Leads.mono {o : Outcome} {P Q : State → Prop} (h : Leads o P) (hpq : ∀ t, P t → Q t) : Leads o Q := by
  obtain ⟨t, ho, hp⟩ := h
  exact ⟨t, ho, hpq t hp⟩

/-- What a command leads to holds of the state that it answers. -/
theorem Leads.of_next {o : Outcome} {P : State → Prop} {t : State} (h : Leads o P) (ho : o = .next t) : P t := by
  obtain ⟨u, hu, hp⟩ := h
  cases ho.symm.trans hu
  exact hp

/-! ### Every command but two keeps the grade, the EEPROM, the queue and the canonical form -/

/-- The commands that may change the grade or the EEPROM. -/
def changesFixed : Instr → Bool
  | .eepromWrite .. | .jtagAccess .. => true
  | _ => false

theorem changesFixed_cases {c : Instr} (hc : changesFixed c = true) :
    (∃ addr data dev, c = .eepromWrite addr data dev) ∨ ∃ x n, c = .jtagAccess x n := by
  unfold changesFixed at hc
  split at hc
  · exact .inl ⟨_, _, _, rfl⟩
  · exact .inr ⟨_, _, rfl⟩
  · cases hc

theorem exec_keeps (c : Instr) (s : State) (hc : changesFixed c = false) : Leads (exec c s) (Keeps s) := by
  cases c with
  | ciphertextAdd | ciphertextSubtract | ciphertextNegate | addPlaintext | multiplyPlaintext | multiplyConstant | tensorProduct |
  relinearise | multiplyRelinearise | rotate | hoistedRotate | conjugate | rescale | levelDrop | formConversion | repulp | keyStreamStart
  | add | sub | and | or | xor | shl | shr | sar | min | max | minu | maxu | cmpeq | cmplt | cmpltu | sel | li | lui | mul | mulhu | mulhs
  | getid | br | brz | brnz | call | ret | loop | ldS | stS | ldT | stT | sig | wait | bar | couch | endOp | mmaStart | mmaCont | drain |
  nttF | nttI | vectorAdd | vectorSub | vectorMul | fma | neg | abs | vectorMin | vectorMax | vectorCmpeq | vectorCmplt | cmple |
  vectorSel | vectorAnd | vectorOr | vectorXor | not | vectorShl | vectorShr | vectorSar | exp2 | rcp | rsqrt | act | madd | msub | mneg |
  mmul | mfma | msubmul | mcentre | vcvt | vmov | vred | xcopyMove | xcopyTranspose | xcopyGalois | xcopyGather | strm | strmMark =>
    exact slotOp_keeps ..
  | coldReset => exact execColdReset_keeps ..
  | pwrEnDeassert => exact execPwrEnDeassert_keeps ..
  | vinBelowSafeShutdown => exact execVinBelowSafeShutdown_keeps ..
  | vinLow => exact execVinLow_keeps ..
  | freeze => exact execFreeze_keeps ..
  | perstAssert => exact execPerstAssert_keeps ..
  | perstDeassert => exact execPerstDeassert_keeps ..
  | hotReset => exact execHotReset_keeps ..
  | flr => exact execFlr_keeps ..
  | d3hotEntry => exact execD3hotEntry_keeps ..
  | portLinkUp => exact execPortLinkUp_keeps ..
  | eepromWrite => exact absurd hc Bool.noConfusion
  | integratorCapSet => exact execIntegratorCapSet_keeps ..
  | mctpEventRead => exact execMctpEventRead_keeps ..
  | jtagAccess => exact absurd hc Bool.noConfusion
  | sensorSample => exact execSensorSample_keeps ..
  | thermalThrottleStep => exact execThermalThrottleStep_keeps ..
  | thermalRecoveryStep => exact execThermalRecoveryStep_keeps ..
  | regulatorCapStep => exact execRegulatorCapStep_keeps ..
  | regulatorCapRestore => exact execRegulatorCapRestore_keeps ..
  | sensorCalibration => exact execSensorCalibration_keeps ..
  | hardwareLimiter => exact execHardwareLimiter_keeps ..
  | limiterRelease => exact execLimiterRelease_keeps ..
  | firmwareCapEval => exact execFirmwareCapEval_keeps ..
  | firmwareRestore => exact execFirmwareRestore_keeps ..
  | dividerRampStep => exact execDividerRampStep_keeps ..
  | railRaised => exact execRailRaised_keeps ..
  | clockMonitorWindow => exact execClockMonitorWindow_keeps ..
  | referenceEdgeTimeout => exact execReferenceEdgeTimeout_keeps ..
  | pllRelock => exact execPllRelock_keeps ..
  | limpQuiesceComplete => exact execLimpQuiesceComplete_keeps ..
  | sysrefQualified => exact execSysrefQualified_keeps ..
  | clockReselect => exact execClockReselect_keeps ..
  | fmcStart => exact execFmcStart_keeps ..
  | fmcDone => exact execFmcDone_keeps ..
  | warmReset => exact execWarmReset_keeps ..
  | essArm => exact execEssArm_keeps ..
  | essArmLapse => exact execEssArmLapse_keeps ..
  | essFreeze => exact execEssFreeze_keeps ..
  | essPowerDown => exact execEssPowerDown_keeps ..
  | essKill => exact execEssKill_keeps ..
  | essFlr => exact execEssFlr_keeps ..
  | fusesSensed => exact execFusesSensed_keeps ..
  | eepromFieldsRead => exact execEepromFieldsRead_keeps ..
  | configSpaceReady => exact execConfigSpaceReady_keeps ..
  | millSramReady => exact execMillSramReady_keeps ..
  | firmwareVerified => exact execFirmwareVerified_keeps ..
  | recoveryImage => exact execRecoveryImage_keeps ..
  | securityReady => exact execSecurityReady_keeps ..
  | millCoresReady => exact execMillCoresReady_keeps ..
  | hbmReady => exact execHbmReady_keeps ..
  | linkTrained => exact execLinkTrained_keeps ..
  | repulpTableBuilt => exact execRepulpTableBuilt_keeps ..
  | tick => exact execTick_keeps ..
  | scheduleOverrun => exact execScheduleOverrun_keeps ..
  | reamBoundary => exact execReamBoundary_keeps ..
  | tickMessageSend => exact execTickMessageSend_keeps ..
  | couchCommit => exact execCouchCommit_keeps ..
  | roleFoldComplete => exact execRoleFoldComplete_keeps ..
  | releaseComplete => exact execReleaseComplete_keeps ..
  | replayQuiesceDone => exact execReplayQuiesceDone_keeps ..
  | correctionStorm => exact execCorrectionStorm_keeps ..
  | vote => exact execVote_keeps ..
  | decision => exact execDecision_keeps ..
  | voteTimeout => exact execVoteTimeout_keeps ..
  | decisionTimeout => exact execDecisionTimeout_keeps ..
  | decisionRequest => exact execDecisionRequest_keeps ..
  | start => exact execStart_keeps ..
  | spanSubmitTimeout => exact execSpanSubmitTimeout_keeps ..
  | releaseEnd => exact execReleaseEnd_keeps ..
  | stop => exact execStop_keeps ..
  | statsSnapshot => exact execStatsSnapshot_keeps ..
  | snapCtrlWrite => exact execSnapCtrlWrite_keeps ..
  | snapshotFilled => exact execSnapshotFilled_keeps ..
  | ciphertextOutputWritten => exact execCiphertextOutputWritten_keeps ..
  | coreHalted => exact execCoreHalted_keeps ..
  | interludeCouch => exact execInterludeCouch_keeps ..
  | macroSheetCouch => exact execMacroSheetCouch_keeps ..
  | interludeResume => exact execInterludeResume_keeps ..
  | keyIngest => exact execKeyIngest_keeps ..
  | keyIngestComplete => exact execKeyIngestComplete_keeps ..
  | keysetBind => exact execKeysetBind_keeps ..
  | keysetUnbind => exact execKeysetUnbind_keeps ..
  | keyringIncomplete => exact execKeyringIncomplete_keeps ..
  | keySelfcheck => exact execKeySelfcheck_keeps ..
  | keyBlockAcknowledged => exact execKeyBlockAcknowledged_keeps ..
  | passRequest => exact execPassRequest_keeps ..
  | keyMessage => exact execKeyMessage_keeps ..
  | scalarResultWritten => exact execScalarResultWritten_keeps ..
  | loadDataDelivered => exact execLoadDataDelivered_keeps ..
  | storeAcknowledged => exact execStoreAcknowledged_keeps ..
  | sigApplied => exact execSigApplied_keeps ..
  | sigMessage => exact execSigMessage_keeps ..
  | programLoad => exact execProgramLoad_keeps ..
  | submit => exact execSubmit_keeps ..
  | mmaLastResult => exact execMmaLastResult_keeps ..
  | drainComplete => exact execDrainComplete_keeps ..
  | nttLimbWritten => exact execNttLimbWritten_keeps ..
  | vectorResultWritten => exact execVectorResultWritten_keeps ..
  | handleMap => exact execHandleMap_keeps ..
  | handleUnmap => exact execHandleUnmap_keeps ..
  | windowOpen => exact execWindowOpen_keeps ..
  | windowClose => exact execWindowClose_keeps ..
  | bankPowerDown => exact execBankPowerDown_keeps ..
  | bankPowerUp => exact execBankPowerUp_keeps ..
  | bankGroupDark => exact execBankGroupDark_keeps ..
  | bankGroupWiped => exact execBankGroupWiped_keeps ..
  | bankGroupOff => exact execBankGroupOff_keeps ..
  | evacuationDone => exact execEvacuationDone_keeps ..
  | xcopyStagingGranted => exact execXcopyStagingGranted_keeps ..
  | xcopyComplete => exact execXcopyComplete_keeps ..
  | xcRaceSeenWrite => exact execXcRaceSeenWrite_keeps ..
  | streamElementComplete => exact execStreamElementComplete_keeps ..
  | atsTranslationCompletion => exact execAtsTranslationCompletion_keeps ..
  | pageRequest => exact execPageRequest_keeps ..
  | pageResponse => exact execPageResponse_keeps ..
  | pageTimeout => exact execPageTimeout_keeps ..
  | atsInvalidation => exact execAtsInvalidation_keeps ..
  | pcRetrain => exact execPcRetrain_keeps ..
  | pcRetrainDone => exact execPcRetrainDone_keeps ..
  | migrationDone => exact execMigrationDone_keeps ..
  | unitFilled => exact execUnitFilled_keeps ..
  | patrolScrub => exact execPatrolScrub_keeps ..
  | selfRefreshIdle => exact execSelfRefreshIdle_keeps ..
  | jobCreate => exact execJobCreate_keeps ..
  | jobKill => exact execJobKill_keeps ..
  | jobWiped => exact execJobWiped_keeps ..
  | policySetPeriod => exact execPolicySetPeriod_keeps ..
  | policySetReam => exact execPolicySetReam_keeps ..
  | policySetTimeout => exact execPolicySetTimeout_keeps ..
  | policySetSelftestInterval => exact execPolicySetSelftestInterval_keeps ..
  | policySetAdminCap => exact execPolicySetAdminCap_keeps ..
  | policySetAdmission => exact execPolicySetAdmission_keeps ..
  | policySetQuota => exact execPolicySetQuota_keeps ..
  | busError => exact execBusError_keeps ..
  | registerWrite => exact execRegisterWrite_keeps ..
  | errStatusWrite => exact execErrStatusWrite_keeps ..
  | errrecValidWrite => exact execErrrecValidWrite_keeps ..
  | bar2Read => exact execBar2Read_keeps ..
  | bar2Write => exact execBar2Write_keeps ..
  | msixUnmask => exact execMsixUnmask_keeps ..
  | heartbeat => exact execHeartbeat_keeps ..
  | doorbell => exact execDoorbell_keeps ..
  | ringEnable => exact execRingEnable_keeps ..
  | ringDisable => exact execRingDisable_keeps ..
  | cqHeadWrite => exact execCqHeadWrite_keeps ..
  | commandFetch => exact execCommandFetch_keeps ..
  | evEnable => exact execEvEnable_keeps ..
  | evHeadWrite => exact execEvHeadWrite_keeps ..
  | eventRecordPost => exact execEventRecordPost_keeps ..
  | queryPrimes => exact execQueryPrimes_keeps ..
  | queryParamset => exact execQueryParamset_keeps ..
  | queryReady => exact execQueryReady_keeps ..
  | selftestCore => exact execSelftestCore_keeps ..
  | selftestModule => exact execSelftestModule_keeps ..
  | selftestTurn => exact execSelftestTurn_keeps ..
  | scanDone => exact execScanDone_keeps ..
  | attest => exact execAttest_keeps ..
  | fwUpdate => exact execFwUpdate_keeps ..
  | fwUpdateDone => exact execFwUpdateDone_keeps ..
  | linkRoute => exact execLinkRoute_keeps ..
  | debugUnlock => exact execDebugUnlock_keeps ..
  | adminPortChange => exact execAdminPortChange_keeps ..
  | retire => exact execRetire_keeps ..
  | svnAdvance => exact execSvnAdvance_keeps ..
  | hssBucketRefill => exact execHssBucketRefill_keeps ..
  | pkeOperationDone => exact execPkeOperationDone_keeps ..
  | getVersion => exact execGetVersion_keeps ..
  | getCapabilities => exact execGetCapabilities_keeps ..
  | negotiateAlgorithms => exact execNegotiateAlgorithms_keeps ..
  | getDigests => exact execGetDigests_keeps ..
  | getCertificate => exact execGetCertificate_keeps ..
  | challenge => exact execChallenge_keeps ..
  | getMeasurements => exact execGetMeasurements_keeps ..
  | keyExchange => exact execKeyExchange_keeps ..
  | finish => exact execFinish_keeps ..
  | spdmHeartbeat => exact execSpdmHeartbeat_keeps ..
  | keyUpdate => exact execKeyUpdate_keeps ..
  | endSession => exact execEndSession_keeps ..
  | ideKmKeyProg => exact execIdeKmKeyProg_keeps ..
  | kSetGo => exact execKSetGo_keeps ..
  | pcieEqualisation p => exact execPcieEqualisation_keeps p s
  | linkTrainingRetry => exact execLinkTrainingRetry_keeps ..
  | laneRecalibration => exact execLaneRecalibration_keeps ..
  | laneRetired => exact execLaneRetired_keeps ..
  | linkRetryExhausted => exact execLinkRetryExhausted_keeps ..
  | linkRetrainDone => exact execLinkRetrainDone_keeps ..
  | dataFlit => exact execDataFlit_keeps ..
  | idle => exact execIdle_keeps ..
  | nak => exact execNak_keeps ..
  | grant => exact execGrant_keeps ..
  | tickMessage => exact execTickMessage_keeps ..
  | masterLost => exact execMasterLost_keeps ..
  | ping => exact execPing_keeps ..
  | pong => exact execPong_keeps ..
  | delayMeasurement => exact execDelayMeasurement_keeps ..
  | linkRekey => exact execLinkRekey_keeps ..
  | linkAuthDown => exact execLinkAuthDown_keeps ..
  | pwrGood => exact execPwrGood_keeps ..
  | vinInOperatingRange => exact execVinInOperatingRange_keeps ..
  | crystalRecovered => exact execCrystalRecovered_keeps ..
  | firmwareRestarted => exact execFirmwareRestarted_keeps ..
  | hbStale => exact execHbStale_keeps ..
  | keyringBindComplete => exact execKeyringBindComplete_keeps ..
  | priReset => exact execPriReset_keeps ..

/-! ### The two others: EEPROM_WRITE and JTAG_ACCESS -/

theorem memsWf_mems (s : State) : memsWf s.mems = s.memWf := rfl

theorem execEepromWrite_wf (addr : Nat) (data : Byte) (dev : Nat) (s : State) (h : s.Inv) :
    Leads (execEepromWrite addr data s dev) (·.Inv) := by
  simp only [State.Inv, State.memWf, Bool.and_eq_true] at h
  obtain ⟨⟨hsram, hhbm⟩, heeprom⟩ := h
  unfold execEepromWrite
  (repeat' split) <;> simp [State.Inv, State.memWf, hsram, hhbm, heeprom]

theorem execJtagAccess_wf (t : JtagTarget) (trstN : Bool) (s : State) (h : s.Inv) : Leads (execJtagAccess t s trstN) (·.Inv) :=
  (execJtagAccess_mems t trstN s).mono fun u (hu : u.mems = s.mems) => by rw [State.Inv, ← memsWf_mems, hu]; exact h

/-- Every command goes on, and keeps the memories in their canonical form. -/
theorem exec_wf (c : Instr) (s : State) (h : s.Inv) : Leads (exec c s) (·.Inv) := by
  cases hc : changesFixed c with
  | false => exact (exec_keeps c s hc).mono fun t ht => ht.2 h
  | true =>
    obtain ⟨addr, data, dev, rfl⟩ | ⟨x, n, rfl⟩ := changesFixed_cases hc
    · exact execEepromWrite_wf addr data dev s h
    · exact execJtagAccess_wf x n s h

/-! ### The step -/

theorem step_of_empty {s : State} (h : s.pending = []) : step s = .next s.idle := by simp [step, h]

theorem step_of_front {s : State} {c : Instr} {rest : List Instr} (h : s.pending = c :: rest) :
    step s = exec c { s with pending := rest } := by
  simp [step, h]

/-- Settles O1: the two cases of the step. -/
theorem stepRunsFront : Obligations.StepRunsFront := by
  refine ⟨fun c rest s => step_of_front, fun s h => ?_⟩
  exact step_of_empty h

/-- Settles O3: every command keeps the canonical form, and so does the idle step. -/
theorem stepKeepsCanonical : Obligations.StepKeepsCanonical := by
  intro s t h hstep
  cases hp : s.pending with
  | nil =>
    cases (step_of_empty hp).symm.trans hstep
    exact State.idle_wf s h
  | cons c rest => exact (exec_wf c { s with pending := rest } h).of_next ((step_of_front hp).symm.trans hstep)

/-- Settles O4: every command has a lemma that says it goes on. -/
theorem noCommandStops : Obligations.NoCommandStops := by
  intro c s
  cases hc : changesFixed c with
  | false => exact (exec_keeps c s hc).imp fun _ h => h.1
  | true =>
    obtain ⟨addr, data, dev, rfl⟩ | ⟨x, n, rfl⟩ := changesFixed_cases hc
    · exact (execEepromWrite_ticks dev addr data s).imp fun _ h => h.1
    · exact (execJtagAccess_mems x n s).imp fun _ h => h.1

/-! ### The queue, the grade and the EEPROM -/

/-- A fuse blown through JTAG changes the grade only where the GRADE fuses are written in MANUFACTURE (R439). -/
theorem State.jtagFuse_grade (s : State) (t : JtagTarget) :
    (s.jtagFuse t).grade = s.grade ∨ s.sec.lifecycle = 0 ∧ ∃ x, t = .grade x := by
  unfold State.jtagFuse
  split <;> simp_all

@[simp] theorem State.jtagFuse_pending (s : State) (t : JtagTarget) : (s.jtagFuse t).pending = s.pending := by
  unfold State.jtagFuse; split <;> rfl

theorem State.jtag_pending (s : State) (t : JtagTarget) : (s.jtag t).pending = s.pending := by
  unfold State.jtag; dsimp only; (repeat' split) <;> simp

theorem State.jtag_grade (s : State) (t : JtagTarget) :
    (s.jtag t).grade = s.grade ∨ s.sec.lifecycle = 0 ∧ ∃ x, t = .grade x := by
  unfold State.jtag
  dsimp only
  (repeat' split) <;> simp [State.jtagFuse_grade]

theorem execJtagAccess_queueGrade (x : JtagTarget) (n : Bool) (s : State) : Leads (execJtagAccess x s n) fun t =>
    t.pending = s.pending ∧ (t.grade = s.grade ∨ s.sec.lifecycle = 0 ∧ ∃ y, x = .grade y) := by
  unfold execJtagAccess
  split
  · exact ⟨s, rfl, rfl, .inl rfl⟩
  · refine ⟨_, rfl, ?_⟩
    split
    · exact ⟨State.jtag_pending .., State.jtag_grade { s with pins := { s.pins with trstN := n } } x⟩
    · exact ⟨rfl, .inl rfl⟩

theorem execEepromWrite_queueGrade (addr : Nat) (data : Byte) (dev : Nat) (s : State) :
    Leads (execEepromWrite addr data s dev) fun t => t.pending = s.pending ∧ t.grade = s.grade := by
  unfold execEepromWrite; (repeat' split) <;> simp

theorem queueGradeEeprom : Claims.QueueGradeEeprom := by
  intro c s t hexec
  cases hc : changesFixed c with
  | false =>
    have hfixed : (t.grade, t.eeprom, t.pending) = (s.grade, s.eeprom, s.pending) := ((exec_keeps c s hc).of_next hexec).1
    injection hfixed with hgrade hrest
    injection hrest with heeprom hpending
    exact ⟨hpending, .inl hgrade, .inl heeprom⟩
  | true =>
    obtain ⟨addr, data, dev, rfl⟩ | ⟨x, n, rfl⟩ := changesFixed_cases hc
    · obtain ⟨hpending, hgrade⟩ := (execEepromWrite_queueGrade addr data dev s).of_next hexec
      exact ⟨hpending, .inl hgrade, .inr ⟨dev, addr, data, rfl⟩⟩
    · obtain ⟨hpending, hgrade⟩ := (execJtagAccess_queueGrade x n s).of_next hexec
      have hmems : (t.sram, t.hbm, t.eeprom) = (s.sram, s.hbm, s.eeprom) := (execJtagAccess_mems x n s).of_next hexec
      injection hmems with _ hrest
      injection hrest with _ heeprom
      exact ⟨hpending, hgrade.imp_right fun ⟨h0, y, hy⟩ => ⟨h0, y, n, by rw [hy]⟩, .inl heeprom⟩

/-! ### The tick number and the sheet period -/

theorem Leads.samePeriod {o : Outcome} {s : State} (h : Leads o (SameTicks s)) : Leads o (SamePeriod s) :=
  h.mono fun _ => SameTicks.period

theorem slotOp_samePeriod (s : State) (i : Issue) (c : Instr) : Leads (s.slotOp i c) (SamePeriod s) :=
  (slotOp_ticks s i c).samePeriod

/-- POLICY_SET of any item changes the period of the next tick only (R95). -/
theorem policyCommand_samePeriod (s : State) (p : Port) (r item : Nat) (groupJobs : Bool) :
    Leads (s.policyCommand p r item groupJobs) (SamePeriod s) := by
  unfold State.policyCommand
  (repeat' split) <;> rw [leads_next]
  · exact ⟨rfl, rfl⟩
  · exact ⟨rfl, rfl⟩
  · exact SameTicks.period (State.refuse_ticks s p r _)
  · exact (applyPolicy_period s _).trans (SameTicks.period (State.complete_ticks _ p r _))

theorem exec_samePeriod (c : Instr) (s : State) (hc : movesTick c = false) : Leads (exec c s) (SamePeriod s) := by
  cases c with
  | coldReset | pwrEnDeassert | vinBelowSafeShutdown | sensorSample | warmReset | essFreeze | essPowerDown | tick | registerWrite | attest
  | hssBucketRefill | tickMessage =>
    exact absurd hc Bool.noConfusion
  | ciphertextAdd | ciphertextSubtract | ciphertextNegate | addPlaintext | multiplyPlaintext | multiplyConstant | tensorProduct |
  relinearise | multiplyRelinearise | rotate | hoistedRotate | conjugate | rescale | levelDrop | formConversion | repulp | keyStreamStart
  | add | sub | and | or | xor | shl | shr | sar | min | max | minu | maxu | cmpeq | cmplt | cmpltu | sel | li | lui | mul | mulhu | mulhs
  | getid | br | brz | brnz | call | ret | loop | ldS | stS | ldT | stT | sig | wait | bar | couch | endOp | mmaStart | mmaCont | drain |
  nttF | nttI | vectorAdd | vectorSub | vectorMul | fma | neg | abs | vectorMin | vectorMax | vectorCmpeq | vectorCmplt | cmple |
  vectorSel | vectorAnd | vectorOr | vectorXor | not | vectorShl | vectorShr | vectorSar | exp2 | rcp | rsqrt | act | madd | msub | mneg |
  mmul | mfma | msubmul | mcentre | vcvt | vmov | vred | xcopyMove | xcopyTranspose | xcopyGalois | xcopyGather | strm | strmMark =>
    exact slotOp_samePeriod ..
  | vinLow => exact (execVinLow_ticks ..).samePeriod
  | freeze => exact (execFreeze_ticks ..).samePeriod
  | perstAssert => exact (execPerstAssert_ticks ..).samePeriod
  | perstDeassert => exact (execPerstDeassert_ticks ..).samePeriod
  | hotReset => exact (execHotReset_ticks ..).samePeriod
  | flr => exact (execFlr_ticks ..).samePeriod
  | d3hotEntry => exact (execD3hotEntry_ticks ..).samePeriod
  | portLinkUp => exact (execPortLinkUp_ticks ..).samePeriod
  | eepromWrite => exact (execEepromWrite_ticks ..).samePeriod
  | integratorCapSet => exact (execIntegratorCapSet_ticks ..).samePeriod
  | mctpEventRead => exact (execMctpEventRead_ticks ..).samePeriod
  | jtagAccess => exact (execJtagAccess_ticks ..).samePeriod
  | thermalThrottleStep => exact (execThermalThrottleStep_ticks ..).samePeriod
  | thermalRecoveryStep => exact (execThermalRecoveryStep_ticks ..).samePeriod
  | regulatorCapStep => exact (execRegulatorCapStep_ticks ..).samePeriod
  | regulatorCapRestore => exact (execRegulatorCapRestore_ticks ..).samePeriod
  | sensorCalibration => exact (execSensorCalibration_ticks ..).samePeriod
  | hardwareLimiter => exact (execHardwareLimiter_ticks ..).samePeriod
  | limiterRelease => exact (execLimiterRelease_ticks ..).samePeriod
  | firmwareCapEval => exact (execFirmwareCapEval_ticks ..).samePeriod
  | firmwareRestore => exact (execFirmwareRestore_ticks ..).samePeriod
  | dividerRampStep => exact (execDividerRampStep_ticks ..).samePeriod
  | railRaised => exact (execRailRaised_ticks ..).samePeriod
  | clockMonitorWindow => exact (execClockMonitorWindow_ticks ..).samePeriod
  | referenceEdgeTimeout => exact (execReferenceEdgeTimeout_ticks ..).samePeriod
  | pllRelock => exact (execPllRelock_ticks ..).samePeriod
  | limpQuiesceComplete => exact (execLimpQuiesceComplete_ticks ..).samePeriod
  | sysrefQualified => exact (execSysrefQualified_ticks ..).samePeriod
  | clockReselect => exact policyCommand_samePeriod ..
  | fmcStart => exact (execFmcStart_ticks ..).samePeriod
  | fmcDone => exact (execFmcDone_ticks ..).samePeriod
  | essArm => exact (execEssArm_ticks ..).samePeriod
  | essArmLapse => exact (execEssArmLapse_ticks ..).samePeriod
  | essKill => exact (execEssKill_ticks ..).samePeriod
  | essFlr => exact (execEssFlr_ticks ..).samePeriod
  | fusesSensed => exact (execFusesSensed_ticks ..).samePeriod
  | eepromFieldsRead => exact (execEepromFieldsRead_ticks ..).samePeriod
  | configSpaceReady => exact (execConfigSpaceReady_ticks ..).samePeriod
  | millSramReady => exact (execMillSramReady_ticks ..).samePeriod
  | firmwareVerified => exact (execFirmwareVerified_ticks ..).samePeriod
  | recoveryImage => exact (execRecoveryImage_ticks ..).samePeriod
  | securityReady => exact (execSecurityReady_ticks ..).samePeriod
  | millCoresReady => exact (execMillCoresReady_ticks ..).samePeriod
  | hbmReady => exact (execHbmReady_ticks ..).samePeriod
  | linkTrained => exact (execLinkTrained_ticks ..).samePeriod
  | repulpTableBuilt => exact (execRepulpTableBuilt_ticks ..).samePeriod
  | scheduleOverrun => exact (execScheduleOverrun_ticks ..).samePeriod
  | reamBoundary => exact (execReamBoundary_ticks ..).samePeriod
  | tickMessageSend => exact (execTickMessageSend_ticks ..).samePeriod
  | couchCommit => exact (execCouchCommit_ticks ..).samePeriod
  | roleFoldComplete => exact (execRoleFoldComplete_ticks ..).samePeriod
  | releaseComplete => exact (execReleaseComplete_ticks ..).samePeriod
  | replayQuiesceDone => exact (execReplayQuiesceDone_ticks ..).samePeriod
  | correctionStorm => exact (execCorrectionStorm_ticks ..).samePeriod
  | vote => exact (execVote_ticks ..).samePeriod
  | decision => exact (execDecision_ticks ..).samePeriod
  | voteTimeout => exact (execVoteTimeout_ticks ..).samePeriod
  | decisionTimeout => exact (execDecisionTimeout_ticks ..).samePeriod
  | decisionRequest => exact (execDecisionRequest_ticks ..).samePeriod
  | start => exact (execStart_ticks ..).samePeriod
  | spanSubmitTimeout => exact (execSpanSubmitTimeout_ticks ..).samePeriod
  | releaseEnd => exact (execReleaseEnd_ticks ..).samePeriod
  | stop => exact (execStop_ticks ..).samePeriod
  | statsSnapshot => exact (execStatsSnapshot_ticks ..).samePeriod
  | snapCtrlWrite => exact (execSnapCtrlWrite_ticks ..).samePeriod
  | snapshotFilled => exact (execSnapshotFilled_ticks ..).samePeriod
  | ciphertextOutputWritten => exact (execCiphertextOutputWritten_ticks ..).samePeriod
  | coreHalted => exact (execCoreHalted_ticks ..).samePeriod
  | interludeCouch => exact (execInterludeCouch_ticks ..).samePeriod
  | macroSheetCouch => exact (execMacroSheetCouch_ticks ..).samePeriod
  | interludeResume => exact (execInterludeResume_ticks ..).samePeriod
  | keyIngest => exact (execKeyIngest_ticks ..).samePeriod
  | keyIngestComplete => exact (execKeyIngestComplete_ticks ..).samePeriod
  | keysetBind => exact (execKeysetBind_ticks ..).samePeriod
  | keysetUnbind => exact (execKeysetUnbind_ticks ..).samePeriod
  | keyringIncomplete => exact (execKeyringIncomplete_ticks ..).samePeriod
  | keySelfcheck => exact (execKeySelfcheck_ticks ..).samePeriod
  | keyBlockAcknowledged => exact (execKeyBlockAcknowledged_ticks ..).samePeriod
  | passRequest => exact (execPassRequest_ticks ..).samePeriod
  | keyMessage => exact (execKeyMessage_ticks ..).samePeriod
  | scalarResultWritten => exact (execScalarResultWritten_ticks ..).samePeriod
  | loadDataDelivered => exact (execLoadDataDelivered_ticks ..).samePeriod
  | storeAcknowledged => exact (execStoreAcknowledged_ticks ..).samePeriod
  | sigApplied => exact (execSigApplied_ticks ..).samePeriod
  | sigMessage => exact (execSigMessage_ticks ..).samePeriod
  | programLoad => exact (execProgramLoad_ticks ..).samePeriod
  | submit => exact (execSubmit_ticks ..).samePeriod
  | mmaLastResult => exact (execMmaLastResult_ticks ..).samePeriod
  | drainComplete => exact (execDrainComplete_ticks ..).samePeriod
  | nttLimbWritten => exact (execNttLimbWritten_ticks ..).samePeriod
  | vectorResultWritten => exact (execVectorResultWritten_ticks ..).samePeriod
  | handleMap => exact (execHandleMap_ticks ..).samePeriod
  | handleUnmap => exact (execHandleUnmap_ticks ..).samePeriod
  | windowOpen => exact (execWindowOpen_ticks ..).samePeriod
  | windowClose => exact (execWindowClose_ticks ..).samePeriod
  | bankPowerDown => exact (execBankPowerDown_ticks ..).samePeriod
  | bankPowerUp => exact (execBankPowerUp_ticks ..).samePeriod
  | bankGroupDark => exact (execBankGroupDark_ticks ..).samePeriod
  | bankGroupWiped => exact (execBankGroupWiped_ticks ..).samePeriod
  | bankGroupOff => exact (execBankGroupOff_ticks ..).samePeriod
  | evacuationDone => exact (execEvacuationDone_ticks ..).samePeriod
  | xcopyStagingGranted => exact (execXcopyStagingGranted_ticks ..).samePeriod
  | xcopyComplete => exact (execXcopyComplete_ticks ..).samePeriod
  | xcRaceSeenWrite => exact (execXcRaceSeenWrite_ticks ..).samePeriod
  | streamElementComplete => exact (execStreamElementComplete_ticks ..).samePeriod
  | atsTranslationCompletion => exact (execAtsTranslationCompletion_ticks ..).samePeriod
  | pageRequest => exact (execPageRequest_ticks ..).samePeriod
  | pageResponse => exact (execPageResponse_ticks ..).samePeriod
  | pageTimeout => exact (execPageTimeout_ticks ..).samePeriod
  | atsInvalidation => exact (execAtsInvalidation_ticks ..).samePeriod
  | pcRetrain => exact (execPcRetrain_ticks ..).samePeriod
  | pcRetrainDone => exact (execPcRetrainDone_ticks ..).samePeriod
  | migrationDone => exact (execMigrationDone_ticks ..).samePeriod
  | unitFilled => exact (execUnitFilled_ticks ..).samePeriod
  | patrolScrub => exact (execPatrolScrub_ticks ..).samePeriod
  | selfRefreshIdle => exact (execSelfRefreshIdle_ticks ..).samePeriod
  | jobCreate => exact (execJobCreate_ticks ..).samePeriod
  | jobKill => exact (execJobKill_ticks ..).samePeriod
  | jobWiped => exact (execJobWiped_ticks ..).samePeriod
  | policySetPeriod => exact policyCommand_samePeriod ..
  | policySetReam => exact policyCommand_samePeriod ..
  | policySetTimeout => exact policyCommand_samePeriod ..
  | policySetSelftestInterval => exact policyCommand_samePeriod ..
  | policySetAdminCap => exact policyCommand_samePeriod ..
  | policySetAdmission => exact policyCommand_samePeriod ..
  | policySetQuota => exact policyCommand_samePeriod ..
  | busError => exact (execBusError_ticks ..).samePeriod
  | errStatusWrite => exact (execErrStatusWrite_ticks ..).samePeriod
  | errrecValidWrite => exact (execErrrecValidWrite_ticks ..).samePeriod
  | bar2Read => exact (execBar2Read_ticks ..).samePeriod
  | bar2Write => exact (execBar2Write_ticks ..).samePeriod
  | msixUnmask => exact (execMsixUnmask_ticks ..).samePeriod
  | heartbeat => exact (execHeartbeat_ticks ..).samePeriod
  | doorbell => exact (execDoorbell_ticks ..).samePeriod
  | ringEnable => exact (execRingEnable_ticks ..).samePeriod
  | ringDisable => exact (execRingDisable_ticks ..).samePeriod
  | cqHeadWrite => exact (execCqHeadWrite_ticks ..).samePeriod
  | commandFetch => exact (execCommandFetch_ticks ..).samePeriod
  | evEnable => exact (execEvEnable_ticks ..).samePeriod
  | evHeadWrite => exact (execEvHeadWrite_ticks ..).samePeriod
  | eventRecordPost => exact (execEventRecordPost_ticks ..).samePeriod
  | queryPrimes => exact (execQueryPrimes_ticks ..).samePeriod
  | queryParamset => exact (execQueryParamset_ticks ..).samePeriod
  | queryReady => exact (execQueryReady_ticks ..).samePeriod
  | selftestCore => exact (execSelftestCore_ticks ..).samePeriod
  | selftestModule => exact (execSelftestModule_ticks ..).samePeriod
  | selftestTurn => exact (execSelftestTurn_ticks ..).samePeriod
  | scanDone => exact (execScanDone_ticks ..).samePeriod
  | fwUpdate => exact (execFwUpdate_ticks ..).samePeriod
  | fwUpdateDone => exact (execFwUpdateDone_ticks ..).samePeriod
  | linkRoute => exact (execLinkRoute_ticks ..).samePeriod
  | debugUnlock => exact (execDebugUnlock_ticks ..).samePeriod
  | adminPortChange => exact (execAdminPortChange_ticks ..).samePeriod
  | retire => exact (execRetire_ticks ..).samePeriod
  | svnAdvance => exact (execSvnAdvance_ticks ..).samePeriod
  | pkeOperationDone => exact (execPkeOperationDone_ticks ..).samePeriod
  | getVersion => exact (execGetVersion_ticks ..).samePeriod
  | getCapabilities => exact (execGetCapabilities_ticks ..).samePeriod
  | negotiateAlgorithms => exact (execNegotiateAlgorithms_ticks ..).samePeriod
  | getDigests => exact (execGetDigests_ticks ..).samePeriod
  | getCertificate => exact (execGetCertificate_ticks ..).samePeriod
  | challenge => exact (execChallenge_ticks ..).samePeriod
  | getMeasurements => exact (execGetMeasurements_ticks ..).samePeriod
  | keyExchange => exact (execKeyExchange_ticks ..).samePeriod
  | finish => exact (execFinish_ticks ..).samePeriod
  | spdmHeartbeat => exact (execSpdmHeartbeat_ticks ..).samePeriod
  | keyUpdate => exact (execKeyUpdate_ticks ..).samePeriod
  | endSession => exact (execEndSession_ticks ..).samePeriod
  | ideKmKeyProg => exact (execIdeKmKeyProg_ticks ..).samePeriod
  | kSetGo => exact (execKSetGo_ticks ..).samePeriod
  | pcieEqualisation p => exact (execPcieEqualisation_ticks p s).samePeriod
  | linkTrainingRetry => exact (execLinkTrainingRetry_ticks ..).samePeriod
  | laneRecalibration => exact (execLaneRecalibration_ticks ..).samePeriod
  | laneRetired => exact (execLaneRetired_ticks ..).samePeriod
  | linkRetryExhausted => exact (execLinkRetryExhausted_ticks ..).samePeriod
  | linkRetrainDone => exact (execLinkRetrainDone_ticks ..).samePeriod
  | dataFlit => exact (execDataFlit_ticks ..).samePeriod
  | idle => exact (execIdle_ticks ..).samePeriod
  | nak => exact (execNak_ticks ..).samePeriod
  | grant => exact (execGrant_ticks ..).samePeriod
  | masterLost => exact (execMasterLost_ticks ..).samePeriod
  | ping => exact (execPing_ticks ..).samePeriod
  | pong => exact (execPong_ticks ..).samePeriod
  | delayMeasurement => exact (execDelayMeasurement_ticks ..).samePeriod
  | linkRekey => exact (execLinkRekey_ticks ..).samePeriod
  | linkAuthDown => exact (execLinkAuthDown_ticks ..).samePeriod
  | pwrGood => exact (execPwrGood_ticks ..).samePeriod
  | vinInOperatingRange => exact (execVinInOperatingRange_ticks ..).samePeriod
  | crystalRecovered => exact (execCrystalRecovered_ticks ..).samePeriod
  | firmwareRestarted => exact (execFirmwareRestarted_ticks ..).samePeriod
  | hbStale => exact (execHbStale_ticks ..).samePeriod
  | keyringBindComplete => exact (execKeyringBindComplete_ticks ..).samePeriod
  | priReset => exact (execPriReset_ticks ..).samePeriod

/-! ### The bytes of SRAM and HBM -/

/-- The bytes of SRAM and HBM are the same. -/
def SameBytes (s t : State) : Prop := t.sram = s.sram ∧ t.hbm = s.hbm

theorem Leads.sameBytes {o : Outcome} {s : State} (h : Leads o (SameMems s)) : Leads o (SameBytes s) :=
  h.mono fun t (ht : (t.sram, t.hbm, t.eeprom) = (s.sram, s.hbm, s.eeprom)) => by
    injection ht with hsram hrest
    injection hrest with hhbm _
    exact ⟨hsram, hhbm⟩

theorem execEepromWrite_bytes (addr : Nat) (data : Byte) (dev : Nat) (s : State) :
    Leads (execEepromWrite addr data s dev) (SameBytes s) := by
  unfold execEepromWrite; (repeat' split) <;> simp [SameBytes]

/-- The operations that store are among the commands that may change a byte. -/
theorem slotStores_eq_false {c : Instr} (hc : writesMemory c = false) : slotStores c = false := by
  revert hc
  unfold slotStores
  split <;> simp [writesMemory]

theorem quietSlotOp_mems {s : State} {i : Issue} {c : Instr} (hc : writesMemory c = false)
    (hs : ∀ n, ∀ x ∈ (s.core n).staged, writesMemory x = false) : Leads (s.slotOp i c) (SameMems s) := by
  refine memsRel.slotOp (fun s n => by simp [SameMems]) s i c fun x hx => slotStores_eq_false ?_
  rcases List.mem_append.mp hx with hx | hx
  · exact hs _ x hx
  · rwa [List.mem_singleton.mp hx]

theorem exec_sameBytes (c : Instr) (s : State) (hc : writesMemory c = false)
    (hs : ∀ n, ∀ x ∈ (s.core n).staged, writesMemory x = false) : Leads (exec c s) (SameBytes s) := by
  cases c with
  | coldReset | pwrEnDeassert | vinBelowSafeShutdown | sensorSample | limpQuiesceComplete | warmReset | essFreeze | essPowerDown | tick |
  couchCommit | replayQuiesceDone | vote | decision | voteTimeout | releaseEnd | ciphertextAdd | ciphertextSubtract | ciphertextNegate |
  addPlaintext | multiplyPlaintext | multiplyConstant | tensorProduct | relinearise | multiplyRelinearise | rotate | hoistedRotate |
  conjugate | rescale | levelDrop | formConversion | ciphertextOutputWritten | coreHalted | interludeCouch | macroSheetCouch |
  interludeResume | keyIngestComplete | keysetBind | keysetUnbind | stS | stT | storeAcknowledged | programLoad | drain | drainComplete |
  nttF | nttI | bankGroupWiped | xcopyMove | xcopyTranspose | xcopyGalois | xcopyGather | xcopyComplete | streamElementComplete |
  migrationDone | unitFilled | patrolScrub | registerWrite | bar2Write | scanDone | attest | hssBucketRefill | keyringBindComplete =>
    exact absurd hc Bool.noConfusion
  | repulp | keyStreamStart | add | sub | and | or | xor | shl | shr | sar | min | max | minu | maxu | cmpeq | cmplt | cmpltu | sel | li |
  lui | mul | mulhu | mulhs | getid | br | brz | brnz | call | ret | loop | ldS | ldT | sig | wait | bar | couch | endOp | mmaStart |
  mmaCont | vectorAdd | vectorSub | vectorMul | fma | neg | abs | vectorMin | vectorMax | vectorCmpeq | vectorCmplt | cmple | vectorSel |
  vectorAnd | vectorOr | vectorXor | not | vectorShl | vectorShr | vectorSar | exp2 | rcp | rsqrt | act | madd | msub | mneg | mmul | mfma
  | msubmul | mcentre | vcvt | vmov | vred | strm | strmMark =>
    exact (quietSlotOp_mems rfl hs).sameBytes
  | vinLow => exact (execVinLow_mems ..).sameBytes
  | freeze => exact (execFreeze_mems ..).sameBytes
  | perstAssert => exact (execPerstAssert_mems ..).sameBytes
  | perstDeassert => exact (execPerstDeassert_mems ..).sameBytes
  | hotReset => exact (execHotReset_mems ..).sameBytes
  | flr => exact (execFlr_mems ..).sameBytes
  | d3hotEntry => exact (execD3hotEntry_mems ..).sameBytes
  | portLinkUp => exact (execPortLinkUp_mems ..).sameBytes
  | eepromWrite => exact execEepromWrite_bytes ..
  | integratorCapSet => exact (execIntegratorCapSet_mems ..).sameBytes
  | mctpEventRead => exact (execMctpEventRead_mems ..).sameBytes
  | jtagAccess => exact (execJtagAccess_mems ..).sameBytes
  | thermalThrottleStep => exact (execThermalThrottleStep_mems ..).sameBytes
  | thermalRecoveryStep => exact (execThermalRecoveryStep_mems ..).sameBytes
  | regulatorCapStep => exact (execRegulatorCapStep_mems ..).sameBytes
  | regulatorCapRestore => exact (execRegulatorCapRestore_mems ..).sameBytes
  | sensorCalibration => exact (execSensorCalibration_mems ..).sameBytes
  | hardwareLimiter => exact (execHardwareLimiter_mems ..).sameBytes
  | limiterRelease => exact (execLimiterRelease_mems ..).sameBytes
  | firmwareCapEval => exact (execFirmwareCapEval_mems ..).sameBytes
  | firmwareRestore => exact (execFirmwareRestore_mems ..).sameBytes
  | dividerRampStep => exact (execDividerRampStep_mems ..).sameBytes
  | railRaised => exact (execRailRaised_mems ..).sameBytes
  | clockMonitorWindow => exact (execClockMonitorWindow_mems ..).sameBytes
  | referenceEdgeTimeout => exact (execReferenceEdgeTimeout_mems ..).sameBytes
  | pllRelock => exact (execPllRelock_mems ..).sameBytes
  | sysrefQualified => exact (execSysrefQualified_mems ..).sameBytes
  | clockReselect => exact (execClockReselect_mems ..).sameBytes
  | fmcStart => exact (execFmcStart_mems ..).sameBytes
  | fmcDone => exact (execFmcDone_mems ..).sameBytes
  | essArm => exact (execEssArm_mems ..).sameBytes
  | essArmLapse => exact (execEssArmLapse_mems ..).sameBytes
  | essKill => exact (execEssKill_mems ..).sameBytes
  | essFlr => exact (execEssFlr_mems ..).sameBytes
  | fusesSensed => exact (execFusesSensed_mems ..).sameBytes
  | eepromFieldsRead => exact (execEepromFieldsRead_mems ..).sameBytes
  | configSpaceReady => exact (execConfigSpaceReady_mems ..).sameBytes
  | millSramReady => exact (execMillSramReady_mems ..).sameBytes
  | firmwareVerified => exact (execFirmwareVerified_mems ..).sameBytes
  | recoveryImage => exact (execRecoveryImage_mems ..).sameBytes
  | securityReady => exact (execSecurityReady_mems ..).sameBytes
  | millCoresReady => exact (execMillCoresReady_mems ..).sameBytes
  | hbmReady => exact (execHbmReady_mems ..).sameBytes
  | linkTrained => exact (execLinkTrained_mems ..).sameBytes
  | repulpTableBuilt => exact (execRepulpTableBuilt_mems ..).sameBytes
  | scheduleOverrun => exact (execScheduleOverrun_mems ..).sameBytes
  | reamBoundary => exact (execReamBoundary_mems ..).sameBytes
  | tickMessageSend => exact (execTickMessageSend_mems ..).sameBytes
  | roleFoldComplete => exact (execRoleFoldComplete_mems ..).sameBytes
  | releaseComplete => exact (execReleaseComplete_mems ..).sameBytes
  | correctionStorm => exact (execCorrectionStorm_mems ..).sameBytes
  | decisionTimeout => exact (execDecisionTimeout_mems ..).sameBytes
  | decisionRequest => exact (execDecisionRequest_mems ..).sameBytes
  | start => exact (execStart_mems ..).sameBytes
  | spanSubmitTimeout => exact (execSpanSubmitTimeout_mems ..).sameBytes
  | stop => exact (execStop_mems ..).sameBytes
  | statsSnapshot => exact (execStatsSnapshot_mems ..).sameBytes
  | snapCtrlWrite => exact (execSnapCtrlWrite_mems ..).sameBytes
  | snapshotFilled => exact (execSnapshotFilled_mems ..).sameBytes
  | keyIngest => exact (execKeyIngest_mems ..).sameBytes
  | keyringIncomplete => exact (execKeyringIncomplete_mems ..).sameBytes
  | keySelfcheck => exact (execKeySelfcheck_mems ..).sameBytes
  | keyBlockAcknowledged => exact (execKeyBlockAcknowledged_mems ..).sameBytes
  | passRequest => exact (execPassRequest_mems ..).sameBytes
  | keyMessage => exact (execKeyMessage_mems ..).sameBytes
  | scalarResultWritten => exact (execScalarResultWritten_mems ..).sameBytes
  | loadDataDelivered => exact (execLoadDataDelivered_mems ..).sameBytes
  | sigApplied => exact (execSigApplied_mems ..).sameBytes
  | sigMessage => exact (execSigMessage_mems ..).sameBytes
  | submit => exact (execSubmit_mems ..).sameBytes
  | mmaLastResult => exact (execMmaLastResult_mems ..).sameBytes
  | nttLimbWritten => exact (execNttLimbWritten_mems ..).sameBytes
  | vectorResultWritten => exact (execVectorResultWritten_mems ..).sameBytes
  | handleMap => exact (execHandleMap_mems ..).sameBytes
  | handleUnmap => exact (execHandleUnmap_mems ..).sameBytes
  | windowOpen => exact (execWindowOpen_mems ..).sameBytes
  | windowClose => exact (execWindowClose_mems ..).sameBytes
  | bankPowerDown => exact (execBankPowerDown_mems ..).sameBytes
  | bankPowerUp => exact (execBankPowerUp_mems ..).sameBytes
  | bankGroupDark => exact (execBankGroupDark_mems ..).sameBytes
  | bankGroupOff => exact (execBankGroupOff_mems ..).sameBytes
  | evacuationDone => exact (execEvacuationDone_mems ..).sameBytes
  | xcopyStagingGranted => exact (execXcopyStagingGranted_mems ..).sameBytes
  | xcRaceSeenWrite => exact (execXcRaceSeenWrite_mems ..).sameBytes
  | atsTranslationCompletion => exact (execAtsTranslationCompletion_mems ..).sameBytes
  | pageRequest => exact (execPageRequest_mems ..).sameBytes
  | pageResponse => exact (execPageResponse_mems ..).sameBytes
  | pageTimeout => exact (execPageTimeout_mems ..).sameBytes
  | atsInvalidation => exact (execAtsInvalidation_mems ..).sameBytes
  | pcRetrain => exact (execPcRetrain_mems ..).sameBytes
  | pcRetrainDone => exact (execPcRetrainDone_mems ..).sameBytes
  | selfRefreshIdle => exact (execSelfRefreshIdle_mems ..).sameBytes
  | jobCreate => exact (execJobCreate_mems ..).sameBytes
  | jobKill => exact (execJobKill_mems ..).sameBytes
  | jobWiped => exact (execJobWiped_mems ..).sameBytes
  | policySetPeriod => exact (execPolicySetPeriod_mems ..).sameBytes
  | policySetReam => exact (execPolicySetReam_mems ..).sameBytes
  | policySetTimeout => exact (execPolicySetTimeout_mems ..).sameBytes
  | policySetSelftestInterval => exact (execPolicySetSelftestInterval_mems ..).sameBytes
  | policySetAdminCap => exact (execPolicySetAdminCap_mems ..).sameBytes
  | policySetAdmission => exact (execPolicySetAdmission_mems ..).sameBytes
  | policySetQuota => exact (execPolicySetQuota_mems ..).sameBytes
  | busError => exact (execBusError_mems ..).sameBytes
  | errStatusWrite => exact (execErrStatusWrite_mems ..).sameBytes
  | errrecValidWrite => exact (execErrrecValidWrite_mems ..).sameBytes
  | bar2Read => exact (execBar2Read_mems ..).sameBytes
  | msixUnmask => exact (execMsixUnmask_mems ..).sameBytes
  | heartbeat => exact (execHeartbeat_mems ..).sameBytes
  | doorbell => exact (execDoorbell_mems ..).sameBytes
  | ringEnable => exact (execRingEnable_mems ..).sameBytes
  | ringDisable => exact (execRingDisable_mems ..).sameBytes
  | cqHeadWrite => exact (execCqHeadWrite_mems ..).sameBytes
  | commandFetch => exact (execCommandFetch_mems ..).sameBytes
  | evEnable => exact (execEvEnable_mems ..).sameBytes
  | evHeadWrite => exact (execEvHeadWrite_mems ..).sameBytes
  | eventRecordPost => exact (execEventRecordPost_mems ..).sameBytes
  | queryPrimes => exact (execQueryPrimes_mems ..).sameBytes
  | queryParamset => exact (execQueryParamset_mems ..).sameBytes
  | queryReady => exact (execQueryReady_mems ..).sameBytes
  | selftestCore => exact (execSelftestCore_mems ..).sameBytes
  | selftestModule => exact (execSelftestModule_mems ..).sameBytes
  | selftestTurn => exact (execSelftestTurn_mems ..).sameBytes
  | fwUpdate => exact (execFwUpdate_mems ..).sameBytes
  | fwUpdateDone => exact (execFwUpdateDone_mems ..).sameBytes
  | linkRoute => exact (execLinkRoute_mems ..).sameBytes
  | debugUnlock => exact (execDebugUnlock_mems ..).sameBytes
  | adminPortChange => exact (execAdminPortChange_mems ..).sameBytes
  | retire => exact (execRetire_mems ..).sameBytes
  | svnAdvance => exact (execSvnAdvance_mems ..).sameBytes
  | pkeOperationDone => exact (execPkeOperationDone_mems ..).sameBytes
  | getVersion => exact (execGetVersion_mems ..).sameBytes
  | getCapabilities => exact (execGetCapabilities_mems ..).sameBytes
  | negotiateAlgorithms => exact (execNegotiateAlgorithms_mems ..).sameBytes
  | getDigests => exact (execGetDigests_mems ..).sameBytes
  | getCertificate => exact (execGetCertificate_mems ..).sameBytes
  | challenge => exact (execChallenge_mems ..).sameBytes
  | getMeasurements => exact (execGetMeasurements_mems ..).sameBytes
  | keyExchange => exact (execKeyExchange_mems ..).sameBytes
  | finish => exact (execFinish_mems ..).sameBytes
  | spdmHeartbeat => exact (execSpdmHeartbeat_mems ..).sameBytes
  | keyUpdate => exact (execKeyUpdate_mems ..).sameBytes
  | endSession => exact (execEndSession_mems ..).sameBytes
  | ideKmKeyProg => exact (execIdeKmKeyProg_mems ..).sameBytes
  | kSetGo => exact (execKSetGo_mems ..).sameBytes
  | pcieEqualisation p => exact (execPcieEqualisation_mems p s).sameBytes
  | linkTrainingRetry => exact (execLinkTrainingRetry_mems ..).sameBytes
  | laneRecalibration => exact (execLaneRecalibration_mems ..).sameBytes
  | laneRetired => exact (execLaneRetired_mems ..).sameBytes
  | linkRetryExhausted => exact (execLinkRetryExhausted_mems ..).sameBytes
  | linkRetrainDone => exact (execLinkRetrainDone_mems ..).sameBytes
  | dataFlit => exact (execDataFlit_mems ..).sameBytes
  | idle => exact (execIdle_mems ..).sameBytes
  | nak => exact (execNak_mems ..).sameBytes
  | grant => exact (execGrant_mems ..).sameBytes
  | tickMessage => exact (execTickMessage_mems ..).sameBytes
  | masterLost => exact (execMasterLost_mems ..).sameBytes
  | ping => exact (execPing_mems ..).sameBytes
  | pong => exact (execPong_mems ..).sameBytes
  | delayMeasurement => exact (execDelayMeasurement_mems ..).sameBytes
  | linkRekey => exact (execLinkRekey_mems ..).sameBytes
  | linkAuthDown => exact (execLinkAuthDown_mems ..).sameBytes
  | pwrGood => exact (execPwrGood_mems ..).sameBytes
  | vinInOperatingRange => exact (execVinInOperatingRange_mems ..).sameBytes
  | crystalRecovered => exact (execCrystalRecovered_mems ..).sameBytes
  | firmwareRestarted => exact (execFirmwareRestarted_mems ..).sameBytes
  | hbStale => exact (execHbStale_mems ..).sameBytes
  | priReset => exact (execPriReset_mems ..).sameBytes

/-- Settles O31: each command's lemma about what it keeps. -/
theorem frames : Obligations.Frames := by
  refine ⟨queueGradeEeprom, fun c s t hc hexec => (exec_samePeriod c s hc).of_next hexec, fun c s t hc hs hexec a => ?_⟩
  obtain ⟨hsram, hhbm⟩ := (exec_sameBytes c s hc hs).of_next hexec
  exact ⟨by rw [hsram], by rw [hhbm]⟩

end Sys2Proof.Machine
end

section
/-! The scalar unit, and semaphores and barriers (R207, R208, R211, R215 to R220). -/

namespace Sys2Proof

/-- Of two writes of one entry the second stays. -/
theorem Tbl.set_set {α : Type} (t : Tbl α) (n : Nat) (v w : α) : Tbl.set (Tbl.set t n v) n w = Tbl.set t n w := by
  induction t with
  | nil => simp [Tbl.set]
  | cons c t ih =>
    obtain ⟨k, x⟩ := c
    simp only [Tbl.set]
    by_cases hlt : n < k
    · simp [hlt, Tbl.set]
    · by_cases heq : n = k
      · simp [heq, Tbl.set]
      · simp [hlt, heq, Tbl.set, ih]

end Sys2Proof

namespace Sys2Proof.Machine
open Sys2Proof.Claims

theorem State.modCore_modCore (s : State) (n : Nat) (f g : CoreSt → CoreSt) :
    (s.modCore n f).modCore n g = s.modCore n fun c => g (f c) := by
  simp only [State.modCore, State.core_setCore_self]
  simp only [State.setCore, Tbl.set_set]

theorem State.setJob_setJob (s : State) (j : Nat) (x y : Option Job) : (s.setJob j x).setJob j y = s.setJob j y := by
  simp only [State.setJob, Tbl.set_set]

/-! ### An operation that comes alone in its bundle -/

section
variable {s : State} {i : Issue} {c : Instr} {o : Op} {f : State → State}

theorem bundleBranch_one {b : Branch} {m : CoreMode} (hact : o.act = .go f b m) : bundleBranch [o] = b := by
  simp only [bundleBranch, List.findSome?_cons, List.findSome?_nil, hact]
  cases b <;> rfl

theorem bundleMode_one {b : Branch} {m : CoreMode} (hact : o.act = .go f b m) : bundleMode [o] = m := by
  simp only [bundleMode, List.foldl_cons, List.foldl_nil, hact]
  cases m <;> rfl

/-- An operation that acts does so on the state with its stamp, and its bundle ends as it says. -/
theorem State.slotOp_alone_go {b : Branch} {m : CoreMode} (h : CanIssue s i o.uses)
    (ho : opOf s (s.afterDrains i.core [c]) c = some o) (hact : o.act = .go f b m) (hplace : o.place < 7) :
    s.slotOp i c = .next (ended i (f (began s i)) b m) := by
  obtain ⟨hcan, -, -, -, hnodup, hfree⟩ := id h
  simp [State.slotOp_alone h ho, State.issueOps_one, opsInOrder_one hplace, hnodup, hfree, hact, State.runOps, State.each,
    State.mode_of_canIssue hcan, bundleBranch_one hact, bundleMode_one hact, ended, began]

end

/-! ### The end of a bundle -/

theorem State.core_setAt (s : State) (n pos : Nat) :
    (s.setAt n pos).core n = { s.core n with bundle := pos, mode := .issuing, resume := pos, staged := [] } := by
  simp [State.setAt]

theorem State.haltsAt_setAt (s : State) (n pos : Nat) : (s.setAt n pos).haltsAt n = s.haltsAt n := by
  have hjob : (s.setAt n pos).job (s.core n).job = (s.job (s.core n).job).map fun x => { x with stuck := false } := by
    simp [State.setAt, State.job_modJob]
  simp only [State.haltsAt, State.core_setAt, hjob, Option.any_map]

theorem State.core_enterAt {s : State} {n pos : Nat} (hbundle : (s.core n).isBundle pos = true) (hhalt : s.haltsAt n = false) :
    (s.enterAt n pos).core n = { s.core n with bundle := pos, mode := .issuing, resume := pos, staged := [] } := by
  have hb : ((s.setAt n pos).core n).isBundle pos = true := by rw [State.core_setAt]; exact hbundle
  simp only [State.enterAt, hb, State.haltsAt_setAt, hhalt, Bool.not_true, Bool.false_eq_true, if_false]
  exact State.core_setAt ..

/-- The core after its bundle, at the next one: the sequencer alone has moved. -/
theorem core_ended {s : State} {i : Issue} (hmode : (s.core i.core).mode = .issuing)
    (hbundle : (s.core i.core).isBundle ((s.core i.core).nextPos .none).1 = true) (hhalt : s.haltsAt i.core = false) :
    (ended i s).core i.core = { s.core i.core with
      loops := ((s.core i.core).nextPos .none).2, staged := [], resume := ((s.core i.core).nextPos .none).1,
      bundle := ((s.core i.core).nextPos .none).1, mode := .issuing } := by
  set p := (s.core i.core).nextPos .none with hp
  set t := (s.bump (ctrCore i.core 0) 1).setCore i.core { s.core i.core with loops := p.2, staged := [], resume := p.1 } with ht
  have hcore : t.core i.core = { s.core i.core with loops := p.2, staged := [], resume := p.1 } := State.core_setCore_self ..
  have hend : ended i s = t.enterAt i.core p.1 := by
    have hbump : (s.bump (ctrCore i.core 0) 1).core i.core = s.core i.core := rfl
    simp only [ended, State.endBundle, hmode, ne_eq, not_true_eq_false, if_false, hbump, ht, hp]
  have hhalt' : t.haltsAt i.core = false := by
    rw [State.haltsAt, hcore]
    exact hhalt
  rw [hend, State.core_enterAt (by rw [hcore]; exact hbundle) hhalt', hcore]

/-! ### Scalar operations of one cycle (R211) -/

section
variable {s : State} {i : Issue} {c : Instr} {d : SReg} {v : Word} {reads : List Nat}

theorem slotOp_scalarOp (h : CanIssue s i { reads := reads, writes := [rS d] })
    (ho : opOf s (s.afterDrains i.core [c]) c = some (scalarOp i reads d v)) : s.slotOp i c = .next (oneCycle s i d v) :=
  State.slotOp_alone_effect h ho rfl (by simp [scalarOp, Op.place, slotScalar, slotVector])

theorem slotOp_mulOp {a b : SReg} {f : Word → Word → Word} (h : CanIssue s i { reads := [rS a, rS b], writes := [rS d] })
    (ho : opOf s (s.afterDrains i.core [c]) c = some (s.mulOp i d a b f)) :
    s.slotOp i c = .next (ended i ((began s i).modCore i.core fun c =>
      { c with scalarQ := c.scalarQ ++ [{ d := d, v := f ((s.core i.core).s a) ((s.core i.core).s b) }] })) :=
  State.slotOp_alone_effect h ho rfl (by simp [State.mulOp, Op.place, slotScalar, slotVector])

end

theorem shiftCount_eq (y : Word) : shiftCount y = y.toNat % 64 := by simp [shiftCount]

/-- The low and the high half of a word of 32 bits beside 32 bits kept. -/
theorem lui_eq (imm : BitVec 32) (x : Word) :
    (imm ++ x.extractLsb' 0 32 : BitVec 64) = BitVec.ofNat 64 (imm.toNat * 2 ^ 32 + x.toNat % 2 ^ 32) := by
  apply BitVec.eq_of_toNat_eq
  have hlow : x.toNat % 2 ^ 32 < 2 ^ 32 := Nat.mod_lt _ (by decide)
  have himm : imm.toNat < 2 ^ 32 := imm.isLt
  rw [BitVec.toNat_append, BitVec.extractLsb'_toNat, Nat.shiftRight_zero, BitVec.toNat_ofNat,
    ← Nat.shiftLeft_add_eq_or_of_lt hlow, Nat.shiftLeft_eq]
  omega

theorem mul_eq (x y : Word) : x * y = BitVec.ofNat 64 (x.toNat * y.toNat) := by
  apply BitVec.eq_of_toNat_eq; simp

theorem mulHighU_eq (x y : Word) : mulHighU x y = BitVec.ofNat 64 (x.toNat * y.toNat / 2 ^ 64) := by
  have hx := x.isLt
  have hy := y.isLt
  have hxy : x.toNat * y.toNat < 2 ^ 128 := by nlinarith
  apply BitVec.eq_of_toNat_eq
  simp only [mulHighU, BitVec.extractLsb'_toNat, BitVec.toNat_mul, BitVec.toNat_setWidth, BitVec.toNat_ofNat, Nat.shiftRight_eq_div_pow]
  rw [Nat.mod_eq_of_lt (a := x.toNat) (by omega), Nat.mod_eq_of_lt (a := y.toNat) (by omega), Nat.mod_eq_of_lt hxy]

/-- The upper half of a word of 128 bits, from its signed value. -/
theorem extractHigh_eq (z : BitVec 128) : z.extractLsb' 64 64 = BitVec.ofInt 64 (z.toInt / 2 ^ 64) := by
  apply BitVec.eq_of_toNat_eq
  have hz := z.isLt
  rw [BitVec.extractLsb'_toNat, BitVec.toNat_ofInt, Nat.shiftRight_eq_div_pow, BitVec.toInt_eq_toNat_cond]
  split <;> omega

theorem mulHighS_eq (x y : Word) : mulHighS x y = BitVec.ofInt 64 (x.toInt * y.toInt / 2 ^ 64) := by
  have hx := BitVec.toInt_lt (x := x)
  have hx' := BitVec.le_toInt (x := x)
  have hy := BitVec.toInt_lt (x := y)
  have hy' := BitVec.le_toInt (x := y)
  have hlo : -2 ^ 127 ≤ x.toInt * y.toInt := by norm_num at *; nlinarith
  have hhi : x.toInt * y.toInt < 2 ^ 127 := by norm_num at *; nlinarith
  rw [mulHighS, extractHigh_eq, BitVec.toInt_mul, BitVec.toInt_signExtend_of_le (by decide), BitVec.toInt_signExtend_of_le (by decide),
    Int.bmod_eq_of_le (by norm_num at *; omega) (by norm_num at *; omega)]

theorem scalarAlu : Claims.ScalarAlu := by
  intro s i d a b h x y k
  have hk : shiftCount y = k := shiftCount_eq y
  have one : ∀ (c : Instr) (f : Word → Word → Word) (v : Word), opOf s (s.afterDrains i.core [c]) c = some (s.alu i d a b f) →
      f x y = v → s.slotOp i c = .next (oneCycle s i d v) := by
    intro c f v ho hv
    exact slotOp_scalarOp h (hv ▸ ho)
  exact ⟨one _ _ _ rfl rfl, one _ _ _ rfl rfl, one _ _ _ rfl rfl, one _ _ _ rfl rfl, one _ _ _ rfl rfl,
    one _ _ _ rfl (by rw [hk]), one _ _ _ rfl (by rw [hk]), one _ _ _ rfl (by rw [hk]),
    one _ _ _ rfl (by simp [BitVec.slt]), one _ _ _ rfl (by simp [BitVec.slt]), one _ _ _ rfl (by simp [BitVec.ult]),
    one _ _ _ rfl (by simp [BitVec.ult]), one _ _ _ rfl (by simp [flag]), one _ _ _ rfl (by simp [flag, BitVec.slt]),
    one _ _ _ rfl (by simp [flag, BitVec.ult])⟩

theorem scalarMoves : Claims.ScalarMoves := by
  refine ⟨fun s i d a b c h => ?sel, fun s i d imm h => slotOp_scalarOp h rfl, fun s i d imm h => ?lui, fun s i d x h hx => ?getid⟩
  case sel =>
    refine slotOp_scalarOp h ?_
    simp only [opOf, opSel, ne_eq, ite_not]
  case lui =>
    rw [← lui_eq]
    exact slotOp_scalarOp h rfl
  case getid =>
    have one : ∀ code v, s.getId i.core code = v → exec (.getid i d code) s = .next (oneCycle s i d (BitVec.ofNat 64 v)) :=
      fun code v hv => slotOp_scalarOp h (hv ▸ rfl)
    exact ⟨one 0 _ rfl, one 1 _ (by simp [State.getId, hx]), one 2 _ rfl⟩

theorem scalarMultiply : Claims.ScalarMultiply := by
  refine ⟨fun s i d a b h => ?_, fun s n x xs hlive hq => ?_⟩
  · intro x y fly
    have one : ∀ (c : Instr) (f : Word → Word → Word) (v : Word), opOf s (s.afterDrains i.core [c]) c = some (s.mulOp i d a b f) →
        f x y = v → s.slotOp i c = .next (fly v) := by
      intro c f v ho hv
      subst hv
      exact slotOp_mulOp h ho
    exact ⟨one _ _ _ rfl (mul_eq x y), one _ _ _ rfl (mulHighU_eq x y), one _ _ _ rfl (mulHighS_eq x y)⟩
  · change execScalarResultWritten n s = _
    simp [execScalarResultWritten, hq, hlive, CoreSt.setS]

/-- Settles O32: each operation's result, which the shared issue of a scalar operation writes. -/
theorem scalarUnit : Obligations.ScalarUnit := ⟨scalarAlu, scalarMoves, scalarMultiply⟩

/-! ### The result of a bundle (R207, R208) -/

/-- An operation that is not the last of its bundle waits for the others (R207). -/
theorem State.slotOp_staged {s : State} {i : Issue} (c : Instr) (hcan : s.canIssue i.core = true) (hlast : i.last = false) :
    s.slotOp i c = .next (s.modCore i.core fun c' => { c' with staged := c'.staged ++ [c] }) := by
  simp [State.slotOp, hcan, hlast, State.modCore]

theorem CoreSt.s_sreg_set (c : CoreSt) (d r : SReg) (v : Word) :
    ({ c with sreg := Tbl.set c.sreg d.toNat v }).s r = if r = d then v else c.s r := by
  simp only [CoreSt.s, Tbl.get_set, BitVec.toNat_inj, eq_comm (a := d)]

/-- Where the sequencer goes next depends on the code, the place in it, and the open loops alone. -/
theorem CoreSt.nextPos_congr {c c' : CoreSt} (hcode : c'.code = c.code) (hstarts : c'.starts = c.starts) (hbundle : c'.bundle = c.bundle)
    (hloops : c'.loops = c.loops) (b : Branch) : c'.nextPos b = c.nextPos b := by
  have hafter : ∀ p, c'.after p = c.after p := fun p => by rw [CoreSt.after, CoreSt.after, hcode, hstarts]
  have hflow : ∀ ls p, c'.flow p ls = c.flow p ls := by
    intro ls
    induction ls with
    | nil => intro p; rw [CoreSt.flow, CoreSt.flow, hafter]
    | cons l ls ih => intro p; rw [CoreSt.flow, CoreSt.flow, hafter, ih]
  cases b <;> simp only [CoreSt.nextPos, hbundle, hloops, hflow, hafter]

/-- The core after a scalar operation of one cycle that ends its bundle: the register is written and the sequencer has moved. -/
theorem core_oneCycle {s : State} {i : Issue} (d : SReg) (v : Word) (hmode : (s.core i.core).mode = .issuing)
    (hbundle : (s.core i.core).isBundle ((s.core i.core).nextPos .none).1 = true) (hhalt : s.haltsAt i.core = false) :
    (oneCycle s i d v).core i.core = { s.core i.core with
      stamp := (s.core i.core).stamp + 1, sreg := Tbl.set (s.core i.core).sreg d.toNat v,
      loops := ((s.core i.core).nextPos .none).2, staged := [], resume := ((s.core i.core).nextPos .none).1,
      bundle := ((s.core i.core).nextPos .none).1, mode := .issuing } := by
  set t := (began s i).modCore i.core fun c => { c with sreg := Tbl.set c.sreg d.toNat v } with ht
  have hcore : t.core i.core =
      { s.core i.core with stamp := (s.core i.core).stamp + 1, sreg := Tbl.set (s.core i.core).sreg d.toNat v } := by
    simp [ht, began]
  have hnext : (t.core i.core).nextPos .none = (s.core i.core).nextPos .none := by
    rw [hcore]; refine CoreSt.nextPos_congr ?_ ?_ ?_ ?_ _ <;> rfl
  have hend := core_ended (s := t) (i := i) (by rw [hcore]; exact hmode) (by rw [hnext, hcore]; exact hbundle)
    (by rw [State.haltsAt, hcore]; exact hhalt)
  rw [hnext, hcore] at hend
  exact hend

/-- No check of a bundle fails where each of its operations acts. -/
theorem bundleStop_of_go {os : List Op} (h : ∀ o ∈ os, ∃ f b m, o.act = .go f b m) : bundleStop os = none := by
  cases hstop : bundleStop os with
  | none => rfl
  | some x =>
    obtain ⟨o, ho, hact⟩ := bundleStop_mem os x.1 x.2 hstop
    obtain ⟨f, b, m, hgo⟩ := h o ho
    cases hact.symm.trans hgo

/-- A scalar operation beside the MOVE of a tile: neither clashes, both may act, and the MOVE acts first. -/
theorem slotOp_addBesideMove {s : State} {i k : Issue} {d a b : SReg} {t u : TReg} (hcan : s.canIssue i.core = true)
    (hlast : i.last = true) (hgood : i.good = true) (hstaged : (s.core i.core).staged = [.vmov k t u])
    (hpresent : Present s [] [engVector]) (hadd : s.blocked i.core { reads := [rS a, rS b], writes := [rS d] } = false)
    (hmove : s.blocked i.core { reads := [rT u], writes := [rT t] } = false) :
    s.slotOp i (.add i d a b) = .next (ended i (s.runOps i.core [opVmov k t u s, opAdd i d a b s])) := by
  obtain ⟨hfmts, hengines⟩ := hpresent
  have hreg : rT t ≠ rS d := by
    have := d.isLt
    simp only [rT, rS]; omega
  have hops : ([Instr.vmov k t u] ++ [Instr.add i d a b]).filterMap
      (opOf s (s.afterDrains i.core ([Instr.vmov k t u] ++ [Instr.add i d a b]))) =
      [opVmov k t u s, opAdd i d a b s] := rfl
  have hact : (opVmov k t u s).act = .effect fun s' => s'.vecResult k.core
      { fmt := .z36, alt := none, d := t, mask := { row := none, col := none, zero := false }, status := none } ((s.core k.core).t u) emptyStatus := by
    simp [opVmov, State.needs, hfmts, hengines]
  have hclash : clashIn [] [opVmov k t u s, opAdd i d a b s] = none := by
    simp [clashIn, Op.clash, opVmov, opAdd, State.alu, scalarOp, slotVector, slotScalar, Ne.symm hreg]
  have hstop : bundleStop [opVmov k t u s, opAdd i d a b s] = none := by
    refine bundleStop_of_go fun o ho => ?_
    rcases List.mem_pair.mp ho with rfl | rfl
    · exact ⟨_, _, _, hact⟩
    · exact ⟨_, _, _, rfl⟩
  have horder : opsInOrder [opVmov k t u s, opAdd i d a b s] = [opVmov k t u s, opAdd i d a b s] := rfl
  have hbranch : bundleBranch [opVmov k t u s, opAdd i d a b s] = .none := by
    simp [bundleBranch, hact, opAdd, State.alu, scalarOp, OpAct.effect]
  have hmode : bundleMode [opVmov k t u s, opAdd i d a b s] = .issuing := by
    simp [bundleMode, hact, opAdd, State.alu, scalarOp, OpAct.effect]
  have hfree : ([opVmov k t u s, opAdd i d a b s].any fun o => s.blocked i.core o.uses) = false := by
    simp only [List.any_cons, List.any_nil, Bool.or_false, Bool.or_eq_false_iff]
    exact ⟨hmove, hadd⟩
  simp only [State.slotOp, hcan, hlast, hgood, hstaged, hops, State.issueOps, hclash, hstop, hfree, horder, hbranch, hmode, ended,
    Bool.not_true, Bool.false_eq_true, if_false]

theorem runOps_addBesideMove {s : State} {i k : Issue} {d a b : SReg} {t u : TReg} (hcan : s.canIssue i.core = true)
    (hcore : k.core = i.core) (hpresent : Present s [] [engVector]) :
    s.runOps i.core [opVmov k t u s, opAdd i d a b s] = (began (began s i) i).modCore i.core fun c => { c with
      vecQ := c.vecQ ++ [{ stamp := (s.core i.core).stamp + 1, d := t, v := (s.core i.core).t u, status := none, word := emptyStatus,
                           bundle := c.bundle }],
      sreg := Tbl.set c.sreg d.toNat ((s.core i.core).s a + (s.core i.core).s b) } := by
  obtain ⟨hfmts, hengines⟩ := hpresent
  have hmode := State.mode_of_canIssue hcan
  simp only [State.runOps, State.each, List.foldl_cons, List.foldl_nil, opVmov, State.needs, hfmts, hengines, and_self, if_true,
    OpAct.effect, opAdd, State.alu, scalarOp, onCore, hmode, hcore, State.vecResult, State.core_modCore_self, began,
    State.modCore_modCore, CoreSt.setS]
  rfl

/-- Settles O5: the core after an ADD, an operation that waits for its bundle, and the bundle of two operations. -/
theorem scalarResultWritten : Obligations.ScalarResultWritten := by
  refine ⟨fun s i d a b h hbundle hhalt => ?alone, fun s i d a b hcan hlast => State.slotOp_staged _ hcan hlast,
    fun s i k d a b t u hcan hcore hlast hgood hstaged hpresent hadd hmove => ?beside⟩
  case alone =>
    have hcore := core_oneCycle d ((s.core i.core).s a + (s.core i.core).s b) (State.mode_of_canIssue h.1) hbundle hhalt
    refine ⟨_, slotOp_scalarOp h rfl, ?_⟩
    rw [hcore]
    refine ⟨?_, rfl, rfl, rfl, fun r hr => ?_⟩
    · exact (CoreSt.s_sreg_set (s.core i.core) d d _).trans (if_pos rfl)
    · exact (CoreSt.s_sreg_set (s.core i.core) d r _).trans (if_neg hr)
  case beside =>
    intro y
    exact (slotOp_addBesideMove hcan hlast hgood hstaged hpresent hadd hmove).trans (by rw [runOps_addBesideMove hcan hcore hpresent])

/-! ### Semaphores and barriers (R215 to R220) -/

section
variable {s : State} {i : Issue} {c : Instr} {x : Job}

/-- A sync operation that acts. -/
theorem slotOp_syncOp {act : OpAct} {f : State → State} {m : CoreMode} (h : CanIssue s i {})
    (ho : opOf s (s.afterDrains i.core [c]) c = some (syncOp act)) (hact : act = .go f .none m) :
    s.slotOp i c = .next (ended i (f (began s i)) .none m) :=
  State.slotOp_alone_go h ho hact (by simp [syncOp, Op.place, slotScalar, slotSync, slotVector])

/-- A semaphore operation whose number and count are in range does what its job lets it do. -/
theorem slotOp_semOp {sem k : Nat} {act : Job → OpAct} {f : State → State} {m : CoreMode} (h : CanIssue s i {})
    (hx : s.job (s.core i.core).job = some x) (hsem : sem < x.semCount) (hlo : 1 ≤ k) (hhi : k ≤ 255)
    (ho : opOf s (s.afterDrains i.core [c]) c = some (s.semOp i sem k act)) (hact : act x = .go f .none m) :
    s.slotOp i c = .next (ended i (f (began s i)) .none m) := by
  refine slotOp_syncOp h ho ?_
  simp only [hx, hact, if_neg (show ¬x.semCount ≤ sem by omega), if_neg (show ¬(k = 0 ∨ 255 < k) by omega)]

end

theorem synchronisation : Claims.Synchronisation := by
  refine ⟨fun s i x sem k h hx hsem hlo hhi => ⟨?sig, fun hk => ?take, fun hk => ?wait⟩, fun s i x b h hx hb hmask => ?bar,
    fun s i h => ⟨slotOp_syncOp (c := .couch i) (act := waitAs .couch) h rfl rfl,
      slotOp_syncOp (c := .endOp i) (act := waitAs .ended) h rfl rfl⟩⟩
  case sig => exact slotOp_semOp (c := .sig i sem k) (f := onCore i.core _) (m := .issuing) h hx hsem hlo hhi rfl rfl
  case take =>
    refine (slotOp_semOp (c := .wait i sem k) h hx hsem hlo hhi rfl (if_pos hk)).trans ?_
    have hx' : (began s i).job ((began s i).core i.core).job = some x := by simpa [began] using hx
    rw [State.modJob_some _ _ _ _ hx']
    simp [began]
  case wait => exact slotOp_semOp (c := .wait i sem k) h hx hsem hlo hhi rfl (if_neg (not_le.mpr hk))
  case bar =>
    refine slotOp_syncOp (c := .bar i b) (f := id) h rfl ?_
    simp only [hx, hmask, if_neg (show ¬x.barCount ≤ b by omega), Bool.not_true, Bool.false_eq_true, if_false, waitAs]

/-- A signal of a running job: the count rises and its waiting cores are looked at again, or it would pass 65,535 and stops the job. -/
theorem State.signal_of_running {s : State} {j : Nat} {x : Job} (hx : s.job j = some x) (hst : x.st = .running) (hq : x.quiesce = none)
    (sem k core slot bundle : Nat) : s.signal j sem k core slot bundle =
      if 65535 < x.sem sem + k then s.stopJob j { code := codeSequencer, detail := sqOverflow, core := core, slot := slot, bundle := bundle }
      else (s.setJob j (some { x with sems := Tbl.set x.sems sem (x.sem sem + k) })).settle j := by
  simp [State.signal, hx, hst, hq, State.modJob_some _ _ _ _ hx]

/-- A signal of a job on one module reaches its semaphore here. -/
theorem State.sendSig_of_alone {s : State} {j : Nat} {x : Job} (hx : s.job j = some x) (hspan : x.span = none)
    (sem k core slot bundle : Nat) : s.sendSig j sem k core slot bundle = s.signal j sem k core slot bundle := by
  simp [State.sendSig, hx, hspan]

theorem signalsApplied : Claims.SignalsApplied := by
  refine ⟨fun s n q qs x hlive hq howes hx hspan hst hquiesce => ?own, fun s i j sem k x hlive hspan hx hst hquiesce hk => ?message⟩
  case own =>
    intro s'
    have hexec : exec (.sigApplied n) s = .next (s'.signal (s.core n).job q.sem q.k n slotSync q.bundle) := by
      change execSigApplied n s = _
      simp only [execSigApplied, hq, hlive, howes, Bool.not_true, Bool.false_eq_true, or_self, if_false]
      rw [State.sendSig_of_alone (s := s.setCore n { s.core n with sigQ := qs }) hx hspan]
    rw [hexec, State.signal_of_running (s := s') hx hst hquiesce]
    exact ⟨fun hk => by rw [if_neg (by omega)], fun hk => by rw [if_pos hk]; rfl⟩
  case message =>
    have hexec : exec (.sigMessage i sem k) s = .next (s.signal j sem k 0xFF 0xFF 0) := by
      change execSigMessage i sem k s = _
      simp [execSigMessage, State.receive, State.sigNow, hlive, hspan]
    rw [hexec, State.signal_of_running hx hst hquiesce, if_neg (by omega)]

/-- Settles O33: the operations at their issue, and the signals applied. -/
theorem synchronisationUnit : Obligations.SynchronisationUnit := ⟨synchronisation, signalsApplied⟩

end Sys2Proof.Machine
end

section
/-! Loads and stores of a core (R102, R213, R214, R295, R313): what each does at its issue and at its completion, and which bytes a store
to SRAM writes. -/

namespace Sys2Proof.Machine
open Sys2Proof.Claims

/-! ### Bytes -/

@[simp] theorem length_le (n v : Nat) : (le n v).length = n := by
  induction n generalizing v with
  | zero => rfl
  | succ n ih => simp [le, ih]

/-- Byte `k` of a number. -/
theorem getElem_le (n v k : Nat) (hk : k < (le n v).length) : (le n v)[k] = BitVec.ofNat 8 (v / 256 ^ k) := by
  induction n generalizing v k with
  | zero => simp at hk
  | succ n ih =>
    cases k with
    | zero => simp [le]
    | succ k =>
      rw [length_le] at hk
      simp only [le, List.getElem_cons_succ]
      rw [ih (v / 256) k (by simpa using hk), Nat.div_div_eq_div_mul, Nat.pow_succ']

@[simp] theorem State.length_load (s : State) (j h off n : Nat) : (s.load j h off n).length = n := by
  unfold State.load; split <;> simp [zeros]

theorem loadValue_load (s : State) (j h off n : Nat) (signed : Bool) : loadValue (s.load j h off n) signed =
    if signed then (BitVec.ofNat (8 * n) (leVal (s.load j h off n))).signExtend 64 else BitVec.ofNat 64 (leVal (s.load j h off n)) := by
  rw [loadValue, State.length_load]

/-! ### Issue of a load or a store -/

theorem sizeOk_of_mem {size : Nat} (h : size ∈ [1, 2, 4, 8]) : sizeOk size = true := by
  simp only [List.mem_cons, List.not_mem_nil, or_false] at h
  rcases h with rfl | rfl | rfl | rfl <;> rfl

section
variable {s : State} {i : Issue} {slot size : Nat} {l : Loc} {write : Bool} {act : OpAct}

/-- Every slot has a place among the operations of a bundle. -/
theorem Op.place_lt {o : Op} (h : o.slot < 6) : o.place < 7 := by
  unfold Op.place
  (repeat' split) <;> omega

/-- A scalar access that passes its checks. -/
theorem State.scalarAccess_of_ok (hsize : size ∈ [1, 2, 4, 8]) (halign : l.off % size = 0)
    (hfault : s.accessFault (s.core i.core).job l.h l.off size write [spSram] = none) :
    s.scalarAccess i slot l size write act = act := by
  simp [State.scalarAccess, sizeOk_of_mem hsize, halign, hfault]

theorem State.scalarAccess_of_misaligned (hsize : size ∈ [1, 2, 4, 8]) (halign : l.off % size ≠ 0) :
    s.scalarAccess i slot l size write act = seqStop i.core slot sqMisaligned := by
  simp [State.scalarAccess, sizeOk_of_mem hsize, halign]

theorem State.scalarAccess_of_stale {k : Nat} (hsize : size ∈ [1, 2, 4, 8]) (halign : l.off % size = 0)
    (hfault : s.accessFault (s.core i.core).job l.h l.off size write [spSram] = some k) :
    s.scalarAccess i slot l size write act = staleStop i.core slot k l.h l.off := by
  simp [State.scalarAccess, sizeOk_of_mem hsize, halign, hfault]

/-- A tile access that passes its checks. -/
theorem State.tileAccess_of_ok {f : Fmt} {form : TileForm} {y : Layout} {act : Layout → OpAct} (hpresent : Present s [f] [])
    (hlayout : s.tileLayout (s.core i.core).job l form = some y) (halign : misaligned f y l.off = false)
    (hstrides : badStrides f y write = false)
    (hfault : s.extentFault (s.core i.core).job l.h (extentOf f y l.off 32 32) write [spSram] = none) :
    s.tileAccess i slot f l form write act = act y := by
  obtain ⟨hfmts, hengines⟩ := hpresent
  simp [State.tileAccess, State.needs, hfmts, hengines, hlayout, halign, hstrides, hfault]

end

theorem exec_stS {s : State} {i : Issue} {a : SReg} {l : Loc} {size : Nat} (h : CanIssue s i { reads := [rS a], mem := [l.h] })
    (hsize : size ∈ [1, 2, 4, 8]) (halign : l.off % size = 0)
    (hfault : s.accessFault (s.core i.core).job l.h l.off size true [spSram] = none) :
    exec (.stS i a l size) s = .next (ended i (((began s i).store (s.core i.core).job l.h l.off
      (le size ((s.core i.core).s a).toNat)).modCore i.core fun c =>
        { c with storeQ := c.storeQ ++ [{ stamp := c.stamp, bundle := c.bundle, wet := (began s i).wetBlocks (s.core i.core).job l.h l.off size,
                                          handle := l.h, off := l.off, part := size ≠ 8,
                                          old := [(l.off, (began s i).load (s.core i.core).job l.h l.off size)] }] })) := by
  refine (State.slotOp_alone_effect (o := opStS i a l size s) h rfl (State.scalarAccess_of_ok hsize halign hfault)
    (Op.place_lt (show slotStore < 6 by decide))).trans ?_
  have hpart : (size != 8) = decide (size ≠ 8) := by by_cases size = 8 <;> simp [*]
  simp only [hpart]

theorem scalarMemory : Claims.ScalarMemory := by
  refine ⟨fun s i d l size signed h hsize halign hfault => ?load, fun s i a l size h hsize => ⟨exec_stS h hsize, fun halign => ?misaligned,
    fun k halign hfault => ?stale⟩⟩
  case load =>
    intro v
    refine (State.slotOp_alone_effect (o := opLdS i d l size signed s) h rfl (State.scalarAccess_of_ok hsize halign hfault)
      (Op.place_lt (show slotLoad < 6 by decide))).trans ?_
    simp only [loadValue_load, onCore, v]
  case misaligned =>
    exact State.slotOp_alone_stop (o := opStS i a l size s) h rfl (State.scalarAccess_of_misaligned hsize halign)
  case stale =>
    exact State.slotOp_alone_stop (o := opStS i a l size s) h rfl (State.scalarAccess_of_stale hsize halign hfault)

theorem tileMemory : Claims.TileMemory := by
  refine ⟨fun s i r f l form y h hpresent hlayout halign hstrides hfault => ?load,
    fun s i r f l form y h hpresent hlayout halign hstrides hfault => ?store, fun s i d a h hpresent => ?move⟩
  case load =>
    exact State.slotOp_alone_effect (o := opLdT i r f l form s) h rfl (State.tileAccess_of_ok hpresent hlayout halign hstrides hfault)
      (Op.place_lt (show slotLoad < 6 by decide))
  case store =>
    exact State.slotOp_alone_effect (o := opStT i r f l form s) h rfl (State.tileAccess_of_ok hpresent hlayout halign hstrides hfault)
      (Op.place_lt (show slotStore < 6 by decide))
  case move =>
    exact State.slotOp_alone_effect (o := opVmov i d a s) h rfl (if_pos hpresent) (Op.place_lt (show slotVector < 6 by decide))

/-! ### Completions -/

theorem memoryCompletions : Claims.MemoryCompletions := by
  refine ⟨fun s n q qs d v hlive hq hop => ?scalar, fun s n q qs r v hlive hq hop => ?tile, fun s n q qs hlive hq => ?fault,
    fun s n q qs hlive hq => ?store⟩
  case scalar =>
    change execLoadDataDelivered n .good s = _
    simp [execLoadDataDelivered, hq, hlive, hop, CoreSt.setS]
  case tile =>
    change execLoadDataDelivered n .good s = _
    simp [execLoadDataDelivered, hq, hlive, hop, CoreSt.setT]
  case fault =>
    intro s' at_
    change execLoadDataDelivered n (.checkBits at_) s = _
    simp [execLoadDataDelivered, hq, hlive, s']
  case store =>
    intro s'
    have hexec : ∀ e, exec (.storeAcknowledged n e) s = .next (if e = .good ∨ !q.part then s'.settle (s.core n).job
        else (s'.each q.old fun u o => u.store (s.core n).job q.handle o.1 o.2).lateFault (s.core n).job q.handle q.off q.wet e n slotStore
          q.bundle) := by
      intro e
      change execStoreAcknowledged n e s = _
      simp only [execStoreAcknowledged, hq, hlive, Bool.not_true, Bool.false_eq_true, if_false, s']
    refine ⟨by rw [hexec]; rfl, fun at_ => ⟨fun hpart => ?_, fun hpart => ?_⟩⟩
    · rw [hexec, if_pos (.inr (by simp [hpart]))]
    · rw [hexec, if_neg (by simp [hpart])]
      rfl

/-- Settles O34: the operations at their issue, and their completions. -/
theorem loadsAndStores : Obligations.LoadsAndStores := ⟨scalarMemory, memoryCompletions, tileMemory⟩

/-! ### Runs of bytes at places of a memory -/

/-- Bytes written one after the other, each at the place of its offset. -/
def setRun (p : Nat → Nat) : Nat → Bytes → Mem → Mem
  | _, [], m => m
  | o, v :: vs, m => setRun p (o + 1) vs (m.set (p o) v)

theorem setRun_wf (p : Nat → Nat) (o : Nat) (d : Bytes) (m : Mem) (h : m.wf = true) : (setRun p o d m).wf = true := by
  induction d generalizing o m with
  | nil => exact h
  | cons v vs ih => exact ih _ _ (Mem.wf_set _ _ _ h)

theorem get_setRun_of_out (p : Nat → Nat) (o : Nat) (d : Bytes) (m : Mem) (b : Nat) (h : m.wf = true)
    (hb : ∀ k, k < d.length → b ≠ p (o + k)) : (setRun p o d m).get b = m.get b := by
  induction d generalizing o m with
  | nil => rfl
  | cons v vs ih =>
    have hrest : ∀ k, k < vs.length → b ≠ p (o + 1 + k) := fun k hk => by
      rw [Nat.add_assoc, Nat.add_comm 1]
      exact hb (k + 1) (by simpa using hk)
    rw [setRun, ih _ _ (Mem.wf_set _ _ _ h) hrest, Mem.get_set _ _ _ _ h, if_neg]
    exact fun hp => hb 0 (by simp) hp.symm

theorem get_setRun_of_in (p : Nat → Nat) (o : Nat) (d : Bytes) (m : Mem) (k : Nat) (h : m.wf = true) (hk : k < d.length)
    (hinj : ∀ i < d.length, ∀ j < d.length, p (o + i) = p (o + j) → i = j) : (setRun p o d m).get (p (o + k)) = d[k] := by
  induction d generalizing o m k with
  | nil => simp at hk
  | cons v vs ih =>
    rw [List.length_cons] at hk hinj
    have hinj' : ∀ i < vs.length, ∀ j < vs.length, p (o + 1 + i) = p (o + 1 + j) → i = j := by
      intro i hi j hj hp
      rw [Nat.add_assoc, Nat.add_assoc] at hp
      have := hinj (1 + i) (by omega) (1 + j) (by omega) hp
      omega
    cases k with
    | zero =>
      have hout : ∀ k, k < vs.length → p (o + 0) ≠ p (o + 1 + k) := fun k hk hp => by
        rw [Nat.add_assoc] at hp
        have := hinj 0 (by omega) (1 + k) (by omega) hp
        omega
      rw [setRun, get_setRun_of_out p _ _ _ _ (Mem.wf_set _ _ _ h) hout, Mem.get_set _ _ _ _ h]
      simp
    | succ k =>
      rw [setRun, show o + (k + 1) = o + 1 + k by omega, ih _ _ k (Mem.wf_set _ _ _ h) (by omega) hinj']
      simp

/-! ### A store to SRAM -/

/-- Two offsets of one block of a handle lie at one place only where they are the same (R295). -/
theorem sramAddr_inj {mode base x y : Nat} (hblock : x / 4096 = y / 4096) (h : sramAddr mode base x = sramAddr mode base y) : x = y := by
  unfold sramAddr at h
  split at h
  · omega
  · rw [hblock] at h; omega

theorem State.place_sram (s : State) {e : Handle} (hspace : e.space = spSram) (base x : Nat) :
    s.place e base x = .sram (sramAddr e.mode base x) := if_pos hspace

theorem State.each_induct {α : Type} {P : State → Prop} {s : State} {xs : List α} {f : State → α → State} (h0 : P s)
    (hstep : ∀ t x, x ∈ xs → P t → P (f t x)) : P (s.each xs f) := by
  unfold State.each
  induction xs generalizing s with
  | nil => exact h0
  | cons x xs ih => exact ih (hstep s x List.mem_cons_self h0) fun t y hy => hstep t y (List.mem_cons_of_mem _ hy)

/-- What a write to SRAM at some places leaves: HBM, the canonical form of SRAM, and every byte elsewhere. -/
def SramOnly (p : Nat → Prop) (s t : State) : Prop :=
  t.sram.wf = true ∧ t.hbm = s.hbm ∧ ∀ b, ¬p b → t.sram.get b = s.sram.get b

/-- The wet copy of a block of SRAM is filled at the places of that block, and no job changes (R102). -/
theorem State.fillWet_sram {s : State} {e : Handle} (hspace : e.space = spSram) (hwf : s.sram.wf = true) (j b : Nat) (k : Blk) :
    SramOnly (fun a => ∃ y, y / 4096 = b ∧ a = sramAddr e.mode (e.wetBase k) y) s (s.fillWet j b e k) ∧ (s.fillWet j b e k).jobs = s.jobs := by
  unfold State.fillWet
  refine State.each_induct (P := fun t => SramOnly _ s t ∧ t.jobs = s.jobs) ⟨⟨hwf, rfl, fun _ _ => rfl⟩, rfl⟩ ?_
  rintro t i hi ⟨⟨htwf, hthbm, hother⟩, hjobs⟩
  have hlt : i < 4096 := List.mem_range.mp hi
  dsimp only
  rw [State.place_sram t hspace]
  refine ⟨⟨Mem.wf_set _ _ _ htwf, hthbm, fun a ha => ?_⟩, hjobs⟩
  have hne : sramAddr e.mode (e.wetBase k) (b * 4096 + i) ≠ a := fun h => ha ⟨_, by omega, h.symm⟩
  exact (Mem.get_set _ _ _ _ htwf).trans (by rw [if_neg hne, hother a ha])

/-- A block that is made ready for a write keeps the copy that each block's writes go to. -/
theorem Job.writeBase_written (x : Job) (h b : Nat) (e : Handle) (off : Nat) :
    ({ x with blks := Tbl.set x.blks (blkKey h b) { x.blk h b with written := true } } : Job).writeBase h e off = x.writeBase h e off := by
  have hrole : (({ x with blks := Tbl.set x.blks (blkKey h b) { x.blk h b with written := true } } : Job).blk h (off / 4096)).roleB =
      (x.blk h (off / 4096)).roleB := by
    simp only [Job.blk, Tbl.get_set]
    split
    · rename_i hkey
      rw [hkey]
    · rfl
  simp only [Job.writeBase, Handle.wetBase, hrole]

/-- A durable block of SRAM made ready for a write. -/
theorem State.openBlock_sram {s : State} {j : Nat} {x : Job} {e : Handle} (hx : s.job j = some x) (hspace : e.space = spSram)
    (hwf : s.sram.wf = true) (h b lo hi : Nat) :
    SramOnly (fun a => (x.blk h b).written = false ∧ ∃ y, y / 4096 = b ∧ a = sramAddr e.mode (e.wetBase (x.blk h b)) y) s
        (s.openBlock j h e b lo hi) ∧
      ∃ x', (s.openBlock j h e b lo hi).job j = some x' ∧ ∀ off, x'.writeBase h e off = x.writeBase h e off := by
  have hopen : s.openBlock j h e b lo hi = if (x.blk h b).written then s else
      (if lo ≤ b * 4096 ∧ b * 4096 + 4096 ≤ hi then s else s.fillWet j b e (x.blk h b)).modJob j fun y =>
        { y with blks := Tbl.set y.blks (blkKey h b) { x.blk h b with written := true } } := by
    simp only [State.openBlock, hx]
  rw [hopen]
  split
  · exact ⟨⟨hwf, rfl, fun _ _ => rfl⟩, x, hx, fun _ => rfl⟩
  · rename_i hwritten
    have hfill : ∀ t : State, SramOnly (fun a => ∃ y, y / 4096 = b ∧ a = sramAddr e.mode (e.wetBase (x.blk h b)) y) s t ∧ t.jobs = s.jobs →
        SramOnly (fun a => (x.blk h b).written = false ∧ ∃ y, y / 4096 = b ∧ a = sramAddr e.mode (e.wetBase (x.blk h b)) y) s
          (t.modJob j fun y => { y with blks := Tbl.set y.blks (blkKey h b) { x.blk h b with written := true } }) ∧
        ∃ x', (t.modJob j fun y => { y with blks := Tbl.set y.blks (blkKey h b) { x.blk h b with written := true } }).job j = some x' ∧
          ∀ off, x'.writeBase h e off = x.writeBase h e off := by
      rintro t ⟨⟨htwf, hthbm, hother⟩, hjobs⟩
      have htx : t.job j = some x := by rw [← hx, State.job, State.job, hjobs]
      rw [State.modJob_some _ _ _ _ htx]
      exact ⟨⟨htwf, hthbm, fun a ha => hother a fun hp => ha ⟨by simpa using hwritten, hp⟩⟩, _, State.job_setJob_self ..,
        Job.writeBase_written x h b e⟩
    split
    · exact hfill s ⟨⟨hwf, rfl, fun _ _ => rfl⟩, rfl⟩
    · exact hfill _ (State.fillWet_sram hspace hwf j b _)

/-- The bytes of a store to SRAM are written one after the other at their places. -/
theorem foldl_writeByte_sram {e : Handle} (hspace : e.space = spSram) (j : Nat) (undo : Bool) (x : Job) (h : Nat) (d : Bytes) (s : State) (o : Nat) :
    (d.foldl (fun (a : State × Nat) v => (a.1.writeByte j undo (a.1.place e (x.writeBase h e a.2) a.2) v, a.2 + 1)) (s, o)).1 =
      { s with sram := setRun (fun y => sramAddr e.mode (x.writeBase h e y) y) o d s.sram } := by
  induction d generalizing s o with
  | nil => rfl
  | cons v vs ih => rw [List.foldl_cons, State.place_sram s hspace, ih]; rfl

theorem fromTo_one (a : Nat) : fromTo a (a + 1) = [a] := by simp [fromTo]

/-- A store to one block of an SRAM handle: the bytes are written at their places, after the block is made ready where it is durable. -/
theorem State.store_sram {s : State} {j : Nat} {x : Job} (hx : s.job j = some x) {h off : Nat} (hspace : (x.handle h).space = spSram)
    (hwf : s.sram.wf = true) {d : Bytes} (hd : 0 < d.length) (hblock : (off + d.length - 1) / 4096 = off / 4096) :
    ∃ t : State, SramOnly (fun a => (x.handle h).durable = true ∧ (x.blk h (off / 4096)).written = false ∧
        ∃ y, y / 4096 = off / 4096 ∧ a = sramAddr (x.handle h).mode (x.writeBase h (x.handle h) y) y) s t ∧
      s.store j h off d = { t with sram := setRun (fun y => sramAddr (x.handle h).mode (x.writeBase h (x.handle h) y) y) off d t.sram } := by
  by_cases hdurable : (x.handle h).durable = true
  · obtain ⟨⟨htwf, hthbm, hother⟩, x', hx', hbase⟩ := State.openBlock_sram hx hspace hwf h (off / 4096) off (off + d.length)
    refine ⟨_, ⟨htwf, hthbm, fun a ha => hother a fun ⟨hwritten, y, hy, hay⟩ => ha ⟨hdurable, hwritten, y, hy, ?_⟩⟩, ?_⟩
    · rw [Job.writeBase, if_pos hdurable, hy]; exact hay
    · simp only [State.store, hx, hdurable, hd, and_self, if_true, hblock, fromTo_one, State.each, List.foldl_cons, List.foldl_nil, hx',
        foldl_writeByte_sram hspace, hbase]
  · refine ⟨s, ⟨hwf, rfl, fun _ _ => rfl⟩, ?_⟩
    simp only [State.store, hx, hdurable, Bool.false_eq_true, false_and, if_false, foldl_writeByte_sram hspace]

/-- An access that passes its checks goes to one of the spaces that it may use. -/
theorem State.space_of_accessFault {s : State} {j h off n : Nat} {write : Bool} {spaces : List Nat} {x : Job} (hx : s.job j = some x)
    (hfault : s.accessFault j h off n write spaces = none) : (x.handle h).space ∈ spaces := by
  by_contra hnot
  have hspace : spaces.contains (x.handle h).space = false := by simpa using hnot
  simp only [State.accessFault, hx, hspace, Bool.not_false, if_true] at hfault
  split_ifs at hfault

/-- An aligned access of at most eight bytes lies within one block of 4 KiB. -/
theorem aligned_in_block {size off : Nat} (hsize : size ∈ [1, 2, 4, 8]) (halign : off % size = 0) {k : Nat} (hk : k < size) :
    (off + k) / 4096 = off / 4096 := by
  simp only [List.mem_cons, List.not_mem_nil, or_false] at hsize
  rcases hsize with rfl | rfl | rfl | rfl <;> omega

/-- The end of a bundle changes no byte. -/
theorem bytes_ended (i : Issue) (t : State) : (ended i t).sram = t.sram ∧ (ended i t).hbm = t.hbm := by
  have h : ((ended i t).sram, (ended i t).hbm, (ended i t).eeprom) = (t.sram, t.hbm, t.eeprom) := State.endBundle_mems ..
  injection h with hsram hrest
  injection hrest with hhbm _
  exact ⟨hsram, hhbm⟩

/-- Settles O7: the bytes of the register are written one after the other at their places, after the block is made ready. -/
theorem storeBytes : Obligations.StoreBytes := by
  intro s i a l size x hinv h hsize halign hx hfault e place
  obtain ⟨⟨hwf, -⟩, -⟩ : (s.sram.wf = true ∧ s.hbm.wf = true) ∧ s.eeprom.wf = true := by
    simpa only [State.Inv, State.memWf, Bool.and_eq_true] using hinv
  have hspace : e.space = spSram := by simpa using State.space_of_accessFault hx hfault
  have hpos : 0 < size := by
    simp only [List.mem_cons, List.not_mem_nil, or_false] at hsize
    omega
  set d := le size ((s.core i.core).s a).toNat with hd
  have hlen : d.length = size := length_le ..
  have hin : ∀ k, k < size → (l.off + k) / 4096 = l.off / 4096 := fun k => aligned_in_block hsize halign
  obtain ⟨t, ⟨htwf, hthbm, hother⟩, hstore⟩ := State.store_sram (s := began s i) (j := (s.core i.core).job) (h := l.h) (off := l.off) (d := d)
    hx hspace hwf (by omega) (by rw [hlen, Nat.add_sub_assoc hpos]; exact hin _ (by omega))
  have hplace : ∀ y, y / 4096 = l.off / 4096 → sramAddr e.mode (x.writeBase l.h e y) y = place y := by
    intro y hy
    simp only [place, Job.writeBase, hy]
  refine ⟨_, exec_stS h hsize halign hfault, ?_⟩
  obtain ⟨hsram, hhbm⟩ := bytes_ended i (((began s i).store (s.core i.core).job l.h l.off d).modCore i.core _)
  rw [hsram, hhbm]
  change (∀ k, k < size → ((began s i).store (s.core i.core).job l.h l.off d).sram.get _ = _) ∧
    (_ → ∀ b, _ → ((began s i).store (s.core i.core).job l.h l.off d).sram.get b = _) ∧
    (∀ b, _ → ((began s i).store (s.core i.core).job l.h l.off d).sram.get b = _) ∧
    ((began s i).store (s.core i.core).job l.h l.off d).hbm = _
  rw [hstore]
  refine ⟨fun k hk => ?stored, fun hquiet b hb => ?kept, fun b hb => ?outside, hthbm⟩
  case stored =>
    rw [← hplace _ (hin k hk), get_setRun_of_in _ _ _ _ k htwf (by omega) fun m hm n hn hmn => ?_]
    · exact getElem_le ..
    rw [hplace _ (hin m (by omega)), hplace _ (hin n (by omega))] at hmn
    have := sramAddr_inj ((hin m (by omega)).trans (hin n (by omega)).symm) hmn
    omega
  case kept =>
    have hnot : ∀ y, ¬(e.durable = true ∧ (x.blk l.h (l.off / 4096)).written = false ∧ y) := by
      rintro y ⟨hdurable, hwritten, -⟩
      rcases hquiet with hq | hq
      · cases hdurable.symm.trans hq
      · cases hwritten.symm.trans hq
    refine (get_setRun_of_out _ _ _ _ b htwf fun k hk => ?_).trans (hother b (hnot _))
    rw [hplace _ (hin k (by omega))]
    exact hb k (by omega)
  case outside =>
    refine (get_setRun_of_out _ _ _ _ b htwf fun k hk => ?_).trans (hother b ?_)
    · rw [hplace _ (hin k (by omega))]
      exact hb _ (hin k (by omega))
    · rintro ⟨-, -, y, hy, hby⟩
      exact hb y hy (hby.trans (hplace y hy))

end Sys2Proof.Machine
end

section
/-! The vector engine (R125, R243, R260, R269, R274 to R287): the issue of an operation once for each of its forms, the result of each
operation, masks, reductions and the write of a result. -/

namespace Sys2Proof.Machine
open Sys2Proof.Claims

/-! ### The forms of a vector operation -/

section
variable {s : State} {i : Issue} {c : Instr} {v : VDst} {xs : List VSrc} {more : List Nat} {fmts : List Fmt} {illegal : Bool}
  {detail : Option Nat} {go : State → State}

/-- A vector operation that passes its checks. -/
theorem slotOp_vecOp (h : VectorIssue s i v xs more fmts)
    (ho : opOf s (s.afterDrains i.core [c]) c = some (s.vecOp i v xs more fmts illegal detail go)) (hillegal : illegal = false)
    (hdetail : detail = none) : s.slotOp i c = .next (ended i (go (began s i))) := by
  obtain ⟨hissue, htile, halt, hfmts, hengines⟩ := h
  refine State.slotOp_alone_effect hissue ho ?_ (Op.place_lt (show slotVector < 6 by decide))
  simp [State.vecOp, hillegal, hdetail, htile, halt, State.needs, hfmts, hengines, vecDetail]

variable {ok : Fmt → Bool}

/-- An element-wise operation on floats: each element is the rounded result on its operands. -/
theorem slotOp_vecArith_float {ff : List FVal → FRes} {fi : List Nat → Nat × Hist} {ys : Nat → List FVal} {r : Nat → FRes}
    (h : VectorIssue s i v xs [] [v.fmt]) (hfloat : fmtClass v.fmt = .float)
    (ho : opOf s (s.afterDrains i.core [c]) c = some (s.vecArith i v xs ok ff fi)) (hok : ok v.fmt = true)
    (hys : ∀ e, (xs.map fun x => floatOf s i v.fmt x e) = ys e) (hr : ∀ e, ff (ys e) = r e) :
    s.slotOp i c = .next (vector s i v fun e => floatElem v.fmt (ys e) (r e).v (r e).invalid (r e).ovf) := by
  refine (slotOp_vecOp h ho rfl (if_pos hok)).trans ?_
  have hys' : ∀ e, ((xs.map fun x => (s.core i.core).elem v.fmt x e).map (fSpec v.fmt).decode) = ys e := by
    intro e
    rw [List.map_map]
    exact hys e
  simp only [vector, hfloat, if_true, hys', hr]

/-- An element-wise operation on integers: each element is the result on the fields of its operands. -/
theorem slotOp_vecArith_int {ff : List FVal → FRes} {fi : List Nat → Nat × Hist} {r : Nat → Nat × Hist}
    (h : VectorIssue s i v xs [] [v.fmt]) (hint : fmtClass v.fmt = .int)
    (ho : opOf s (s.afterDrains i.core [c]) c = some (s.vecArith i v xs ok ff fi)) (hok : ok v.fmt = true)
    (hr : ∀ e, fi (xs.map fun x => (s.core i.core).elem v.fmt x e) = r e) : s.slotOp i c = .next (vector s i v r) := by
  refine (slotOp_vecOp h ho rfl (if_pos hok)).trans ?_
  simp only [vector, hint, reduceCtorEq, if_false, hr]

/-- The same for an operation on the values of integers. -/
theorem slotOp_vecNum_int {ff : List FVal → FRes} {fi : List Int → Int} {r : Nat → Int} (h : VectorIssue s i v xs [] [v.fmt])
    (hint : fmtClass v.fmt = .int) (ho : opOf s (s.afterDrains i.core [c]) c = some (s.vecNum i v xs ok ff fi)) (hok : ok v.fmt = true)
    (hr : ∀ e, fi (xs.map fun x => intOf s i v.fmt x e) = r e) :
    s.slotOp i c = .next (vector s i v fun e => intElem v.fmt (r e)) := by
  refine slotOp_vecArith_int h hint ho hok fun e => ?_
  rw [List.map_map, ← hr]
  rfl

/-- An operation on the fields of integers. -/
theorem slotOp_vecBits {f : Nat → Nat → Nat → Nat} {r : Nat → Nat} (h : VectorIssue s i v xs [] [v.fmt]) (hint : fmtClass v.fmt = .int)
    (ho : opOf s (s.afterDrains i.core [c]) c = some (s.vecBits i v xs f))
    (hr : ∀ e, f (fmtWidth v.fmt) ((xs.map fun x => (s.core i.core).elem v.fmt x e).getD 0 0)
      ((xs.map fun x => (s.core i.core).elem v.fmt x e).getD 1 0) = r e) :
    s.slotOp i c = .next (vector s i v fun e => (r e % 2 ^ fmtWidth v.fmt, {})) :=
  slotOp_vecArith_int h hint ho (by simp [isInt, hint]) fun e => by rw [hr]

/-- A modular operation whose selectors name primes of the family. -/
theorem slotOp_vecMod {qs : List PSel} {ops : Nat} {f : List Nat → List Nat → Nat} {fam : Family} {r : Nat → Nat}
    (h : VectorIssue s i v xs (qs.flatMap selRegs) [v.fmt]) (hfam : fmtFamily v.fmt = some fam)
    (hprimes : qs.all ((s.core i.core).primesOk fam) = true)
    (ho : opOf s (s.afterDrains i.core [c]) c = some (s.vecMod i v xs qs ops f))
    (hr : ∀ e, f (qs.map fun q => (s.core i.core).primeAt v.fmt (some q) e)
      (xs.map fun x => (s.core i.core).elem v.fmt x e % (qs.map fun q => (s.core i.core).primeAt v.fmt (some q) e).headD 1) = r e) :
    s.slotOp i c = .next (ended i (((began s i).work i.core 10 (1024 * ops)).vecTile i.core (s.core i.core) v fun e => (r e, {}))) := by
  refine (slotOp_vecOp h ho rfl (by simp only [hfam, hprimes, if_true])).trans ?_
  simp only [hr]

/-- A vector operation on operands of two formats. -/
theorem slotOp_vecOp_mismatch {g : Fmt}
    (h : CanIssue s i { reads := xs.flatMap srcRegs ++ maskRegs v.mask ++ more, writes := vdstWrites v })
    (ho : opOf s (s.afterDrains i.core [c]) c = some (s.vecOp i v xs more fmts illegal detail go)) (hillegal : illegal = false)
    (hdetail : detail = none) (htile : xs.head?.any srcIsTile = true) (hpresent : Present s (fmts ++ [g]) [engVector])
    (halt : v.alt = some g) (hg : g ≠ v.fmt) : s.slotOp i c = .next (s.opFault i.core slotVector opMismatch) := by
  obtain ⟨hfmts, hengines⟩ := hpresent
  refine State.slotOp_alone_stop (f := fun s => s.opFault i.core slotVector opMismatch) (r := 4) h ho ?_
  simp [State.vecOp, hillegal, hdetail, htile, halt, State.needs, hfmts, hengines, vecDetail, hg, argStop]

end

/-! ### Float formats -/

theorem isArith_of_float {f : Fmt} (h : fmtClass f = .float) : isArith f = true := by simp [isArith, isFloat, h]
theorem isArith_of_int {f : Fmt} (h : fmtClass f = .int) : isArith f = true := by simp [isArith, isInt, h]

/-- Settles O8: each operation's result on the exact values of its operands, rounded once. -/
theorem vectorFloat : Obligations.VectorFloat := by
  intro s i v a b c hfloat x y z two one three
  have harith : isArith v.fmt = true := isArith_of_float hfloat
  have hisFloat : isFloat v.fmt = true := by simp [isFloat, hfloat]
  have hsigned : (isFloat v.fmt || isSigned v.fmt) = true := by simp [hisFloat]
  refine ⟨fun h => ?two, fun h => ?three, fun h => ?one, fun g hg halt h htile hpresent => ?mismatch⟩
  case two =>
    have op : ∀ (c : Instr) (ff : List FVal → FRes) (fi : List Int → Int) (r : Nat → FRes),
        opOf s (s.afterDrains i.core [c]) c = some (s.vecNum i v [a, b] isArith ff fi) → (∀ e, ff [x e, y e] = r e) →
        s.slotOp i c = two r := fun _ _ _ _ ho hr => slotOp_vecArith_float h hfloat ho harith (fun _ => rfl) hr
    exact ⟨op _ _ _ _ rfl fun _ => rfl, op _ _ _ _ rfl fun _ => rfl, op _ _ _ _ rfl fun _ => rfl, op _ _ _ _ rfl fun _ => rfl,
      op _ _ _ _ rfl fun _ => rfl, op _ _ _ _ rfl fun _ => rfl, op _ _ _ _ rfl fun _ => rfl, op _ _ _ _ rfl fun _ => rfl⟩
  case three =>
    have op : ∀ (c' : Instr) (ff : List FVal → FRes) (fi : List Int → Int) (r : Nat → FRes),
        opOf s (s.afterDrains i.core [c']) c' = some (s.vecNum i v [a, b, c] isArith ff fi) → (∀ e, ff [x e, y e, z e] = r e) →
        s.slotOp i c' = three r := fun _ _ _ _ ho hr => slotOp_vecArith_float h hfloat ho harith (fun _ => rfl) hr
    exact ⟨op _ _ _ _ rfl fun _ => rfl, op _ _ _ _ rfl fun _ => rfl⟩
  case one =>
    have op : ∀ (c : Instr) (ok : Fmt → Bool) (ff : List FVal → FRes) (fi : List Int → Int) (r : Nat → FRes),
        opOf s (s.afterDrains i.core [c]) c = some (s.vecNum i v [a] ok ff fi) → ok v.fmt = true → (∀ e, ff [x e] = r e) →
        s.slotOp i c = one r := fun _ _ _ _ _ ho hok hr => slotOp_vecArith_float h hfloat ho hok (fun _ => rfl) hr
    exact ⟨op _ _ _ _ _ rfl hsigned fun _ => rfl, op _ _ _ _ _ rfl hsigned fun _ => rfl, op _ _ _ _ _ rfl hisFloat fun _ => rfl,
      op _ _ _ _ _ rfl hisFloat fun _ => rfl, op _ _ _ _ _ rfl hisFloat fun _ => rfl⟩
  case mismatch =>
    exact slotOp_vecOp_mismatch (c := .vectorAdd i v a b) (by simpa using h) rfl rfl (if_pos harith) (by simpa using htile) hpresent halt hg

/-- Settles O9: the checks of ACT and of VCVT, and the function or the conversion of each element. -/
theorem vectorActConvert : Obligations.VectorActConvert := by
  refine ⟨fun s i v a f h hfloat => ?act, fun s i v a df q q2 sigma m z h hne hmiss hmiss2 hsel hsel2 hscale => ?vcvt⟩
  case act =>
    intro p hknown hclamp
    have hclamp' : badClamp f ((s.core i.core).actPar f) true = false := hclamp
    refine (slotOp_vecOp (c := .act i v a f) h rfl rfl (by simp [isFloat, hfloat, hknown, hclamp'])).trans ?_
    simp only [vector, floatOf, p]
  case vcvt =>
    have hsigma : (scaled v.fmt df && sigma.isNone) = false ∧
        (scaled v.fmt df && (sigma.bind fun r => scaleOf ((s.core i.core).s r)).isNone) = false ∧
        (sigma.bind fun r => scaleOf ((s.core i.core).s r)).getD (1, 0) = (m, z) := by
      split at hscale
      · rename_i hscaled
        refine ⟨?_, by simp [hscale], by simp [hscale]⟩
        cases sigma <;> simp_all
      · rename_i hscaled
        obtain ⟨rfl, rfl, rfl⟩ := hscale
        simp [hscaled]
    obtain ⟨hnone, hbad, hget⟩ := hsigma
    refine (slotOp_vecOp (c := .vcvt i v a df q q2 sigma) h rfl (by simp [hmiss, hmiss2, hnone]) (by simp [hne, hsel, hsel2, hbad])).trans ?_
    rw [hget]

/-! ### Integer formats -/

theorem vectorInteger : Claims.VectorInteger := by
  intro s i v a b c hint x y z gives
  have harith : isArith v.fmt = true := isArith_of_int hint
  refine ⟨fun h => ?two, fun h => ?three, fun h hu8 => ?one⟩
  case two =>
    have op : ∀ (c : Instr) (ff : List FVal → FRes) (fi : List Int → Int) (r : Nat → Int),
        opOf s (s.afterDrains i.core [c]) c = some (s.vecNum i v [a, b] isArith ff fi) → (∀ e, fi [x e, y e] = r e) →
        s.slotOp i c = gives r := fun _ _ _ _ ho hr => slotOp_vecNum_int h hint ho harith hr
    exact ⟨op _ _ _ _ rfl fun _ => rfl, op _ _ _ _ rfl fun _ => rfl, op _ _ _ _ rfl fun _ => rfl, op _ _ _ _ rfl fun _ => rfl,
      op _ _ _ _ rfl fun _ => rfl, op _ _ _ _ rfl fun _ => rfl, op _ _ _ _ rfl fun _ => rfl, op _ _ _ _ rfl fun _ => rfl⟩
  case three =>
    have op : ∀ (c' : Instr) (ff : List FVal → FRes) (fi : List Int → Int) (r : Nat → Int),
        opOf s (s.afterDrains i.core [c']) c' = some (s.vecNum i v [a, b, c] isArith ff fi) → (∀ e, fi [x e, y e, z e] = r e) →
        s.slotOp i c' = gives r := fun _ _ _ _ ho hr => slotOp_vecNum_int h hint ho harith hr
    exact ⟨op _ _ _ _ rfl fun _ => rfl, op _ _ _ _ rfl fun _ => rfl⟩
  case one =>
    have hsigned : (isFloat v.fmt || isSigned v.fmt) = true := by simp [isSigned, isInt, hint, hu8]
    have op : ∀ (c : Instr) (ff : List FVal → FRes) (fi : List Int → Int) (r : Nat → Int),
        opOf s (s.afterDrains i.core [c]) c = some (s.vecNum i v [a] (fun f => isFloat f || isSigned f) ff fi) → (∀ e, fi [x e] = r e) →
        s.slotOp i c = gives r := fun _ _ _ _ ho hr => slotOp_vecNum_int h hint ho hsigned hr
    exact ⟨op _ _ _ _ rfl fun _ => rfl, op _ _ _ _ rfl fun _ => rfl⟩

theorem vectorBits : Claims.VectorBits := by
  intro s i v a b hint w x y gives
  refine ⟨fun h => ?_, fun h => slotOp_vecBits (c := .not i v a) h hint rfl fun _ => rfl⟩
  have op : ∀ (c : Instr) (f : Nat → Nat → Nat → Nat) (r : Nat → Nat), opOf s (s.afterDrains i.core [c]) c = some (s.vecBits i v [a, b] f) →
      (∀ e, f w (x e) (y e) = r e) → s.slotOp i c = gives r := fun _ _ _ ho hr => slotOp_vecBits h hint ho hr
  exact ⟨op _ _ _ rfl fun _ => rfl, op _ _ _ rfl fun _ => rfl, op _ _ _ rfl fun _ => rfl, op _ _ _ rfl fun _ => (Nat.shiftLeft_eq ..).symm,
    op _ _ _ rfl fun _ => (Nat.shiftRight_eq_div_pow ..).symm, op _ _ _ rfl fun _ => rfl⟩

/-! ### Residues -/

theorem vectorModular : Claims.VectorModular := by
  intro s i v a b c q q2 fam hfam hprimes p x y z gives gives2
  have hall : [q].all ((s.core i.core).primesOk fam) = true := by simpa using hprimes
  have hregs : [q].flatMap selRegs = selRegs q := by simp
  refine ⟨fun h => ?two, fun h => ?one, fun h => ?three, fun h hprimes2 => ?centre⟩
  case two =>
    rw [← hregs] at h
    have op : ∀ (c : Instr) (f : List Nat → List Nat → Nat) (r : Nat → Nat),
        opOf s (s.afterDrains i.core [c]) c = some (s.vecMod i v [a, b] [q] 1 f) → (∀ e, f [p e] [x e, y e] = r e) →
        s.slotOp i c = gives r := fun _ _ _ ho hr => slotOp_vecMod (ops := 1) h hfam hall ho hr
    exact ⟨op _ _ _ rfl fun _ => rfl, op _ _ _ rfl fun _ => rfl, op _ _ _ rfl fun _ => rfl⟩
  case one =>
    rw [← hregs] at h
    exact slotOp_vecMod (c := .mneg i v a q) (ops := 1) h hfam hall rfl fun _ => rfl
  case three =>
    rw [← hregs] at h
    have op : ∀ (c' : Instr) (f : List Nat → List Nat → Nat) (r : Nat → Nat),
        opOf s (s.afterDrains i.core [c']) c' = some (s.vecMod i v [a, b, c] [q] 2 f) → (∀ e, f [p e] [x e, y e, z e] = r e) →
        s.slotOp i c' = gives2 r := fun _ _ _ ho hr => slotOp_vecMod (ops := 2) h hfam hall ho hr
    exact ⟨op _ _ _ rfl fun _ => rfl, op _ _ _ rfl fun _ => rfl⟩
  case centre =>
    have hregs2 : [q, q2].flatMap selRegs = selRegs q ++ selRegs q2 := by simp
    rw [← hregs2] at h
    exact slotOp_vecMod (c := .mcentre i v a q q2) (ops := 1) h hfam (by simp [hprimes, hprimes2]) rfl fun _ => rfl

/-- Settles O35: each operation's result on the values or the fields of its operands. -/
theorem vectorExact : Obligations.VectorExact := ⟨vectorInteger, vectorBits, vectorModular⟩

/-! ### Masks and results -/

theorem tileAt_map {f : Nat → BitVec 36} {e : Nat} (he : e < 1024) : tileAt ((List.range 1024).map f) e = f e := by
  simp [tileAt, List.getD, he]

theorem getD_map_range {α : Type} {n e : Nat} (f : Nat → α) (d : α) (he : e < n) : ((List.range n).map f).getD e d = f e := by
  simp [List.getD, he]

/-- What each element of an operation comes to: its result, or nothing where it is masked. -/
def maskedOut (c : CoreSt) (v : VDst) (f : Nat → Nat × Hist) : List (Nat × Hist) :=
  (List.range 1024).map fun i => if c.on v.mask i then f i else (0, {})

/-- The tile that an operation puts in flight. -/
def maskedTile (c : CoreSt) (v : VDst) (f : Nat → Nat × Hist) : Tile :=
  (List.range 1024).map fun i =>
    if c.on v.mask i then BitVec.ofNat 36 ((maskedOut c v f).getD i (0, {})).1
    else if maskZeroes v.mask then 0 else tileAt (c.t v.d) i

theorem State.vecTile_eq (s : State) (n : Nat) (c : CoreSt) (v : VDst) (f : Nat → Nat × Hist) :
    s.vecTile n c v f = s.vecResult n v (maskedTile c v f) (statusWord false ((maskedOut c v f).map Prod.snd)) := rfl

/-- An element of a result under the masks (R284). -/
theorem tileAt_maskedTile (c : CoreSt) (v : VDst) (f : Nat → Nat × Hist) {e : Nat} (he : e < 1024) : tileAt (maskedTile c v f) e =
    if c.on v.mask e then BitVec.ofNat 36 (f e).1 else if maskZeroes v.mask then 0 else tileAt (c.t v.d) e := by
  rw [maskedTile, tileAt_map he, maskedOut, getD_map_range _ _ he]
  split <;> rfl

/-- The result that a vector operation puts in flight. -/
def vecResultOf (c : CoreSt) (v : VDst) (t : Tile) (w : Word) : VecQ :=
  { stamp := c.stamp, d := v.d, v := t, status := v.status, word := w, bundle := c.bundle }

theorem vecResultOf_v (c : CoreSt) (v : VDst) (t : Tile) (w : Word) : (vecResultOf c v t w).v = t := rfl

theorem State.vecQ_vecResult (s : State) (n : Nat) (v : VDst) (t : Tile) (w : Word) :
    ((s.vecResult n v t w).core n).vecQ = (s.core n).vecQ ++ [vecResultOf (s.core n) v t w] := by
  rw [State.vecResult, State.core_modCore_self]
  rfl

theorem vectorMasks : Claims.VectorMasks := by
  intro s i v a b h hint
  have hexec : exec (.vectorAdd i v a b) s =
      .next (vector s i v fun e => intElem v.fmt (intOf s i v.fmt a e + intOf s i v.fmt b e)) :=
    slotOp_vecNum_int (c := .vectorAdd i v a b) h hint rfl (isArith_of_int hint) fun _ => rfl
  rw [vector, State.vecTile_eq] at hexec
  have hbegan : ((began s i).core i.core).vecQ = (s.core i.core).vecQ := by simp [began]
  exact ⟨_, _, hexec, (State.vecQ_vecResult ..).trans (by rw [hbegan]), rfl, rfl, fun e he => by
    rw [vecResultOf_v, tileAt_maskedTile _ _ _ he]⟩

@[simp] theorem State.core_work (s : State) (n i k m : Nat) : (s.work n i k).core m = s.core m := by
  unfold State.work State.bump
  (repeat' split) <;> rfl

theorem CoreSt.noteStatus_regs (c : CoreSt) (stamp unit bundle : Nat) (w : Word) :
    (c.noteStatus stamp unit bundle w).sreg = c.sreg ∧ (c.noteStatus stamp unit bundle w).treg = c.treg := by
  unfold CoreSt.noteStatus
  split <;> exact ⟨rfl, rfl⟩

theorem vectorResult : Claims.VectorResult := by
  intro s n x xs hlive hq
  have hexec : exec (.vectorResultWritten n .good) s = .next ((s.setCore n
      { ((((s.core n).setT x.d x.v).writeStatus x.status x.word).noteStatus x.stamp 2 x.bundle x.word) with vecQ := xs }).work n 7
        (b2n (affectedOf x.word != 0) 1)) := by
    change execVectorResultWritten n .good s = _
    simp only [execVectorResultWritten, hq, hlive, Bool.not_true, Bool.false_eq_true, if_false, State.engineCheck, checkOf]
  refine ⟨_, hexec, ?_⟩
  rw [State.core_work, State.core_setCore_self]
  obtain ⟨hsreg, htreg⟩ := CoreSt.noteStatus_regs (((s.core n).setT x.d x.v).writeStatus x.status x.word) x.stamp 2 x.bundle x.word
  have hs : ∀ r : SReg, Tbl.get 0 ((((s.core n).setT x.d x.v).writeStatus x.status x.word).noteStatus x.stamp 2 x.bundle x.word).sreg r.toNat =
      (((s.core n).setT x.d x.v).writeStatus x.status x.word).s r := fun r => by rw [hsreg]; rfl
  have ht : ∀ r : TReg, Tbl.get [] ((((s.core n).setT x.d x.v).writeStatus x.status x.word).noteStatus x.stamp 2 x.bundle x.word).treg r.toNat =
      if r = x.d then x.v else (s.core n).t r := fun r => by
    have hw : (((s.core n).setT x.d x.v).writeStatus x.status x.word).treg = Tbl.set (s.core n).treg x.d.toNat x.v := by
      cases x.status <;> rfl
    rw [htreg, hw, Tbl.get_set]
    simp only [BitVec.toNat_inj, eq_comm (a := x.d)]
    rfl
  refine ⟨rfl, (ht _).trans (if_pos rfl), fun r hr => (ht r).trans (if_neg hr), fun r hr => (hs r).trans ?written, fun r hr => (hs r).trans ?kept⟩
  case written =>
    rw [hr]
    exact (CoreSt.s_sreg_set ((s.core n).setT x.d x.v) r r x.word).trans (if_pos rfl)
  case kept =>
    cases hstatus : x.status with
    | none => rfl
    | some d =>
      refine (CoreSt.s_sreg_set ((s.core n).setT x.d x.v) d r x.word).trans (if_neg fun h => hr ?_)
      rw [hstatus, h]

/-- Settles O36: the masks of a result, and its write. -/
theorem vectorWrites : Obligations.VectorWrites := ⟨vectorMasks, vectorResult⟩

/-! ### Reductions (R283, R284) -/

/-- The enabled elements of a line, in order. -/
def onLine (c : CoreSt) (v : VDst) (col : Bool) (l : Nat) : List Nat := ((List.range 32).map (lineElem col l)).filter (c.on v.mask)

/-- The line of an element, and whether it is the first of it. -/
def lineAt (col : Bool) (e : Nat) : Nat := if col then colOf e else rowOf e
def lineHead (col : Bool) (e : Nat) : Bool := if col then rowOf e == 0 else colOf e == 0

/-- A line's result is written to its first element, where some element of the line is enabled. -/
def redWritten (c : CoreSt) (v : VDst) (col : Bool) (e : Nat) : Bool :=
  lineHead col e && (List.range 32).any fun p => c.on v.mask (lineElem col (lineAt col e) p)

/-- The tile that a reduction puts in flight. -/
def redTile (c : CoreSt) (v : VDst) (col : Bool) (line : Nat → Nat × Hist) : Tile :=
  (List.range 1024).map fun e =>
    if redWritten c v col e then
      BitVec.ofNat 36 (((List.range 1024).map fun e => if redWritten c v col e then line (lineAt col e) else (0, {})).getD e (0, {})).1
    else if maskZeroes v.mask then 0 else tileAt (c.t v.d) e

theorem redWritten_iff (c : CoreSt) (v : VDst) (col : Bool) (e : Nat) :
    redWritten c v col e = true ↔ lineHead col e = true ∧ onLine c v col (lineAt col e) ≠ [] := by
  simp [redWritten, onLine, List.filter_eq_nil_iff]

theorem tileAt_redTile (c : CoreSt) (v : VDst) (col : Bool) (line : Nat → Nat × Hist) {e : Nat} (he : e < 1024) :
    tileAt (redTile c v col line) e =
      if lineHead col e = true ∧ onLine c v col (lineAt col e) ≠ [] then BitVec.ofNat 36 (line (lineAt col e)).1
      else if maskZeroes v.mask then 0 else tileAt (c.t v.d) e := by
  rw [redTile, tileAt_map he, getD_map_range _ _ he]
  simp only [← redWritten_iff]
  split <;> rfl

section
variable {s : State} {i : Issue} {v : VDst} {a : VSrc} {df : Fmt} {kind : Nat} {col : Bool} {q : Option PSel}

/-- The elements of a line as a reduction meets them: nothing for a masked one. -/
def lineFields (c : CoreSt) (v : VDst) (a : VSrc) (col : Bool) (l : Nat) : List (Option Nat) :=
  (List.range 32).map fun p => if c.on v.mask (lineElem col l p) then some (c.elem v.fmt a (lineElem col l p)) else none

/-- What a reduction of integers or residues makes of a line. -/
def redLine (c : CoreSt) (v : VDst) (a : VSrc) (df : Fmt) (kind : Nat) (col : Bool) (q : Option PSel) (l : Nat) : Nat × Hist :=
  match fmtClass v.fmt with
  | .float => redFloat df kind ((lineFields c v a col l).map fun x => x.map (fSpec v.fmt).decode)
  | .int => redInt df kind ((lineFields c v a col l).map fun x => x.map (intRead v.fmt))
  | .residue => ((lineFields c v a col l).foldl (fun t x => (t + x.getD 0) % c.primeAt v.fmt q (lineElem col l 0)) 0, {})

/-- A reduction that passes its checks. -/
theorem exec_vred (h : VectorIssue s i v [a] (if kind = redMsum then (q.map selRegs).getD [] else []) [v.fmt, df])
    (hillegal : (decide (3 < kind) || (kind == redMsum && q.isNone)) = false)
    (hdetail : redDetail (s.core i.core) v df kind col q = none) :
    ∃ w, exec (.vred i v a df kind col q) s =
      .next (ended i ((began s i).vecResult i.core v (redTile (s.core i.core) v col (redLine (s.core i.core) v a df kind col q)) w)) :=
  ⟨_, slotOp_vecOp (c := .vred i v a df kind col q) h rfl hillegal hdetail⟩

end

/-- The elements that a reduction takes are the enabled ones of the line. -/
theorem filterMap_enabled {α : Type} (ps : List Nat) (at_ : Nat → Nat) (on : Nat → Bool) (f : Nat → α) :
    (ps.map fun p => if on (at_ p) then some (f (at_ p)) else none).filterMap id = ((ps.map at_).filter on).map f := by
  induction ps with
  | nil => rfl
  | cons p ps ih =>
    rw [List.map_cons, List.map_cons, List.filterMap_cons, List.filter_cons, ih]
    cases on (at_ p) <;> rfl

/-- A sum reduced at each step is the sum reduced once. -/
theorem foldl_addMod (p : Nat) (xs : List (Option Nat)) (t : Nat) :
    xs.foldl (fun t x => (t + x.getD 0) % p) (t % p) = (t + (xs.filterMap id).sum) % p := by
  induction xs generalizing t with
  | nil => simp
  | cons x xs ih =>
    rw [List.foldl_cons, Nat.mod_add_mod, ih]
    cases x <;> simp [Nat.add_assoc]

theorem redLine_int {c : CoreSt} {v : VDst} (hint : fmtClass v.fmt = .int) (a : VSrc) (df : Fmt) (col : Bool) (q : Option PSel) (l : Nat) :
    redLine c v a df redSum col q l = intElem df ((onLine c v col l).map fun e => intRead v.fmt (c.elem v.fmt a e)).sum := by
  have hline : ((lineFields c v a col l).map fun x => x.map (intRead v.fmt)).filterMap id =
      (onLine c v col l).map fun e => intRead v.fmt (c.elem v.fmt a e) := by
    rw [onLine, ← filterMap_enabled, lineFields, List.map_map]
    congr 2
    funext p
    simp only [Function.comp]
    split <;> rfl
  simp only [redLine, hint, redInt, hline, if_true, List.sum_eq_foldl]

theorem redLine_residue {c : CoreSt} {v : VDst} (hres : fmtClass v.fmt = .residue) (a : VSrc) (df : Fmt) (kind : Nat) (col : Bool)
    (q : Option PSel) (l : Nat) : (redLine c v a df kind col q l).1 =
      ((onLine c v col l).map fun e => c.elem v.fmt a e).sum % c.primeAt v.fmt q (lineElem col l 0) := by
  have hline : (lineFields c v a col l).filterMap id = (onLine c v col l).map fun e => c.elem v.fmt a e :=
    filterMap_enabled _ (lineElem col l) (c.on v.mask) (c.elem v.fmt a)
  have hfold := foldl_addMod (c.primeAt v.fmt q (lineElem col l 0)) (lineFields c v a col l) 0
  rw [Nat.zero_mod, Nat.zero_add, hline] at hfold
  simp only [redLine, hres, hfold]

/-- Settles O10: the tile of a reduction, and the sum of a line of integers and of residues. -/
theorem vectorReduce : Obligations.VectorReduce := by
  intro s i v a col q c lines line head tile
  refine ⟨fun df h hint hint' => ?int, fun p fam hq h hres hfam hprimes haxis => ?residue⟩
  case int =>
    obtain ⟨w, hexec⟩ := exec_vred (kind := redSum) (col := col) (q := q) h (by simp [redSum, redMsum])
      (by simp [redDetail, redSum, redMsum, isArith_of_int hint, hint, hint'])
    refine ⟨_, w, hexec, fun e he => ?_⟩
    rw [tileAt_redTile _ _ _ _ he, redLine_int hint]
    rfl
  case residue =>
    subst hq
    have hprimes' : (s.core i.core).primesOk fam p = true := hprimes
    obtain ⟨w, hexec⟩ := exec_vred (kind := redMsum) (col := col) (q := some p) h (by simp [redMsum])
      (by simp [redDetail, hres, CoreSt.selOk, hfam, hprimes', haxis])
    refine ⟨_, w, hexec, fun e he => ?_⟩
    rw [tileAt_redTile _ _ _ _ he, redLine_residue hres]
    rfl

end Sys2Proof.Machine
end

section
/-! The matrix array and the NTT engine (R232 to R254): the issue of a product once for START and CONT, the sums of a product of two
tiles of 8-bit integers, the epilogue, and the limbs of a transform. -/

namespace Sys2Proof.Machine
open Sys2Proof.Claims

/-! ### Products -/

theorem CanIssue.ready {s : State} {i : Issue} {u : Uses} (h : CanIssue s i u) : u.ready = true := by
  obtain ⟨-, -, -, -, -, hfree⟩ := h
  simp only [State.blocked, Bool.or_eq_false_iff, Bool.not_eq_false'] at hfree
  exact hfree.1.1

theorem State.modCore_congr (s : State) (n : Nat) {f g : CoreSt → CoreSt} (h : f (s.core n) = g (s.core n)) : s.modCore n f = s.modCore n g := by
  simp only [State.modCore, h]

/-- A product reads the state before its bundle also where it finds the buffers as drains leave them. -/
theorem State.mmaOp_setCore_self (s : State) (i : Issue) (m : Mma) (start primes : Bool) (g : OBufSt) :
    (s.setCore i.core (s.core i.core)).mmaOp i m start primes g = s.mmaOp i m start primes g := by
  obtain ⟨o, fa, fb, k, a, b, tr⟩ := m
  cases a <;> cases b <;> (simp only [State.mmaOp, State.core_setCore_self, State.leavesOf]; rfl)

theorem mmaDetail_eq_none {m : Mma} {start trace primes : Bool} {g : OBufSt} (ha : m.fa ≠ .s32) (hb : m.fb ≠ .s32)
    (hpair : pairOk m.fa m.fb = true) (hk : m.k % 32 = 0) (hlo : 32 ≤ m.k) (hhi : m.k ≤ 65536)
    (htile : (opndIsTile m.a || opndIsTile m.b) = true → m.k = 32) (hstart : start = true → primes = true)
    (hcont : start = false → g.isOpen = true ∧ m.fa = g.fa ∧ m.fb = g.fb ∧ trace = g.trace) :
    mmaDetail m start trace primes g = none := by
  have hlo' : ¬ m.k < 32 := by omega
  have hhi' : ¬ 65536 < m.k := by omega
  have htile' : ¬ ((opndIsTile m.a = true ∨ opndIsTile m.b = true) ∧ m.k ≠ 32) := by
    rintro ⟨h, hne⟩
    exact hne (htile (by simpa using h))
  cases start with
  | true => simp [mmaDetail, ha, hb, hpair, hk, hlo', hhi', htile', hstart]
  | false =>
    obtain ⟨hopen, hfa, hfb, htr⟩ := hcont rfl
    rw [hfa] at ha
    rw [hfb] at hb
    rw [hfa, hfb] at hpair
    simp [mmaDetail, hfa, hfb, ha, hb, hpair, hk, hlo', hhi', htile', hopen, htr]

theorem CoreSt.obuf_draining_of_ready {s : State} {i : Issue} {o : OBuf} {r : List Nat} {mem : List Nat}
    (h : CanIssue s i { reads := r, mem := mem, ready := !(s.core i.core).drains o }) : ((s.core i.core).obuf o).draining = false := by
  simpa [CoreSt.drains] using CanIssue.ready h

@[simp] theorem core_began (s : State) (i : Issue) :
    (began s i).core i.core = { s.core i.core with stamp := (s.core i.core).stamp + 1 } := by
  simp [began]

theorem leavesOf_began (s : State) (i : Issue) (f : Fmt) (k : Nat) (x : MSrc) :
    (began s i).leavesOf i.core f k x = s.leavesOf i.core f k x := by
  cases x <;> (simp only [State.leavesOf, core_began]; rfl)

/-- What a product that passes its checks does to the state of its bundle's operations. -/
def addProduct (s : State) (i : Issue) (m : Mma) (group : OBufSt) (t : State) : State :=
  let a := s.leavesOf i.core m.fa m.k m.a
  let b := s.leavesOf i.core m.fb m.k m.b
  let read := s.touched (s.core i.core).job (opndReads (m.k / 32) m.fa m.a ++ opndReads (m.k / 32) m.fb m.b)
  (t.work i.core (match fmtClass m.fa with | .residue => 8 | .float => 11 | .int => 12) (1024 * m.k)).modCore i.core fun c =>
    c.setObuf m.o { group.addLeaves a.2 b.2 a.1 b.1 with
      inFlight := group.inFlight ++ [{ bundle := c.bundle, mem := read }], draining := c.drains m.o }

/-- A product that passes its checks adds every leaf to its group. -/
theorem slotOp_product {s : State} {i : Issue} {c : Instr} {o : Op} {m : Mma} {start primes : Bool} {g : OBufSt} (h : CanIssue s i o.uses)
    (ho : opOf s (s.afterDrains i.core [c]) c = some o) (hact : o.act = s.mmaOp i m start primes g) (hplace : o.place < 7)
    (hidle : ((s.core i.core).obuf m.o).draining = false)
    (hprod : productOk s i m) (hstart : start = true → primes = true)
    (hcont : start = false → ((s.core i.core).obuf m.o).isOpen = true ∧ m.fa = ((s.core i.core).obuf m.o).fa ∧
      m.fb = ((s.core i.core).obuf m.o).fb ∧ s.traceOn (s.core i.core).job m = ((s.core i.core).obuf m.o).trace) :
    s.slotOp i c = .next (ended i (product (began s i) i m g)) := by
  obtain ⟨⟨hfmts, hengines⟩, hma, hmb, ha, hb, hpair, hk, hlo, hhi, htile, hfa, hfb⟩ := hprod
  have hdetail := mmaDetail_eq_none (trace := s.traceOn (s.core i.core).job m) ha hb hpair hk hlo hhi htile hstart hcont
  have hread : ∀ l, (began s i).touched (s.core i.core).job l = s.touched (s.core i.core).job l := fun _ => rfl
  have hop : s.mmaOp i m start primes g = .effect (addProduct s i m g) := by
    simp only [State.mmaOp, State.needs, hfmts, hengines, hma, hmb, hdetail, hfa, hfb]
    rfl
  rw [State.slotOp_alone_effect h ho (hact.trans hop) hplace]
  refine congrArg (fun t => (.next (ended i t) : Outcome)) ?_
  simp only [addProduct, product, core_began, leavesOf_began, hread]
  refine State.modCore_congr _ _ ?_
  have hdrains : (((began s i).work i.core (match fmtClass m.fa with | .residue => 8 | .float => 11 | .int => 12) (1024 * m.k)).core i.core).drains
      m.o = false := by
    rw [State.core_work, core_began]
    exact hidle
  rw [hdrains]

theorem execMmaLastResult_good {s : State} {n : Nat} {o : OBuf} {q : MmaQ} {qs : List MmaQ} (e : EngCheck) (hlive : s.live = true)
    (hq : ((s.core n).obuf o).inFlight = q :: qs) (hidle : ((s.core n).obuf o).draining = false) :
    execMmaLastResult n o e s = .next ((s.setCore n ((s.core n).setObuf o { (s.core n).obuf o with inFlight := qs })).engineCheck n slotMatrix
      q.bundle q.mem e) := by
  simp [execMmaLastResult, hq, hlive, hidle]

/-- Of a buffer that is written nothing but the buffer changes. -/
@[simp] theorem CoreSt.setObuf_job (c : CoreSt) (o : OBuf) (b : OBufSt) : (c.setObuf o b).job = c.job := by
  unfold CoreSt.setObuf; split <;> rfl

/-- An engine's check of a read that fails: a fault where the operation touches the handle read. -/
theorem State.engineCheck_read (s : State) (n slot bundle : Nat) (m : Touched) (h off k : Nat) :
    s.engineCheck n slot bundle m (.read h off (.checkBits k)) = if m.handles.contains h = true then
      s.lateFault (s.core n).job h off m.wet (.checkBits k) n slot bundle else s := by
  by_cases hc : h ∈ m.handles <;> simp [State.engineCheck, checkOf, hc]

theorem matrixProducts : Claims.MatrixProducts := by
  refine ⟨fun s i m row col q h hfam hprod => ?start, fun s i m row col f q h hfam hrow hprimes hprod => ?residue,
    fun s i m h hprod => ?cont, fun s n o q qs hlive hq hidle => ?last⟩
  case start =>
    refine slotOp_product (c := .mmaStart i m row col q) (o := opMmaStart i m row col q (s.setCore i.core (s.core i.core))) ?_ rfl ?_
      (Op.place_lt (show slotMatrix < 6 by decide)) (CoreSt.obuf_draining_of_ready h) hprod (start := true) (primes := true)
      (fun _ => rfl) (fun h => by simp at h)
    · simpa [opMmaStart, hfam] using h
    · simp [opMmaStart, hfam, State.mmaOp_setCore_self, newGroup]
      rfl
  case residue =>
    refine slotOp_product (c := .mmaStart i m row col (some q)) (o := opMmaStart i m row col (some q) (s.setCore i.core (s.core i.core)))
      ?_ rfl ?_ (Op.place_lt (show slotMatrix < 6 by decide)) (CoreSt.obuf_draining_of_ready h) hprod (start := true) (primes := true)
      (fun _ => rfl) (fun h => by simp at h)
    · simpa [opMmaStart, hfam] using h
    · simp [opMmaStart, hfam, hprimes, hrow, State.mmaOp_setCore_self, newGroup]
      rfl
  case cont =>
    intro g hopen hfa hfb htrace
    refine slotOp_product (c := .mmaCont i m) (o := opMmaCont i m (s.setCore i.core (s.core i.core)))
      ?_ rfl ?_ (Op.place_lt (show slotMatrix < 6 by decide)) (CoreSt.obuf_draining_of_ready h) hprod (start := false) (primes := true)
      (fun h => by simp at h) (fun _ => ⟨hopen, hfa, hfb, htrace⟩)
    · simpa [opMmaCont] using h
    · simp [opMmaCont, State.mmaOp_setCore_self, g]
  case last =>
    refine ⟨(execMmaLastResult_good .good hlive hq hidle).trans rfl, fun h off k => ?_⟩
    refine (execMmaLastResult_good (.read h off (.checkBits k)) hlive hq hidle).trans ?_
    simp [State.engineCheck_read]

/-! ### The sums of a product of two tiles of 8-bit integers -/

@[simp] theorem CoreSt.obuf_setObuf (c : CoreSt) (o : OBuf) (b : OBufSt) : (c.setObuf o b).obuf o = b := by
  simp only [CoreSt.obuf, CoreSt.setObuf]
  split <;> simp_all

theorem eq_of_isB8 {f : Fmt} (h : isB8 f = true) : f = .s8 ∨ f = .u8 := by simpa [isB8] using h

theorem fmtClass_of_isB8 {f : Fmt} (h : isB8 f = true) : fmtClass f = .int ∧ fmtFamily f = none := by
  obtain rfl | rfl := eq_of_isB8 h <;> exact ⟨rfl, rfl⟩

/-- An 8-bit integer lies between −128 and 255. -/
theorem intRead_bounds {f : Fmt} (h : isB8 f = true) (c : Nat) : -128 ≤ intRead f c ∧ intRead f c ≤ 255 := by
  have hw : fmtWidth f = 8 := by obtain rfl | rfl := eq_of_isB8 h <;> rfl
  have hc : c % 256 < 256 := Nat.mod_lt c (by decide)
  simp only [intRead, hw]
  split
  · norm_num; omega
  · split <;> norm_num at * <;> omega

theorem isB8_of_pairOk {f g : Fmt} (h : isB8 f = true) (hpair : pairOk f g = true) : isB8 g = true := by
  simp only [pairOk, Bool.or_eq_true, Bool.and_eq_true, beq_iff_eq] at hpair
  rcases hpair with (rfl | ⟨hf, -⟩) | ⟨-, hg⟩
  · exact h
  · simp only [isB8, Bool.or_eq_true, beq_iff_eq] at h
    rcases h with rfl | rfl <;> cases hf
  · exact hg

theorem foldl_add_eq_sum (xs : List Int) (z : Int) : xs.foldl (· + ·) z = z + xs.sum := by
  induction xs generalizing z with
  | nil => simp
  | cons x xs ih => simp [ih, add_assoc]

theorem sum_bounds (xs : List Int) (k : Int) (h : ∀ x ∈ xs, -k ≤ x ∧ x ≤ k) : -(k * xs.length) ≤ xs.sum ∧ xs.sum ≤ k * xs.length := by
  induction xs with
  | nil => simp
  | cons x xs ih =>
    obtain ⟨hlo, hhi⟩ := ih fun y hy => h y (List.mem_cons_of_mem x hy)
    obtain ⟨hxlo, hxhi⟩ := h x List.mem_cons_self
    simp only [List.sum_cons, List.length_cons, Nat.cast_add, Nat.cast_one]
    constructor <;> nlinarith

theorem mul_bounds {x y : Int} (hx : -128 ≤ x ∧ x ≤ 255) (hy : -128 ≤ y ∧ y ≤ 255) : -65025 ≤ x * y ∧ x * y ≤ 65025 := by
  constructor <;> nlinarith

/-- 32 products of 8-bit integers added to zero do not saturate. -/
theorem addInt_small (k : Nat) (ps : List (Int × Int)) (hlen : ps.length = 32)
    (hps : ∀ p ∈ ps, (-128 ≤ p.1 ∧ p.1 ≤ 255) ∧ (-128 ≤ p.2 ∧ p.2 ≤ 255)) :
    (({} : Acc).addInt k ps).i = (ps.map fun p => p.1 * p.2).sum := by
  have hsum := sum_bounds (ps.map fun p => p.1 * p.2) 65025 (by
    intro x hx
    obtain ⟨p, hp, rfl⟩ := List.mem_map.mp hx
    obtain ⟨h1, h2⟩ := hps p hp
    exact mul_bounds h1 h2)
  rw [List.length_map, hlen] at hsum
  have hlo : ¬ (ps.map fun p => p.1 * p.2).sum < -2147483648 := by omega
  have hhi : ¬ 2147483647 < (ps.map fun p => p.1 * p.2).sum := by omega
  simp [Acc.addInt, foldl_add_eq_sum, intSat, intRange, hlo, hhi]

/-- The sums of the first leaf of a group of 8-bit integers. -/
theorem OBufSt.addLeaf_int {b : OBufSt} {x y : Tile} (hint : fmtClass b.fa = .int) (hfa : isB8 b.fa = true) (hfb : isB8 b.fb = true)
    (hacc : b.acc = []) {e : Nat} (he : e < 1024) : ((b.addLeaf x y false false).acc.getD e {}).i = if b.on e then
      ((List.range 32).map fun n =>
        intRead b.fa (leafField b.fa false x (rowOf e) n) * intRead b.fb (leafField b.fb false y n (colOf e))).sum else 0 := by
  simp only [OBufSt.addLeaf, getD_map_range _ _ he, hint, hacc, List.getD_nil]
  cases hon : b.on e
  · rfl
  · simp only [Bool.not_true, Bool.false_eq_true, if_false, if_true]
    rw [addInt_small _ _ (by simp)]
    · rw [List.map_map]
      rfl
    · simp only [List.mem_map]
      rintro p ⟨n, -, rfl⟩
      exact ⟨intRead_bounds hfa _, intRead_bounds hfb _⟩

/-- Settles O11: the group that START opens, and the sums of its one leaf. -/
theorem matrixSums : Obligations.MatrixSums := by
  intro s i m a b row col ha hb h8 h hprod
  obtain ⟨hint, hfam⟩ := fmtClass_of_isB8 h8
  refine ⟨_, matrixProducts.1 s i m row col none (by simpa [ha, hb, opndRegs, opndMem] using h) hfam hprod, ?_, fun e he => ?_⟩
  · simp [product, ha, hb, State.leavesOf, OBufSt.addLeaves, OBufSt.addLeaf]
  · obtain ⟨-, -, -, -, -, hpair, -⟩ := hprod
    have h8b := isB8_of_pairOk h8 hpair
    simp only [product, ha, hb, State.leavesOf, OBufSt.addLeaves, State.core_modCore_self, CoreSt.obuf_setObuf]
    rw [OBufSt.addLeaf_int hint h8 h8b rfl he]
    simp [OBufSt.on, leafField]
    rfl

/-! ### The epilogue -/

/-- A drain that passes its checks runs. -/
theorem slotOp_drain {s : State} {i : Issue} {d : Drain} (h : CanIssue s i (opDrain i d s).uses)
    (hpresent : Present s (drainFmts d ((s.core i.core).obuf d.o)) [engArray]) (hopen : ((s.core i.core).obuf d.o).isOpen = true)
    (hbad : (s.core i.core).epiBad d ((s.core i.core).obuf d.o) = false)
    (hleaf : ∀ l, d.dst = .leaf l → l.off % 64 = 0 ∧ s.accessFault (s.core i.core).job l.h l.off (leafBytes d.fmt) true [spSram] = none) :
    exec (.drain i d) s = .next (ended i ((s.core i.core).drainRun i.core d ((s.core i.core).obuf d.o) (began s i))) := by
  obtain ⟨hfmts, hengines⟩ := hpresent
  refine State.slotOp_alone_effect (c := .drain i d) h rfl ?_ (show (if slotMatrix = slotVector then 0 else 1) < 7 by decide)
  cases hdst : d.dst with
  | tile t => simp [opDrain, State.needs, hfmts, hengines, hopen, hbad, hdst]
  | leaf l =>
    obtain ⟨halign, hok⟩ := hleaf l hdst
    simp [opDrain, State.needs, hfmts, hengines, hopen, hbad, hdst, halign, hok]

theorem matrixDrain : Claims.MatrixDrain := by
  refine ⟨fun s i d => ?drain, fun s n o x hlive hx => ?complete⟩
  case drain =>
    intro b h hpresent hopen hbad
    refine ⟨fun t hdst => ?tile, fun l hdst halign hok => ?leaf⟩
    case tile =>
      refine (slotOp_drain h hpresent hopen hbad fun l hl => by simp [hdst] at hl).trans ?_
      simp [CoreSt.drainRun, hdst, b]
    case leaf =>
      intro kept mem
      refine (slotOp_drain h hpresent hopen hbad fun l' hl => ?_).trans ?_
      · obtain rfl : l = l' := by simpa [hdst] using hl
        exact ⟨halign, hok⟩
      · simp [CoreSt.drainRun, hdst, b, kept, mem]
        rfl
  case complete =>
    intro d d'
    change execDrainComplete n o .good s = _
    simp only [execDrainComplete, hx, hlive, Bool.not_true, Bool.false_eq_true, if_false, State.unwrite, State.engineCheck, checkOf] <;> rfl

/-- Settles O37. -/
theorem matrixUnit : Obligations.MatrixUnit := ⟨matrixProducts, matrixDrain⟩

/-! ### The NTT engine -/

/-- Settles O12: a transform that passes its checks runs over its limbs. -/
theorem nttLimbs : Obligations.NttLimbs := by
  refine ⟨fun s i x h hpresent hsrc hdst hdetail hread hwrite => ?transform, fun s n x xs hlive hq => ?written⟩
  case transform =>
    intro limbs
    obtain ⟨hfmts, hengines⟩ := hpresent
    have run : ∀ (c : Instr) (fwd : Bool), opOf s (s.afterDrains i.core [c]) c = some (s.nttOp i x fwd) → s.slotOp i c = .next (limbs fwd) := by
      intro c fwd ho
      refine (State.slotOp_alone_effect (f := ?f) (o := s.nttOp i x fwd) h ho ?act
        (Op.place_lt (show slotMatrix < 6 by decide))).trans ?eq
      case act =>
        simp [State.nttOp, State.needs, hfmts, hengines, hsrc, hdst, hdetail, hread, hwrite]
        rfl
      case eq => rfl
    exact ⟨run _ true rfl, run _ false rfl⟩
  case written =>
    change execNttLimbWritten n .good s = _
    simp [execNttLimbWritten, hq, hlive, State.engineCheck, checkOf]

end Sys2Proof.Machine
end

section
/-! Ciphertext operations that pass their checks, and the writing of their outputs (R136, R141, R144, R147, R181, R184). -/

namespace Sys2Proof.Machine
open Sys2Proof.Claims

/-! ### An operation that passes its checks -/

theorem State.ctCheck_act_of_go {s : State} {i : Issue} {o : CtOp} {e : ReadErr} {x : Job} {p : ParamSet} {hs : List CtHdr} {d : Pred}
    (hx : s.job (s.core i.core).job = some x) (hdsts : o.dsts ≠ []) (hfresh : s.ctStale (s.core i.core).job x o = none)
    (hverdict : s.ctVerdict (s.millOf i.core) (s.core i.core).job x o e = .go p hs d)
    (hpresent : Present s [] (engCt :: if o.kind.switches ∨ o.kind = .repulp then [engKey] else []))
    (go : ParamSet → List CtHdr → Pred → OpAct) : (s.ctCheck i o e go).act = go p hs d := by
  obtain ⟨hfmts, hengines⟩ := hpresent
  simp [State.ctCheck, hx, State.needs, hfmts, hengines, hdsts, hfresh, hverdict]

/-- Each row but REPULP runs its operation as a sequence. -/
theorem ctRow_op {c : Instr} {i : Issue} {o : CtOp} {e : ReadErr} (h : CtRow c i o e) (s : State) :
    exec c s = s.slotOp i c ∧ (∀ t, opOf s t c = some (s.ctOp i o e)) ∧ o.kind ≠ .repulp := by
  cases h <;> exact ⟨rfl, fun _ => rfl, by simp⟩

theorem ciphertextOps : Claims.CiphertextOps := by
  intro s c i o e x p hs d hrow ⟨hissue, hx, hdsts, hfresh, hverdict, hpresent⟩
  obtain ⟨hexec, hop, hkind⟩ := ctRow_op hrow s
  rw [hexec]
  exact State.slotOp_alone_effect (f := fun t => t.ctStart i.core o p hs d) hissue (hop _)
    (State.ctCheck_act_of_go hx hdsts hfresh hverdict (by simpa [hkind] using hpresent) _) (Op.place_lt (show slotMatrix < 6 by decide))

/-! ### The writing of outputs -/

theorem ciphertextWritten : Claims.CiphertextWritten := by
  intro s n x xs hlive hq
  have hexec : ∀ e, exec (.ciphertextOutputWritten n e) s = execCiphertextOutputWritten n e s := fun _ => rfl
  refine ⟨fun hkeys => ?good, fun h off k hkeys hread => ?failed, fun hkeys e => ?waits⟩
  case good => simp [hexec, execCiphertextOutputWritten, hq, hlive, hkeys, checkOf, State.each]
  case failed =>
    rw [List.contains_iff_mem] at hread
    simp [hexec, execCiphertextOutputWritten, hq, hlive, hkeys, checkOf, State.engineCheck, hread]
  case waits => simp [hexec, execCiphertextOutputWritten, hq, hlive, hkeys]

/-- Settles O38. -/
theorem ciphertexts : Obligations.Ciphertexts := ⟨ciphertextOps, ciphertextWritten⟩

/-! ### The sums of CIPHERTEXT_ADD -/

/-- An operation is performed with the headers that its operands hold, their parameters, and the prediction for both. -/
theorem State.ctVerdict_go {s : State} {m j : Nat} {x : Job} {o : CtOp} {e : ReadErr} {p : ParamSet} {hs : List CtHdr} {d : Pred}
    (h : s.ctVerdict m j x o e = .go p hs d) :
    hs = s.ctHeads j o ∧ paramSet (hs.getD 0 (readHdr [])).set = some p ∧ d = predict p o.kind hs := by
  have hheads : (o.srcs.map fun l => s.load j l.h l.off 64).map readHdr = s.ctHeads j o := List.map_map
  simp only [State.ctVerdict, hheads] at h
  repeat' split at h
  all_goals cases h
  exact ⟨rfl, ‹_›, rfl⟩

/-- An operation that waits for no key asks for no stream. -/
theorem State.feedOp_of_no_keys (s : State) (n : Nat) {q : CtQ} (h : q.keys = []) : s.feedOp n q = s := by
  simp [State.feedOp, h]

theorem State.take_load (s : State) (j h off n k : Nat) : (s.load j h off (n + k)).take n = s.load j h off n := by
  simp only [State.load]
  split
  · simp [zeros]
  · simp [← List.map_take, List.take_range]

/-- The outputs of an operation stand in its writes: limb by limb, and the header. -/
theorem mem_ctWrites_limb {p : ParamSet} {l : Loc} {h : CtHdr} {v : List (List (List Nat))} {c i : Nat} {u : List (List Nat)} {w : List Nat}
    (hc : v[c]? = some u) (hi : u[i]? = some w) :
    (⟨l.h, l.off + 64 + (c * h.limbs + i) * p.limbBytes⟩, packLimb (famFmt p.fam) p.n w) ∈ ctWrites p l h v := by
  refine List.mem_append_left _ (List.mem_flatMap.mpr ⟨(u, c), ?_, List.mem_map.mpr ⟨(w, i), ?_, rfl⟩⟩)
  · exact List.mk_mem_zipIdx_iff_getElem?.mpr hc
  · exact List.mk_mem_zipIdx_iff_getElem?.mpr hi

theorem mem_ctWrites_header (p : ParamSet) (l : Loc) (h : CtHdr) (v : List (List (List Nat))) : (l, h.bytes p) ∈ ctWrites p l h v :=
  List.mem_append_right _ (List.mem_singleton.mpr rfl)

theorem limbTable_getElem? {n l c : Nat} (f : Nat → Nat → List Nat) (hc : c < n) : (limbTable n l f)[c]? = some ((List.range l).map fun i => f c i) := by
  simp [limbTable, hc]

/-- The entry that a performed operation queues: its operands as they are at its issue. -/
def ctEntry (s : State) (n : Nat) (o : CtOp) (p : ParamSet) (hs : List CtHdr) : CtQ :=
  let j := (s.core n).job
  let data := (o.srcs.zip hs).map fun c => s.ctBytes j p c.1 c.2
  { op := o, data := data, keys := if o.kind.switches then o.keys else [], got := [], foot := (o.dsts ++ o.scratch.toList).map Loc.h,
    stamp := (s.core n).stamp, bundle := (s.core n).bundle, mem := s.touched j ((o.srcs.zip data).map fun c => (c.1.h, c.1.off, c.2.length)) }

theorem State.ctStart_eq (s : State) (n : Nat) (o : CtOp) (p : ParamSet) (hs : List CtHdr) (d : Pred) :
    s.ctStart n o p hs d = (((s.countWork n p (ctWork p o hs d)).each (ctEntry s n o p hs).coefficients fun t w =>
      t.store (s.core n).job w.1.h w.1.off w.2).modCore n fun c => { c with ctQ := c.ctQ ++ [ctEntry s n o p hs] }).feedOp n (ctEntry s n o p hs) := rfl

@[simp] theorem State.core_countWork (s : State) (n : Nat) (p : ParamSet) (w : Work) (m : Nat) : (s.countWork n p w).core m = s.core m := by
  simp [State.countWork]

/-- An operation without keys leaves no coefficients, joins no stream and waits in the queue. -/
theorem State.ctQ_ctStart {s : State} {n : Nat} {o : CtOp} {p : ParamSet} {hs : List CtHdr} {d : Pred}
    (hswitches : o.kind.switches = false) (hcoeffs : (ctEntry s n o p hs).coefficients = []) :
    ((s.ctStart n o p hs d).core n).ctQ = (s.core n).ctQ ++ [ctEntry s n o p hs] := by
  rw [State.ctStart_eq, State.feedOp_of_no_keys _ _ (by simp [ctEntry, hswitches]), hcoeffs]
  simp [State.each]

/-- The operands of an operation in flight give back its headers and its prediction. -/
theorem ctEntry_plan {s : State} {n : Nat} {a b : Loc} {o : CtOp} {p : ParamSet} {h1 h2 : CtHdr} (hsrcs : o.srcs = [a, b])
    (hheads : [h1, h2] = s.ctHeads (s.core n).job o) (hset : paramSet h1.set = some p) :
    (ctEntry s n o p [h1, h2]).plan = some (p, [h1, h2], predict p o.kind [h1, h2]) := by
  have hdata : (ctEntry s n o p [h1, h2]).data.map (fun y => readHdr (y.take 64)) = [h1, h2] := by
    rw [hheads]
    simp only [ctEntry, hsrcs, State.ctHeads, List.map_cons, List.map_nil, List.zip_cons_cons, List.zip_nil_right, State.ctBytes,
      State.take_load]
  simp only [CtQ.plan, hdata]
  simp [hset, ctEntry]

/-- CIPHERTEXT_ADD writes its output alone: the sums, limb by limb, under the header. -/
theorem writes_of_add {q : CtQ} {a b dst : Loc} {p : ParamSet} {h1 h2 : CtHdr} {d : Pred}
    (hop : q.op = { kind := .add, srcs := [a, b], dsts := [dst] }) (hplan : q.plan = some (p, [h1, h2], d)) :
    q.writes = ctWrites p dst (outHdr q.op [h1, h2] d) (limbTable (max h1.comps h2.comps) d.limbs fun c i =>
      limbMap2 (addMod (p.q i)) (ctPart p (q.data.getD 0 []) h1 c i) (ctPart p (q.data.getD 1 (q.data.getD 0 [])) h2 c i)) := by
  simp [CtQ.writes, hplan, hop, scratchWrites, ctResult, CtQ.args, CtArgs.ca, CtArgs.cb, outComps, CtKind.asPt, CtKind.plaintext]

/-- CIPHERTEXT_ADD switches no polynomial. -/
theorem coefficients_of_add {q : CtQ} {a b dst : Loc} (hop : q.op = { kind := .add, srcs := [a, b], dsts := [dst] }) : q.coefficients = [] := by
  unfold CtQ.coefficients
  split
  · simp [CtArgs.switched, hop]
  · rfl

/-- Settles O13: the entry that CIPHERTEXT_ADD queues. -/
theorem ciphertextSums : Obligations.CiphertextSums := by
  intro s i a b dst e x p h1 h2 d hgo
  obtain ⟨-, -, -, -, hverdict, -⟩ := id hgo
  obtain ⟨hheads, hset, hd⟩ := State.ctVerdict_go hverdict
  set q := ctEntry (began s i) i.core { kind := .add, srcs := [a, b], dsts := [dst] } p [h1, h2] with hq
  have hplan : q.plan = some (p, [h1, h2], d) := by
    rw [hd]
    exact ctEntry_plan rfl (by rw [core_began]; exact hheads) hset
  have hdata : q.data = [s.ctBytes (s.core i.core).job p a h1, s.ctBytes (s.core i.core).job p b h2] := by
    rw [hq]
    simp only [ctEntry, core_began]
    rfl
  have hwrites := writes_of_add rfl hplan
  refine ⟨_, q, ciphertextOps s _ i _ e x p [h1, h2] d (.add i a b dst e) hgo, ?_, ?_, fun c l hc1 hc2 hl => ?_, ?_⟩
  · rw [State.ctQ_ctStart rfl (coefficients_of_add rfl), core_began]
  · rw [hd]
    simp [predict, outLimbs, CtKind.asPt, CtKind.plaintext]
  · have hpart1 : ctPart p (q.data.getD 0 []) h1 c l = ctLimb p (s.ctBytes (s.core i.core).job p a h1) h1 c l := by
      simp [ctPart, hc1, hdata]
    have hpart2 : ctPart p (q.data.getD 1 (q.data.getD 0 [])) h2 c l = ctLimb p (s.ctBytes (s.core i.core).job p b h2) h2 c l := by
      simp [ctPart, hc2, hdata]
    rw [hwrites, ← hpart1, ← hpart2]
    refine mem_ctWrites_limb (limbTable_getElem? _ (by omega)) ?_
    simp [hl]
  · rw [hwrites]
    have hhdr : outHdr q.op [h1, h2] d = { h1 with limbs := d.limbs, scale := d.scale.toNat, head := d.head, comps := max h1.comps h2.comps,
                                                   form := 1, gen := min 0xFFFFFFFF (max h1.gen h2.gen + 1) } := by
      simp [outHdr, q, ctEntry, outComps, CtKind.asPt, CtKind.plaintext, satAdd]
    rw [← hhdr]
    exact mem_ctWrites_header ..

end Sys2Proof.Machine
end

section
/-! The state after reset (R17, R76, R88), and the ready bits of REPULP tables (R93). -/

namespace Sys2Proof.Machine
open Sys2Proof.Claims

/-- Settles O2: every field of the state after reset. -/
theorem resetState : Obligations.ResetState := by
  refine ⟨by decide, rfl, rfl, rfl, rfl, fun k => rfl, fun a => ⟨rfl, rfl⟩, rfl, rfl, rfl, rfl, rfl, rfl, rfl, rfl, rfl, rfl, fun p => ?_⟩
  cases p <;> exact ⟨rfl, rfl, rfl, fun r => rfl⟩

/-- A place from 64 on is no bit of the ready bitmap. -/
theorem State.isReady_of_ge (s : State) {i : Nat} (h : 64 ≤ i) : s.isReady i = false := BitVec.getLsbD_of_ge _ _ h

/-- A module that runs, and that builds the table of a place beyond the seven of R93. -/
def buildsTable8 : State := { pins := { power := .on }, building := [8] }

/-- Refutes O15: REPULP_TABLE_BUILT of place 8, which no parameter set has, finishes the table that the state says is being built, but
bit 64 is beyond the ready bitmap and stays clear. -/
theorem not_interludes : ¬ Obligations.Interludes := by
  rintro ⟨-, -, -, htable⟩
  obtain ⟨t, -, -, hready⟩ := htable buildsTable8 8 rfl rfl rfl
  exact absurd hready (by simp [State.isReady_of_ge t (show 64 ≤ bitRepulp 8 by decide)])

end Sys2Proof.Machine
end

section
/-! Transforming copies, streams and the pages of host handles (R297, R302, R310 to R346, R406). -/

namespace Sys2Proof.Machine
open Sys2Proof.Claims

/-! ### Reading one part after another was updated -/

@[simp] theorem State.job_setPort (s : State) (p : Port) (x : PortSt) (j : Nat) : (s.setPort p x).job j = s.job j := by cases p <;> rfl
@[simp] theorem State.job_modPort (s : State) (p : Port) (f : PortSt → PortSt) (j : Nat) : (s.modPort p f).job j = s.job j := by cases p <;> rfl
@[simp] theorem State.core_setPort (s : State) (p : Port) (x : PortSt) (n : Nat) : (s.setPort p x).core n = s.core n := by cases p <;> rfl
@[simp] theorem State.core_modPort (s : State) (p : Port) (f : PortSt → PortSt) (n : Nat) : (s.modPort p f).core n = s.core n := by
  cases p <;> rfl
@[simp] theorem State.port_setJob (s : State) (j : Nat) (x : Option Job) (p : Port) : (s.setJob j x).port p = s.port p := by cases p <;> rfl
@[simp] theorem State.port_modJob (s : State) (j : Nat) (f : Job → Job) (p : Port) : (s.modJob j f).port p = s.port p := by
  unfold State.modJob; split <;> simp
@[simp] theorem State.port_modCore (s : State) (n : Nat) (f : CoreSt → CoreSt) (p : Port) : (s.modCore n f).port p = s.port p := by cases p <;> rfl
@[simp] theorem State.port_setCore (s : State) (n : Nat) (x : CoreSt) (p : Port) : (s.setCore n x).port p = s.port p := by cases p <;> rfl
@[simp] theorem State.port_emit (s : State) (o : Out) (p : Port) : (s.emit o).port p = s.port p := by cases p <;> rfl
@[simp] theorem State.job_emit (s : State) (o : Out) (j : Nat) : (s.emit o).job j = s.job j := rfl
@[simp] theorem State.core_emit (s : State) (o : Out) (n : Nat) : (s.emit o).core n = s.core n := rfl
@[simp] theorem State.port_bump (s : State) (k n : Nat) (p : Port) : (s.bump k n).port p = s.port p := by
  unfold State.bump; split <;> cases p <;> rfl
@[simp] theorem State.job_bump (s : State) (k n j : Nat) : (s.bump k n).job j = s.job j := by unfold State.bump; split <;> rfl
@[simp] theorem State.out_bump (s : State) (k n : Nat) : (s.bump k n).out = s.out := by unfold State.bump; split <;> rfl

theorem State.setPort_setPort (s : State) (p : Port) (x y : PortSt) : (s.setPort p x).setPort p y = s.setPort p y := by cases p <;> rfl
theorem State.modPort_modPort (s : State) (p : Port) (f g : PortSt → PortSt) :
    (s.modPort p f).modPort p g = s.modPort p fun q => g (f q) := by cases p <;> rfl
theorem State.modPort_eq (s : State) (p : Port) (f : PortSt → PortSt) : s.modPort p f = s.setPort p (f (s.port p)) := rfl

/-! ### The issue of copies -/

/-- Both ends of a copy of cells pass their checks, and no owner tag refuses a read: it writes its cells and joins its queue. -/
theorem slotOp_copy {s : State} {i : Issue} {c : Instr} {hd : CopyHead} {reads mem : List Nat} {act : OpAct} {f : State → State}
    (hissue : CopyIssues s i hd reads mem) (ho : opOf s (s.afterDrains i.core [c]) c = some (s.copyOp i hd reads mem act))
    (hact : act = .effect f) : s.slotOp i c = .next (ended i (f (began s i))) :=
  State.slotOp_alone_effect hissue.1 ho ((State.copyOp_act hissue act).trans hact) (by decide : slotStore < 7)

theorem copyEnds_of_claim {s : State} {i : Issue} {hd : CopyHead} {src dst : Mat} {ys yd : Layout} {rs ws : List Cell}
    (h : CopyEnds s i hd src dst ys yd rs ws) (act : Layout → Layout → OpAct) :
    s.copyEnds i.core hd.fmt src dst false none act = act ys yd := by
  obtain ⟨hys, hyd, hsrc, hdst, hms, hmd, hbs, hbd, -, -⟩ := h
  exact State.copyEnds_of_good act hys hyd hsrc hdst (by simp [hms, hmd, hbs, hbd])

theorem tagsLet_began {s : State} {i : Issue} {h : Nat} {runs : List (Nat × Nat)} (hlet : TagsLet s (s.core i.core).job h runs) :
    TagsLet (began s i) ((began s i).core i.core).job h runs := by
  rw [core_began]
  exact hlet

/-- The value of every cell that a copy writes: the deckle, then the data, read before any of it is written. -/
def copyValues (s : State) (n : Nat) (f : Fmt) (ys : Layout) (src : Mat) (deckle : List (Cell × Nat)) (data : List (Cell × Cell)) :
    List (Cell × Nat) :=
  deckle ++ data.map fun c => (c.2, s.readCell (s.core n).job f ys src c.1)

/-- Past its checks a copy of cells writes them and joins its queue, unless an owner tag refuses the read. -/
theorem State.copyCells_of_good {s : State} {i : Issue} {hd : CopyHead} {src dst : Mat} {ys yd : Layout} {data : List (Cell × Cell)}
    {deckle : Layout → List (Cell × Nat)} {ws : List Cell} {runs reads : List (Nat × Nat)} {v : Nat}
    (hws : (deckle yd).map Prod.fst ++ data.map Prod.snd = ws) (hends : CopyEnds s i hd src dst ys yd (data.map Prod.fst) ws)
    (hruns : cellRuns hd.fmt yd dst ws = runs) (hreads : cellRuns hd.fmt ys src (data.map Prod.fst) = reads)
    (hv : overlapOf (s.sectors (s.core i.core).job src.loc.h reads) (s.sectors (s.core i.core).job dst.loc.h runs) = v) (hfits : v ≤ maxStaging) :
    s.copyCells i.core hd src dst false data deckle = .effect fun t => t.copyTag i.core src.loc.h reads
      ((t.writeCells (s.core i.core).job hd.fmt yd dst (copyValues s i.core hd.fmt ys src (deckle yd) data)).queueCopy i.core hd v dst.loc.h runs
        (t.copyTouched (s.core i.core).job [(src.loc.h, reads)] dst.loc.h runs)) := by
  obtain ⟨-, -, -, -, -, -, -, -, hsrc, hdst⟩ := id hends
  simp only [State.copyCells, Bool.false_eq_true, if_false, copyEnds_of_claim hends, hws, hsrc, hdst, Option.or_none, hruns, hreads, hv,
    overlapStop_of_le hfits]
  rfl

theorem copies : Claims.Copies := by
  refine ⟨fun s i hd src dst xs ys yd tr => ?cells, fun s i hd src dst index ys yd => ?gather⟩
  case cells =>
    intro j value data deckle ws b runs reads v hissue hne hlen hbad hends hv hlet
    have hslices : (xs.isEmpty || decide (8 < xs.length) || xs.any (sliceBad tr src dst)) = false := by simp [hne, hlen, hbad]
    have hrun : ∀ c, opOf s (s.afterDrains i.core [c]) c = some (s.sliceCopy i tr hd src dst xs) → s.slotOp i c = .next (ended i
        ((b.writeCells j hd.fmt yd dst (deckle ++ data.map fun c => (c.2, s.readCell j hd.fmt ys src c.1))).queueCopy i.core hd v dst.loc.h runs
          (b.copyTouched j [(src.loc.h, reads)] dst.loc.h runs))) := by
      intro c ho
      rw [State.sliceCopy, hslices] at ho
      rw [slotOp_copy hissue ho (State.copyCells_of_good rfl hends rfl rfl rfl hv), State.copyTag_of_tagsLet (tagsLet_began hlet)]
      rfl
    cases tr
    · exact hrun _ rfl
    · exact hrun _ rfl
  case gather =>
    intro j n rs deckle ws runs v entry hissue hends hn hindex hv htable hlet hentries
    have hsize : ¬ 2 ^ 20 < n := by omega
    have hbad : ((List.range n).find? fun e => src.rows * src.cols ≤ entry e) = none := by
      simpa [List.find?_eq_none] using hentries
    obtain ⟨-, -, -, -, -, -, -, -, hsrc, hdst⟩ := id hends
    have hact : (opXcopyGather i hd src dst index s).act = .effect fun t => t.copyTag i.core index.h [(8 * index.off, 32 * n)]
        (t.copyTag i.core src.loc.h (cellRuns hd.fmt ys src rs) ((t.writeCells j hd.fmt yd dst (deckle ++ (List.range n).map fun e =>
          ((e / dst.cols, e % dst.cols), s.readCell j hd.fmt ys src (entry e / src.cols, entry e % src.cols)))).queueCopy i.core hd v dst.loc.h runs
          (t.copyTouched j [(index.h, [(8 * index.off, 32 * n)]), (src.loc.h, cellRuns hd.fmt ys src rs)] dst.loc.h runs))) := by
      refine (State.copyOp_act hissue _).trans ?_
      simp only [n, rs, ws, runs, v, deckle, entry, j] at *
      simp only [if_neg hsize, copyEnds_of_claim hends, hsrc, hdst, hindex, Option.map_none, Option.or_none, overlapStop_of_le hv, hbad]
    refine (State.slotOp_alone_effect (c := .xcopyGather i hd src dst index) hissue.1 rfl hact (by decide : slotStore < 7)).trans ?_
    rw [State.copyTag_of_tagsLet (tagsLet_began htable), State.copyTag_of_tagsLet (tagsLet_began hlet)]

/-! ### Progress of copies -/

theorem CoreSt.setXq_job (c : CoreSt) (q : BitVec 1) (x : List XcQ) : (c.setXq q x).job = c.job := by
  unfold CoreSt.setXq; split <;> rfl

/-- The bits that a write of XC_RACE_SEEN clears are those written with ones in both halves. -/
theorem bit_w1c (v : Reg) {k : Nat} (hk : k < 16) : bit (w1c v) k = (v.getLsbD k && v.getLsbD (k + 16)) := by
  have hbit : ∀ a b : Nat, bit a b = a.testBit b := fun a b => by simp [bit, Nat.testBit_eq_decide_div_mod_eq]; rfl
  have hlow : (v.toNat % 65536).testBit k = v.toNat.testBit k := by
    rw [show (65536 : Nat) = 2 ^ 16 by norm_num, Nat.testBit_mod_two_pow]
    simp [hk]
  have hhigh : (v.toNat / 65536).testBit k = v.toNat.testBit (k + 16) := by
    rw [show (65536 : Nat) = 2 ^ 16 by norm_num, Nat.testBit_div_two_pow, Nat.add_comm]
  rw [hbit, w1c, show Nat.land (v.toNat % 65536) (v.toNat / 65536) = v.toNat % 65536 &&& v.toNat / 65536 from rfl, Nat.testBit_and, hlow, hhigh,
    BitVec.testBit_toNat, BitVec.testBit_toNat]

theorem getLsbD_clear (x : BitVec 16) (i k : Nat) : (x &&& ~~~(1 <<< i : BitVec 16)).getLsbD k = (x.getLsbD k && !(i == k)) := by
  by_cases hk : k < 16
  · have hone : (1 <<< i : BitVec 16).getLsbD k = decide (i = k) := by
      rw [show (1 <<< i : BitVec 16) = BitVec.ofNat 16 (1 <<< i) from rfl, BitVec.getLsbD_ofNat, Nat.one_shiftLeft, Nat.testBit_two_pow]
      simp [hk]
    rw [BitVec.getLsbD_and, BitVec.getLsbD_not, hone, beq_eq_decide]
    simp [hk]
  · simp [BitVec.getLsbD_of_ge x k (by omega)]

/-- One job's flag as a write of XC_RACE_SEEN finds it. -/
def clearRace (p : Port) (v : Reg) (s : State) (i : Nat) : State :=
  match s.job (i + 1) with
  | some x =>
    if bit (w1c v) i ∧ x.owner = p then
      (s.modPort p fun q => { q with xcRace := q.xcRace &&& ~~~(1 <<< i : BitVec 16) }).modJob (i + 1) fun x => { x with races := 0, firstRace := 0 }
    else s
  | none => s

theorem xcRaceWrite_eq (s : State) (p : Port) (v : Reg) : s.xcRaceWrite p v = (List.range 16).foldl (clearRace p v) s := rfl

/-- A job's flag is cleared in its own turn, and no other job's turn touches it. -/
theorem clearRace_job (p : Port) (v : Reg) (k i : Nat) (s : State) (x : Job) (hx : s.job (k + 1) = some x) (hown : x.owner = p) :
    ∃ y, (clearRace p v s i).job (k + 1) = some y ∧ y.owner = p ∧
      ((clearRace p v s i).port p).xcRace.getLsbD k = ((s.port p).xcRace.getLsbD k && !(i == k && bit (w1c v) k)) ∧
      (y = x ∨ y.races = 0 ∧ y.firstRace = 0) ∧ (i = k → bit (w1c v) k = true → y.races = 0 ∧ y.firstRace = 0) := by
  obtain rfl | hik := eq_or_ne i k
  · by_cases hbit : bit (w1c v) i = true
    · refine ⟨{ x with races := 0, firstRace := 0 }, ?_, hown, ?_, .inr ⟨rfl, rfl⟩, fun _ _ => ⟨rfl, rfl⟩⟩
      · simp [clearRace, hx, hbit, hown, State.job_modJob]
      · simp only [clearRace, hx, hbit, hown, and_self, if_true, State.port_modJob, State.port_modPort_self, getLsbD_clear, Bool.and_true]
    · exact ⟨x, by simp [clearRace, hx, hbit], hown, by simp [clearRace, hx, hbit], .inl rfl, fun _ h => absurd h hbit⟩
  · refine ⟨x, ?_, hown, ?_, .inl rfl, fun h => absurd h hik⟩
    · unfold clearRace
      split
      · split <;> simp [State.job_modJob, hik, hx]
      · exact hx
    · have hne : (i == k) = false := by simpa using hik
      unfold clearRace
      split
      · split
        · simp only [State.port_modJob, State.port_modPort_self, getLsbD_clear, hne, Bool.false_and]
        · simp [hne]
      · simp [hne]

theorem foldl_clearRace (p : Port) (v : Reg) (k : Nat) (is : List Nat) (s : State) (x : Job) (hx : s.job (k + 1) = some x) (hown : x.owner = p) :
    ∃ y, (is.foldl (clearRace p v) s).job (k + 1) = some y ∧ y.owner = p ∧
      ((is.foldl (clearRace p v) s).port p).xcRace.getLsbD k = ((s.port p).xcRace.getLsbD k && !(decide (k ∈ is) && bit (w1c v) k)) ∧
      (y = x ∨ y.races = 0 ∧ y.firstRace = 0) ∧ (k ∈ is → bit (w1c v) k = true → y.races = 0 ∧ y.firstRace = 0) := by
  induction is generalizing s x with
  | nil => exact ⟨x, hx, hown, by simp, .inl rfl, by simp⟩
  | cons i is ih =>
    obtain ⟨y, hy, hyown, hybit, hyx, hyzero⟩ := clearRace_job p v k i s x hx hown
    obtain ⟨z, hz, hzown, hzbit, hzy, hzzero⟩ := ih (clearRace p v s i) y hy hyown
    refine ⟨z, hz, hzown, ?_, ?_, fun hk hbit => ?_⟩
    · rw [List.foldl_cons, hzbit, hybit]
      by_cases hik : i = k
      · subst hik
        cases (s.port p).xcRace.getLsbD i <;> cases bit (w1c v) i <;> simp
      · have hne : (i == k) = false := by simpa using hik
        simp [hne, Ne.symm hik]
    · obtain rfl | hzero := hzy
      · exact hyx
      · exact .inr hzero
    · obtain rfl | hmem := List.mem_cons.mp hk
      · obtain rfl | hzero := hzy
        · exact hyzero rfl hbit
        · exact hzero
      · exact hzzero hmem hbit

theorem copyProgress : Claims.CopyProgress := by
  refine ⟨fun s n k x hlive hx hold hfits => ?granted, fun s j x hx => ?moves, fun s n k x xs hlive hq hgranted => ?complete,
    fun s p v hok => ?race⟩
  case granted =>
    change execXcopyStagingGranted n k s = _
    rw [List.sum_eq_foldl] at hfits
    simp only [execXcopyStagingGranted, hx]
    exact if_pos ⟨hlive, hold, hfits⟩
  case moves => simp [State.copyMoves, State.modJob, hx]
  case complete =>
    intro s'
    refine ⟨fun hsem => ?_, fun m hsem => ?_⟩
    · change execXcopyComplete n k .good s = _
      simp [execXcopyComplete, hq, hlive, hgranted, checkOf, hsem, s']
    · change execXcopyComplete n k .good s = _
      simp [execXcopyComplete, hq, hlive, hgranted, checkOf, hsem, s']
  case race =>
    refine ⟨_, rfl, fun k hk x hx hown => ?_⟩
    obtain ⟨y, hy, -, hbit, -, hzero⟩ := foldl_clearRace p v k (List.range 16) s x hx hown
    rw [← bit_w1c v hk]
    have hmem : k ∈ List.range 16 := List.mem_range.mpr hk
    simp only [hok, if_true, xcRaceWrite_eq]
    refine ⟨by simpa [hmem, bit_w1c v hk] using hbit, fun hclear => ⟨y, hy, hzero hmem hclear⟩⟩

/-! ### Streams -/

theorem strmSlot_lt (outbound : Bool) : strmSlot outbound < 6 := by cases outbound <;> decide

theorem streamIssue : Claims.StreamIssue := by
  refine ⟨fun s i f x h hx hpresent hfull hempty hdone hmis hbad hrel hstale => ?strm, fun s i channel mark outbound h hch => ?mark⟩
  case strm =>
    obtain ⟨hfmts, hengines⟩ := hpresent
    have hsems : ¬ (x.semCount ≤ f.full ∨ x.semCount ≤ f.empty ∨ f.done.any (fun k => x.semCount ≤ k) = true) := by
      rintro (h | h | h)
      · omega
      · omega
      · obtain ⟨k, hk, hle⟩ := (Option.any_eq_true ..).mp h
        have := hdone k hk
        simp at hle
        omega
    refine (State.slotOp_alone_effect (c := .strm i f) (o := opStrm i f s) (f := ?f) h rfl ?act (Op.place_lt (strmSlot_lt f.outbound))).trans ?eq
    case act =>
      simp only [opStrm, hx, State.needs, hfmts, hengines, and_self, if_true, if_neg hsems, hmis, hbad, hrel, hstale]
      rfl
    case eq => rfl
  case mark =>
    intro go
    have hrun : exec (.strmMark i channel mark outbound) s = go fun c => match c.chan channel with
        | none => c
        | some h => if strmCredit h.f || h.f.outbound != outbound then c else c.setChan channel (some { h with mark := max h.mark mark }) := by
      refine (State.slotOp_alone_effect (c := .strmMark i channel mark outbound) (o := opStrmMark i channel mark outbound s) (f := ?g) h rfl ?raise
        (Op.place_lt (strmSlot_lt outbound))).trans ?eq
      case raise =>
        simp only [opStrmMark, if_neg (Nat.not_lt.mpr hch)]
        rfl
      case eq => rfl
    have hgo : ∀ f g : CoreSt → CoreSt, f ((began s i).core i.core) = g ((began s i).core i.core) → go f = go g := by
      intro f g hfg
      simp only [go, State.modCore_congr _ _ hfg]
    have hchan : ((began s i).core i.core).chan channel = (s.core i.core).chan channel := by rw [core_began]; rfl
    rw [hrun]
    refine ⟨fun hnone => hgo _ _ ?_, fun h hsome => ⟨fun hcredit hdir => hgo _ _ ?_, fun hother => hgo _ _ ?_⟩⟩
    · simp only [hchan, hnone, id]
    · simp only [hchan, hsome, hcredit, hdir]
      simp
    · have hskip : (strmCredit h.f || h.f.outbound != outbound) = true := by simpa using hother
      simp only [hchan, hsome, hskip, if_true, id]

theorem State.length_strmData (s : State) (j : Nat) (x : Job) (c : Chan) (n : Nat) (host : Bytes) : (s.strmData j x c n host).length = n := by
  unfold State.strmData
  split
  · simp
  · split
    · simp [fit, zeros]
    · simp

/-- The bytes that open a unit take one from its semaphore, and no others do. -/
theorem strmPay_sems (x : Job) (c : Chan) (n : Nat) : (x.strmPay c n).sems =
    if c.opens then Tbl.set x.sems (strmTakes c.f) (x.sem (strmTakes c.f) - 1) else x.sems := by
  have hread : ∀ (y : Job) (a : Area), (if y.readsArea c.f then { y with areas := Tbl.set y.areas c.f.far.h a } else y).sems = y.sems := by
    intro y a
    split <;> rfl
  cases hopens : c.opens
  · simp [Job.strmPay, hopens, hread]
  · simp only [Job.strmPay, hopens, Bool.true_and, if_true, hread]
    split <;> rfl

theorem streamElements : Claims.StreamElements := by
  intro s core k upTo x c host e hc hx j n
  have hexec : exec (.streamElementComplete core k host e upTo) s = execStreamElementComplete core k host e s upTo := rfl
  refine ⟨fun hwait => ?waits, fun hruns hhalt hn hready => ⟨fun d l hstale => ?stale, fun hfresh hpage hserves hgood => ?moves⟩, fun hopens => ?pays,
    fun hopens => ?free⟩
  case waits => simp [hexec, execStreamElementComplete, hc, hx, hwait, n]
  case stale =>
    have hn' : ¬ c.part upTo = 0 := by omega
    simp [hexec, execStreamElementComplete, hc, hx, j, n, hruns, hhalt, hn', hready, hstale]
    rfl
  case moves =>
    intro data moved
    have hn' : ¬ n = 0 := by omega
    have hlen : data.length = n := State.length_strmData ..
    have hserve : (x.readsHost c.f && !(s.port x.owner).servesHost) = false := by
      cases hr : x.readsHost c.f
      · rfl
      · simp [hserves hr]
    have hread : (if x.readsHost c.f then ReadErr.good else s.readOutcome j c.reads.h c.reads.off n e) = .good := by
      split
      · rfl
      · exact hgood.resolve_left ‹_›
    have hmove : exec (.streamElementComplete core k host e upTo) s = .next (s.moveElement j core k x c data) := by
      simp only [hexec, execStreamElementComplete, hc, hx]
      simp only [n, j] at *
      simp only [hruns, hhalt, hn', hready, hfresh, hserve, hpage, hread]
      simp [data, n, j]
    rw [hmove]
    refine ⟨fun hdone => ?_, fun hpart => ?_⟩
    · have hcompletes : c.completes n = true := by simpa [Chan.completes] using hdone
      simp only [State.moveElement, hlen, hcompletes, if_true]
      rfl
    · have hcompletes : c.completes n = false := by simpa [Chan.completes] using hpart
      simp only [State.moveElement, hlen, hcompletes, Bool.false_eq_true, if_false]
      rfl
  case pays =>
    rw [Job.sem, strmPay_sems]
    simp [hopens]
  case free => simp [strmPay_sems, hopens]

/-- Settles O39. -/
theorem copiesAndStreams : Obligations.CopiesAndStreams := ⟨copies, copyProgress, streamIssue, streamElements⟩

/-! ### The pages of host handles -/

theorem State.jobNums_setPort (s : State) (p : Port) (x : PortSt) : (s.setPort p x).jobNums = s.jobNums := by simp [State.jobNums]

theorem State.anyHalted_setPort (s : State) (p : Port) (x : PortSt) (pg : Nat × Nat) (hrings : x.rings = (s.port p).rings) :
    (s.setPort p x).anyHalted p pg = s.anyHalted p pg := by
  have hring : ∀ r, (s.setPort p x).ring p r = s.ring p r := by
    intro r
    simp only [State.ring, State.port_setPort_self, PortSt.ring, hrings]
  simp only [State.anyHalted, State.ringHalted, State.jobNums_setPort, State.job_setPort, hring, State.halted, State.core_setPort]

/-- A step that marks the jobs halted on a page changes no port and puts out nothing. -/
theorem foldl_paged (is : List Nat) (s : State) (pg : Nat × Nat) (p : Port) :
    ((s.each is fun s j => if s.halted j pg then s.modJob j fun x => { x with paged := true } else s).port p) = s.port p ∧
    (s.each is fun s j => if s.halted j pg then s.modJob j fun x => { x with paged := true } else s).out = s.out := by
  refine State.each_induct (P := fun t => t.port p = s.port p ∧ t.out = s.out) ⟨rfl, rfl⟩ fun t j _ ⟨hport, hout⟩ => ?_
  split
  · simp [hport, hout]
  · exact ⟨hport, hout⟩

/-- A translation request that is answered: its port looks at the page again, or refuses it where it serves no host handle. -/
theorem execAtsTranslationCompletion_of_asked {s : State} {p : Port} {pasid page : Nat} (y : Option Xlat) (hlive : s.live = true)
    (hreq : (s.port p).atsReqs.contains (pasid, page) = true) :
    let q : PortSt := { s.port p with atsReqs := (s.port p).atsReqs.erase (pasid, page) }
    execAtsTranslationCompletion p pasid page y s = if (s.port p).servesHost = true then
        let t := match y with
          | some y => if y.read || y.write then s.setPort p (q.cache (atsEntry pasid page y)) else s.setPort p q
          | none => s.setPort p q
        .next (State.each (t.each t.jobNums fun s j => s.retryPage p (pasid, page) j) (List.range 8) fun s r => s.retryRing p (pasid, page) r)
      else .next ((s.setPort p q).refuseAll 0x0308 p (pasid, page)) := by
  intro q
  have hserves : ((s.modPort p fun q => { q with atsReqs := q.atsReqs.erase (pasid, page) }).port p).servesHost = (s.port p).servesHost := by
    rw [State.port_modPort_self]
    rfl
  simp only [execAtsTranslationCompletion, hlive, hreq, hserves]
  cases hs : (s.port p).servesHost
  · rfl
  · cases y with
    | none => rfl
    | some y =>
      cases hg : (y.read || y.write)
      · simp only [hg, Bool.not_true, Bool.or_self, Bool.false_eq_true, if_false, if_true]
        rfl
      · simp only [hg, if_true, Bool.not_true, Bool.or_self, Bool.false_eq_true, if_false, State.modPort_modPort]
        rfl

/-- The state once a page that waits has its request. -/
def askPage (s : State) (p : Port) (pg : Nat × Nat) : State :=
  let t := s.setPort p { s.port p with pageWait := (s.port p).pageWait.erase pg, pageReqs := (s.port p).pageReqs ++ [pg] }
  ((t.each s.jobNums fun s j => if s.halted j pg then s.modJob j fun x => { x with paged := true } else s).bump (ctrPages p) 1).emit
    (.page p pg.1 pg.2)

/-- Settles O16: each row of the page requests and translations. -/
theorem hostPages : Obligations.HostPages := by
  refine ⟨fun s p pasid page y hlive hserves hreq => ?translated, fun s p pasid page hlive hserves => ?refused, fun s p pg hnew => ?asked,
    fun s p pasid page hlive hserves hpri hroom hwait => ?requested, fun s p pasid page hlive hreq => ?answered, fun s p pasid page r hnone => ?unknown,
    fun s j x n k c pg hlive hx hjob hchan hhalt => ?streamLate, fun s j x pg hlive hx hhalt => ?releaseLate,
    fun s j p r c y hlive hcur hpage hhalt => ?commandLate, fun s p pasid page len hlive => ?invalidated, fun s p ats pri pasid alloc hlive => ?reset⟩
  case translated =>
    intro q again
    have hanswer := fun y => execAtsTranslationCompletion_of_asked y hlive hreq
    refine ⟨fun hgrants => (hanswer (some y)).trans ?_, fun hgrants => (hanswer (some y)).trans ?_, (hanswer none).trans ?_⟩
    · simp only [hserves, if_true, hgrants, State.jobNums_setPort]
      rfl
    · simp only [hserves, if_true, hgrants, Bool.false_eq_true, if_false, State.jobNums_setPort]
      rfl
    · simp only [hserves, if_true, State.jobNums_setPort]
      rfl
  case refused =>
    refine ⟨fun y hreq => (execAtsTranslationCompletion_of_asked y hlive hreq).trans ?_, fun hwait => ?_⟩
    · simp only [hserves, Bool.false_eq_true, if_false]
    · change execPageRequest p pasid page s = _
      simp only [execPageRequest, hlive, hwait, hserves]
      rfl
  case asked =>
    have hask : s.askXlat p pg = (s.modPort p fun q => { q with atsReqs := q.atsReqs ++ [pg] }).emit (.translate p pg.1 pg.2) := by
      simp only [State.askXlat, hnew]
      rfl
    rw [hask]
    refine ⟨by simp, ?_⟩
    cases p <;> rfl
  case requested =>
    have hfull : ((s.port p).priFailed || decide (min 512 (s.port p).pageAlloc ≤ (s.port p).pageReqs.length)) = false := by
      simpa [hpri] using hroom
    obtain ⟨hport, hout⟩ := foldl_paged s.jobNums (s.setPort p { s.port p with
      pageWait := (s.port p).pageWait.erase (pasid, page), pageReqs := (s.port p).pageReqs ++ [(pasid, page)] }) (pasid, page) p
    refine ⟨askPage s p (pasid, page), ?_, ?_, ?_, ?_⟩
    · change execPageRequest p pasid page s = _
      simp only [execPageRequest, hlive, hwait, hserves, hfull, State.jobNums_setPort]
      rfl
    · rw [askPage, State.port_emit, State.port_bump, hport, State.port_setPort_self]
    · rw [askPage, State.port_emit, State.port_bump, hport, State.port_setPort_self]
    · rw [askPage, State.emit, State.out_bump, hout]
      cases p <;> rfl
  case answered =>
    intro freed
    have hfree : ∀ b, ((freed b).port p).servesHost = (s.port p).servesHost := by
      intro b
      rw [State.port_setPort_self]
      rfl
    have hexec : ∀ r, exec (.pageResponse p pasid page r) s = .next (if r = .success ∧ (s.port p).servesHost = true then
        (if s.anyHalted p (pasid, page) then (freed (r == .failure)).askXlat p (pasid, page) else freed (r == .failure))
        else (freed (r == .failure)).refuseAll 0x0308 p (pasid, page)) := by
      intro r
      change execPageResponse p pasid page r s = _
      have hhalted : (freed (r == .failure)).anyHalted p (pasid, page) = s.anyHalted p (pasid, page) := State.anyHalted_setPort _ _ _ _ rfl
      rw [← hfree (r == .failure), ← hhalted]
      simp only [execPageResponse, hlive, hreq]
      rfl
    refine ⟨fun hs => ?_, fun hs => ?_, ?_, ?_⟩
    · simp only [hexec, hs, and_self, if_true]
      split <;> rfl
    · simp only [hexec, hs, Bool.false_eq_true, and_false, if_false]
      rfl
    · rw [hexec, if_neg (by simp)]
      rfl
    · rw [hexec, if_neg (by simp)]
      rfl
  case unknown =>
    change execPageResponse p pasid page r s = _
    simp only [execPageResponse, hnone, Bool.not_false, Bool.or_true, if_true]
  case streamLate =>
    change execPageTimeout j (some (n, k)) s none = _
    simp [execPageTimeout, hlive, hx, hjob, hchan, hhalt]
  case releaseLate =>
    change execPageTimeout j none s none = _
    simp [execPageTimeout, hlive, hx, hhalt]
  case commandLate =>
    change execPageTimeout j none s (some (p, r)) = _
    simp [execPageTimeout, hlive, hpage, hhalt, State.refuseRing, hcur]
  case invalidated =>
    refine ⟨_, if_pos hlive, ?_, fun e => ?_⟩
    · cases p <;> rfl
    · rw [State.port_emit, State.port_modPort_self]
      simp only [List.mem_filter, atsMeets, Bool.not_eq_true', Bool.and_eq_false_iff, beq_eq_false_iff_ne, decide_eq_false_iff_not]
      refine and_congr_right fun _ => ?_
      omega
  case reset => exact if_pos hlive

end Sys2Proof.Machine
end

section
/-! The use of evaluation keys (R163 to R165, R171). -/

namespace Sys2Proof.Machine
open Sys2Proof.Claims

/-- A KEY_SELFCHECK of family 2 and prime 0, without a vector. -/
def selfcheckCommand : Bytes := [BitVec.ofNat 8 0x13, 1] ++ zeros 0x39 ++ [BitVec.ofNat 8 2] ++ zeros 4

/-- A module that runs, with that command at ring 0 of port A. -/
def selfchecks : State := State.setRing { pins := { power := .on } } .a 0 { current := some selfcheckCommand }

theorem holds_selfcheckCommand : Holds selfchecks .a 0 0x13 selfcheckCommand := by decide +kernel

/-- A completion without a vector is the last thing put out. -/
theorem State.out_complete_of_quiet {s : State} {p : Port} {r : Nat} {c : Bytes} (hcur : (s.ring p r).current = some c)
    (hquiet : bit (field c 1 1) 0 = true) (d : Done) : (s.complete p r d).out.tail = s.out := by
  simp only [State.complete, hcur, hquiet, if_true]
  cases p <;> rfl

/-- What is written to the buffer of that command where its buffer fails after one byte. -/
theorem out_writeBuffer_selfchecks (x : Byte) (b : Bytes) (d : Done) :
    (selfchecks.writeBuffer .a 0 false (x :: b) d 1).out.tail = [.host .a none 0 [x]] := by
  have hpasid : bufPasid selfcheckCommand = none := by decide +kernel
  have haddr : field selfcheckCommand 8 8 = 0 := by decide +kernel
  have hwrite : selfchecks.writeBuffer .a 0 false (x :: b) d 1 = (selfchecks.emit (.host .a none 0 [x])).refuse .a 0 cBufferFault := by
    simp only [State.writeBuffer, show (selfchecks.ring .a 0).current = some selfcheckCommand from rfl,
      show (selfchecks.ring .a 0).sent = 0 from rfl, State.bufPut, hpasid, haddr]
    rfl
  rw [hwrite, State.refuse, State.out_complete_of_quiet (c := selfcheckCommand) rfl (by decide +kernel)]
  rfl

/-- Refutes O41: its last clause says of family 3 what it says of family 2, with the codes of both, for the command that names family 2;
the first byte written cannot be the code of both. -/
theorem not_keyUse : ¬ Obligations.KeyUse := by
  rintro ⟨-, hselfcheck⟩
  obtain ⟨-, hwrites⟩ := hselfcheck selfchecks .a 0 selfcheckCommand holds_selfcheckCommand
  have h28 := hwrites .z28 (by decide +kernel) (by decide +kernel) false 1
  have h18 := hwrites .z18 (by decide +kernel) (by decide +kernel) false 1
  have hsame := Host.Outcome.next.inj (h28.symm.trans h18)
  have hout := congrArg (fun t : State => t.out.tail) hsame
  simp only [List.append_assoc, show le 1 (famCode .z28) = [2#8] by decide, show le 1 (famCode .z18) = [3#8] by decide, List.cons_append,
    List.nil_append, out_writeBuffer_selfchecks] at hout
  exact absurd hout (by decide)

end Sys2Proof.Machine
end

section
/-! The loading of evaluation keys (R155 to R162): which ingest is taken, the checks in their order, and what a complete ingest leaves. -/

namespace Sys2Proof.Machine
open Sys2Proof.Claims

/-! ### Which ingest is taken -/

theorem State.takeIngest_of_busy (n : Nat) {s : State} (h : s.ingest.isSome = true) : State.takeIngest n s = s := by
  cases n with
  | zero => rfl
  | succ n => simp [State.takeIngest, h]

theorem State.ingestStep_of_busy {s : State} (h : s.ingest.isSome = true) : s.ingestStep = s := State.takeIngest_of_busy _ h

/-- A state without a queue is as it is with an empty one. -/
theorem State.eta_ingestQ {s : State} (h : s.ingestQ = []) : { s with ingestQ := [] } = s := by
  cases s
  simp only at h
  rw [h]

@[simp] theorem State.hold_ingestQ (s : State) (p : Port) (r : Nat) : (s.hold p r).ingestQ = s.ingestQ := by cases p <;> rfl

theorem State.hold_queue (s : State) (q : List IngestWait) (p : Port) (r : Nat) :
    State.hold { s with ingestQ := q } p r = { s.hold p r with ingestQ := q } := by cases p <;> rfl

@[simp] theorem State.ring_hold (s : State) (p : Port) (r : Nat) : (s.hold p r).ring p r = { s.ring p r with held := true } := by
  simp [State.hold]

/-- The bytes of the source of an ingest, where they can be read. -/
def State.ingestSource (t : State) (p : Port) (c : Bytes) (src : Option Bytes) : Option Bytes :=
  if field c 0x28 1 = 1 then t.stagingBytes p (field c 2 1) c else src.map (fit (field c 0x10 4))

/-- The state once an ingest is taken: it is in hand with its source, or refused. -/
def State.ingestTaken (t : State) (p : Port) (r : Nat) (c : Bytes) (src : Option Bytes) : State :=
  match t.ingestSource p c src with
  | none => (if field c 0x28 1 = 1 then t.stagingTag p (field c 2 1) c else t).refuse p r 0x023A
  | some b => { t with ingest := some { port := p, ring := r, job := field c 2 1, set := (c.drop 0x18).take 16, src := b } }

/-- The next ingest of a queue is taken: it leaves the queue, whatever becomes of it. -/
theorem State.takeIngest_one {u t : State} {w : IngestWait} {c : Bytes} (hidle : u.ingest = none) (hnext : u.nextIngest = some w)
    (hrest : { u with ingestQ := u.ingestQ.erase w } = t) (hwaits : t.waitingIngest w = some c) :
    State.takeIngest 1 u = State.ingestTaken { t with ingestLast := w.port } w.port w.ring c w.src := by
  subst hrest
  rw [State.takeIngest, if_neg (by simp [hidle]), hnext]
  dsimp only
  rw [hwaits]
  unfold State.ingestTaken
  generalize hsource : State.ingestSource _ _ _ _ = b
  simp only [State.ingestSource] at hsource
  dsimp only
  rw [hsource]
  cases b <;> rfl

/-- An ingest that comes where none is in hand and none waits is taken at once. -/
theorem State.ingestStep_first {s : State} {p : Port} {r : Nat} {c : Bytes} (src : Option Bytes) (hholds : Holds s p r 0x12 c)
    (hidle : s.ingest = none) (hempty : s.ingestQ = []) :
    State.ingestStep (State.hold { s with ingestQ := [{ port := p, ring := r, src := src }] } p r) =
      State.ingestTaken { s.hold p r with ingestLast := p } p r c src := by
  obtain ⟨hcur, hop, -⟩ := hholds
  have hnone : (s.hold p r).ingest = none := by
    rw [← hidle]
    cases p <;> rfl
  have hnext : ∀ w : IngestWait, State.nextIngest { s.hold p r with ingestQ := [w] } = some w := by
    intro w
    simp only [State.nextIngest, List.find?_cons, List.find?_nil, List.head?_cons]
    split <;> rfl
  have hrest : { s.hold p r with ingestQ := [] } = s.hold p r := State.eta_ingestQ (by rw [State.hold_ingestQ, hempty])
  have hwaits : (s.hold p r).waitingIngest { port := p, ring := r, src := src } = some c := by
    simp [State.waitingIngest, hcur, hop]
  have htake := State.takeIngest_one (u := { s.hold p r with ingestQ := [{ port := p, ring := r, src := src }] }) (t := s.hold p r) hnone (hnext _)
    (by rw [← hrest]; simp) hwaits
  rw [State.hold_queue, State.ingestStep]
  exact htake

theorem exec_keyIngest_first {s : State} {p : Port} {r : Nat} {c : Bytes} (src : Option Bytes) (hholds : Holds s p r 0x12 c)
    (hidle : s.ingest = none) (hempty : s.ingestQ = []) :
    exec (.keyIngest p r src) s = .next (State.ingestTaken { s.hold p r with ingestLast := p } p r c src) := by
  change execKeyIngest p r src s = _
  rw [execKeyIngest, State.command_of_holds hholds]
  simp only [hempty, List.filter_nil, List.nil_append, State.ingestStep_first src hholds hidle hempty]

theorem State.stages_hold (s : State) (p q : Port) (r j h : Nat) : State.stages { s.hold p r with ingestLast := p } q j h = s.stages q j h := by
  cases p <;> cases q <;> rfl

/-- What an ingest in hand comes to once it is complete. -/
theorem exec_keyIngestComplete {s : State} {g : Ingest} (hlive : s.live = true) (hg : s.ingest = some g) :
    exec (.keyIngestComplete g.port g.ring) s = .next (s.endIngest g).ingestStep := by
  change execKeyIngestComplete g.port g.ring s = _
  simp [execKeyIngestComplete, hlive, State.ingestStep_of_busy (s := s) (by simp [hg]), hg]

theorem keyIngest : Claims.KeyIngest := by
  refine ⟨fun s p r c b hholds hidle hempty hbuffer => ?buffer, fun s p r c b hholds hidle hempty hwindow => ?window,
    fun s p r c g b hholds hg => ?waits, fun s g x hlive hg hx => ?complete⟩
  case buffer =>
    intro g
    refine ⟨(exec_keyIngest_first (some b) hholds hidle hempty).trans ?_, (exec_keyIngest_first none hholds hidle hempty).trans ?_⟩
    · simp only [State.ingestTaken, State.ingestSource, if_neg hbuffer]
      rfl
    · simp only [State.ingestTaken, State.ingestSource, if_neg hbuffer]
      rfl
  case window =>
    refine ⟨fun d hd => (exec_keyIngest_first b hholds hidle hempty).trans ?_, fun hno => (exec_keyIngest_first b hholds hidle hempty).trans ?_⟩
    · simp only [State.ingestTaken, State.ingestSource, if_pos hwindow, hd]
    · have hbytes : State.stagingBytes { s.hold p r with ingestLast := p } p (field c 2 1) c = none := by
        simp only [State.stagingBytes, State.stages_hold, hno]
        rfl
      have htag : State.stagingTag { s.hold p r with ingestLast := p } p (field c 2 1) c = { s.hold p r with ingestLast := p } := by
        simp only [State.stagingTag, State.stages_hold, hno]
        rfl
      simp only [State.ingestTaken, State.ingestSource, if_pos hwindow, hbytes, htag]
      rfl
  case waits =>
    change execKeyIngest p r b s = _
    rw [execKeyIngest, State.command_of_holds hholds]
    dsimp only
    rw [State.ingestStep_of_busy]
    rw [State.hold_queue]
    have hbusy : (s.hold p r).ingest = s.ingest := by cases p <;> rfl
    simp [hbusy, hg]
  case complete =>
    intro s'
    have hjob : State.job { s with ingest := none } g.job = some x := hx
    have hdone := exec_keyIngestComplete hlive hg
    refine ⟨fun y v0 v1 runs hplace => hdone.trans ?_, fun y v0 v1 id ix runs hplace => hdone.trans ?_, fun k hplace => hdone.trans ?_⟩
    · simp only [s'] at hplace
      simp only [State.endIngest, hjob, hplace]
      rfl
    · simp only [s'] at hplace
      simp only [State.endIngest, hjob, hplace]
      rfl
    · simp only [s'] at hplace
      simp only [State.endIngest, hjob, hplace]
      rfl

/-! ### The checks in their order -/

theorem State.place?_manifest {s : State} {j : Nat} {x : Job} {set b : Bytes} (h : field b 0 4 = 0x4D4B4A46) :
    s.place? j x set b = s.placeManifest j x b := by
  exact if_pos h

theorem State.place?_container {s : State} {j : Nat} {x : Job} {set b : Bytes} (h : field b 0 4 = 0x594B4A46) :
    s.place? j x set b = s.placeContainer j x set b := by
  rw [State.place?, if_neg (by rw [h]; decide)]
  exact if_pos h

theorem Job.length_modSet (x : Job) (id : Bytes) (f : KeySet → KeySet) : (x.modSet id f).sets.length = x.sets.length := by
  simp [Job.modSet]

/-- The set that a manifest opens: its fields, with nothing placed. -/
def State.manifestSet (s : State) (x : Job) (b : Bytes) : KeySet :=
  { id := manifestId b, scheme := field b 5 1, set := field b 6 1, plainMod := field b 0xA 1, flags := field b 7 1,
    entries := manifestEntries b, runs := s.keyRuns x b.length }

/-- The 4 KiB blocks that a container lies in: those of the key that it restores, or new ones. -/
def State.containerRuns (s : State) (x : Job) (k : KeySet) (b : Bytes) : List (Nat × Nat) :=
  ((k.placed.find? fun c => c.1 == field b 8 2).map fun c => c.2.runs).getD (s.keyRuns x b.length)

/-- The job with the container placed in its set. -/
def State.withContainer (s : State) (x : Job) (k : KeySet) (set b : Bytes) : Job :=
  x.modSet set fun k' => { k' with placed := Tbl.set k'.placed (field b 8 2) { header := b.take 128, body := b.drop 128, runs := s.containerRuns x k b } }

theorem keyChecks : Claims.KeyChecks := by
  refine ⟨fun s j x set b hmagic => ?manifest, fun s j x set b k hmagic hok hset => ?container⟩
  case manifest =>
    rw [State.place?_manifest hmagic]
    refine ⟨fun hbad => ?_, fun hok hdup => ?_, fun hok hnew hmany => ?_, fun hok hnew hsets hmine hfull => ?_, fun hok hnew hsets hmine hroom => ?_⟩
    · simp [State.placeManifest, hbad]
    · simp [State.placeManifest, hok, hdup]
    · simp only [State.placeManifest, hok, hnew, if_pos hmany]
      rfl
    · have hfew : ¬ (1024 ≤ s.allSets.length ∨ 256 ≤ x.sets.length) := by omega
      simp only [State.placeManifest, hok, hnew, if_neg hfew, hfull]
      rfl
    · have hfew : ¬ (1024 ≤ s.allSets.length ∨ 256 ≤ x.sets.length) := by omega
      refine ⟨{ x with sets := x.sets ++ [s.manifestSet x b] }, leVal ((manifestId b).take 8), leVal ((manifestId b).drop 8), ?_, by simp,
        s.manifestSet x b, rfl, rfl, rfl, rfl, rfl, rfl⟩
      simp only [State.placeManifest, hok, hnew, if_neg hfew, hroom]
      rfl
  case container =>
    rw [State.place?_container hmagic]
    refine ⟨fun hlists => ?_, fun hlists hremote => ?_, fun hlists hremote hthere => ?_, fun hlists hremote hnew => ⟨fun hwhole hfull => ?_, fun hroom e he =>
      ⟨fun hdigest => ?_, fun hdigest => ?_⟩⟩⟩
    · simp [State.placeContainer, hok, hset, hlists]
    · simp [State.placeContainer, hok, hset, hlists, hremote]
    · simp [State.placeContainer, hok, hset, hlists, hremote, hthere]
    · simp [State.placeContainer, hok, hset, hlists, hremote, hnew, hwhole, hfull]
    · have hfits : (!k.damagedKey (field b 8 2) && s.keyFull j x b.length) = false := by
        obtain h | h := hroom <;> simp [h]
      simp [State.placeContainer, hok, hset, hlists, hremote, hnew, hfits, he, hdigest]
    · have hfits : (!k.damagedKey (field b 8 2) && s.keyFull j x b.length) = false := by
        obtain h | h := hroom <;> simp [h]
      refine ⟨s.withContainer x k set b, (((s.withContainer x k set b).keySet set).map KeySet.stateCode).getD 0, s.containerRuns x k b, ?_,
        Job.length_modSet ..⟩
      simp [State.placeContainer, hok, hset, hlists, hremote, hnew, hfits, he, hdigest, State.withContainer, State.containerRuns]

/-- Settles O40. -/
theorem keyLoading : Obligations.KeyLoading := ⟨keyIngest, keyChecks⟩

end Sys2Proof.Machine
end

section
/-! Key streams and key passes (R166 to R178, R429). -/

namespace Sys2Proof.Machine
open Sys2Proof.Claims

/-! ### What a replay leaves of a headbox and of the boot state -/

/-- The retired expanders of a headbox and the state of the boot, which a replay does not change. -/
def State.worn (s : State) (m : Nat) : List Nat × Boot := ((s.headbox m).retired, s.boot)

theorem State.worn_of_eq {s t : State} (h : s.headboxes = t.headboxes) (h' : s.boot = t.boot) (m : Nat) : s.worn m = t.worn m := by
  simp [State.worn, State.headbox, h, h']

theorem State.worn_each {α : Type} {f : State → α → State} {m : Nat} (h : ∀ s a, (f s a).worn m = s.worn m) (s : State) (xs : List α) :
    (s.each xs f).worn m = s.worn m :=
  State.each_induct (P := fun t => t.worn m = s.worn m) rfl (fun t a _ ht => (h t a).trans ht)

theorem Tbl.get_map_retired (t : Tbl Headbox) (f : Headbox → Headbox) (h : ∀ x, (f x).retired = x.retired) (m : Nat) :
    (Tbl.get {} (t.map fun c => (c.1, f c.2)) m).retired = (Tbl.get {} t m).retired := by
  induction t with
  | nil => rfl
  | cons c t ih =>
    simp only [List.map_cons, Tbl.get]
    split
    · exact h _
    · exact ih

theorem State.worn_modJob (s : State) (j : Nat) (f : Job → Job) (m : Nat) : (s.modJob j f).worn m = s.worn m := State.worn_of_eq (by simp) (by simp) m

theorem State.worn_modSpan (s : State) (i : Nat) (f : Span → Span) (m : Nat) : (s.modSpan i f).worn m = s.worn m := rfl

theorem State.worn_bump (s : State) (k n m : Nat) : (s.bump k n).worn m = s.worn m := by
  unfold State.bump; split <;> rfl

theorem State.worn_modPort (s : State) (p : Port) (f : PortSt → PortSt) (m : Nat) : (s.modPort p f).worn m = s.worn m :=
  State.worn_of_eq (by simp) (by simp) m

theorem State.worn_errRec (s : State) (r : ErrRec) (m : Nat) : (s.errRec r).worn m = s.worn m := by
  simp [State.errRec, State.onPorts, State.putRec, State.worn_modPort]

@[simp] theorem State.headbox_retired (s : State) (code res index m : Nat) : (s.retired code res index).headbox m = s.headbox m := by
  simp [State.retired, State.errRec, State.onPorts, State.putRec, State.headbox]

theorem State.degraded_retired (s : State) (code res index : Nat) : (s.retired code res index).boot.degraded = true := by
  simp [State.retired, State.errRec, State.onPorts, State.putRec]

theorem State.worn_jobCores (s : State) (j : Nat) (f : CoreSt → CoreSt) (m : Nat) : (s.jobCores j f).worn m = s.worn m := by
  unfold State.jobCores
  split
  · rfl
  · exact State.worn_each (f := fun s n => s.modCore n f) (fun _ _ => rfl) _ _

theorem State.worn_endKeyStreams (s : State) (j m : Nat) : (s.endKeyStreams j).worn m = s.worn m := by
  rw [State.endKeyStreams, State.worn_modJob]
  refine Prod.ext ?_ rfl
  exact Tbl.get_map_retired s.headboxes (fun h =>
    { h with streams := h.streams.map fun t => (t.1, t.2.filter fun k => k.job != j), staging := h.staging.filter fun b => b.2.job != j,
             served := Tbl.erase h.served j }) (fun _ => rfl) m

theorem State.worn_beginReplay (s : State) (j : Nat) (q : Quiesce) (m : Nat) : (s.beginReplay j q).worn m = s.worn m := by
  unfold State.beginReplay
  split
  · rfl
  dsimp only
  split
  · rfl
  split
  · exact State.worn_each (fun _ _ => State.worn_modSpan ..) _ _
  split
  · split <;> simp [State.worn_modJob, State.worn_errRec]
  split
  · simp [State.worn_modJob, State.worn_bump, State.worn_endKeyStreams, State.onPorts, State.endRequests, State.worn_modPort,
      State.worn_jobCores, State.worn_errRec]
  · rw [State.worn_each (fun _ _ => State.worn_modSpan ..)]
    simp [State.worn_modJob, State.worn_bump, State.worn_endKeyStreams, State.onPorts, State.endRequests, State.worn_modPort,
      State.worn_jobCores, State.worn_errRec]

/-! ### Grants of staging blocks -/

/-- The stream at a place of a headbox is as it was but for the blocks staged, which run ahead by the pool at most. -/
def KeyStream.RunsAhead (t : KeyStream) (v : KeyStream) : Prop :=
  v.acked = t.acked ∧ v.group = t.group ∧ v.blocks = t.blocks ∧ t.staged ≤ v.staged ∧ v.staged ≤ max t.staged (t.returned + keyPool)

theorem KeyStream.RunsAhead.returned {t v : KeyStream} (h : t.RunsAhead v) : v.returned = t.returned := by
  obtain ⟨hacked, hgroup, hblocks, -, -⟩ := h
  rw [KeyStream.returned, KeyStream.returned, hacked, hgroup, hblocks]

theorem KeyStream.RunsAhead.stage {t v : KeyStream} (h : t.RunsAhead v) (hroom : v.staged - v.returned < keyPool) :
    t.RunsAhead { v with staged := v.staged + 1 } := by
  have hreturned := h.returned
  obtain ⟨hacked, hgroup, hblocks, hlow, hhigh⟩ := h
  refine ⟨hacked, hgroup, hblocks, by dsimp only; omega, ?_⟩
  dsimp only
  omega

theorem Headbox.mem_running {h : Headbox} {q : Nat} {t : KeyStream} : (q, t) ∈ h.running ↔ q < 8 ∧ Tbl.get none h.streams q = some t := by
  simp only [Headbox.running, List.mem_filterMap, List.mem_range, Option.map_eq_some_iff, Prod.mk.injEq]
  constructor
  · rintro ⟨a, ha, b, hb, rfl, rfl⟩
    exact ⟨ha, hb⟩
  · rintro ⟨hq, ht⟩
    exact ⟨q, hq, t, ht, rfl, rfl⟩

theorem State.nextStream_wants {s : State} {m q : Nat} {t : KeyStream} (h : s.nextStream m = some (q, t)) :
    Tbl.get none (s.headbox m).streams q = some t ∧ s.wantsBlock t = true := by
  obtain ⟨j, -, hfind⟩ := Option.bind_eq_some_iff.mp h
  obtain ⟨hmem, hwants⟩ := List.mem_filter.mp (List.mem_of_find?_eq_some hfind)
  exact ⟨(Headbox.mem_running.mp hmem).2, hwants⟩

@[simp] theorem State.headbox_modHeadbox (s : State) (m : Nat) (f : Headbox → Headbox) : (s.modHeadbox m f).headbox m = f (s.headbox m) :=
  Tbl.get_set_self ..

@[simp] theorem State.notePasses_headbox (s : State) (m : Nat) : s.notePasses.headbox m = s.headbox m := rfl

@[simp] theorem State.bump_headbox (s : State) (k n m : Nat) : (s.bump k n).headbox m = s.headbox m := by
  unfold State.bump; split <;> rfl

theorem State.stageBlock_streams (s : State) (m q b : Nat) (t : KeyStream) :
    ((s.stageBlock m q b t).headbox m).streams = Tbl.set (s.headbox m).streams q (some { t with staged := t.staged + 1 }) := by
  simp only [State.stageBlock, State.notePasses_headbox, State.bump_headbox, State.headbox_modHeadbox]

theorem State.grantKeys_runsAhead {t : KeyStream} {m q : Nat} (n : Nat) (s : State) {v : KeyStream}
    (hv : Tbl.get none (s.headbox m).streams q = some v) (h : t.RunsAhead v) :
    ∃ v', Tbl.get none ((State.grantKeys n s m).headbox m).streams q = some v' ∧ t.RunsAhead v' := by
  induction n generalizing s v with
  | zero => exact ⟨v, hv, h⟩
  | succ n ih =>
    unfold State.grantKeys
    split
    next q' t' b hnext _ =>
      obtain ⟨hstream, hwants⟩ := State.nextStream_wants hnext
      have hroom : t'.staged - t'.returned < keyPool := by
        simp only [State.wantsBlock, Bool.and_eq_true, decide_eq_true_eq] at hwants
        exact hwants.1.2
      by_cases hq : q' = q
      · subst hq
        obtain rfl : v = t' := Option.some.inj (hv.symm.trans hstream)
        refine ih (s.stageBlock m q' b v) ?_ (h.stage hroom)
        rw [State.stageBlock_streams, Tbl.get_set_self]
      · refine ih (s.stageBlock m q' b t') ?_ h
        rw [State.stageBlock_streams, Tbl.get_set_ne _ _ _ _ _ hq]
        exact hv
    next => exact ⟨v, hv, h⟩

theorem State.grant_runsAhead {s : State} {t : KeyStream} {m q : Nat} (h : Tbl.get none (s.headbox m).streams q = some t) :
    ∃ v, Tbl.get none ((s.grant m).headbox m).streams q = some v ∧ t.RunsAhead v :=
  State.grantKeys_runsAhead 1024 s h ⟨rfl, rfl, rfl, le_refl _, le_max_left _ _⟩

/-! ### Acknowledgements -/

theorem exec_keyBlockAcknowledged {s : State} {m q n : Nat} {t : KeyStream} (hlive : s.live = true)
    (ht : Tbl.get none (s.headbox m).streams q = some t) (hgroup : t.group.contains n = true) (hstaged : Tbl.get 0 t.acked n < t.staged) (e : HbCheck) :
    exec (.keyBlockAcknowledged m q n e) s = match e with
      | .storage => .next (s.each (s.streamJobs m) fun s j =>
          s.beginReplay j { contained := false, code := 0x0501, res := { res := .headbox, index := m }, detail := 0, tag := 0 })
      | .expander i => if (s.headbox m).retired.contains i then .next s else .next (s.expanderCheck m i)
      | .container | .directory => match s.streamSet t with
        | none => .next s
        | some (k, _) => .next (s.damage t.job k.id t.index)
      | .good => .next (s.ackBlock m q n t) := by
  change execKeyBlockAcknowledged m q n e s = _
  simp only [execKeyBlockAcknowledged, ht, hlive, hgroup, Nat.not_le.mpr hstaged, decide_false, Bool.not_true, Bool.or_self, Bool.false_eq_true,
    if_false] <;> cases e <;> rfl

theorem State.streamSet_of_bound {s : State} {t : KeyStream} {x : Job} {k : KeySet} {p : ParamSet} (hx : s.job t.job = some x)
    (hk : x.boundSet t.slot = some k) (hp : paramSet k.set = some p) : s.streamSet t = some (k, p) := by
  simp [State.streamSet, hx, hk, hp]

theorem State.usesKey_of_stream {s : State} {m q : Nat} {t : KeyStream} {x : Job} {k : KeySet} (hm : m < 4) (hq : q < 8)
    (ht : Tbl.get none (s.headbox m).streams q = some t) (hk : x.boundSet t.slot = some k) : s.usesKey t.job k t.index = true := by
  have hslot : k.slot = some t.slot := by simpa using List.find?_some hk
  have hrun : ((List.range 4).any fun m => (s.headbox m).running.any fun c => c.2.job == t.job && k.slot == some c.2.slot && c.2.index == t.index) = true :=
    List.any_eq_true.mpr ⟨m, List.mem_range.mpr hm, List.any_eq_true.mpr ⟨(q, t), Headbox.mem_running.mpr ⟨hq, ht⟩, by simp [hslot]⟩⟩
  rw [State.usesKey, hrun]
  rfl

theorem State.needs_present {s : State} {n slot : Nat} {fs : List Fmt} {es : List Nat} {f : OpAct} (h : Claims.Present s fs es) :
    s.needs n slot fs es f = f := if_pos h

theorem opKeyStreamStart_uses {s : State} {i : Issue} {slot index d0 d1 l0 l1 : Nat} {group : List Nat} {x : Job} {k : KeySet}
    (hx : s.job (s.core i.core).job = some x) (hk : x.boundSet slot = some k) (hfree : (s.headbox (s.millOf i.core)).freeStream.isSome = true)
    (hfresh : s.passFresh (s.core i.core).job k index = true) : (opKeyStreamStart i slot index d0 d1 l0 l1 group s).uses = {} := by
  simp [opKeyStreamStart, hx, hk, hfree, hfresh]

/-- The ranges of digits and limbs are in order and within the set, and the group is of cores of the job on the mill. -/
theorem not_badRange {s : State} {x : Job} {p : ParamSet} {m d0 d1 l0 l1 : Nat} {group : List Nat} (hd : d0 ≤ d1) (hd1 : d1 < p.dnum) (hl : l0 ≤ l1)
    (hl1 : l1 < p.l + p.k) (hgroup : group ≠ []) (hcores : (group.all fun c => x.cores.contains c && s.millOf c == m) = true) :
    ¬ (d1 < d0 ∨ p.dnum ≤ d1 ∨ l1 < l0 ∨ p.l + p.k ≤ l1 ∨ group.isEmpty = true ∨
      (!(group.all fun c => x.cores.contains c && s.millOf c == m)) = true) := by
  rw [hcores]
  simp [hgroup, hd, hd1, hl, hl1]

theorem keyStreams : Claims.KeyStreams := by
  refine ⟨fun s i slot index d0 d1 l0 l1 group x k p e h hpresent hx hk hp hfresh hfree => ⟨fun hnone => ?unknown,
    fun hentry hd hd1 hl hl1 hgroup hcores => ⟨fun hdamaged => ?damaged, fun hsound q hq => ?opens⟩⟩,
    fun s m q n t hlive ht hgroup hstaged => ⟨fun hreturned => ⟨?good, ?ahead⟩, fun hlast => ?last, ?storage, fun i hi hfirst => ?check,
      fun i hi hsecond => ?retires, fun x k p hx hk hset hp hm hq e he => ?error⟩⟩
  case unknown =>
    refine (State.slotOp_alone_stop (c := .keyStreamStart i slot index d0 d1 l0 l1 group) (o := opKeyStreamStart i slot index d0 d1 l0 l1 group s)
      (opKeyStreamStart_uses hx hk hfree hfresh ▸ h) rfl (r := 7) (f := fun s => s.program i.core 0x0301 1 slotLoad 0xFFFF (keyRef slot index 0 0)) ?_)
    simp only [opKeyStreamStart, hx, Option.bind_some, hk, hp, Option.map_some, hnone, State.needs_present hpresent]
  case damaged =>
    refine (State.slotOp_alone_stop (c := .keyStreamStart i slot index d0 d1 l0 l1 group) (o := opKeyStreamStart i slot index d0 d1 l0 l1 group s)
      (opKeyStreamStart_uses hx hk hfree hfresh ▸ h) rfl (r := 7) (f := fun t => t.stopJob (s.core i.core).job
        { code := 0x0601, core := i.core, slot := slotLoad, bundle := (t.core i.core).bundle, data := zeros 3 ++ le 2 index ++ le 1 0 }) ?_)
    simp only [opKeyStreamStart, hx, Option.bind_some, hk, hp, Option.map_some, hentry, State.needs_present hpresent,
      if_neg (not_badRange hd hd1 hl hl1 hgroup hcores), hdamaged, dirDamaged, if_true]
  case opens =>
    refine (State.slotOp_alone_effect (c := .keyStreamStart i slot index d0 d1 l0 l1 group) (o := opKeyStreamStart i slot index d0 d1 l0 l1 group s)
      (f := ?f) (opKeyStreamStart_uses hx hk hfree hfresh ▸ h) rfl ?act (Op.place_lt (show slotLoad < 6 by decide))).trans ?eq
    case act =>
      simp only [opKeyStreamStart, hx, Option.bind_some, hk, hp, Option.map_some, hentry, State.needs_present hpresent,
        if_neg (not_badRange hd hd1 hl hl1 hgroup hcores), if_neg (show ¬ e.state = dirDamaged from hsound)]
      rfl
    case eq =>
      have hq' : ((began s i).headbox (s.millOf i.core)).freeStream = some q := hq
      simp only [hq']
  case good =>
    rw [exec_keyBlockAcknowledged hlive ht hgroup hstaged]
    exact congrArg Host.Outcome.next (if_pos hreturned)
  case ahead =>
    refine (State.grant_runsAhead ?_).imp fun v ⟨hv, hacked, hgroup', hblocks, hlow, hhigh⟩ => ⟨hv, hacked, hlow, hhigh⟩
    rw [show ∀ (u : State) f, (u.modJob t.job f).headbox m = u.headbox m from fun u f => by simp [State.headbox], State.headbox_modHeadbox]
    exact Tbl.get_set_self ..
  case last =>
    rw [exec_keyBlockAcknowledged hlive ht hgroup hstaged]
    exact congrArg Host.Outcome.next (if_neg (Nat.not_lt.mpr hlast))
  case storage => rw [exec_keyBlockAcknowledged hlive ht hgroup hstaged]
  case check =>
    simp only [exec_keyBlockAcknowledged hlive ht hgroup hstaged, hi, State.expanderCheck, hfirst, Bool.false_eq_true, if_false]
  case retires =>
    simp only [exec_keyBlockAcknowledged hlive ht hgroup hstaged, hi, State.expanderCheck, hsecond, Bool.false_eq_true, if_false, if_true]
    refine ⟨_, rfl, ?_⟩
    have hkept := State.worn_each (f := fun s j => s.beginReplay j { contained := false, code := 0x0505, res := { res := .headbox, index := m }, detail := 0, tag := 0 })
      (m := m) (fun _ _ => State.worn_beginReplay ..) ((s.retired 0x0505 0x07 (16 * m + i)).modHeadbox m fun h => { h with retired := h.retired ++ [i] })
      (s.jobsOnMill m)
    obtain ⟨hretired, hboot⟩ := Prod.mk.inj hkept
    refine ⟨hretired.trans ?_, (congrArg Boot.degraded hboot).trans ?_⟩
    · rw [State.headbox_modHeadbox, State.headbox_retired]
    · exact State.degraded_retired s 0x0505 0x07 (16 * m + i)
  case error =>
    rw [exec_keyBlockAcknowledged hlive ht hgroup hstaged]
    obtain rfl | rfl := he <;>
    simp only [State.streamSet_of_bound hx hk hp, State.damage, hx, Option.bind_some, hset, Option.any_some, State.usesKey_of_stream hm hq ht hk,
      if_true] <;> rfl

theorem keyPasses : Claims.KeyPasses := by
  refine ⟨fun s link src index d0 d1 keyset j rest k ring b hlive hlink hsrc hd hbound hring hplaced hremote => ?_,
    fun s link h keyset payload j rest k ring hlive hlink hgood => ?_⟩
  · change Host.Outcome.next (s.passOut link src keyset index d0 d1) = _
    simp [State.passOut, hlive, hlink, hsrc, Nat.not_lt.mpr hd, hbound, hring, hplaced, hremote]
  · intro s'
    have hexec : exec (.keyMessage link h keyset payload) s =
        .next (if h.dst = s'.self then s'.passIn link h keyset payload else s'.forward h clsKey (keyFlit h keyset payload) (some link)) := by
      change execKeyMessage link h keyset payload s = _
      simp only [execKeyMessage, hlive, hlink, State.takeIn, hgood]
      rfl
    rw [hexec]
    refine ⟨fun hother => ?_, fun hself hnone => ?_, fun hself hbound hring => ?_⟩
    · rw [if_neg hother]
      rfl
    · simp only [if_pos hself, State.passIn, hnone, List.head?_nil]
    · simp only [if_pos hself, State.passIn, hbound, List.head?_cons, hring]
      rfl

/-- Settles O42. -/
theorem keyMovement : Obligations.KeyMovement := ⟨keyStreams, keyPasses⟩

end Sys2Proof.Machine
end

section
/-! Handles and bank groups (R294 to R304, R411). -/

namespace Sys2Proof.Machine
open Sys2Proof.Claims

theorem State.modJob_none {s : State} {j : Nat} {f : Job → Job} (h : s.job j = none) : s.modJob j f = s := by
  simp [State.modJob, h]

@[simp] theorem State.job_modGroup (s : State) (x : Nat) (f : Group → Group) (j : Nat) : (s.modGroup x f).job j = s.job j := rfl

@[simp] theorem State.group_modGroup_self (s : State) (x : Nat) (f : Group → Group) : (s.modGroup x f).group x = f (s.group x) :=
  Tbl.get_set_self ..

theorem State.group_modGroup_ne (s : State) {x y : Nat} (f : Group → Group) (h : x ≠ y) : (s.modGroup x f).group y = s.group y :=
  Tbl.get_set_ne _ _ _ _ _ h

@[simp] theorem State.job_hold (s : State) (p : Port) (r j : Nat) : (s.hold p r).job j = s.job j := by cases p <;> rfl

/-! ### HANDLE_MAP -/

theorem State.handleCommand_of_holds {s : State} {p : Port} {r : Nat} {c b : Bytes} {x : Job} (hholds : Holds s p r 0x21 c)
    (hx : s.job (field c 2 1) = some x) {k : Nat} (hfirst : (readHOps (fit (40 * (field c 0x10 4 / 40)) b) (field c 0x10 4 / 40)).head?.map HOp.op = some k)
    (hgood : hopsBad (fit (40 * (field c 0x10 4 / 40)) b) (field c 0x10 4 / 40) = none) :
    s.handleCommand p r (some b) k =
      match s.scanOps (field c 2 1) x 0 { wins := (s.port p).wins, view := x.view, now := x.handles }
          (readHOps (fit (40 * (field c 0x10 4 / 40)) b) (field c 0x10 4 / 40)) with
      | .error (st, i, k) => .next (s.complete p r { status := st, detail := i + 256 * k })
      | .ok m =>
        let s := s.modPort p fun q => { q with wins := m.wins }
        if x.runs ∧ m.ops ≠ [] then
          .next ((s.modJob (field c 2 1) fun x => { x with maps := x.maps ++ [({ port := p, ring := r, ops := m.ops } : PendMap)] }).hold p r)
        else .next ((s.modJob (field c 2 1) fun x => { x with handles := applyMaps x.handles m.ops }).complete p r {}) := by
  simp only [State.handleCommand, State.command_of_holds hholds, hx, hfirst, hgood]
  simp only [ne_eq, not_true_eq_false, false_and, if_false] <;> rfl

theorem exec_handleRow (s : State) (p : Port) (r : Nat) (b : Bytes) {k : Nat} (h1 : 1 ≤ k) (h4 : k ≤ 4) :
    exec (if k = 1 then .handleMap p r (some b) else if k = 2 then .handleUnmap p r (some b) else if k = 3 then .windowOpen p r (some b)
      else .windowClose p r (some b)) s = s.handleCommand p r (some b) k := by
  obtain rfl | rfl | rfl | rfl : k = 1 ∨ k = 2 ∨ k = 3 ∨ k = 4 := by omega
  all_goals rfl

theorem handleCommands : Claims.HandleCommands := by
  intro s p r c b x hholds hx j n ops start row k h1 h4 hfirst hgood
  have hrow : exec (row k) s = _ := (exec_handleRow s p r b h1 h4).trans (State.handleCommand_of_holds hholds hx hfirst hgood)
  refine ⟨fun st i d herr => ?_, fun m hm => ?_⟩
  · rw [hrow, show s.scanOps (field c 2 1) x 0 _ _ = _ from herr]
  · intro s'
    have hx' : s'.job j = some x := by rw [show s'.job j = s.job j from State.job_modPort ..]; exact hx
    refine ⟨fun hruns hops => ?_, fun hnow => ?_⟩
    · rw [hrow, show s.scanOps (field c 2 1) x 0 _ _ = _ from hm]
      dsimp only
      rw [if_pos ⟨by simp [Job.runs, hruns], hops⟩, State.modJob_some _ _ _ _ hx']
    · rw [hrow, show s.scanOps (field c 2 1) x 0 _ _ = _ from hm]
      dsimp only
      rw [if_neg (by obtain h | h := hnow <;> simp [Job.runs, h]), State.modJob_some _ _ _ _ hx']

/-- A scan after a handle number takes a new entry. -/
def MapScan.put (m : MapScan) (x : Job) (h : Nat) (e : Handle) : MapScan :=
  { m with view := Tbl.set m.view h e, now := if x.runs then m.now else Tbl.set m.now h e, ops := m.ops ++ [({ h := h, e := e } : MapOp)] }

theorem State.scanOp_map {s : State} {j : Nat} {x : Job} {m : MapScan} {o : HOp} (hop : o.op = 1)
    (hok : s.entryFault j x m.view o.h (readHandle o.raw) = none) : s.scanOp j x m o = .ok (m.put x o.h (readHandle o.raw)) := by
  simp only [State.scanOp, if_pos hop, hok]
  rfl

theorem State.scanOp_unmap {s : State} {j : Nat} {x : Job} {m : MapScan} {o : HOp} (hop : o.op = 2) (hh : o.h ≤ 4095) :
    s.scanOp j x m o = .ok (m.put x o.h {}) := by
  simp [State.scanOp, MapScan.put, hop, Nat.not_lt.mpr hh]

theorem State.scanOp_open {s : State} {j : Nat} {x : Job} {m : MapScan} {o : HOp} (hop : o.op = 3) (hh : o.h ≤ 4095)
    (hfree : Tbl.get none m.wins o.window = none) (hwin : windowOk (Tbl.get {} m.now o.h) = true) :
    s.scanOp j x m o =
      .ok { m with wins := Tbl.set m.wins o.window (some { keyStaging := bit o.flags 0, job := j, handle := o.h, baseGib := o.gib }) } := by
  simp [State.scanOp, hop, Nat.not_lt.mpr hh, hfree, hwin]

/-- The windows after one of them is closed for its handle. -/
def MapScan.closed (m : MapScan) (j : Nat) (o : HOp) : Tbl (Option Win) :=
  if (Tbl.get none m.wins o.window).any fun w => w.job == j && w.handle == o.h then Tbl.set m.wins o.window none else m.wins

theorem State.scanOp_close {s : State} {j : Nat} {x : Job} {m : MapScan} {o : HOp} (hop : o.op = 4) (hh : o.h ≤ 4095) :
    s.scanOp j x m o = .ok { m with wins := m.closed j o } := by
  simp [State.scanOp, hop, Nat.not_lt.mpr hh, MapScan.closed]

theorem handleOps : Claims.HandleOps := by
  intro s j x m o
  refine ⟨fun hop => ⟨fun k hbad => ?badMap, fun hok => ?map⟩, fun hop hh => ?unmap, fun hop hh => ⟨fun hused => ?used, fun hfree hwin => ?opens⟩,
    fun hop hh => ?closes⟩
  case badMap => simp only [State.scanOp, if_pos hop, hbad]
  case map => exact ⟨_, State.scanOp_map hop hok, Tbl.get_set_self .., fun h hne => Tbl.get_set_ne _ _ _ _ _ (Ne.symm hne), rfl⟩
  case unmap => exact ⟨_, State.scanOp_unmap hop hh, Tbl.get_set_self .., fun h hne => Tbl.get_set_ne _ _ _ _ _ (Ne.symm hne), rfl⟩
  case used => simp [State.scanOp, hop, Nat.not_lt.mpr hh, hused]
  case opens => exact ⟨_, State.scanOp_open hop hh hfree hwin, Tbl.get_set_self .., rfl, rfl⟩
  case closes =>
    refine ⟨_, State.scanOp_close hop hh, rfl, rfl, fun w hw hj hh' => ?_⟩
    simp [MapScan.closed, hw, hj, hh']

/-- Settles O43. -/
theorem handles : Obligations.Handles := ⟨handleCommands, handleOps⟩

/-! ### BANK_POWER -/

theorem State.powerCommand_of_holds {s : State} {p : Port} {r : Nat} {c : Bytes} {x : Job} {up : Bool} (hholds : Holds s p r 0x22 c)
    (hx : s.job (field c 2 1) = some x) (hup : field c 0x18 1 = 1 ↔ up = true) :
    s.powerCommand p r up = match s.powerFault (field c 2 1) x up (powerGroups c) with
      | some k => .next (s.complete p r { status := k })
      | none =>
        let w : PendPower := { port := p, ring := r, up := up, groups := powerGroups c, begun := !x.runs }
        let s := (s.each (powerGroups c) fun s g => s.modGroup g fun y => { y with pend := some up }).hold p r
        let s := s.modJob (field c 2 1) fun x => { x with power := x.power ++ [w] }
        .next (if x.runs then s else (s.beginPower w).endPower (field c 2 1) false) := by
  have hway : ((field c 0x18 1 == 1) != up) = false := by
    cases up <;> simp_all
  simp only [State.powerCommand, State.command_of_holds hholds, hx, hway]
  rfl

theorem bankPower : Claims.BankPower := by
  intro s p r c x up hholds hx hup j gs row w taken
  have hrow : exec row s = _ := (show exec row s = s.powerCommand p r up by cases up <;> rfl).trans (State.powerCommand_of_holds hholds hx hup)
  have hx' : ((s.each gs fun s g => s.modGroup g fun y => { y with pend := some up }).hold p r).job j = some x := by
    rw [State.job_hold, State.job_eq_of_jobs (State.each_jobs _ _ _ fun _ _ => State.modGroup_jobs ..)]
    exact hx
  refine ⟨fun k hbad => ?_, fun hok hruns => ?_, fun hok hidle => ?_⟩
  · rw [hrow, show s.powerFault (field c 2 1) x up (powerGroups c) = _ from hbad]
  · rw [hrow, show s.powerFault (field c 2 1) x up (powerGroups c) = _ from hok]
    have hr : x.runs = true := by simp [Job.runs, hruns]
    dsimp only
    rw [hr, if_pos rfl, State.modJob_some _ _ _ _ hx']
    simp only [taken, w, hruns, ne_eq, not_true_eq_false, decide_false, Bool.not_true]
    rfl
  · rw [hrow, show s.powerFault (field c 2 1) x up (powerGroups c) = _ from hok]
    have hr : x.runs = false := by simp [Job.runs, hidle]
    dsimp only
    rw [hr, if_neg Bool.false_ne_true, State.modJob_some _ _ _ _ hx']
    simp only [taken, w, hidle, ne_eq, not_false_eq_true, decide_true, Bool.not_false]
    rfl

/-! ### The life of a bank group -/

theorem Tbl.get_filter_key {α : Type} (d : α) (t : Tbl α) (q : Nat → Bool) (n : Nat) :
    Tbl.get d (t.filter fun c => q c.1) n = if q n then Tbl.get d t n else d := by
  induction t with
  | nil => simp [Tbl.get]
  | cons c t ih =>
    by_cases hc : q c.1
    · simp only [List.filter_cons, hc, if_true, Tbl.get, ih]
      split
      next h => rw [← h, hc, if_pos rfl]
      next => rfl
    · rw [List.filter_cons, if_neg hc, ih, Tbl.get]
      by_cases h : c.1 = n
      · rw [← h, if_neg hc, if_neg hc]
      · rw [if_neg h]

theorem Mem.get_wipe (m : Mem) (a n b : Nat) : (m.wipe a n).get b = if b < a ∨ a + n ≤ b then m.get b else 0 := by
  have h := Tbl.get_filter_key (0 : Byte) m (fun k => decide (k < a) || decide (a + n ≤ k)) b
  simpa [Mem.wipe, Mem.get] using h

theorem State.sram_wipeGroup (s : State) (x a : Nat) : (s.wipeGroup x).sram.get a = if a / 2 ^ 22 = x then 0 else s.sram.get a := by
  have hin : (a < groupBase x ∨ groupBase x + 2 ^ 22 ≤ a) ↔ ¬ a / 2 ^ 22 = x := by rw [groupBase]; omega
  rw [State.wipeGroup, Mem.get_wipe, ← ite_not]
  exact if_congr (not_congr hin |>.trans not_not) rfl rfl

theorem bankGroups : Claims.BankGroups := by
  intro s m g hlive x
  refine ⟨fun hst => ?dark, fun hst hnone => ?free, fun k hst hk hwiping => ?owned, fun hst => ?off, fun hst => ?evacuated⟩
  case dark =>
    change execBankGroupDark m g s = _
    simp only [execBankGroupDark, hlive, show (s.group (128 * m + g)).st = _ from hst]
    rfl
  case free =>
    have hexec : exec (.bankGroupWiped m g) s = .next ((s.wipeGroup x).modGroup x fun y => { y with st := .free, owner := 0, mapped := false }) := by
      change execBankGroupWiped m g s = _
      rw [execBankGroupWiped]
      dsimp only
      rw [if_neg (by simp [hlive, show (s.group (128 * m + g)).st = _ from hst]),
        show (s.wipeGroup (128 * m + g)).job (s.group (128 * m + g)).owner = none from hnone]
      exact congrArg Host.Outcome.next (State.modJob_none hnone)
    refine ⟨_, hexec, by simp, by simp, by simp, fun y hy => State.group_modGroup_ne _ _ (Ne.symm hy), fun a ha => ?_, fun a ha => ?_⟩
    · rw [State.modGroup_sram, State.sram_wipeGroup, if_pos ha]
    · rw [State.modGroup_sram, State.sram_wipeGroup, if_neg ha]
  case owned =>
    change execBankGroupWiped m g s = _
    rw [execBankGroupWiped]
    dsimp only
    rw [if_neg (by simp [hlive, show (s.group (128 * m + g)).st = _ from hst]),
      show (s.wipeGroup (128 * m + g)).job (s.group (128 * m + g)).owner = some k from hk]
    simp only [beq_eq_false_iff_ne.mpr hwiping, Bool.false_eq_true, if_false, Option.any_some]
    rfl
  case off =>
    change execBankGroupOff m g s = _
    rw [execBankGroupOff, if_pos ⟨hlive, hst⟩]
  case evacuated =>
    change execEvacuationDone m g true s = _
    simp only [execEvacuationDone, hlive, show (s.group (128 * m + g)).st = _ from hst]
    rfl

/-- Settles O44. -/
theorem banks : Obligations.Banks := ⟨bankPower, bankGroups⟩

end Sys2Proof.Machine
end

section
/-! HBM: correction storms, retraining and migration, fills and the patrol scrub (R111, R178, R356 to R364). -/

namespace Sys2Proof.Machine
open Sys2Proof.Claims

/-! ### What counters and records leave -/

/-- A counter raised changes the counters only. -/
theorem State.bump_eq (s : State) (k n : Nat) : ∃ c, s.bump k n = { s with ctr := c } := by
  unfold State.bump
  split
  · exact ⟨s.ctr, rfl⟩
  · exact ⟨_, rfl⟩

theorem State.modPort_eq_with (s : State) (p : Port) (f : PortSt → PortSt) : ∃ a b, s.modPort p f = { s with portA := a, portB := b } := by
  cases p
  · exact ⟨f s.portA, s.portB, rfl⟩
  · exact ⟨s.portA, f s.portB, rfl⟩

theorem State.onPorts_eq_with {f : State → Port → State} (hf : ∀ s p, ∃ a b, f s p = { s with portA := a, portB := b }) (s : State) :
    ∃ a b, s.onPorts f = { s with portA := a, portB := b } := by
  obtain ⟨a, b, h⟩ := hf s .a
  obtain ⟨a', b', h'⟩ := hf (f s .a) .b
  exact ⟨a', b', by rw [State.onPorts, h', h]⟩

/-- An error record changes the ports only. -/
theorem State.errRec_eq (s : State) (r : ErrRec) : ∃ a b, s.errRec r = { s with portA := a, portB := b } :=
  State.onPorts_eq_with (fun _ _ => State.modPort_eq_with ..) s

theorem State.modStack_congr (s : State) (k : Nat) {f g : Stack → Stack} (h : f (s.stack k) = g (s.stack k)) : s.modStack k f = s.modStack k g := by
  simp only [State.modStack, h]

@[simp] theorem State.stack_modStack_self (s : State) (k : Nat) (f : Stack → Stack) : (s.modStack k f).stack k = f (s.stack k) := Tbl.get_set_self ..

theorem State.stack_modStack_ne (s : State) {k i : Nat} (f : Stack → Stack) (h : k ≠ i) : (s.modStack k f).stack i = s.stack i :=
  Tbl.get_set_ne _ _ _ _ _ h

theorem State.modStack_modStack (s : State) (k : Nat) (f g : Stack → Stack) : (s.modStack k f).modStack k g = s.modStack k (g ∘ f) := by
  have h := State.stack_modStack_self s k f
  rw [State.modStack, h]
  simp only [State.modStack, Tbl.set_set]
  rfl

/-! ### Correction storms -/

theorem exec_correctionStorm_group {s : State} {m g : Nat} (hlive : s.live = true) (hm : m < 4) (hg : g < 128) (n : Nat) :
    exec (.correctionStorm (.group m g) n) s =
      .next (if n < 16 then s.bump (ctrModule (12 + m)) n else (s.bump (ctrModule (12 + m)) n).groupStorm m g) := by
  change execCorrectionStorm (.group m g) n s = _
  simp only [execCorrectionStorm, hlive, Bool.not_true, Bool.false_eq_true, if_false, if_neg (by omega : ¬ (4 ≤ m ∨ 128 ≤ g))]

theorem exec_correctionStorm_pc {s : State} {pc : Nat} (hlive : s.live = true) (hpc : pc < 768) (n : Nat) :
    exec (.correctionStorm (.pc pc) n) s =
      .next (if n < 16 then s.bump (ctrModule (pc / 64)) n else (s.bump (ctrModule (pc / 64)) n).pcStormNow pc) := by
  change execCorrectionStorm (.pc pc) n s = _
  simp only [execCorrectionStorm, hlive, Bool.not_true, Bool.false_eq_true, if_false, if_neg (by omega : ¬ 768 ≤ pc)]

theorem State.pcStormNow_of_sound {s : State} {pc : Nat} (hst : (s.stack (pc / 64)).st ≠ 3)
    (hret : (s.stack (pc / 64)).retired.contains (pc % 64) = false) (hmoving : ((s.stack (pc / 64)).migrating.any fun c => c.1 == pc % 64) = false) :
    s.pcStormNow pc =
      if s.within16 (Tbl.get none s.pcStorm pc) = true then
        State.retirePc { s.stormRec { res := .pseudoChannel, index := pc } with pcStorm := Tbl.set s.pcStorm pc none } pc
      else State.stormJobs { s.stormRec { res := .pseudoChannel, index := pc } with pcStorm := Tbl.set s.pcStorm pc (some s.now) }
        (s.unitJobs (pc / 192)) { res := .pseudoChannel, index := pc } := by
  rw [State.pcStormNow]
  dsimp only
  rw [if_neg (by rw [hret]; simp [hst]), hmoving, State.stormRec]
  obtain ⟨a, b, h⟩ := State.errRec_eq s { code := 0x0502, res := resCode Res.pseudoChannel, cls := 5, index := pc }
  rw [h]
  simp only [Bool.not_false, and_true]
  rfl

theorem correctionStorms : Claims.CorrectionStorms := by
  refine ⟨fun s m g n hlive hm hg => ⟨fun hfew => ?_, fun hmany => ?_⟩, fun s pc n hlive hpc => ⟨fun hfew => ?_, fun hmany hst hret hmoving => ?_⟩⟩
  · rw [exec_correctionStorm_group hlive hm hg, if_pos hfew]
  · rw [exec_correctionStorm_group hlive hm hg, if_neg (Nat.not_lt.mpr hmany)]
  · rw [exec_correctionStorm_pc hlive hpc, if_pos hfew]
  · rw [exec_correctionStorm_pc hlive hpc, if_neg (Nat.not_lt.mpr hmany)]
    obtain ⟨c, hc⟩ := State.bump_eq s (ctrModule (pc / 64)) n
    rw [hc, State.pcStormNow_of_sound (s := { s with ctr := c }) hst hret hmoving]
    refine ⟨fun hfirst => ?_, fun hsecond => ?_⟩
    · rw [if_neg (by rw [show State.within16 { s with ctr := c } _ = _ from hfirst]; decide)]
      rfl
    · rw [if_pos (show State.within16 { s with ctr := c } _ = true from hsecond)]

/-! ### Retraining and migration -/

theorem exec_pcRetrain {s : State} {pc : Nat} (hlive : s.live = true) (hpc : pc < 768) (hst : (s.stack (pc / 64)).st = 1)
    (hret : (s.stack (pc / 64)).retired.contains (pc % 64) = false ∨ ((s.stack (pc / 64)).migrating.any fun c => c.1 == pc % 64) = true)
    (hnot : (s.stack (pc / 64)).retraining ≠ some (pc % 64)) :
    exec (.pcRetrain pc) s = .next (s.modStack (pc / 64) fun x => (x.retrainDue [pc % 64]).startDue) := by
  change execPcRetrain pc s = _
  rw [execPcRetrain, if_neg]
  rw [hlive]
  obtain h | h := hret <;> rw [h] <;> simp [hpc, hst, hnot]

theorem Stack.startDue_of_retraining {x : Stack} {d : Nat} (h : x.retraining = some d) : x.startDue = x :=
  if_neg (by rw [h]; simp)

theorem Stack.startDue_of_none {x : Stack} (h : (x.due.find? fun c => !(x.migrating.any fun m => m.1 == c)) = none) : x.startDue = x := by
  unfold Stack.startDue
  rw [h]
  split <;> rfl

theorem Stack.startDue_of_some {x : Stack} {c : Nat} (hst : x.st = 1) (hidle : x.retraining = none)
    (h : (x.due.find? fun c => !(x.migrating.any fun m => m.1 == c)) = some c) :
    x.startDue = { x with retraining := some c, due := x.due.erase c } := by
  rw [Stack.startDue, if_pos ⟨hst, hidle⟩, h]

theorem Stack.retrainDue_one {x : Stack} {c : Nat} (hdue : x.due.contains c = false) (hnot : x.retraining ≠ some c) :
    x.retrainDue [c] = { x with due := x.due ++ [c] } := by
  simp only [Stack.retrainDue, List.filter_cons, List.filter_nil, hdue, bne_iff_ne.mpr hnot, Bool.not_false, Bool.and_self, if_true]

theorem Stack.startDue_migrating (x : Stack) : x.startDue.migrating = x.migrating := by
  unfold Stack.startDue
  split
  · split <;> rfl
  · rfl

theorem Stack.startDue_moved (x : Stack) : x.startDue.moved = x.moved := by
  unfold Stack.startDue
  split
  · split <;> rfl
  · rfl

theorem exec_pcRetrainDone {s : State} {pc : Nat} (hlive : s.live = true) (hret : (s.stack (pc / 64)).retraining = some (pc % 64)) (data cmd : Nat) :
    exec (.pcRetrainDone pc data cmd) s = .next
      ((if (s.stack (pc / 64)).repairs (pc % 64) data cmd = true then
        (s.modStack (pc / 64) fun x => { x with retraining := none, trainTemp := Tbl.set x.trainTemp (pc % 64) x.temp }).modStack (pc / 64) fun x =>
          x.spend (pc % 64) data cmd
      else (s.modStack (pc / 64) fun x => { x with retraining := none, trainTemp := Tbl.set x.trainTemp (pc % 64) x.temp }).retirePc pc true).modStack
        (pc / 64) Stack.startDue) := by
  change execPcRetrainDone pc data cmd s = _
  rw [execPcRetrainDone]
  dsimp only
  rw [if_neg (by rw [hlive, hret]; simp)]

theorem exec_migrationDone {s : State} {pc left : Nat} {cs : List (Nat × Nat)} (hlive : s.live = true) (hst : (s.stack (pc / 64)).st = 1)
    (hmig : (s.stack (pc / 64)).migrating = (pc % 64, left) :: cs) (lost : List Nat) :
    exec (.migrationDone pc lost) s = .next (State.endMigration (s.each (lost.filter (s.unmigrated pc)) fun s b => s.lostGranule pc b) pc) := by
  change execMigrationDone pc lost s = _
  simp only [execMigrationDone, hmig]
  exact if_pos ⟨hlive, trivial, hst⟩

theorem State.stack_endMigration (s : State) (pc k : Nat) : (s.endMigration pc).stack k = (s.modStack (pc / 64) fun x =>
    { x with migrating := x.migrating.drop 1, moved := x.moved.filter fun n => n / 2 ^ 22 != pc % 64,
             slowCopy := x.slowCopy.filter (· != pc % 64) }.startDue).stack k := rfl

theorem pseudoChannels : Claims.PseudoChannels := by
  refine ⟨fun s pc hlive hpc hst hidle hmoving hret hdue => ?starts, fun s pc hlive hpc hst hnot hdue hwait => ?waits,
    fun s pc hlive hret => ⟨fun data cmd hdata hcmd => ?repaired, fun data cmd hmany => ?worn⟩,
    fun s pc left cs hlive hst hmig => ⟨fun lost => exec_migrationDone hlive hst hmig lost, ?moved⟩, fun s k hlive hst hidle => ?refresh⟩
  case starts =>
    rw [exec_pcRetrain hlive hpc hst (.inl hret) (by simp [hidle])]
    refine congrArg Host.Outcome.next (State.modStack_congr s _ ?_)
    rw [Stack.retrainDue_one (by simp [hdue]) (by simp [hidle])]
    refine (Stack.startDue_of_some (x := { s.stack (pc / 64) with due := (s.stack (pc / 64)).due ++ [pc % 64] }) (c := pc % 64) hst hidle ?_).trans ?_
    · simp only [hdue, List.nil_append, List.find?_cons, hmoving, Bool.not_false]
    generalize s.stack (pc / 64) = x at hdue
    obtain ⟨⟩ := x
    obtain rfl := hdue
    simp
  case waits =>
    have hgo : (s.stack (pc / 64)).retired.contains (pc % 64) = false ∨ ((s.stack (pc / 64)).migrating.any fun c => c.1 == pc % 64) = true := by
      obtain ⟨-, h⟩ | ⟨h, -⟩ := hwait
      · exact .inl h
      · exact .inr h
    rw [exec_pcRetrain hlive hpc hst hgo hnot]
    refine congrArg Host.Outcome.next (State.modStack_congr s _ ?_)
    rw [Stack.retrainDue_one hdue hnot]
    obtain ⟨⟨d, hd⟩, -⟩ | ⟨hmoving, hempty⟩ := hwait
    · exact Stack.startDue_of_retraining hd
    · refine Stack.startDue_of_none ?_
      simp only [hempty, List.nil_append, List.find?_cons, hmoving, Bool.not_true, List.find?_nil]
  case repaired =>
    rw [exec_pcRetrainDone hlive hret, if_pos (by simp only [Stack.repairs, decide_eq_true hdata, decide_eq_true hcmd, Bool.and_self]),
      State.modStack_modStack, State.modStack_modStack]
    rfl
  case worn =>
    rw [exec_pcRetrainDone hlive hret, if_neg]
    simp only [Stack.repairs, Bool.and_eq_true, decide_eq_true_eq, not_and_or, not_le]
    exact hmany
  case moved =>
    refine ⟨_, exec_migrationDone hlive hst hmig [], ?_, fun n hn => ?_, fun k hk => ?_⟩
    · rw [List.filter_nil, State.each, List.foldl_nil, State.stack_endMigration, State.stack_modStack_self, Stack.startDue_migrating, hmig]
      rfl
    · rw [List.filter_nil, State.each, List.foldl_nil, State.stack_endMigration, State.stack_modStack_self, Stack.startDue_moved] at hn
      simpa using (List.mem_filter.mp hn).2
    · rw [List.filter_nil, State.each, List.foldl_nil, State.stack_endMigration, State.stack_modStack_ne _ _ (Ne.symm hk)]
  case refresh =>
    change execSelfRefreshIdle k s = _
    rw [execSelfRefreshIdle, if_pos ⟨hlive, hst, hidle⟩]

/-! ### Fills -/

theorem State.hbm_fillUnit (s : State) (x a : Nat) : (s.fillUnit x).hbm.get a = if inUnit x (s.logical a) = true then 0 else s.hbm.get a := by
  have h := Tbl.get_filter_key (0 : Byte) s.hbm (fun k => !inUnit x (s.logical k)) a
  cases hin : inUnit x (s.logical a) <;> simpa [State.fillUnit, Mem.get, hin] using h

theorem unitFilled : Claims.UnitFilled := by
  intro s m k hlive hfilling hheld
  have hexec : exec (.unitFilled m k) s = .next (((s.fillUnit (1536 * m + k)).modUnit (1536 * m + k) fun _ => {}).modJob (s.hunit (1536 * m + k)).owner
      fun y => { y with wipeUnits := y.wipeUnits.erase (1536 * m + k) }) := by
    change execUnitFilled m k s = _
    simp only [execUnitFilled, hlive, hfilling, hheld, Bool.not_true, Bool.false_eq_true, or_self, if_false]
  refine ⟨_, hexec, ?_, fun y hy => ?_, fun a ha => ?_, fun a ha => ?_, fun x hx => ?_⟩
  · rw [State.hunit, State.modJob_units]
    exact Tbl.get_set_self ..
  · rw [State.hunit, State.modJob_units]
    exact Tbl.get_set_ne _ _ _ _ _ (Ne.symm hy)
  · rw [State.modJob_hbm, State.modUnit_hbm, State.hbm_fillUnit, if_pos ha]
  · rw [State.modJob_hbm, State.modUnit_hbm, State.hbm_fillUnit, ha, if_neg Bool.false_ne_true]
  · rw [State.job_modJob, if_pos rfl]
    exact congrArg _ hx

/-! ### The patrol scrub -/

theorem exec_patrolScrub {s : State} {pc : Nat} (hlive : s.live = true) (hpc : pc < 768) (hst : (s.stack (pc / 64)).st = 1)
    (byte corrected : Nat) (e : ReadErr) : exec (.patrolScrub pc byte corrected e) s = .next (if uncorrectable e = true then
      (s.bump (ctrModule (pc / 64)) corrected).scrubError pc byte else s.bump (ctrModule (pc / 64)) corrected) := by
  change execPatrolScrub pc byte corrected e s = _
  rw [execPatrolScrub, if_neg (by simp [hlive, hpc, hst])]

theorem State.dryHolder_of_noJob {s : State} {key : Nat} (h : s.job (s.storedTag key) = none) : s.dryHolder key = none := by
  simp [State.dryHolder, h]

theorem State.job_of_dryHolder {s : State} {key : Nat} (h : (s.job (s.storedTag key)).isSome = false) : s.dryHolder key = none :=
  State.dryHolder_of_noJob (by simpa using h)

theorem patrolScrub : Claims.PatrolScrub := by
  intro s pc byte corrected e hlive hpc hst s' key
  have hexec := exec_patrolScrub hlive hpc hst byte corrected e
  obtain ⟨c, hc⟩ := State.bump_eq s (ctrModule (pc / 64)) corrected
  have htable : s'.tableAt key = s.tableAt key := by simp only [s', hc]; rfl
  have hregion : s'.regionAt key = s.regionAt key := by simp only [s', hc]; rfl
  have hdry : s'.dryHolder key = s.dryHolder key := by simp only [s', hc]; rfl
  have htag : s'.storedTag key = s.storedTag key := by simp only [s', hc]; rfl
  have hjob (j : Nat) : s'.job j = s.job j := State.job_bump ..
  refine ⟨fun hgood => ?good, fun j hbad ht hj => ?region, fun hbad ht hj => ?rest⟩
  case good => rw [hexec, hgood, if_neg Bool.false_ne_true]
  case region =>
    rw [hexec, if_pos hbad, State.scrubError]
    simp only [show (s.bump (ctrModule (pc / 64)) corrected).tableAt (hbmKey pc (byte % 2 ^ 30 / 64 * 64)) = _ from htable.trans ht,
      show (s.bump (ctrModule (pc / 64)) corrected).regionAt (hbmKey pc (byte % 2 ^ 30 / 64 * 64)) = _ from hregion.trans hj]
    rfl
  case rest =>
    have herr : exec (.patrolScrub pc byte corrected e) s = .next (match s.dryHolder key with
        | some (_, h, rel) => s'.storageFault (s.storedTag key) .dry { res := .pseudoChannel, index := pc } (.checkBits 0) 0xFF 0xFF 0 h rel
        | none => if (s.job (s.storedTag key)).isSome = true then
            (s'.refill key).storageFault (s.storedTag key) .wet { res := .pseudoChannel, index := pc } (.checkBits 0) 0xFF 0xFF 0 0xFFFF
          else (s'.refill key).errRec { code := 0x0501, res := 3, cls := 1, detail := 1, index := pc }) := by
      rw [hexec, if_pos hbad, State.scrubError]
      simp only [show (s.bump (ctrModule (pc / 64)) corrected).tableAt (hbmKey pc (byte % 2 ^ 30 / 64 * 64)) = _ from htable.trans ht,
        show (s.bump (ctrModule (pc / 64)) corrected).regionAt (hbmKey pc (byte % 2 ^ 30 / 64 * 64)) = _ from hregion.trans hj,
        show (s.bump (ctrModule (pc / 64)) corrected).dryHolder (hbmKey pc (byte % 2 ^ 30 / 64 * 64)) = _ from hdry,
        show (s.bump (ctrModule (pc / 64)) corrected).storedTag (hbmKey pc (byte % 2 ^ 30 / 64 * 64)) = _ from htag]
      simp only [show ∀ j, (s.bump (ctrModule (pc / 64)) corrected).job j = _ from hjob]
      cases s.dryHolder key <;> rfl
    intro tag r
    refine ⟨fun hnone => ?_, fun j h rel hholder => ?_, fun hsome hholder => ?_⟩
    · rw [herr, State.dryHolder_of_noJob hnone]
      simp only [tag] at hnone
      simp only [hnone, Option.isSome_none, Bool.false_eq_true, if_false]
    · rw [herr, hholder]
    · rw [herr, hholder]
      exact congrArg Host.Outcome.next (if_pos hsome)

/-- Settles O45. -/
theorem hbmHealth : Obligations.HbmHealth := ⟨correctionStorms, pseudoChannels, unitFilled, patrolScrub⟩

end Sys2Proof.Machine
end

section
/-! Jobs made, loaded, submitted and ended, and POLICY_SET (R95, R98, R226, R366 to R377). -/

namespace Sys2Proof.Machine
open Sys2Proof.Claims

/-! ### What only the ports see -/

/-- One state is the other but for what the ports show and what the module sends out. -/
def State.OnlyPorts (s t : State) : Prop := ∃ a b o, t = { s with portA := a, portB := b, out := o }

theorem State.OnlyPorts.refl (s : State) : s.OnlyPorts s := ⟨s.portA, s.portB, s.out, rfl⟩

theorem State.OnlyPorts.trans {s t u : State} (h : s.OnlyPorts t) (h' : t.OnlyPorts u) : s.OnlyPorts u := by
  obtain ⟨a, b, o, rfl⟩ := h
  obtain ⟨a', b', o', rfl⟩ := h'
  exact ⟨a', b', o', rfl⟩

theorem State.onlyPorts_setPort (s : State) (p : Port) (x : PortSt) : s.OnlyPorts (s.setPort p x) := by
  cases p
  · exact ⟨x, s.portB, s.out, rfl⟩
  · exact ⟨s.portA, x, s.out, rfl⟩

theorem State.onlyPorts_modPort (s : State) (p : Port) (f : PortSt → PortSt) : s.OnlyPorts (s.modPort p f) := by
  cases p
  · exact ⟨f s.portA, s.portB, s.out, rfl⟩
  · exact ⟨s.portA, f s.portB, s.out, rfl⟩

theorem State.onlyPorts_emit (s : State) (o : Out) : s.OnlyPorts (s.emit o) := ⟨s.portA, s.portB, o :: s.out, rfl⟩

theorem State.onlyPorts_setRing (s : State) (p : Port) (r : Nat) (x : Ring) : s.OnlyPorts (s.setRing p r x) := State.onlyPorts_modPort ..

theorem State.onlyPorts_raise (s : State) (p : Port) (v : Nat) : s.OnlyPorts (s.raise p v) := by
  unfold State.raise
  split
  · exact s.onlyPorts_modPort ..
  · exact s.onlyPorts_emit _

theorem State.onlyPorts_complete (s : State) (p : Port) (r : Nat) (d : Done) : s.OnlyPorts (s.complete p r d) := by
  unfold State.complete
  dsimp only
  split
  · exact .refl s
  · split
    · exact (s.onlyPorts_setRing ..).trans (State.onlyPorts_emit ..)
    · exact ((s.onlyPorts_setRing ..).trans (State.onlyPorts_emit ..)).trans (State.onlyPorts_raise ..)

theorem State.onlyPorts_hold (s : State) (p : Port) (r : Nat) : s.OnlyPorts (s.hold p r) := s.onlyPorts_setRing ..

theorem State.onlyPorts_onPorts {f : State → Port → State} (hf : ∀ (s : State) (p : Port), s.OnlyPorts (f s p)) (s : State) : s.OnlyPorts (s.onPorts f) :=
  (hf s .a).trans (hf _ .b)

theorem State.onlyPorts_errRec (s : State) (r : ErrRec) : s.OnlyPorts (s.errRec r) := State.onlyPorts_onPorts (fun s _ => s.onlyPorts_modPort ..) s

theorem State.onlyPorts_post (s : State) (p : Port) (e : EvRec) : s.OnlyPorts (s.post p e) := s.onlyPorts_modPort ..

theorem State.onlyPorts_jobEvent (s : State) (j type code units : Nat) (body : Bytes) (tick : Option Nat) :
    s.OnlyPorts (s.jobEvent j type code units body tick) := by
  unfold State.jobEvent
  split
  · exact .refl s
  · exact s.onlyPorts_post ..

/-! ### Many changes of one kind -/

/-- What a change of every member of a list leaves alone. -/
theorem State.each_frame {α β : Type} (g : State → β) {f : State → α → State} (h : ∀ s x, g (f s x) = g s) (s : State) (xs : List α) :
    g (s.each xs f) = g s :=
  State.each_induct (P := fun t => g t = g s) rfl fun t x _ ht => (h t x).trans ht

/-- What a change makes of its member, and no other change undoes, holds of every member at the end. -/
theorem State.each_forall {α : Type} {Q : α → State → Prop} {f : State → α → State} (hset : ∀ t x, Q x (f t x))
    (hkeep : ∀ t x y, Q x t → Q x (f t y)) (s : State) (xs : List α) : ∀ x ∈ xs, Q x (s.each xs f) := by
  induction xs generalizing s with
  | nil => simp
  | cons a xs ih =>
    intro x hx
    obtain rfl | hx := List.mem_cons.mp hx
    · exact State.each_induct (P := Q x) (s := f s x) (hset s x) fun t y _ ht => hkeep t x y ht
    · exact ih (f s a) x hx

/-! ### JOB_CREATE -/

theorem exec_jobCreate {s : State} {p : Port} {r : Nat} {c : Bytes} (hholds : Holds s p r 0x01 c) (hlc : 2 ≤ s.sec.lifecycle) {j : Nat}
    (hj : s.freeJob = some j) (hquota : s.overQuota p (readJobReq c) = false) :
    exec (.jobCreate p r) s = match s.allot (readJobReq c) with
      | .error k => .next (s.complete p r { status := 0x0106, detail := k })
      | .ok g =>
        match s.guaranteeFault p (readJobReq c) g.cores with
        | some (k, m) => .next (s.complete p r { status := 0x0107, detail := k, v0 := m })
        | none =>
          let adm := if (readJobReq c).bestEffort then 0 else s.admissions + 1
          .next ((s.makeJob p (readJobReq c) j g).complete p r { v0 := j, v1 := adm, job := some j }) := by
  change execJobCreate p r s = _
  simp only [execJobCreate, State.command_of_holds hholds, if_neg (Nat.not_lt.mpr hlc), hj, hquota]
  rfl

/-- The job that JOB_CREATE makes. -/
def JobReq.job (q : JobReq) (p : Port) (adm : Nat) (g : Grant) : Job :=
  { owner := p, adm := adm, cores := g.cores, coreShare := q.share, coreCur := q.share, seenCore := q.share,
    keyShare := q.keys, keyCur := q.keys, seenKey := q.keys, lat := q.lat, latCur := q.lat, seenLat := q.lat, relBytes := q.bytes,
    keySpread := q.keySpread, keyUnits := q.keyUnits, near := q.near }

/-- The steps by which a job is made: its number, its cores, its groups and its units. -/
def State.numbered (s : State) (p : Port) (q : JobReq) (j : Nat) (g : Grant) : State :=
  State.setJob { s with admissions := if q.bestEffort then s.admissions else s.admissions + 1 } j
    (some (q.job p (if q.bestEffort then 0 else s.admissions + 1) g))

def State.giveCores (s : State) (j : Nat) (g : Grant) : State :=
  State.each (s.dropCtr fun key => g.cores.any fun n => coreCtr n key) g.cores.zipIdx fun s c =>
    s.setCore c.1 { job := j, index := c.2, lastCheck := (s.core c.1).lastCheck }

def State.giveGroups (s : State) (j : Nat) (g : Grant) : State :=
  s.each g.groups fun s k => s.modGroup k fun y => { y with st := .wiping, owner := j, mapped := false, pend := none }

def State.giveUnits (s : State) (j : Nat) (g : Grant) : State :=
  s.each g.units fun s u => s.modUnit u.1 fun y => { y with owner := j, use := u.2, onStacks := s.millStacks (u.1 / 1536) }

def State.wakeFor (s : State) (g : Grant) : State := s.each ((List.range 4).filter fun m => g.units.any fun u => u.1 / 1536 == m) State.wakeStacks

theorem State.onlyPorts_makeJob (s : State) (p : Port) (q : JobReq) (j : Nat) (g : Grant) :
    (((((s.numbered p q j g).giveCores j g).giveGroups j g).giveUnits j g).wakeFor g).OnlyPorts (s.makeJob p q j g) :=
  State.onlyPorts_onPorts (f := fun s p => s.modPort p fun y => { y with xcRace := y.xcRace &&& ~~~(1 <<< (j - 1) : BitVec 16) })
    (fun _ _ => State.onlyPorts_modPort ..) _

theorem State.wakeStacks_eq (s : State) (m : Nat) : ∃ h, s.wakeStacks m = { s with hbms := h } := by
  unfold State.wakeStacks
  split
  · exact ⟨s.hbms, rfl⟩
  · refine State.each_induct (P := fun t => ∃ h, t = { s with hbms := h }) ⟨s.hbms, rfl⟩ fun t i _ ht => ?_
    obtain ⟨h, rfl⟩ := ht
    exact ⟨_, rfl⟩

theorem State.wakeFor_eq (s : State) (g : Grant) : ∃ h, s.wakeFor g = { s with hbms := h } := by
  refine State.each_induct (P := fun t => ∃ h, t = { s with hbms := h }) ⟨s.hbms, rfl⟩ fun t i _ ht => ?_
  obtain ⟨h, rfl⟩ := ht
  obtain ⟨h', h''⟩ := State.wakeStacks_eq { s with hbms := h } i
  exact ⟨h', h''⟩

theorem State.giveCores_cores (s : State) (j : Nat) (g : Grant) {n : Nat} (hn : n ∈ g.cores) :
    ((s.giveCores j g).core n).job = j ∧ ((s.giveCores j g).core n).mode = .idle := by
  obtain ⟨i, hi, rfl⟩ := List.getElem_of_mem hn
  have hmem : (g.cores[i], i) ∈ g.cores.zipIdx := by simp [List.mem_zipIdx_iff_getElem?]
  refine State.each_forall (Q := fun c t => (t.core c.1).job = j ∧ (t.core c.1).mode = .idle) (fun t c => ?_) (fun t c d h => ?_)
    (s.dropCtr _) g.cores.zipIdx _ hmem
  · simp
  · rw [State.core_setCore]
    split
    · exact ⟨rfl, rfl⟩
    · exact h

theorem State.giveGroups_groups (s : State) (j : Nat) (g : Grant) : ∀ x ∈ g.groups,
    ((s.giveGroups j g).group x).st = .wiping ∧ ((s.giveGroups j g).group x).owner = j := by
  refine State.each_forall (Q := fun x t => (t.group x).st = .wiping ∧ (t.group x).owner = j) (fun t x => by simp) (fun t x y h => ?_) s g.groups
  by_cases hxy : y = x
  · subst hxy; simp
  · rw [State.group_modGroup_ne _ _ hxy]
    exact h

theorem State.giveUnits_units (s : State) (j : Nat) (g : Grant) : ∀ u ∈ g.units, ((s.giveUnits j g).hunit u.1).owner = j := by
  refine State.each_forall (Q := fun u t => (t.hunit u.1).owner = j) (fun t u => ?_) (fun t u v h => ?_) s g.units
  · simp [State.hunit, State.modUnit]
  · rw [State.hunit, State.modUnit, Tbl.get_set]
    split
    · rfl
    · exact h

theorem State.giveCores_jobs (s : State) (j : Nat) (g : Grant) : (s.giveCores j g).jobs = s.jobs :=
  State.each_frame State.jobs (f := fun s (c : Nat × Nat) => s.setCore c.1 { job := j, index := c.2, lastCheck := (s.core c.1).lastCheck })
    (fun _ _ => rfl) (s.dropCtr _) _

theorem State.giveGroups_frame (s : State) (j : Nat) (g : Grant) : (s.giveGroups j g).jobs = s.jobs ∧ (s.giveGroups j g).cores = s.cores :=
  State.each_frame (fun t => (t.jobs, t.cores)) (f := fun s k => s.modGroup k fun y => { y with st := .wiping, owner := j, mapped := false, pend := none })
    (fun _ _ => rfl) s g.groups |> fun h => ⟨congrArg Prod.fst h, congrArg Prod.snd h⟩

theorem State.giveUnits_frame (s : State) (j : Nat) (g : Grant) :
    (s.giveUnits j g).jobs = s.jobs ∧ (s.giveUnits j g).cores = s.cores ∧ (s.giveUnits j g).groups = s.groups :=
  State.each_frame (fun t => (t.jobs, t.cores, t.groups))
    (f := fun s (u : Nat × UnitUse) => s.modUnit u.1 fun y => { y with owner := j, use := u.2, onStacks := s.millStacks (u.1 / 1536) })
    (fun _ _ => rfl) s g.units |> fun h => ⟨congrArg Prod.fst h, congrArg (fun x => x.2.1) h, congrArg (fun x => x.2.2) h⟩

/-- Settles O17. -/
theorem jobCreate : Obligations.JobCreate := by
  intro s p r c hholds q
  refine ⟨fun hlc => ?lifecycle, fun hlc hfull => ?full, fun j hlc hj => ⟨fun hquota => ?quota, fun hquota => ⟨fun k hshort => ?short,
    fun g hg => ⟨fun k m hfault => ?guarantee, fun hok => ?made⟩⟩⟩⟩
  case lifecycle =>
    change execJobCreate p r s = _
    simp only [execJobCreate, State.command_of_holds hholds, if_pos hlc]
    rfl
  case full =>
    change execJobCreate p r s = _
    simp only [execJobCreate, State.command_of_holds hholds, if_neg (Nat.not_lt.mpr hlc), hfull]
    rfl
  case quota =>
    change execJobCreate p r s = _
    simp only [execJobCreate, State.command_of_holds hholds, if_neg (Nat.not_lt.mpr hlc), hj, show s.overQuota p (readJobReq c) = true from hquota]
    rfl
  case short => rw [exec_jobCreate hholds hlc hj hquota, show s.allot (readJobReq c) = _ from hshort]
  case guarantee =>
    rw [exec_jobCreate hholds hlc hj hquota, show s.allot (readJobReq c) = _ from hg]
    simp only [show s.guaranteeFault p (readJobReq c) g.cores = _ from hfault]
  case made =>
    have hexec : exec (.jobCreate p r) s = .next ((s.makeJob p q j g).complete p r
        { v0 := j, v1 := if q.bestEffort then 0 else s.admissions + 1, job := some j }) := by
      rw [exec_jobCreate hholds hlc hj hquota, show s.allot (readJobReq c) = _ from hg]
      simp only [show s.guaranteeFault p (readJobReq c) g.cores = _ from hok]
      rfl
    have hports := (State.onlyPorts_makeJob s p q j g).trans (State.onlyPorts_complete _ p r
      { v0 := j, v1 := if q.bestEffort then 0 else s.admissions + 1, job := some j })
    obtain ⟨a, b, o, ht⟩ := hports
    obtain ⟨h, hh⟩ := State.wakeFor_eq ((((s.numbered p q j g).giveCores j g).giveGroups j g).giveUnits j g) g
    rw [hh] at ht
    rw [ht] at hexec
    obtain ⟨hjU, hcU, hgU⟩ := State.giveUnits_frame (((s.numbered p q j g).giveCores j g).giveGroups j g) j g
    obtain ⟨hjG, hcG⟩ := State.giveGroups_frame ((s.numbered p q j g).giveCores j g) j g
    have hjobs := (hjU.trans hjG).trans (State.giveCores_jobs (s.numbered p q j g) j g)
    refine ⟨_, q.job p (if q.bestEffort then 0 else s.admissions + 1) g, hexec, ?_, rfl, rfl, rfl, rfl, rfl, rfl, fun n hn => ?_, fun x hx => ?_,
      fun u hu => ?_, fun k hk => ?_⟩
    · rw [State.job]
      dsimp only
      rw [hjobs]
      exact State.job_setJob_self ..
    · rw [State.core]
      dsimp only
      rw [hcU, hcG]
      exact State.giveCores_cores _ j g hn
    · rw [State.group]
      dsimp only
      rw [hgU]
      exact State.giveGroups_groups _ j g x hx
    · exact State.giveUnits_units _ j g u hu
    · rw [State.job]
      dsimp only
      rw [hjobs]
      exact Tbl.get_set_ne _ _ _ _ _ (Ne.symm hk)

/-! ### POLICY_SET -/

theorem State.policyCommand_of_accepted {s : State} {p : Port} {r k : Nat} {c : Bytes} {g : Bool} (hc : s.command p r 0x41 = some c)
    (hlowest : ((List.range 8).find? (bit (field c 0x18 2))).getD 0 = k) (hfault : s.policyFault c g = none) :
    s.policyCommand p r k g = .next ((s.applyPolicy c).complete p r {}) := by
  simp only [State.policyCommand, hc, hlowest, ne_eq, not_true_eq_false, if_false, hfault]

/-- Settles O18. -/
theorem policySet : Obligations.PolicySet := by
  intro s p r k c g hholds hk hlowest row fault has
  have hrow : exec row s = s.policyCommand p r k (decide (k = 0) && g) := exec_policyRow hk p r g s
  have hc := State.command_of_holds hholds
  refine ⟨fun st hfault => ?refused, fun hok h7 => ?items, fun hok h7 => ?reselect⟩
  case refused => rw [hrow, State.policyCommand_of_refused hc hlowest hfault]
  case items =>
    obtain ⟨a, b, o, ht⟩ := State.onlyPorts_complete (s.applyPolicy c) p r {}
    rw [hrow, State.policyCommand_of_accepted hc hlowest hok, ht]
    refine ⟨_, rfl, ?_⟩
    simp only [State.applyPolicy, show bit (field c 0x18 2) 7 = false from h7, Bool.false_eq_true, if_false, has,
      apply_ite State.periodNext, apply_ite State.periodSet, apply_ite State.reamNext, apply_ite State.timeoutMs, apply_ite State.selftestHours,
      apply_ite State.clk, apply_ite Clk.adminCapNext, apply_ite State.admitA, apply_ite State.admitB, apply_ite State.quotaJobs,
      apply_ite State.quotaCores, apply_ite State.period, apply_ite Clk.adminCap, apply_ite State.jobs, apply_ite State.cores, ite_self]
    cases bit (field c 0x18 2) 0 <;> simp
  case reselect =>
    subst h7
    have hfind : (List.range 8).find? (bit (field c 0x18 2)) = some 7 := by
      cases h : (List.range 8).find? (bit (field c 0x18 2)) with
      | none => rw [h] at hlowest; simp at hlowest
      | some i => rw [h] at hlowest; exact congrArg some hlowest
    obtain ⟨h7, -, hnot⟩ := List.find?_range_eq_some.mp hfind
    have hoff (i : Nat) (hi : i < 7) : bit (field c 0x18 2) i = false := by simpa using hnot i hi
    rw [hrow, State.policyCommand_of_accepted hc hlowest hok, State.applyPolicy]
    simp [hoff, h7]

/-! ### The life of a job -/

theorem State.jobs_hbmWrite (s : State) (key : Nat) (b : Bytes) : (s.hbmWrite key b).jobs = s.jobs := by
  unfold State.hbmWrite State.moveGranule
  dsimp only
  split <;> rfl

theorem State.jobs_placeImage (s : State) (j : Nat) (b : Bytes) : (s.placeImage j b).jobs = s.jobs := by
  rw [State.placeImage, State.writeSectors]
  refine (State.each_jobs _ _ _ fun t i => ?_).trans (State.each_jobs _ _ _ fun t u => State.modUnit_jobs ..)
  exact State.jobs_hbmWrite t _ ((b.drop (64 * i)).take 64)

theorem State.loadImage_bytes {s : State} {j : Nat} {x : Job} {b : Bytes} {n : Nat} {g : Image} (h : s.loadImage j x b n = .ok g) :
    g.bytes = b.length := by
  simp only [State.loadImage] at h
  cases hns : s.assignCores (coreEntries b) x.cores with
  | none =>
    simp only [hns] at h
    split_ifs at h
  | some ns =>
    simp only [hns] at h
    split_ifs at h
    exact (congrArg Image.bytes (Except.ok.inj h)).symm

theorem jobLife : Claims.JobLife := by
  refine ⟨fun s p r c hholds => ?kill, fun s j x hlive hx hst => ⟨fun hmore => ?waits, fun hwiped => ?freed⟩,
    fun s p r c b x hholds hx => ⟨fun k v hbad => ?bad, fun g hg => ?loaded⟩⟩
  case kill =>
    change execJobKill p r s = _
    simp only [execJobKill, State.command_of_holds hholds]
  case waits =>
    change execJobWiped j s = _
    simp only [execJobWiped, hx, hmore, Bool.not_false, or_true, if_true]
  case freed =>
    change execJobWiped j s = _
    simp only [execJobWiped, hx]
    rw [if_neg (by rw [hlive, hst, hwiped]; simp)]
    obtain ⟨a, b, o, hports⟩ := (s.onlyPorts_jobEvent j 6 0x0430 1 [] none).trans
      (State.onlyPorts_modPort (s.jobEvent j 6 0x0430 1 []) x.owner fun y => { y with xcRace := y.xcRace &&& ~~~(1 <<< (j - 1) : BitVec 16) })
    rw [hports]
    rfl
  case bad =>
    change execProgramLoad p r (some b) s = _
    simp only [execProgramLoad, State.command_of_holds hholds, hx, hbad]
  case loaded =>
    change execProgramLoad p r (some b) s = _
    simp only [execProgramLoad, State.command_of_holds hholds, hx, hg, State.loadImage_bytes hg]
    rw [State.modJob_some _ _ _ x]
    · rfl
    · rw [State.job_eq_of_jobs (State.jobs_placeImage ..), State.job_eq_of_jobs (State.each_jobs _ _ _ fun _ _ => State.modCore_jobs ..)]
      exact hx

theorem submit : Claims.Submit := by
  intro s p r c x hholds hx trace none? y
  have hexec : exec (.submit p r) s =
      if trace = true ∧ (!bit s.grade.engineMask 5) = true then .next (s.complete p r { status := 0x0202, v0 := 2 ^ 21 })
      else if (!x.areasOk (field c 0x1C 2) (field c 0x1E 2)) = true then .next (s.complete p r { status := 0x0240 })
      else match x.span with
        | some i => .next (((s.setJob (field c 2 1) (some y)).modSpan i fun z => { z with submit := some (p, r) }).hold p r)
        | none => .next (((s.setJob (field c 2 1) (some y)).launch (field c 2 1)).complete p r { v0 := s.tick }) := by
    change execSubmit p r s = _
    simp only [execSubmit, State.command_of_holds hholds, hx, State.modJob_some _ _ _ _ hx]
    rfl
  refine ⟨fun htrace hengine => ?_, fun hengine => ⟨fun hareas => ?_, fun hareas => ⟨fun hspan => ?_, fun i hspan => ?_⟩⟩⟩
  · rw [hexec, if_pos ⟨htrace, by rw [hengine]; rfl⟩]
  all_goals
    have hok : ¬ (trace = true ∧ (!bit s.grade.engineMask 5) = true) := by
      rintro ⟨h, h'⟩
      rw [hengine h] at h'
      cases h'
    rw [hexec, if_neg hok, hareas]
  · rfl
  · rw [hspan]
    rfl
  · rw [hspan]
    rfl

/-- Settles O46. -/
theorem jobRuns : Obligations.JobRuns := ⟨jobLife, submit⟩

end Sys2Proof.Machine
end

section
/-! The end of a sheet, couches and replays (R98 to R113). -/

namespace Sys2Proof.Machine
open Sys2Proof.Claims

/-! ### The end of a sheet -/

theorem State.someWait_modJob (s : State) (j : Nat) (f : Job → Job) (x : Job) : (s.modJob j f).someWait x = s.someWait x := by
  simp [State.someWait]

theorem State.endSheet_alone {s : State} {j : Nat} {x : Job} (hspan : x.span = none)
    (halive : (s.waitsNow j x && x.stuck && s.someWait x) = false) :
    s.endSheet j x =
      let more (s : State) : State := s.modJob j fun y => { y with sheet := y.sheet + b2n (!x.paged) 1 }
      let s' := s.modJob j fun y => { y with elapsed := y.elapsed + 1, counts := !x.paged, stuck := s.waitsNow j x }
      if !(decide (x.stride ≤ x.elapsed + 1) || (s.allCouched j x && s.allEnded x)) then more s'
      else if s.allCouched j x then s'.modJob j fun y => { y with couching := true }
      else if !x.paged && decide (sheetD x.stride x.kMax x.dMin ≤ x.sheet) then (s'.lateTick j).modJob j fun y => { y with overrun := true }
      else more (s'.lateTick j) := by
  rw [Bool.and_comm (s.waitsNow j x)] at halive
  simp only [State.endSheet, hspan, State.someWait_modJob, halive, Bool.false_eq_true, if_false]

theorem State.job_modJob_self {s : State} {j : Nat} {x : Job} (hx : s.job j = some x) (f : Job → Job) : (s.modJob j f).job j = some (f x) := by
  rw [State.job_modJob, if_pos rfl, hx]
  rfl

theorem State.job_lateTick {s : State} {j : Nat} {x : Job} (hx : s.job j = some x) :
    (s.lateTick j).job j = some { x with late := x.late + 1, lateReam := satAdd 0xFFF x.lateReam 1, lateNow := true, couching := false } := by
  rw [State.lateTick, State.job_bump, State.job_modJob_self hx]

/-- Settles O19. -/
theorem dueCouch : Obligations.DueCouch := by
  intro s j x hx hspan halive
  rw [State.endSheet_alone hspan halive]
  have hx' := State.job_modJob_self hx fun y => { y with elapsed := y.elapsed + 1, counts := !x.paged, stuck := s.waitsNow j x }
  dsimp only at hx' ⊢
  cases hcouched : s.allCouched j x with
  | true =>
    by_cases hdue : x.stride ≤ x.elapsed + 1
    · rw [if_neg (by simp [hdue]), if_pos rfl]
      refine ⟨_, State.job_modJob_self hx' _, rfl, rfl, fun h => absurd h (by omega), fun _ _ => ⟨rfl, rfl, rfl⟩, fun _ h => Bool.noConfusion h⟩
    · cases hended : s.allEnded x with
      | true =>
        rw [if_neg (by simp), if_pos rfl]
        exact ⟨_, State.job_modJob_self hx' _, rfl, rfl, fun _ h => Bool.noConfusion h, fun h => absurd h hdue, fun h => absurd h hdue⟩
      | false =>
        rw [if_pos (by simp [hdue])]
        exact ⟨_, State.job_modJob_self hx' _, rfl, rfl, fun _ _ => ⟨rfl, rfl, rfl, rfl⟩, fun h => absurd h hdue, fun h => absurd h hdue⟩
  | false =>
    by_cases hdue : x.stride ≤ x.elapsed + 1
    · rw [if_neg (by simp [hdue]), if_neg Bool.false_ne_true]
      by_cases hpast : (!x.paged && decide (sheetD x.stride x.kMax x.dMin ≤ x.sheet)) = true
      · rw [if_pos hpast]
        rw [Bool.and_eq_true, decide_eq_true_eq] at hpast
        exact ⟨_, State.job_modJob_self (State.job_lateTick hx') _, rfl, rfl, fun h => absurd h (by omega), fun _ h => Bool.noConfusion h,
          fun _ _ => ⟨rfl, rfl, fun _ _ => rfl, fun h => absurd h (Nat.not_lt.mpr hpast.2)⟩⟩
      · rw [if_neg hpast]
        refine ⟨_, State.job_modJob_self (State.job_lateTick hx') _, rfl, rfl, fun h => absurd h (by omega), fun _ h => Bool.noConfusion h,
          fun _ _ => ⟨rfl, rfl, fun hpaged hd => absurd ?_ hpast, fun _ => ⟨rfl, rfl⟩⟩⟩
        simp [hpaged, hd]
    · rw [if_pos (by simp [hdue])]
      exact ⟨_, State.job_modJob_self hx' _, rfl, rfl, fun _ _ => ⟨rfl, rfl, rfl, rfl⟩, fun h => absurd h hdue, fun h => absurd h hdue⟩

/-! ### What a couch records of a job -/

/-- What a couch records of a job, and nothing in the making of the couch changes once its areas have committed. -/
def Job.recorded (x : Job) : Nat × Tbl Nat × Tbl (List Nat) × Tbl Area := (x.seq, x.sems, x.bars, x.areas)

def State.recorded (s : State) (j : Nat) : Option (Nat × Tbl Nat × Tbl (List Nat) × Tbl Area) := (s.job j).map Job.recorded

theorem State.recorded_of_jobs {s t : State} (h : t.jobs = s.jobs) (j : Nat) : t.recorded j = s.recorded j := by
  rw [State.recorded, State.recorded, State.job_eq_of_jobs h]

theorem State.recorded_modJob (s : State) (k : Nat) {f : Job → Job} (hf : ∀ x, (f x).recorded = x.recorded) (j : Nat) :
    (s.modJob k f).recorded j = s.recorded j := by
  rw [State.recorded, State.recorded, State.job_modJob]
  split
  next h =>
    subst h
    rw [Option.map_map]
    exact congrArg (Option.map · (s.job k)) (funext hf)
  next => rfl

theorem State.recorded_each {α : Type} {f : State → α → State} {j : Nat} (hf : ∀ s a, (f s a).recorded j = s.recorded j) (s : State) (xs : List α) :
    (s.each xs f).recorded j = s.recorded j := State.each_frame (fun t => State.recorded t j) hf s xs

theorem State.recorded_complete (s : State) (p : Port) (r : Nat) (d : Done) (j : Nat) : (s.complete p r d).recorded j = s.recorded j :=
  State.recorded_of_jobs (State.complete_jobs ..) j

theorem State.recorded_queueRelease (s : State) (k : Nat) (es : List RelEntry) (final inter : Bool) (j : Nat) :
    (s.queueRelease k es final inter).recorded j = s.recorded j := by
  have hstart (t : State) : (t.startRelease k).recorded j = t.recorded j := by
    unfold State.startRelease
    split
    · rfl
    · split
      · rfl
      · split
        · rfl
        · exact State.recorded_modJob _ _ (by intro; rfl) j
  unfold State.queueRelease
  split
  · rfl
  · exact (hstart _).trans (State.recorded_modJob _ _ (by intro; rfl) j)

theorem State.recorded_endPower (s : State) (k : Nat) (couch : Bool) (j : Nat) : (s.endPower k couch).recorded j = s.recorded j := by
  unfold State.endPower
  split
  · rfl
  · refine (State.recorded_each (fun t w => ?_) _ _).trans (State.recorded_modJob _ _ (by intro; rfl) j)
    rw [State.recorded_complete]
    refine State.recorded_each (fun u g => ?_) _ _
    split <;> rfl

theorem State.recorded_couchHandles (s : State) (k j : Nat) : (s.couchHandles k).recorded j = s.recorded j := by
  have hbegin : ((s.modJob k fun x => { x with
      blks := x.blks.map (fun (c : Nat × Blk) => (c.1, if c.2.written then { roleB := !c.2.roleB, written := false } else c.2)),
      folding := true }).endPower k true).recorded j = s.recorded j :=
    (State.recorded_endPower ..).trans (State.recorded_modJob _ _ (by intro; rfl) j)
  unfold State.couchHandles
  dsimp only
  split
  · exact hbegin
  · rw [State.recorded_endPower, State.recorded_each fun t m => State.recorded_complete .., State.recorded_modJob _ _ (by intro; rfl),
      State.recorded_each, State.recorded_modJob _ _ (by intro; rfl)]
    · exact hbegin
    · intro t w
      exact State.recorded_of_jobs (State.each_jobs _ _ _ fun u g => State.modGroup_jobs ..) j

theorem State.jobs_refill (s : State) (key : Nat) : (s.refill key).jobs = s.jobs := by
  unfold State.refill State.moveGranule
  dsimp only
  split <;> rfl

theorem State.recorded_unbindNow (s : State) (k : Nat) (y : KeySet) (j : Nat) : (s.unbindNow k y).recorded j = s.recorded j := by
  unfold State.unbindNow
  split
  · rfl
  · rw [State.recorded_complete]
    refine (State.recorded_modJob _ _ (by intro; rfl) j).trans (State.recorded_of_jobs ?_ j)
    exact State.each_jobs _ _ _ fun t r => State.each_jobs _ _ _ fun u i => State.jobs_refill ..

theorem State.jobs_startBuild (s : State) (y : KeySet) : (s.startBuild y).jobs = s.jobs := by
  unfold State.startBuild
  split
  · rfl
  · split
    · refine (State.each_jobs _ _ _ fun t m => ?_).trans (State.each_jobs _ _ _ fun t u => rfl)
      obtain ⟨h, hh⟩ := State.wakeStacks_eq t m
      rw [hh]
    · rfl

theorem State.jobs_fillDir (s : State) (j slot : Nat) (y : KeySet) : (s.fillDir j slot y).jobs = s.jobs := by
  unfold State.fillDir
  split
  · rfl
  · exact State.each_jobs _ _ _ fun t m => State.modHeadbox_jobs ..

theorem State.recorded_bindNow (s : State) (k : Nat) (y : KeySet) (j : Nat) : (s.bindNow k y).recorded j = s.recorded j := by
  unfold State.bindNow
  split
  · rfl
  · rw [State.recorded_complete, State.recorded_of_jobs (State.jobs_startBuild ..)]
    rw [State.recorded_of_jobs (State.jobs_fillDir ..)]
    exact State.recorded_modJob _ _ (by intro; rfl) j

theorem State.recorded_takeBinds (s : State) (k : Nat) (keep : List Bytes) (j : Nat) : (s.takeBinds k keep).recorded j = s.recorded j := by
  have hdrop (t : State) (o : BindOp) : (t.modJob k fun x => { x with binds := x.binds.erase o }).recorded j = t.recorded j :=
    State.recorded_modJob _ _ (by intro; rfl) j
  refine State.recorded_each (fun t o => ?_) _ _
  unfold State.takeBind
  dsimp only
  split
  · exact hdrop t o
  · split
    · split
      · rfl
      · exact (hdrop ..).trans (State.recorded_unbindNow ..)
    · split
      · rfl
      · exact (hdrop ..).trans (State.recorded_bindNow ..)

theorem State.recorded_commitAreas {s : State} {j : Nat} {x : Job} (hx : s.job j = some x) :
    (s.commitAreas j).recorded j = some ({ x with areas := x.areas.map fun c => (c.1, c.2.couch) } : Job).recorded := by
  simp only [State.commitAreas, hx]
  rw [State.recorded, State.job_modJob_self (x := x)]
  · rfl
  · refine (State.job_eq_of_jobs (State.each_jobs _ _ _ fun t c => ?_) j).trans hx
    split
    · unfold State.grantTo
      split <;> simp
    · rfl

/-! ### The commit -/

theorem State.jobs_jobCores (s : State) (j : Nat) (f : CoreSt → CoreSt) : (s.jobCores j f).jobs = s.jobs := State.jobCores_jobs ..

theorem State.commit_job {s : State} {j : Nat} {x : Job} (hx : s.job j = some x) (final inter : Bool) (keep : List Bytes) :
    ∃ y, (s.commit j final inter keep).job j = some y ∧ y.seq = x.seq + 1 ∧ y.sheet = 1 ∧ y.elapsed = 0 ∧ y.late = 0 ∧ y.couching = false ∧
      y.excCount = 0 ∧ y.exc = none ∧ y.snap.sems = x.sems ∧ y.snap.bars = x.bars ∧ y.snap.handles = y.handles ∧ y.undo = [] ∧
      y.areas = x.areas.map (fun c => (c.1, c.2.couch)) := by
  simp only [State.commit, hx]
  generalize hu : (((((s.commitAreas j).modJob j fun x => { x with seq := x.seq + 1 }).bump (ctrJob j 1) 1).queueRelease j x.stagedNow final inter
    ).couchHandles j).takeBinds j keep = u
  have hrec : u.recorded j = some (x.seq + 1, x.sems, x.bars, x.areas.map fun c => (c.1, c.2.couch)) := by
    rw [← hu, State.recorded_takeBinds, State.recorded_couchHandles, State.recorded_queueRelease, State.recorded, State.job_bump,
      State.job_modJob, if_pos rfl, Option.map_map]
    have h := State.recorded_commitAreas hx
    obtain ⟨y, hy, hrec⟩ := Option.map_eq_some_iff.mp h
    rw [hy]
    simp only [Job.recorded, Prod.mk.injEq] at hrec
    obtain ⟨hseq, hsems, hbars, hareas⟩ := hrec
    simp [Job.recorded, hseq, hsems, hbars, hareas]
  obtain ⟨y, hy, hyrec⟩ := Option.map_eq_some_iff.mp hrec
  simp only [Job.recorded, Prod.mk.injEq] at hyrec
  obtain ⟨hseq, hsems, hbars, hareas⟩ := hyrec
  rw [State.newStride, State.takeSnap]
  refine ⟨_, State.job_modJob_self ((State.job_eq_of_jobs (State.jobs_jobCores ..) j).trans (State.job_modJob_self hy _)) _,
    hseq, rfl, rfl, rfl, rfl, rfl, rfl, hsems, hbars, rfl, rfl, hareas⟩

/-- Settles O20. -/
theorem couches : Obligations.Couches := by
  refine ⟨fun s j x hlive hclk hx hst hcouching hq hinter hspan => ?couch, fun s j x final inter keep hx => State.commit_job hx final inter keep,
    fun s j x hlive hx hst hover hq => ?overrun, fun s j x hlive hx => ?fold⟩
  case couch =>
    have hexec : exec (.couchCommit j) s = .next (s.ordinaryCouch j) := by
      change execCouchCommit j s = _
      rw [execCouchCommit, if_pos ⟨hlive, hclk⟩, State.couchDue, if_pos]
      simp [hx, Job.commits, hst, hcouching, hq, hinter, hspan]
    rw [hexec]
    refine ⟨fun hended => ?_, fun hmore => ?_⟩
    · simp only [State.ordinaryCouch, hx, hended, if_true]
    · simp only [State.ordinaryCouch, hx, hmore, Bool.false_eq_true, if_false]
  case overrun =>
    change execScheduleOverrun j s = _
    rw [execScheduleOverrun, if_pos hlive, State.overrunNow, if_pos]
    simp [hx, hst, hover, hq]
  case fold =>
    change execRoleFoldComplete j s = _
    rw [execRoleFoldComplete, if_pos hlive, State.modJob_some _ _ _ _ hx]

/-! ### The end of a quiesce -/

theorem State.jobs_restoreHbm (s : State) (undo : Tbl Bytes) : (s.restoreHbm undo).jobs = s.jobs := by
  refine State.each_jobs _ _ _ fun t c => ?_
  dsimp only
  split
  · rw [State.jobs_hbmWrite, State.draw_jobs]
  · exact State.draw_jobs ..

theorem State.quiesceDone_job {s : State} {j : Nat} {x : Job} {q : Quiesce} (hx : s.job j = some x) (hq : x.quiesce = some q) :
    (s.quiesceDone j).job j = some x.rewind := by
  simp only [State.quiesceDone, hx, hq]
  refine State.job_modJob_self ((State.job_eq_of_jobs ?_ j).trans hx) _
  rw [State.each_jobs _ _ _ fun t q => State.jobEvent_jobs .., State.jobs_restoreHbm]
  change State.jobs (ite _ _ _) = _
  split
  · rw [State.each_jobs _ _ _ fun t c => State.modCore_jobs .., State.each_jobs _ _ _ fun t c => State.modCore_jobs ..]
  · rw [State.each_jobs _ _ _ fun t c => State.modCore_jobs ..]

/-- Settles O21. -/
theorem replays : Obligations.Replays := by
  intro s j x q hlive hclk hx hq hev
  have hexec : exec (.replayQuiesceDone j) s = .next (s.quiesceDone j) := by
    change execReplayQuiesceDone j s = _
    rw [execReplayQuiesceDone, if_pos ⟨hlive, hclk, hev⟩]
  exact ⟨_, x.rewind, hexec, State.quiesceDone_job hx hq, rfl, rfl, rfl, rfl, rfl, rfl, rfl, rfl, rfl, rfl, rfl, rfl⟩

end Sys2Proof.Machine
end

section
/-! Releases, receive areas and credits (R105 to R107, R428). -/

namespace Sys2Proof.Machine
open Sys2Proof.Claims

/-! ### What only the links see -/

/-- One state is the other but for its links and what the module sends out. -/
def State.OnlyLinks (s t : State) : Prop := ∃ l o, t = { s with links := l, out := o }

theorem State.OnlyLinks.refl (s : State) : s.OnlyLinks s := ⟨s.links, s.out, rfl⟩

theorem State.OnlyLinks.trans {s t u : State} (h : s.OnlyLinks t) (h' : t.OnlyLinks u) : s.OnlyLinks u := by
  obtain ⟨l, o, rfl⟩ := h
  obtain ⟨l', o', rfl⟩ := h'
  exact ⟨l', o', rfl⟩

theorem State.onlyLinks_each {α : Type} {f : State → α → State} (hf : ∀ (s : State) (a : α), s.OnlyLinks (f s a)) (s : State) (xs : List α) :
    s.OnlyLinks (s.each xs f) :=
  State.each_induct (P := s.OnlyLinks) (.refl s) fun t a _ ht => ht.trans (hf t a)

theorem State.onlyLinks_modLink (s : State) (k : Nat) (f : Link → Link) : s.OnlyLinks (s.modLink k f) := ⟨_, s.out, rfl⟩

theorem State.onlyLinks_emit (s : State) (o : Out) : s.OnlyLinks (s.emit o) := ⟨s.links, o :: s.out, rfl⟩

theorem State.onlyLinks_sendIdle (s : State) (k : Nat) (nak : Bool) : s.OnlyLinks (s.sendIdle k nak) := ⟨_, _, rfl⟩

theorem State.onlyLinks_transmit (s : State) (k : Nat) (f : Flit) : s.OnlyLinks (s.transmit k f) := by
  unfold State.transmit State.useLink
  dsimp only
  split
  · exact ((s.onlyLinks_emit _).trans (State.onlyLinks_modLink ..)).trans (State.onlyLinks_modLink ..)
  · exact ((((s.onlyLinks_emit _).trans (State.onlyLinks_modLink ..)).trans (State.onlyLinks_modLink ..)).trans
      (State.onlyLinks_modLink ..)).trans (State.onlyLinks_sendIdle ..)

theorem State.onlyLinks_pump (n : Nat) (s : State) (k : Nat) : s.OnlyLinks (State.pump n s k) := by
  induction n generalizing s with
  | zero => exact .refl s
  | succ n ih =>
    unfold State.pump
    split
    · exact .refl s
    · split
      · exact .refl s
      · exact ((s.onlyLinks_transmit ..).trans (State.onlyLinks_modLink ..)).trans (ih _)

theorem State.onlyLinks_enqueue (s : State) (k : Nat) (fs : List Flit) : s.OnlyLinks (s.enqueue k fs) :=
  (s.onlyLinks_modLink ..).trans (State.onlyLinks_pump ..)

theorem State.onlyLinks_sendMsg (s : State) (dst cls span tag : Nat) (payload : Bytes) (opens ends : Bool) :
    s.OnlyLinks (s.sendMsg dst cls span tag payload opens ends) := by
  unfold State.sendMsg
  split
  · exact .refl s
  · exact State.onlyLinks_enqueue ..

theorem State.onlyLinks_hostWrite (s : State) (p : Port) (pasid va : Nat) (data : Bytes) : s.OnlyLinks (s.hostWrite p pasid va data) :=
  State.onlyLinks_each (fun s _ => s.onlyLinks_emit _) s _

/-! ### The entries of a release -/

/-- A job once an entry of its release in hand is written. -/
def Job.wrote (x : Job) (e : RelEntry) : Job :=
  { x with areas := Tbl.set x.areas e.h { x.area e.h with flush := (x.area e.h).flush + e.len },
           rels := x.rels.modifyHead fun r => { r with done := r.done + 1 } }

theorem State.sendEntry_eq (s : State) (j : Nat) (e : RelEntry) : ∃ t, s.OnlyLinks t ∧ s.sendEntry j e = t.modJob j fun x => x.wrote e := by
  unfold State.sendEntry
  dsimp only
  cases e.dst with
  | host p pasid a => exact ⟨_, s.onlyLinks_hostWrite .., rfl⟩
  | link span stream => exact ⟨_, s.onlyLinks_sendMsg .., rfl⟩

theorem State.sendEntry_job {s : State} {j : Nat} {x : Job} (hx : s.job j = some x) (e : RelEntry) : (s.sendEntry j e).job j = some (x.wrote e) := by
  obtain ⟨t, ⟨l, o, rfl⟩, ht⟩ := s.sendEntry_eq j e
  rw [ht]
  exact State.job_modJob_self (s := { s with links := l, out := o }) hx _

theorem State.sendEntry_frame (s : State) (j : Nat) (e : RelEntry) :
    (s.sendEntry j e).live = s.live ∧ (s.sendEntry j e).clk = s.clk := by
  obtain ⟨t, ⟨l, o, rfl⟩, ht⟩ := s.sendEntry_eq j e
  rw [ht]
  simp [State.live]

theorem State.startRelease_of_begun {s : State} {j : Nat} {x : Job} {r : Release} {rs : List Release} (hx : s.job j = some x)
    (hrels : x.rels = r :: rs) (hbegun : r.begun = true) : s.startRelease j = s := by
  simp [State.startRelease, hx, hrels, hbegun]

theorem Job.relNext_of_begun {x : Job} {r : Release} {rs : List Release} (hrels : x.rels = r :: rs) (hbegun : r.begun = true) :
    x.relNext = r.entries[r.done]? := by
  simp [Job.relNext, hrels, hbegun]

/-- What the release engine of a job does once the entries that it could write are written. -/
def State.relMeets (s : State) (j : Nat) (e : ReadErr) : Outcome :=
  match (s.job j).map Job.rels with
  | some (r :: _) =>
    if !r.begun then .next s
    else match r.entries[r.done]? with
      | some p => .next (s.meetEntry j p e)
      | none => .next (s.finishRelease j r)
  | _ => .next s

theorem exec_releaseComplete {s : State} {j : Nat} {x : Job} {r : Release} {rs : List Release} (hlive : s.live = true)
    (hclk : s.clk.switching = .none) (hx : s.job j = some x) (hhalt : x.relHalt = none) (hrels : x.rels = r :: rs) (hbegun : r.begun = true)
    (n : Nat) (e : ReadErr) : exec (.releaseComplete j n e) s = (State.writeEntries j n s).relMeets j e := by
  change execReleaseComplete j s n e = _
  rw [execReleaseComplete, if_neg (by simp [hlive, hclk, hx, hhalt]), State.startRelease_of_begun hx hrels hbegun]
  rfl

theorem State.writeEntries_succ {s : State} {j : Nat} {x : Job} {p : RelEntry} (hx : s.job j = some x) (hp : x.relNext = some p)
    (hgo : s.entryGoes j p = true) (n : Nat) : State.writeEntries j (n + 1) s = State.writeEntries j n (s.sendEntry j p) := by
  rw [State.writeEntries, hx]
  simp only [Option.bind_some, hp, hgo, if_true]

theorem State.writeEntries_of_stuck {s : State} {j : Nat} {x : Job} {p : RelEntry} (hx : s.job j = some x) (hp : x.relNext = some p)
    (hstuck : s.entryGoes j p = false) (n : Nat) : State.writeEntries j n s = s := by
  cases n with
  | zero => rfl
  | succ n =>
    rw [State.writeEntries, hx]
    simp only [Option.bind_some, hp, hstuck, Bool.false_eq_true, if_false]

theorem State.writeEntries_of_done {s : State} {j : Nat} {x : Job} (hx : s.job j = some x) (hp : x.relNext = none) (n : Nat) :
    State.writeEntries j n s = s := by
  cases n with
  | zero => rfl
  | succ n =>
    rw [State.writeEntries, hx]
    simp only [Option.bind_some, hp]

theorem State.relMeets_entry {s : State} {j : Nat} {x : Job} {r : Release} {rs : List Release} {p : RelEntry} (hx : s.job j = some x)
    (hrels : x.rels = r :: rs) (hbegun : r.begun = true) (hp : r.entries[r.done]? = some p) (e : ReadErr) :
    s.relMeets j e = .next (s.meetEntry j p e) := by
  simp [State.relMeets, hx, hrels, hbegun, hp]

theorem State.relMeets_end {s : State} {j : Nat} {x : Job} {r : Release} {rs : List Release} (hx : s.job j = some x)
    (hrels : x.rels = r :: rs) (hbegun : r.begun = true) (hp : r.entries[r.done]? = none) (e : ReadErr) :
    s.relMeets j e = .next (s.finishRelease j r) := by
  simp only [State.relMeets, hx, Option.map_some, hrels, hbegun, hp]
  rfl

/-! ### What a store leaves of a job's areas -/

/-- The areas of a job and the bytes of releases that it does not see yet, which a store leaves alone. -/
def State.rings (s : State) (j : Nat) : Option (Tbl Area × Tbl Bytes) := (s.job j).map fun x => (x.areas, x.rxHidden)

theorem State.rings_of_jobs {s t : State} (h : t.jobs = s.jobs) (j : Nat) : t.rings j = s.rings j := by
  rw [State.rings, State.rings, State.job_eq_of_jobs h]

theorem State.rings_modJob (s : State) (k : Nat) {f : Job → Job} (hf : ∀ x, (f x).areas = x.areas ∧ (f x).rxHidden = x.rxHidden) (j : Nat) :
    (s.modJob k f).rings j = s.rings j := by
  rw [State.rings, State.rings, State.job_modJob]
  split
  next h =>
    subst h
    rw [Option.map_map]
    exact congrArg (Option.map · (s.job k)) (funext fun x => Prod.ext (hf x).1 (hf x).2)
  next => rfl

theorem State.rings_writeByte (s : State) (k : Nat) (undo : Bool) (p : Place) (v : Byte) (j : Nat) :
    (s.writeByte k undo p v).rings j = s.rings j := by
  cases p with
  | sram a => rfl
  | hbm a =>
    have hput (t : State) : ((t.putByte (.hbm a) v).tagSector a k).rings j = t.rings j :=
      State.rings_of_jobs (State.jobs_hbmWrite t a [v]) j
    refine (hput _).trans ?_
    cases undo with
    | false => rfl
    | true =>
      refine State.rings_modJob _ _ (fun x => ?_) j
      split <;> exact ⟨rfl, rfl⟩

theorem State.rings_each {α : Type} {f : State → α → State} {j : Nat} (hf : ∀ s a, (f s a).rings j = s.rings j) (s : State) (xs : List α) :
    (s.each xs f).rings j = s.rings j := State.each_frame (fun t => State.rings t j) hf s xs

theorem State.rings_openBlock (s : State) (k h : Nat) (e : Handle) (b lo hi j : Nat) : (s.openBlock k h e b lo hi).rings j = s.rings j := by
  unfold State.openBlock
  split
  · rfl
  · dsimp only
    split
    · rfl
    · refine (State.rings_modJob _ _ (by intro; exact ⟨rfl, rfl⟩) j).trans ?_
      split
      · rfl
      · exact State.rings_each (fun t i => State.rings_writeByte ..) _ _

theorem State.rings_store (s : State) (k h off : Nat) (data : Bytes) (j : Nat) : (s.store k h off data).rings j = s.rings j := by
  have hfold (e : Handle) (x : Job) (undo : Bool) (a : State × Nat) :
      (data.foldl (fun (a : State × Nat) v => (a.1.writeByte k undo (a.1.place e (x.writeBase h e a.2) a.2) v, a.2 + 1)) a).1.rings j = a.1.rings j := by
    induction data generalizing a with
    | nil => rfl
    | cons v vs ih => exact (ih _).trans (State.rings_writeByte ..)
  unfold State.store
  split
  · rfl
  · dsimp only
    split
    · split
      · exact State.rings_each (fun t b => State.rings_openBlock ..) _ _
      · rfl
    · refine (hfold ..).trans ?_
      dsimp only
      split
      · exact State.rings_each (fun t b => State.rings_openBlock ..) _ _
      · rfl

theorem State.rings_storeRing (s : State) (k h at_ : Nat) (data : Bytes) (j : Nat) : (s.storeRing k h at_ data).rings j = s.rings j := by
  unfold State.storeRing
  split
  · rfl
  · exact (State.rings_store ..).trans (State.rings_store ..)

/-! ### Releases and grants -/

theorem exec_releaseEnd {s : State} {span stream seq bytes j : Nat} {x : Job} (hlive : s.live = true) (hj : s.spanJob span = some j)
    (hx : s.job j = some x) (hrecv : (x.handle stream).receive = true) (hseq : seq ≠ 0) :
    exec (.releaseEnd span stream seq bytes) s =
      let b := (Tbl.get [] x.rxHidden stream).take bytes
      let off := (x.area stream).flush % max 1 (x.handle stream).bound
      match s.ringFault j stream off b.length true with
      | some k => .next (s.stopJob j { code := codeStale, detail := k, handle := stream % 65536, data := le 8 off })
      | none => .next ((s.storeRing j stream (x.area stream).flush b).modJob j fun x =>
          { x with areas := Tbl.set x.areas stream { x.area stream with flush := (x.area stream).flush + b.length },
                   rxHidden := Tbl.set x.rxHidden stream ((Tbl.get [] x.rxHidden stream).drop bytes), stuck := false }) := by
  change Host.Outcome.next (s.releaseEndNow span stream seq bytes) = _
  simp only [State.releaseEndNow, hj, hx, hlive, hrecv, hseq, Bool.not_true, Bool.false_eq_true, or_self, if_false]
  cases s.ringFault j stream ((x.area stream).flush % max 1 (x.handle stream).bound) ((Tbl.get [] x.rxHidden stream).take bytes).length true <;> rfl

/-- Settles O22. -/
theorem releasesAndGrants : Obligations.ReleasesAndGrants := by
  refine ⟨fun s j x r rs n e hlive hclk hx hhalt hrels hbegun => ⟨fun hend => ?ends, fun p hp => ?entry⟩, fun s j x n e hx hhalt => ?halted,
    fun s span stream seq bytes j x hlive hj hx hrecv hseq => ⟨fun k hfault => ?unmapped, fun hok => ?visible⟩,
    fun s span stream credits j x hlive hj hx => ?grant⟩
  case ends =>
    rw [exec_releaseComplete hlive hclk hx hhalt hrels hbegun, State.writeEntries_of_done hx ((Job.relNext_of_begun hrels hbegun).trans hend),
      State.relMeets_end hx hrels hbegun hend]
  case entry =>
    have hnext : x.relNext = some p := (Job.relNext_of_begun hrels hbegun).trans hp
    have hmeet (n : Nat) (hstuck : s.entryGoes j p = false) : exec (.releaseComplete j n e) s = .next (s.meetEntry j p e) := by
      rw [exec_releaseComplete hlive hclk hx hhalt hrels hbegun, State.writeEntries_of_stuck hx hnext hstuck,
        State.relMeets_entry hx hrels hbegun hp]
    refine ⟨fun hgo => ⟨?_, x.wrote p, State.sendEntry_job hx p, ?_, ?_⟩, fun k hk => ?_, fun a hk ha => ?_, fun q pg hk ha hread hq => ?_,
      fun hk ha hread => ?_⟩
    · obtain ⟨hlive', hclk'⟩ := s.sendEntry_frame j p
      rw [exec_releaseComplete hlive hclk hx hhalt hrels hbegun, State.writeEntries_succ hx hnext hgo]
      exact (exec_releaseComplete (x := x.wrote p) (r := { r with done := r.done + 1 }) (rs := rs) (hlive'.trans hlive) (hclk' ▸ hclk)
        (State.sendEntry_job hx p) hhalt (by rw [Job.wrote, hrels]; rfl) hbegun n e).symm
    · simp [Job.wrote, Job.area]
    · rw [Job.wrote, hrels]
      rfl
    · rw [hmeet n (by simp [State.entryGoes, hk])]
      simp only [State.meetEntry, hk]
      rfl
    · rw [hmeet n (by simp [State.entryGoes, ha])]
      simp only [State.meetEntry, hk, ha]
    · rw [hmeet n (by simp [State.entryGoes, hq])]
      simp only [State.meetEntry, hk, ha, hread, hq]
    · rw [exec_releaseComplete hlive hclk hx hhalt hrels hbegun, State.writeEntries, State.relMeets_entry hx hrels hbegun hp]
      simp only [State.meetEntry, hk, ha]
      generalize s.readOutcome j p.h p.off p.len e = o at hread
      cases o with
      | good => exact absurd rfl hread
      | _ => rfl
  case halted =>
    change execReleaseComplete j s n e = _
    rw [execReleaseComplete, if_pos (by simp [hx, hhalt])]
  case unmapped =>
    rw [exec_releaseEnd hlive hj hx hrecv hseq]
    simp only [hfault]
    rfl
  case visible =>
    have hexec := exec_releaseEnd (bytes := bytes) hlive hj hx hrecv hseq
    simp only [hok] at hexec
    have hrings := State.rings_storeRing s j stream (x.area stream).flush ((Tbl.get [] x.rxHidden stream).take bytes) j
    rw [State.rings, State.rings, hx] at hrings
    obtain ⟨y, hy, hyx⟩ := Option.map_eq_some_iff.mp hrings
    obtain ⟨hareas, hhidden⟩ := Prod.mk.inj hyx
    have harea : y.area stream = x.area stream := congrArg (fun t => Tbl.get ({} : Area) t stream) hareas
    refine ⟨_, _, hexec, State.job_modJob_self hy _, ?_, ?_, ?_, ?_⟩
    · rw [Job.area]
      dsimp only
      rw [Tbl.get_set_self, harea]
    · rw [Job.area]
      dsimp only
      rw [Tbl.get_set_self, harea]
    · rw [Job.area]
      dsimp only
      rw [Tbl.get_set_self, harea]
    · dsimp only
      rw [Tbl.get_set_self, hhidden]
  case grant =>
    change Host.Outcome.next (s.grantNow span stream credits) = _
    simp only [State.grantNow, hj, hlive, Bool.not_true, Bool.false_eq_true, if_false, State.modJob_some _ _ _ _ hx]

end Sys2Proof.Machine
end

section
/-! Jobs over several modules: votes, decisions, START and STOP (R116, R379, R435, R436). -/

namespace Sys2Proof.Machine
open Sys2Proof.Claims

@[simp] theorem State.span_modSpan_self (s : State) (i : Nat) (f : Span → Span) : (s.modSpan i f).span i = f (s.span i) := Tbl.get_set_self ..

@[simp] theorem State.members_modSpan (s : State) (k : Nat) (f : Span → Span) (i : Nat) : (s.modSpan k f).members i = s.members i := rfl

/-! ### Votes -/

theorem State.takeVote_of_fresh {s : State} {i m seq : Nat} {v : Vote} {k d : Nat} {dead : Bool} (hmember : (s.members i).contains m = true)
    (hnew : ((s.span i).votes.any fun c => c.1 == m) = false) (hopen : s.decided i = false)
    (hseq : (((s.spanJob i).bind s.job).any fun x => x.seq != seq) = false) :
    s.takeVote i m seq v k d dead = (s.modSpan i fun y => { y with
      votes := y.votes ++ [(m, v)], voteSeq := seq, dead := y.dead && dead, kMax := max y.kMax k, dMin := min y.dMin d }).judge i := by
  simp only [State.takeVote, hmember, hnew, hopen, hseq, Bool.not_true, Bool.or_self, Bool.false_eq_true, if_false]

theorem State.judge_of_fault {s : State} {i : Nat} (h : ((s.span i).votes.any fun v => v.2 == .fault) = true) : s.judge i = s.decideAs i .rollback := by
  rw [State.judge]
  exact if_pos h

theorem State.judge_of_missing {s : State} {i : Nat} (h : ((s.span i).votes.any fun v => v.2 == .fault) = false)
    (hmissing : ((s.members i).all fun m => (s.span i).votes.any fun v => v.1 == m) = false) : s.judge i = s := by
  simp only [State.judge, h, hmissing, Bool.false_eq_true, Bool.not_false, if_true, if_false]

theorem State.judge_of_ready {s : State} {i : Nat} (h : ((s.span i).votes.all fun v => v.2 == .ready) = true)
    (hall : ((s.members i).all fun m => (s.span i).votes.any fun v => v.1 == m) = true) : s.judge i = s.decideAs i .commit := by
  have hfault : ((s.span i).votes.any fun v => v.2 == .fault) = false := by
    refine List.any_eq_false.mpr fun v hv => ?_
    have hready := beq_iff_eq.mp (List.all_eq_true.mp h v hv)
    rw [hready]
    decide
  simp only [State.judge, hfault, hall, h, Bool.false_eq_true, Bool.not_true, if_true, if_false]

theorem spanVotes : Claims.SpanVotes := by
  refine ⟨fun s i m seq v k d dead hlive hmaster hentry => ?vote, fun s i m seq v k d dead hmember hnew hopen hseq => ?judge,
    fun s i seq j d lost hlive hmaster hj => ?decision, fun s i m hlive hmaster hvotes hmember hmissing => ?late,
    fun s i m hlive hmaster hvotes hmember hnone hopen => ?silent, fun s i j x hlive hmaster hj hx hmine => ?ask,
    fun s i m seq n d hlive hmaster hfind => ?answer⟩
  case vote =>
    change Host.Outcome.next (s.voteNow i m seq v k d dead) = _
    rw [State.voteNow, if_pos ⟨hlive, hmaster, hentry⟩]
  case judge =>
    intro s' vs
    have htake : s.takeVote i m seq v k d dead = s'.judge i := State.takeVote_of_fresh hmember hnew hopen hseq
    have hvotes : (s'.span i).votes = vs := by simp only [s', State.span_modSpan_self]; rfl
    refine ⟨fun hv => ?_, fun hgood hmissing => ?_, fun hready hall => ?_⟩
    · rw [htake, State.judge_of_fault]
      rw [hvotes]
      simp [vs, hv]
    · rw [htake, State.judge_of_missing]
      · rw [hvotes]; exact hgood
      · rw [hvotes]; exact hmissing
    · rw [htake, State.judge_of_ready]
      · rw [hvotes]; exact hready
      · rw [hvotes]; exact hall
  case decision =>
    change Host.Outcome.next (s.decisionNow i seq d lost) = _
    simp only [State.decisionNow, hj, hlive, hmaster, ne_eq, not_false_eq_true, and_self, if_true]
  case late =>
    change execVoteTimeout i m s = _
    have hseq : s.seqInHand i = (s.span i).voteSeq := by
      cases h : (s.span i).votes with
      | nil => exact absurd h hvotes
      | cons v vs => simp [State.seqInHand, h]
    rw [execVoteTimeout, if_pos ⟨hlive, hmaster, .inl hvotes, hmember, by simp [hmissing]⟩, hseq]
  case silent =>
    change execVoteTimeout i m s = _
    rw [execVoteTimeout, if_pos ⟨hlive, hmaster, .inr ⟨by simp [hnone], by simp [hopen]⟩, hmember, by simp [hvotes]⟩]
  case ask =>
    change execDecisionTimeout i s = _
    simp only [execDecisionTimeout, hj, Option.bind_some, hx]
    exact if_pos ⟨hlive, hmaster, hmine⟩
  case answer =>
    change Host.Outcome.next (s.answerDecision i m seq) = _
    simp only [State.answerDecision, hfind, hlive, hmaster, and_self, if_true]

/-! ### Decisions -/

theorem spanDecisions : Claims.SpanDecisions := by
  intro s i j seq x d hx hlate s'
  have htake (hst : x.st = .running) (hseq : x.seq = seq) (d : Decision) (lost : Bool) : s.takeDecision i j seq d lost = match d with
      | .commit => if (s.span i).mine = some .ready then s'.commitSpan j else s'
      | .defer => s'.deferSpan j
      | .rollback => s'.rollbackSpan i j lost := by
    simp only [State.takeDecision, hx, hst, hseq, hlate, ne_eq, not_true_eq_false, or_self, if_false]
    cases d <;> rfl
  refine ⟨fun hother => ?_, fun hst hseq => ⟨fun hmine => ?_, fun hmine => ?_, htake hst hseq .defer false, htake hst hseq .rollback⟩⟩
  · simp only [State.takeDecision, hx, ne_eq, hother, not_false_eq_true, or_true, if_true]
  · exact (htake hst hseq .commit false).trans (if_pos hmine)
  · exact (htake hst hseq .commit false).trans (if_neg hmine)

/-! ### START and STOP -/

theorem exec_start {s : State} {i j r : Nat} {p : Port} (hlive : s.live = true) (hmaster : s.masterNo ≠ s.self)
    (hwait : s.waitingSubmit i = some (j, p, r)) (tick hops : Nat) (agree : Bool) :
    exec (.start i tick hops agree) s =
      let s' := s.modSpan i fun y => { y with submit := none }
      .next (if 4 < hops then s'.complete p r { status := 0x0260, detail := 7 }
        else if !agree then s'.complete p r { status := 0x0260, detail := 6 }
        else (((s'.modSpan i fun _ => { firstTick := some tick }).launch j).complete p r { v0 := tick }).grantRoom j i) := by
  change Host.Outcome.next (s.startNow i tick hops agree) = _
  rw [State.startNow, hlive, if_neg (by decide), if_neg fun h => hmaster h.1]
  dsimp only
  rw [hwait]

theorem exec_stop {s : State} {i j : Nat} {x : Job} (hlive : s.live = true) (hj : s.spanJob i = some j) (hx : s.job j = some x)
    (hspan : x.span = some i) (cause : Nat) : exec (.stop i cause) s =
      .next (if cause = 0x0704 then
        let i : StopInfo := { code := 0x0704, res := { res := .peer } }
        let s := if x.st = .running then s.stopJob j i false else if x.st = .wiping then s else s.stopRec j i
        (s.abortAll x.owner j none).killJob j
      else if cause = 0x0304 then s.deadlockStop j false
      else if cause = 0x0703 then s.stopAny j { code := cause, res := { res := .peer } } false
      else if cause = 0x0602 ∨ cause = 0x0306 then s.stopJob j { code := cause } false
      else s.stopJob j { code := 0x0704, res := { res := .peer } } false) := by
  change Host.Outcome.next (s.peerStop i cause) = _
  simp only [State.peerStop, hj, hx]
  rw [if_neg (by simp [hlive, hspan])]

theorem spanStartStop : Claims.SpanStartStop := by
  refine ⟨fun s i tick hops agree j p r hlive hmaster hwait => ?start, fun s i j p r hlive hwait => ?timeout,
    fun s i cause j x hlive hj hx hspan => ?stop⟩
  case start =>
    refine ⟨fun hfar => ?_, fun hnear hdiffer => ?_, fun hnear hagree => ?_⟩
    · rw [exec_start hlive hmaster hwait]
      exact congrArg Host.Outcome.next (if_pos hfar)
    · rw [exec_start hlive hmaster hwait, hdiffer]
      exact congrArg Host.Outcome.next (if_neg (Nat.not_lt.mpr hnear))
    · rw [exec_start hlive hmaster hwait, hagree]
      exact congrArg Host.Outcome.next (if_neg (Nat.not_lt.mpr hnear))
  case timeout =>
    change execSpanSubmitTimeout i s = _
    simp only [execSpanSubmitTimeout, hwait]
    exact if_pos hlive
  case stop =>
    refine ⟨fun hcause => ?_, fun hcause => ?_, fun hcause => ?_, fun hcause => ?_, fun hcause hst => ?_, fun hcause hst hwipe => ?_⟩
    · subst hcause
      rw [exec_stop hlive hj hx hspan, if_neg (by decide), if_pos rfl]
    · rw [exec_stop hlive hj hx hspan, if_neg (by omega), if_neg (by omega), if_neg (by omega), if_pos hcause]
    · subst hcause
      rw [exec_stop hlive hj hx hspan, if_neg (by decide), if_neg (by decide), if_pos rfl]
    · simp only [List.mem_cons, List.not_mem_nil, or_false, not_or] at hcause
      obtain ⟨h1, h2, h3, h4, h5⟩ := hcause
      rw [exec_stop hlive hj hx hspan, if_neg h5, if_neg h1, if_neg h4, if_neg (by omega)]
    · rw [exec_stop hlive hj hx hspan, if_pos hcause]
      dsimp only
      rw [if_pos hst]
    · rw [exec_stop hlive hj hx hspan, if_pos hcause]
      dsimp only
      rw [if_neg hst, if_neg hwipe]

/-- Settles O48. -/
theorem spans : Obligations.Spans := ⟨spanVotes, spanDecisions, spanStartStop⟩

end Sys2Proof.Machine
end

section
/-! Snapshots, logs, vectors, the frequency measurement, and accesses of BAR0 and BAR2 (R73, R118, R386 to R400, R478). -/

namespace Sys2Proof.Machine
open Sys2Proof.Claims

theorem bit_eq_testBit (a i : Nat) : bit a i = a.testBit i := by
  simp [bit, Nat.testBit_eq_decide_div_mod_eq]
  rfl

theorem bit_toNat (v : Reg) (i : Nat) : bit v.toNat i = v.getLsbD i := by rw [bit_eq_testBit, BitVec.testBit_toNat]

theorem masked_zero (v : Reg) : masked 0 v = w1c v := by simp [masked, w1c]

theorem State.regOk_essOk {s : State} {p : Port} (h : s.regOk p = true) : s.essOk p = true := by
  rw [State.regOk, Bool.and_eq_true] at h
  exact h.1

/-- One bit of a word cleared. -/
theorem getLsbD_and_not_one_shiftLeft {n : Nat} (x : BitVec n) (i k : Nat) :
    (x &&& ~~~(BitVec.ofNat n (1 <<< i))).getLsbD k = (x.getLsbD k && !(i == k)) := by
  by_cases hk : k < n
  · have hone : (BitVec.ofNat n (1 <<< i)).getLsbD k = decide (i = k) := by
      rw [BitVec.getLsbD_ofNat, Nat.one_shiftLeft, Nat.testBit_two_pow]
      simp [hk]
    rw [BitVec.getLsbD_and, BitVec.getLsbD_not, hone, beq_eq_decide]
    simp [hk]
  · rw [BitVec.getLsbD_of_ge _ _ (Nat.le_of_not_lt hk), BitVec.getLsbD_of_ge _ _ (Nat.le_of_not_lt hk), Bool.false_and]

/-! ### Snapshots -/

theorem exec_snapCtrlWrite {s : State} {p : Port} (hok : s.essOk p = true) (v : Reg) :
    exec (.snapCtrlWrite p v) s = .next (if (v.getLsbD 0 && v.getLsbD 16) = true ∧ (s.port p).snapBusy = false then s.snapshot p else s) := by
  change execSnapCtrlWrite p v s = _
  rw [execSnapCtrlWrite, if_pos hok, State.writeSnap, masked_zero, bit_w1c v (by decide)]
  simp

theorem snapshots : Claims.Snapshots := by
  refine ⟨fun s p v hok => ⟨fun hv hfree => ?taken, fun hnot => ?ignored⟩, fun s p r c hholds => ⟨fun hbusy => ?waits, fun hfree => ?command⟩,
    fun s p hlive hbusy => ?filled⟩
  case taken =>
    refine ⟨s.snapshot p, by rw [exec_snapCtrlWrite hok, if_pos ⟨hv, hfree⟩], ?_⟩
    have hport : (s.snapshot p).port p = { s.port p with
        snapBusy := true, snapSeq := (s.port p).snapSeq + 1,
        hold := Tbl.set ((s.boundary.getD s.ctr).filter fun c => s.sees p c.1) ctrTick s.now } := State.port_modPort_self ..
    rw [hport]
    refine ⟨rfl, rfl, Tbl.get_set_self .., fun k hk hsees => ?_, State.modPort_ctr ..⟩
    rw [Tbl.get_set_ne _ _ _ _ _ (by omega), Tbl.get_filter_key, hsees, if_pos rfl]
  case ignored =>
    rw [exec_snapCtrlWrite hok, if_neg]
    rintro ⟨hv, hfree⟩
    obtain h | h := hnot
    · rw [h] at hv
      cases hv
    · rw [h] at hfree
      cases hfree
  case waits =>
    change execStatsSnapshot p r s = _
    simp only [execStatsSnapshot, State.command_of_holds hholds, hbusy, if_true]
  case command =>
    change execStatsSnapshot p r s = _
    simp only [execStatsSnapshot, State.command_of_holds hholds, hfree, Bool.false_eq_true, if_false]
  case filled =>
    intro s'
    refine ⟨fun hring => ?_, fun r hring => ?_⟩
    · change execSnapshotFilled p s = _
      simp only [execSnapshotFilled, hlive, hbusy, hring]
      rfl
    · change execSnapshotFilled p s = _
      simp only [execSnapshotFilled, hlive, hbusy, hring]
      rfl

/-! ### Logs and vectors -/

theorem State.unmask_msixMask (s : State) (p : Port) (v w : Nat) :
    (((s.unmask p v).port p).msixMask).getLsbD w = ((s.port p).msixMask.getLsbD w && !(v == w)) ∧
    (((s.unmask p v).port p).msixPend).getLsbD w = ((s.port p).msixPend.getLsbD w && !(v == w)) := by
  have hport : (s.unmask p v).port p = { s.port p with
      msixMask := (s.port p).msixMask &&& ~~~(BitVec.ofNat 64 (1 <<< v)), msixPend := (s.port p).msixPend &&& ~~~(BitVec.ofNat 64 (1 <<< v)) } := by
    unfold State.unmask
    dsimp only
    split
    · rw [State.port_emit, State.port_modPort_self]
      rfl
    · rw [State.port_modPort_self]
      rfl
  rw [hport]
  exact ⟨getLsbD_and_not_one_shiftLeft .., getLsbD_and_not_one_shiftLeft ..⟩

theorem State.unmask_out (s : State) (p : Port) (v : Nat) :
    (s.unmask p v).out = if (s.port p).msixPend.getLsbD v then .msix p v :: s.out else s.out := by
  unfold State.unmask
  dsimp only
  split
  · exact congrArg (Out.msix p v :: ·) (State.modPort_out ..)
  · exact State.modPort_out ..

theorem logsAndVectors : Claims.LogsAndVectors := by
  refine ⟨fun s p v hok => ?errStatus, fun s p hi v hok => ?valid, fun s p v hok hv => ?unmask, fun s p v hok hv hfree => ?start,
    fun s p n hlive hstart hrun => ?done⟩
  case errStatus =>
    intro left
    have hexec : exec (.errStatusWrite p v) s = .next (s.writeErrStatus p v) := by
      change execErrStatusWrite p v s = _
      rw [execErrStatusWrite, if_pos hok]
    refine ⟨fun hmask hleft => ?_, fun hmask hleft => ?_, fun hmask => ?_⟩
    · rw [hexec, State.writeErrStatus, if_neg hmask, State.modPort_eq]
      exact congrArg (fun q => Host.Outcome.next (s.setPort p q)) (if_neg hleft)
    · rw [hexec, State.writeErrStatus, if_neg hmask, State.modPort_eq]
      exact congrArg (fun q => Host.Outcome.next (s.setPort p q)) (if_pos hleft)
    · rw [hexec, State.writeErrStatus, if_pos hmask]
  case valid =>
    change execErrrecValidWrite p hi v s = _
    rw [execErrrecValidWrite, if_pos hok, State.writeValid, State.modPort_eq]
  case unmask =>
    refine ⟨s.unmask p v, ?_, ?_, ?_, fun w hw hw64 => ?_, State.unmask_out s p v⟩
    · change execMsixUnmask p v s = _
      rw [execMsixUnmask, if_pos ⟨hok, hv⟩]
    · simp [(State.unmask_msixMask s p v v).1]
    · simp [(State.unmask_msixMask s p v v).2]
    · obtain ⟨hmask, hpend⟩ := State.unmask_msixMask s p v w
      have hne : (v == w) = false := beq_eq_false_iff_ne.mpr (Ne.symm hw)
      rw [hmask, hpend, hne, Bool.not_false, Bool.and_true, Bool.and_true]
      exact ⟨rfl, rfl⟩
  case start =>
    intro w f
    rw [Bool.and_eq_true] at hv
    have hgo : bit v.toNat 31 = true ∧ bit v.toNat 15 = true ∧ (!(s.port p).fmc.start || s.fmcHangs p) = true :=
      ⟨by rw [bit_toNat]; exact hv.1, by rw [bit_toNat]; exact hv.2, by obtain h | h := hfree <;> simp [h]⟩
    have hexec : exec (.fmcStart p v) s = .next (s.setPort p { s.port p with
        fmc := if (clockCode f.targetSel = true ∧ clockCode f.refSel = true) then { f with start := true } else { f with selInvalid := true } }) := by
      change execFmcStart p v s = _
      rw [execFmcStart, if_pos hok, State.fmcWrite, State.modPort_eq]
      dsimp only
      rw [if_pos hgo]
      refine congrArg (fun q => Host.Outcome.next (s.setPort p q)) ?_
      split <;> rfl
    refine ⟨fun ht hr => ?_, fun hbad => ?_⟩
    · rw [hexec, if_pos ⟨ht, hr⟩]
    · rw [hexec, if_neg]
      rintro ⟨ht, hr⟩
      obtain h | h := hbad
      · rw [ht] at h
        cases h
      · rw [hr] at h
        cases h
  case done =>
    have hexec (stopped : Bool) : exec (.fmcDone p n stopped) s = .next (s.setPort p { s.port p with
        fmc := { (s.port p).fmc with start := false, valid := true, targetStopped := stopped, count := if stopped then 0 else n % 2 ^ 29 } }) := by
      change execFmcDone p n stopped s = _
      rw [execFmcDone, if_pos ⟨hlive, hstart, by rw [hrun]; rfl⟩, State.modPort_eq]
    exact ⟨hexec false, hexec true⟩

/-- Settles O49. -/
theorem statistics : Obligations.Statistics := ⟨snapshots, logsAndVectors⟩

/-! ### Accesses of BAR0 -/

theorem exec_busError {s : State} {p : Port} (hok : s.essOk p = true) (off : Nat) (q : Req) (data : List Reg) :
    exec (.busError p off q data) s = match busKind off q with
      | some k => .next (s.busError p off q.write k)
      | none =>
        let ps := (reqPlaces off q).filterMap id
        if q.write then
          .next (if data.length = ps.length then
            s.each ((ps.zip data).filter fun w => w.1.1 == .msix) fun s w => s.writeMsix p w.1.2 w.2 else s)
        else if (s.port p).snapBusy ∧ ps.any holding then .next s
        else .next (s.emit (.data p (ps.flatMap fun b => le 4 (s.regValue p b.1 b.2)))) := by
  change execBusError p off q s data = _
  rw [execBusError, hok]
  exact if_neg (by simp)

theorem registerAccess : Claims.RegisterAccess := by
  refine ⟨fun s p off v hok => ⟨fun hnone => ?reserved, fun b o hreg => ?register⟩, fun s p off q hok => ⟨fun k hkind => ?error,
    fun hkind hread => ?read, fun vs hkind hwrite => ?write, ?aborted⟩⟩
  case reserved =>
    change execRegisterWrite p off v s = _
    simp only [execRegisterWrite, hok, hnone]
    rfl
  case register =>
    have hexec : exec (.registerWrite p off v) s = .next (s.writeBlock p b o v) := by
      change execRegisterWrite p off v s = _
      simp only [execRegisterWrite, hok, hreg]
      rfl
    refine ⟨hexec, fun hgated => ?_, fun hb => ?_⟩
    · rw [hexec]
      unfold State.writeBlock
      rw [if_pos hgated]
    · rw [hexec]
      unfold State.writeBlock
      simp only [List.mem_cons, List.not_mem_nil, or_false] at hb
      obtain rfl | rfl | rfl | rfl | rfl | rfl | rfl | rfl | rfl := hb <;> exact congrArg Host.Outcome.next (ite_self _)
  case error =>
    rw [exec_busError hok, hkind]
    rfl
  case read =>
    intro ps
    refine ⟨fun hfree => ?_, fun hbusy hhold => ?_⟩
    · rw [exec_busError hok, hkind]
      dsimp only
      rw [hread, if_neg Bool.false_ne_true, if_neg]
      rintro ⟨hbusy, hhold⟩
      obtain h | h := hfree
      · rw [h] at hbusy
        cases hbusy
      · rw [show ((reqPlaces off q).filterMap id).any holding = false from h] at hhold
        cases hhold
    · rw [exec_busError hok, hkind]
      dsimp only
      rw [hread, if_neg Bool.false_ne_true, if_pos ⟨hbusy, hhold⟩]
  case write =>
    intro ps hlen hmsix
    have hall : (ps.zip vs).filter (fun w => w.1.1 == .msix) = ps.zip vs :=
      List.filter_eq_self.mpr fun w hw => List.all_eq_true.mp hmsix w.1 (List.of_mem_zip hw).1
    rw [exec_busError hok, hkind]
    dsimp only
    rw [hwrite, if_pos rfl, if_pos hlen]
    exact congrArg (fun l => Host.Outcome.next (s.each l fun s w => s.writeMsix p w.1.2 w.2)) hall
  case aborted =>
    refine ⟨congrArg (Out.abort p :: ·) (State.modPort_out ..), ?_⟩
    rw [State.abort, State.port_emit, State.port_modPort_self]

/-! ### BAR2 -/

theorem bar2Access : Claims.Bar2Access := by
  refine ⟨fun s p off len e hok => ⟨fun hnone => ?closedRead, fun w o x hplace => ?read⟩,
    fun s p off data e hok => ⟨fun hnone => ?closedWrite, fun w o x hplace => ?write⟩⟩
  case closedRead =>
    change execBar2Read p off len e s = _
    simp only [execBar2Read, hok, hnone]
    rfl
  case read =>
    have hexec : exec (.bar2Read p off len e) s = match s.readOutcome w.job w.handle o len e with
        | .tag t k => .next ((s.bar2Abort p off false 4).tagRecord w.job w.handle (o + k) t)
        | .checkBits _ => .next (s.bar2Abort p off false 8)
        | .good => .next (s.emit (.data p (s.load w.job w.handle o len))) := by
      change execBar2Read p off len e s = _
      simp only [execBar2Read, hok, hplace]
      rfl
    exact ⟨fun h => by rw [hexec, h], fun k h => by rw [hexec, h], fun t k h => by rw [hexec, h]⟩
  case closedWrite =>
    change execBar2Write p off data e s = _
    simp only [execBar2Write, hok, hnone]
    rfl
  case write =>
    have hexec : exec (.bar2Write p off data e) s =
        if (x.handle w.handle).readonly = true ∨ ¬(x.st = .created ∨ x.st = .loaded ∨ w.keyStaging = true) then .next (s.bar2Abort p off true 5)
        else if uncorrectable e = true ∧ partSector o data.length = true then .next (s.bar2Abort p off true 8)
        else .next (s.store w.job w.handle o data) := by
      change execBar2Write p off data e s = _
      simp only [execBar2Write, hok, hplace]
      rfl
    refine ⟨fun hbad => ?_, fun hwritable hst => ⟨fun hgood => ?_, fun herr hpart => ?_⟩⟩
    · rw [hexec, if_pos]
      obtain h | ⟨h1, h2, h3⟩ := hbad
      · exact .inl h
      · exact .inr (by simp [h1, h2, h3])
    all_goals
      have hmay : ¬((x.handle w.handle).readonly = true ∨ ¬(x.st = .created ∨ x.st = .loaded ∨ w.keyStaging = true)) := by
        rw [hwritable]
        exact fun h => h.elim Bool.noConfusion fun h => h hst
      rw [hexec, if_neg hmay]
    · rw [if_neg]
      rintro ⟨herr, hpart⟩
      obtain h | h := hgood
      · rw [h] at herr
        cases herr
      · rw [h] at hpart
        cases hpart
    · rw [if_pos ⟨herr, hpart⟩]

/-- Settles O50. -/
theorem registers : Obligations.Registers := ⟨registerAccess, bar2Access⟩

end Sys2Proof.Machine
end

section
/-! Command rings, the fetch of commands, completions, queries and events (R402 to R415). -/

namespace Sys2Proof.Machine
open Sys2Proof.Claims

/-! ### Ring registers -/

theorem Ring.configure_of_disabled {g : Ring} {v : Reg} (hoff : g.enable = false) (hon : bit (masked g.cfg v) 15 = true)
    (hsq : 4 ≤ bits (masked g.cfg v) 3 0) (hle : bits (masked g.cfg v) 3 0 ≤ bits (masked g.cfg v) 11 8) (hcq : bits (masked g.cfg v) 11 8 ≤ 12) :
    g.configure v = { g with enable := true, cqLog2 := bits (masked g.cfg v) 11 8, sqLog2 := bits (masked g.cfg v) 3 0,
                             sqTail := 0, sqHead := 0, cqHead := 0, cqTail := 0, phase := true } := by
  have hsized : ({ g with cqLog2 := bits (masked g.cfg v) 11 8, sqLog2 := bits (masked g.cfg v) 3 0 } : Ring).sized = true := by
    simp [Ring.sized, hsq, hle, hcq, Nat.le_trans hsq hle, Nat.le_trans hle hcq]
  rw [Ring.configure, hoff, if_neg Bool.false_ne_true, hon]
  exact if_pos hsized

theorem ringRegisters : Claims.RingRegisters := by
  intro s p r v hok hr g
  have hgo : s.regOk p = true ∧ r < 8 := ⟨hok, hr⟩
  have hdoorbell : exec (.doorbell p r v) s = .next (s.writeTail p r v) := by
    change execDoorbell p r v s = _
    rw [execDoorbell, if_pos hgo]
  have hringEnable : exec (.ringEnable p r v) s = .next (s.setRing p r (g.configure v)) := by
    change execRingEnable p r v s = _
    rw [execRingEnable, if_pos hgo]
    rfl
  have hringDisable : exec (.ringDisable p r v) s = .next (s.setRing p r (g.configure v)) := by
    change execRingDisable p r v s = _
    rw [execRingDisable, if_pos hgo]
    rfl
  refine ⟨fun hctl => ?_, fun hctl => ?_, ?_, ⟨fun hoff hon hsq hle hcq => ?_, fun hen hon => ?_, fun hen hon => ?_⟩, ?_, fun hoff hon hlo hhi => ?_⟩
  · rw [hdoorbell, State.writeTail, if_pos hctl]
  · rw [hdoorbell, State.writeTail, hctl, if_neg Bool.false_ne_true]
  · change execCqHeadWrite p r v s = _
    rw [execCqHeadWrite, if_pos hgo]
    rfl
  · rw [hringEnable, Ring.configure_of_disabled hoff hon hsq hle hcq]
  · rw [hringEnable, Ring.configure, hen, if_pos rfl, hon, if_pos rfl]
  · rw [hringDisable, Ring.configure, hen, if_pos rfl, hon, if_neg Bool.false_ne_true]
  · change execEvHeadWrite p v s = _
    rw [execEvHeadWrite, if_pos hok]
    rfl
  · change execEvEnable p v s = _
    rw [execEvEnable, if_pos hok, State.writeEvCfg, State.modPort_eq, State.modPort_eq]
    have hconf : (s.port p).ev.configure v = { (s.port p).ev with
        log2 := bits (masked (s.port p).ev.cfg v) 3 0, enable := true, head := 0, tail := 0, phase := true } := by
      rw [EvRing.configure, hoff, if_neg Bool.false_ne_true, hon]
      exact if_pos (by simp [hlo, hhi])
    rw [hconf]

/-! ### The fetch of a command -/

theorem State.checkCommand_of_unknown {s : State} {p : Port} {c : Bytes} (h : opcodes.contains (field c 0 1) = false) :
    s.checkCommand p c = some { status := 0x0001 } := by
  rw [State.checkCommand, h]
  rfl

theorem State.checkCommand_of_field {s : State} {p : Port} {c : Bytes} {off : Nat} (h : opcodes.contains (field c 0 1) = true)
    (hf : s.fieldFault c = some off) : s.checkCommand p c = some { status := 0x0002, detail := off } := by
  simp only [State.checkCommand, h, hf]
  rfl

theorem State.checkCommand_of_notAdmin {s : State} {p : Port} {c : Bytes} (h : opcodes.contains (field c 0 1) = true)
    (hf : s.fieldFault c = none) (ha : adminOpcodes.contains (field c 0 1) = true) (hp : p ≠ s.adminPort) :
    s.checkCommand p c = some { status := 0x0102 } := by
  simp only [State.checkCommand, h, hf, ha, ne_eq, hp, not_false_eq_true, and_self, if_true]
  rfl

theorem State.checkCommand_of_notOwner {s : State} {p : Port} {c : Bytes} (h : opcodes.contains (field c 0 1) = true)
    (hf : s.fieldFault c = none) (hj : jobOpcodes.contains (field c 0 1) = true) (ha : adminOpcodes.contains (field c 0 1) = false)
    (ho : ((s.job (field c 2 1)).any fun x => x.owner == p) = false) : s.checkCommand p c = some { status := 0x0101 } := by
  simp only [State.checkCommand, h, hf, ha, hj, ho, Bool.false_eq_true, false_and, not_false_eq_true, and_self, if_false, if_true] <;> rfl

theorem commandFetch : Claims.CommandFetch := by
  intro s p r b hserves hr hmay c s'
  have hexec : exec (.commandFetch p r b) s = match s'.checkCommand p c with
      | some d => .next (s'.complete p r d)
      | none => .next s' := by
    change execCommandFetch p r b s = _
    rw [execCommandFetch]
    dsimp only
    exact if_neg (by simp [hserves, hmay, Nat.not_le.mpr hr])
  have hjobs (j : Nat) : s'.job j = s.job j := State.job_modPort ..
  refine ⟨fun hgood => by rw [hexec, hgood], fun d hbad => by rw [hexec, hbad], State.checkCommand_of_unknown,
    fun hop off hfault => State.checkCommand_of_field hop hfault, fun hop hfault => ⟨fun hadmin hport => ?_, fun hnames hno => ⟨fun hjob => ?_, fun x hjob howner => ?_⟩⟩⟩
  · exact State.checkCommand_of_notAdmin hop hfault hadmin (by simpa [s'] using hport)
  · exact State.checkCommand_of_notOwner hop hfault hnames hno (by rw [hjobs, hjob]; rfl)
  · exact State.checkCommand_of_notOwner hop hfault hnames hno (by rw [hjobs, hjob]; simpa using howner)

/-- Settles O51. -/
theorem rings : Obligations.Rings := ⟨ringRegisters, commandFetch⟩

/-! ### Completions -/

theorem completionBytes_length (tag status sqHead v0 v1 detail job opcode : Nat) (phase : Bool) :
    (completionBytes tag status sqHead v0 v1 detail job opcode phase).length = 32 := by
  simp [completionBytes, le]

/-- A ring whose command has completed. -/
def Ring.completed (g : Ring) : Ring :=
  { g with current := none, held := false, page := none, sent := 0, cqTail := (g.cqTail + 1) % 2 ^ g.cqLog2,
           phase := if (g.cqTail + 1) % 2 ^ g.cqLog2 = 0 then !g.phase else g.phase }

@[simp] theorem State.ring_raise (s : State) (p : Port) (v r : Nat) : (s.raise p v).ring p r = s.ring p r := by
  unfold State.raise
  split
  · rw [State.ring, State.port_modPort_self]
    rfl
  · rw [State.ring, State.port_emit]
    rfl

theorem completions : Claims.Completions := by
  intro s p r d c hcur g b
  let t := (s.setRing p r g.completed).emit (.completion p r g.cqTail b)
  have hdone : s.complete p r d = if bit (field c 1 1) 0 then t else t.raise p (2 + r) := by
    rw [State.complete]
    simp only [hcur]
    rfl
  have hring : (s.complete p r d).ring p r = g.completed := by
    have ht : t.ring p r = g.completed := by
      rw [State.ring, State.port_emit]
      exact State.ring_setRing_self s p r g.completed
    rw [hdone]
    split
    · exact ht
    · rw [State.ring_raise, ht]
  refine ⟨completionBytes_length .., by rw [hring]; rfl, by rw [hring]; rfl, by rw [hring]; rfl, fun hquiet => ?_, fun hloud => ?_⟩
  · rw [hdone, if_pos hquiet]
    exact congrArg (Out.completion p r g.cqTail b :: ·) (State.setRing_out ..)
  · rw [hdone, hloud, if_neg Bool.false_ne_true]
    rfl

/-! ### Queries and events -/

theorem length_flatMap_const {α β : Type} (xs : List α) (f : α → List β) (n : α → Nat) (h : ∀ x ∈ xs, (f x).length = n x) :
    (xs.flatMap f).length = (xs.map n).foldl (· + ·) 0 := by
  rw [List.length_flatMap, List.sum_eq_foldl, List.map_congr_left h]

theorem primeRecords_length (v : Nat) : (primeRecords v).length = primeCount v :=
  length_flatMap_const _ _ _ fun f _ => by rw [List.length_map, List.length_range]

theorem setRecords_length (v : Nat) : (setRecords v).length = setCount v := List.length_map ..

theorem queriesAndEvents : Claims.QueriesAndEvents := by
  refine ⟨fun s p r c ok n => ⟨fun hholds => ?primes, fun hholds => ?sets, fun hholds hnone => ?ready, fun hholds hsome => ?readyBuf⟩,
    fun s p e es hserves hwait hen hroom => ?event⟩
  case primes =>
    change execQueryPrimes p r ok s n = _
    simp only [execQueryPrimes, State.command_of_holds hholds, primeRecords_length]
  case sets =>
    change execQueryParamset p r ok s n = _
    simp only [execQueryParamset, State.command_of_holds hholds, setRecords_length]
  case ready =>
    change execQueryReady p r ok s n = _
    simp only [execQueryReady, State.command_of_holds hholds, hnone, if_true]
  case readyBuf =>
    change execQueryReady p r ok s n = _
    simp only [execQueryReady, State.command_of_holds hholds, hsome, if_false]
  case event =>
    change execEventRecordPost p s = _
    simp only [execEventRecordPost, hwait]
    exact if_neg (by simp [hserves, hen, Nat.not_lt.mpr hroom])

/-- Settles O52. -/
theorem answers : Obligations.Answers := ⟨completions, queriesAndEvents⟩

end Sys2Proof.Machine
end

section
/-! Power and the management bus, the sensors, the power loops and the ramps (R30 to R37, R51 to R63, R76, R366, R476, R481). -/

namespace Sys2Proof.Machine
open Sys2Proof.Claims

/-! ### Changes of many mills and of many stacks -/

@[simp] theorem State.mill_modMill_self (s : State) (m : Nat) (f : Mill → Mill) : (s.modMill m f).mill m = f (s.mill m) := Tbl.get_set_self ..

@[simp] theorem State.mill_setMill_self (s : State) (m : Nat) (x : Mill) : (s.setMill m x).mill m = x := Tbl.get_set_self ..

theorem State.mill_setMill_ne (s : State) {m i : Nat} (x : Mill) (h : m ≠ i) : (s.setMill m x).mill i = s.mill i := Tbl.get_set_ne _ _ _ _ _ h

/-- A change of each mill of a list, by what the state says beside the mills. -/
theorem State.each_modMill {g : State → Nat → Mill → Mill} {s : State} (h : ∀ ms m, g { s with mills := ms } m = g s m) {xs : List Nat} (hn : xs.Nodup) :
    ∃ ms, (s.each xs fun t m => t.modMill m (g t m)) = { s with mills := ms } ∧
      ∀ i, State.mill { s with mills := ms } i = if i ∈ xs then g s i (s.mill i) else s.mill i := by
  induction xs generalizing s with
  | nil => exact ⟨s.mills, rfl, fun i => rfl⟩
  | cons x xs ih =>
    obtain ⟨hx, hn⟩ := List.nodup_cons.mp hn
    obtain ⟨ms, heq, hget⟩ := ih (s := s.modMill x (g s x)) (fun ms m => (h ms m).trans (h _ m).symm) hn
    refine ⟨ms, heq, fun i => (hget i).trans ?_⟩
    have hg : g (s.modMill x (g s x)) i = g s i := h _ i
    rw [hg]
    by_cases hi : i = x
    · subst hi
      rw [if_neg hx, if_pos List.mem_cons_self, State.mill_modMill_self]
    · have hother : (s.modMill x (g s x)).mill i = s.mill i := s.mill_setMill_ne _ (Ne.symm hi)
      simp [hother, hi]

/-- A change of each stack of a list. -/
theorem State.each_modStack (g : Nat → Stack → Stack) (s : State) {xs : List Nat} (hn : xs.Nodup) :
    ∃ ks, (s.each xs fun t k => t.modStack k (g k)) = { s with hbms := ks } ∧
      ∀ i, State.stack { s with hbms := ks } i = if i ∈ xs then g i (s.stack i) else s.stack i := by
  induction xs generalizing s with
  | nil => exact ⟨s.hbms, rfl, fun i => rfl⟩
  | cons x xs ih =>
    obtain ⟨hx, hn⟩ := List.nodup_cons.mp hn
    obtain ⟨ks, heq, hget⟩ := ih (s.modStack x (g x)) hn
    refine ⟨ks, heq, fun i => (hget i).trans ?_⟩
    by_cases hi : i = x
    · subst hi
      rw [if_neg hx, if_pos List.mem_cons_self, State.stack_modStack_self]
    · simp [State.stack_modStack_ne s (g x) (Ne.symm hi), hi]

theorem State.modJob_jobs_only (s : State) (j : Nat) (f : Job → Job) : ∃ js, s.modJob j f = { s with jobs := js } := by
  unfold State.modJob
  split
  · exact ⟨s.jobs, rfl⟩
  · exact ⟨_, rfl⟩

/-- Noting the operating points changes the marks of slow mills and the extremes of the jobs. -/
theorem State.notePoints_eq (s : State) : ∃ ms js, s.notePoints = { s with mills := ms, jobs := js } ∧
    ∀ m, m < 4 → State.mill { s with mills := ms, jobs := js } m = { s.mill m with slow := (s.mill m).slow || (s.mill m).below } := by
  obtain ⟨ms, hms, hget⟩ := State.each_modMill (g := fun _ _ x => { x with slow := x.slow || x.below }) (s := s) (fun _ _ => rfl) (xs := List.range 4)
    List.nodup_range
  obtain ⟨js, hjs⟩ : ∃ js, s.notePoints = { s with mills := ms, jobs := js } := by
    rw [State.notePoints, hms]
    refine State.each_induct (P := fun t => ∃ js, t = { s with mills := ms, jobs := js }) ⟨s.jobs, rfl⟩ fun t j _ ⟨js, ht⟩ => ?_
    obtain ⟨js', ht'⟩ := t.modJob_jobs_only j fun x => { x with kMax := max x.kMax (t.jobPoint x).1, dMin := min x.dMin (t.jobPoint x).2 }
    exact ⟨js', ht'.trans (by rw [ht])⟩
  exact ⟨ms, js, hjs, fun m hm => (hget m).trans (if_pos (List.mem_range.mpr hm))⟩

theorem State.notePoints_mill (s : State) {m : Nat} (hm : m < 4) :
    s.notePoints.mill m = { s.mill m with slow := (s.mill m).slow || (s.mill m).below } := by
  obtain ⟨ms, js, heq, hget⟩ := s.notePoints_eq
  rw [heq, hget m hm]

@[simp] theorem State.notePoints_clk (s : State) : s.notePoints.clk = s.clk := by
  obtain ⟨ms, js, heq, _⟩ := s.notePoints_eq
  rw [heq]

@[simp] theorem State.notePoints_stack (s : State) (k : Nat) : s.notePoints.stack k = s.stack k := by
  obtain ⟨ms, js, heq, _⟩ := s.notePoints_eq
  rw [heq]
  rfl

/-! ### Power up and down -/

theorem State.live_of_on {s : State} (h : s.live = true) : s.pins.power = .on := by
  rw [State.live, Bool.and_eq_true] at h
  exact eq_of_beq h.1

theorem State.freezeNow_eq (s : State) : ∃ ks, s.freezeNow = { s with
    boot := { s.boot with frozen := true }, hbms := ks, portA := { s.portA with linkUp := false }, portB := { s.portB with linkUp := false } } := by
  obtain ⟨ks, hks, _⟩ := State.each_modStack (fun _ x => { x with st := if x.st = 3 then 3 else 2 }) { s with boot := { s.boot with frozen := true } }
    (xs := List.range 12) List.nodup_range
  refine ⟨ks, ?_⟩
  rw [State.freezeNow, State.restStacks, hks]
  rfl

theorem State.mctp_powerFail (s : State) : 0x0701 ∈ s.powerFail.pins.mctp := List.mem_append_right _ List.mem_cons_self

theorem exec_coldReset_of_off {s : State} {vin : Nat} (hvin : 42000 < vin) (hoff : ¬(s.pins.power = .on ∨ s.pins.power = .starting)) :
    exec (.coldReset vin true) s = .next
      (let t := State.lost { s with pins := { s.pins with vin := vin } } .starting
       { t with pins := { t.pins with pwrEn := true, thermtrip := false } }) := by
  change execColdReset vin true s = _
  rw [execColdReset]
  exact if_pos ⟨hvin, rfl, hoff⟩

theorem exec_pwrEnDeassert (s : State) : exec .pwrEnDeassert s = .next
    (let t := match s.pins.power with
      | .on => s.safeShutdown
      | .starting => s.lost .off
      | _ => s
     { t with pins := { t.pins with pwrEn := false } }) := rfl

theorem State.safeShutdown_of_running {s : State} (hon : s.pins.power = .on) (hrun : s.boot.frozen = false) :
    s.safeShutdown = (let u : State := (s.each s.jobNums fun s j => s.killJob j).powerFail
      { u with pins := { u.pins with power := .shutdown } }) := by
  unfold State.safeShutdown
  rw [if_neg (fun h => h hon), hrun, if_neg Bool.false_ne_true]

theorem State.safeShutdown_of_frozen {s : State} (hon : s.pins.power = .on) (hfrozen : s.boot.frozen = true) : s.safeShutdown = s.lost .off := by
  unfold State.safeShutdown
  rw [if_neg (fun h => h hon), if_pos hfrozen]

theorem powerUpAndDown : Claims.PowerUpAndDown := by
  refine ⟨fun s vin hvin hoff => ?start, fun s vin low hnot => ?level, fun s hon => ⟨fun hrun => ?shutdown, fun hfrozen => ?frozenOff⟩,
    fun s hshut => ?idle, fun s vin hvin => ?above, fun s k hstart => ?good, fun s ns hlive => ⟨fun hns => ?rejected, fun hns => ?freeze⟩⟩
  case start =>
    refine ⟨_, exec_coldReset_of_off hvin (by obtain h | h | h := hoff <;> simp [h]), ?_⟩
    exact ⟨rfl, rfl, rfl, rfl, rfl, rfl, rfl, rfl, rfl, rfl, rfl, rfl, rfl, rfl, rfl, rfl, rfl, rfl, rfl⟩
  case level =>
    change execColdReset vin low s = _
    rw [execColdReset]
    refine if_neg ?_
    rintro ⟨hvin, hlow, hstopped⟩
    obtain h | h | h | h := hnot
    · exact Nat.not_lt.mpr h hvin
    · rw [h] at hlow
      cases hlow
    · exact hstopped (.inl h)
    · exact hstopped (.inr h)
  case shutdown =>
    refine ⟨?_, State.mctp_powerFail _, fun vin hvin => ?_⟩
    · rw [exec_pwrEnDeassert, hon]
      dsimp only
      rw [State.safeShutdown_of_running hon hrun]
    · change execVinBelowSafeShutdown vin s = _
      rw [execVinBelowSafeShutdown, if_neg (Nat.not_le.mpr hvin), hon]
      dsimp only
      rw [State.safeShutdown_of_running hon hrun]
  case frozenOff =>
    refine ⟨_, exec_pwrEnDeassert s, ?_⟩
    rw [hon]
    dsimp only
    rw [State.safeShutdown_of_frozen hon hfrozen]
    exact ⟨rfl, rfl, rfl, rfl, rfl, rfl, rfl⟩
  case idle =>
    have hidle : s.idle = s.lost .off := by
      unfold State.idle
      exact if_pos hshut
    rw [hidle]
    exact ⟨rfl, rfl, rfl, rfl, rfl, rfl, rfl⟩
  case above =>
    change execVinBelowSafeShutdown vin s = _
    rw [execVinBelowSafeShutdown, if_pos hvin]
  case good =>
    change execPwrGood k true s = _
    rw [execPwrGood, if_neg (fun h => h hstart)]
    rfl
  case rejected =>
    change execFreeze ns s = _
    rw [execFreeze, if_pos (.inr hns)]
  case freeze =>
    obtain ⟨ks, hfreeze⟩ := s.freezeNow_eq
    have hexec : exec (.freeze ns) s = .next s.freezeNow := by
      change execFreeze ns s = _
      rw [execFreeze, if_neg (by rw [hlive]; exact fun h => h.elim Bool.noConfusion (by omega)), if_pos hns]
    refine ⟨s.freezeNow, hexec, ?_⟩
    rw [hfreeze]
    exact ⟨Bool.and_false _, rfl, rfl, rfl, rfl, rfl, rfl⟩

/-! ### The management bus -/

theorem State.moduleEvents_eq (s : State) (code value : Nat) : ∃ a b o, s.moduleEvents code value = { s.noteCause code with portA := a, portB := b, out := o } :=
  State.onlyPorts_onPorts (f := fun s p => s.moduleEvent p code value) (fun s p => s.onlyPorts_post p _) (s.noteCause code)

theorem exec_vinLow {s : State} (hlive : s.live = true) {vin : Nat} (hlo : 40000 ≤ vin) (hhi : vin < 44000) :
    exec (.vinLow vin) s = .next
      (let t : State := { s with pins := { s.pins with vin := vin },
                                 clk := { s.clk with vinLow := true, vinSample := vin, vinCap := 227 * vin / 10000 / 10 * 10 } }
       if s.clk.vinLow then t else (t.moduleEvents 0x0706 0).mctpEvent 0x0706) := by
  change execVinLow vin s = _
  rw [execVinLow, if_neg (fun h => h ⟨hlo, hhi⟩), hlive]
  rfl

theorem managementBus : Claims.ManagementBus := by
  refine ⟨fun s vin hlive hlo hhi => ?low, fun s vin hlive hvin => ?normal, fun s c dev cs hev => ⟨fun hdev => ?event, fun hdev => ?other⟩,
    fun s dev a b => ⟨fun hon hdev => ⟨fun hjobs ha => ?write, fun hno => ?nack⟩, fun hno => ?silent⟩,
    fun s dev w => ⟨fun hlive hdev => ⟨fun hlo hhi hten => ?cap, fun hno => ?capNack⟩, fun hno => ?capSilent⟩⟩
  case low =>
    refine ⟨_, exec_vinLow hlive hlo hhi, ?_⟩
    dsimp only
    cases hwas : s.clk.vinLow with
    | true => exact ⟨rfl, rfl, rfl, rfl⟩
    | false =>
      obtain ⟨a, b, o, heq⟩ := State.moduleEvents_eq { s with
        pins := { s.pins with vin := vin }, clk := { s.clk with vinLow := true, vinSample := vin, vinCap := 227 * vin / 10000 / 10 * 10 } } 0x0706 0
      rw [if_neg Bool.false_ne_true, heq]
      exact ⟨rfl, rfl, rfl, rfl⟩
  case normal =>
    change execVinInOperatingRange vin s = _
    rw [execVinInOperatingRange, if_neg (Nat.not_lt.mpr hvin), State.vinRead]
    exact congrArg Host.Outcome.next (if_pos (State.live_of_on hlive))
  case event =>
    change execMctpEventRead s dev = _
    simp only [execMctpEventRead, hev, hdev, ne_eq, not_true, if_false]
  case other =>
    change execMctpEventRead s dev = _
    simp only [execMctpEventRead, hev, if_pos hdev]
  case write =>
    change execEepromWrite a b s dev = _
    rw [execEepromWrite, if_neg (fun h => h.elim (fun h => h hon) fun h => h hdev), if_pos ⟨hjobs, ha⟩]
  case nack =>
    change execEepromWrite a b s dev = _
    rw [execEepromWrite, if_neg (fun h => h.elim (fun h => h hon) fun h => h hdev), if_neg]
    rintro ⟨hjobs, ha⟩
    exact hno.elim (fun h => h hjobs) (Nat.not_le.mpr ha)
  case silent =>
    change execEepromWrite a b s dev = _
    rw [execEepromWrite, if_pos hno]
  case cap =>
    change execIntegratorCapSet w s dev = _
    rw [execIntegratorCapSet, hlive, if_neg (by simp [hdev]), if_pos (by simp [capOk, hlo, hhi, hten])]
  case capNack =>
    have hcap : capOk w = false := by
      obtain h | h | h := hno <;> simp [capOk, h]
    change execIntegratorCapSet w s dev = _
    rw [execIntegratorCapSet, hlive, if_neg (by simp [hdev]), hcap, if_neg Bool.false_ne_true]
  case capSilent =>
    change execIntegratorCapSet w s dev = _
    rw [execIntegratorCapSet, if_pos]
    exact hno.imp (fun h => by rw [h]; rfl) id

/-- Settles O53. -/
theorem power : Obligations.Power := ⟨powerUpAndDown, managementBus⟩

end Sys2Proof.Machine
end

section
/-! The sensors, the throttling steps, the power loops and the ramps (R51 to R63, R366, R476, R481). -/

namespace Sys2Proof.Machine
open Sys2Proof.Claims

/-! ### Sensor samples -/

theorem Stack.temp_startDue (x : Stack) : x.startDue.temp = x.temp := by
  unfold Stack.startDue
  split
  · split <;> rfl
  · rfl

theorem Stack.temp_warmed (x : Stack) (t : Nat) : (x.warmed t).temp = t := Stack.temp_startDue _

theorem State.sampled_mill (s : State) (r : Readings) {m : Nat} (hm : m < 4) :
    (s.sampled r).mill m = { s.mill m with temp := Machine.reading r.mills m } := by
  obtain ⟨ms, hms, hget⟩ := State.each_modMill (g := fun _ m x => { x with temp := Machine.reading r.mills m }) (s := s) (fun _ _ => rfl) (xs := List.range 4)
    List.nodup_range
  obtain ⟨ks, hks, _⟩ := State.each_modStack (fun k x => x.warmed (Machine.reading r.hbm k)) { s with mills := ms } (xs := List.range 12) List.nodup_range
  rw [State.sampled, hms, hks]
  exact (hget m).trans (if_pos (List.mem_range.mpr hm))

theorem State.sampled_stack (s : State) (r : Readings) {k : Nat} (hk : k < 12) :
    (s.sampled r).stack k = (s.stack k).warmed (Machine.reading r.hbm k) := by
  obtain ⟨ms, hms, _⟩ := State.each_modMill (g := fun _ m x => { x with temp := Machine.reading r.mills m }) (s := s) (fun _ _ => rfl) (xs := List.range 4)
    List.nodup_range
  obtain ⟨ks, hks, hget⟩ := State.each_modStack (fun k x => x.warmed (Machine.reading r.hbm k)) { s with mills := ms } (xs := List.range 12) List.nodup_range
  rw [State.sampled, hms, hks]
  exact (hget k).trans (if_pos (List.mem_range.mpr hk))

theorem State.frozenSample_mill (s : State) (r : Readings) {m : Nat} (hm : m < 4) :
    (s.frozenSample r).mill m = { s.mill m with temp := Machine.reading r.mills m } := by
  obtain ⟨ms, hms, hget⟩ := State.each_modMill (g := fun _ m x => { x with temp := Machine.reading r.mills m }) (s := s) (fun _ _ => rfl) (xs := List.range 4)
    List.nodup_range
  obtain ⟨ks, hks, _⟩ := State.each_modStack (fun k x => { x with temp := Machine.reading r.hbm k }) { s with mills := ms } (xs := List.range 12) List.nodup_range
  rw [State.frozenSample, hms, hks]
  exact (hget m).trans (if_pos (List.mem_range.mpr hm))

theorem State.frozenSample_stack (s : State) (r : Readings) {k : Nat} (hk : k < 12) :
    (s.frozenSample r).stack k = { s.stack k with temp := Machine.reading r.hbm k } := by
  obtain ⟨ms, hms, _⟩ := State.each_modMill (g := fun _ m x => { x with temp := Machine.reading r.mills m }) (s := s) (fun _ _ => rfl) (xs := List.range 4)
    List.nodup_range
  obtain ⟨ks, hks, hget⟩ := State.each_modStack (fun k x => { x with temp := Machine.reading r.hbm k }) { s with mills := ms } (xs := List.range 12) List.nodup_range
  rw [State.frozenSample, hms, hks]
  exact (hget k).trans (if_pos (List.mem_range.mpr hk))

/-- The hottest stack of a mill, by the readings that the stacks hold. -/
def State.hottest (s : State) (m : Nat) : Nat := max (max (s.stack (3 * m)).temp (s.stack (3 * m + 1)).temp) (s.stack (3 * m + 2)).temp

/-- A mill after the thermal actions: its sample, and the mark of a slow mill. -/
def Mill.throttled (x : Mill) (hot : Nat) : Mill := { x.sample x.temp hot with slow := (x.sample x.temp hot).slow || (x.sample x.temp hot).below }

/-- The thermal actions up to the noting of the points. -/
theorem State.thermal_eq (s : State) : ∃ ms ks, s.thermal = State.notePoints { s with
      mills := ms, hbms := ks, clk := { s.clk with hubHot := decide (100 ≤ s.clk.hubTemp),
                                                   hubTherm := if 105 ≤ s.clk.hubTemp then max s.clk.hubTherm 32 else s.clk.hubTherm } } ∧
    (∀ m, m < 4 → Tbl.get {} ms m = (s.mill m).sample (s.mill m).temp (s.hottest m)) ∧
    ∀ k, k < 12 → Tbl.get {} ks k = (s.stack k).sample (s.stack k).temp := by
  obtain ⟨ms, hms, hmget⟩ := State.each_modMill (g := fun s m x => x.sample x.temp (s.hottest m)) (s := s) (fun _ _ => rfl) (xs := List.range 4)
    List.nodup_range
  obtain ⟨ks, hks, hkget⟩ := State.each_modStack (fun _ x => x.sample x.temp) { s with mills := ms } (xs := List.range 12) List.nodup_range
  refine ⟨ms, ks, ?_, fun m hm => (hmget m).trans (if_pos (List.mem_range.mpr hm)), fun k hk => (hkget k).trans (if_pos (List.mem_range.mpr hk))⟩
  have hmills : (s.each (List.range 4) fun s m => s.modMill m fun x =>
      x.sample x.temp (max (max (s.stack (3 * m)).temp (s.stack (3 * m + 1)).temp) (s.stack (3 * m + 2)).temp)) = { s with mills := ms } := hms
  rw [State.thermal, hmills, hks]

theorem State.thermal_mill (s : State) {m : Nat} (hm : m < 4) : s.thermal.mill m = (s.mill m).throttled (s.hottest m) := by
  obtain ⟨ms, ks, heq, hmill, _⟩ := s.thermal_eq
  rw [heq, State.notePoints_mill _ hm, State.mill]
  dsimp only
  rw [hmill m hm]
  rfl

theorem State.thermal_stack (s : State) {k : Nat} (hk : k < 12) : s.thermal.stack k = (s.stack k).sample (s.stack k).temp := by
  obtain ⟨ms, ks, heq, _, hstack⟩ := s.thermal_eq
  rw [heq, State.notePoints_stack]
  exact hstack k hk

theorem State.thermal_clk (s : State) : s.thermal.clk = { s.clk with
    hubHot := decide (100 ≤ s.clk.hubTemp), hubTherm := if 105 ≤ s.clk.hubTemp then max s.clk.hubTherm 32 else s.clk.hubTherm } := by
  obtain ⟨ms, ks, heq, _⟩ := s.thermal_eq
  rw [heq, State.notePoints_clk]

theorem Mill.duty_le_of_thermLimit {x : Mill} (h : x.thermLimit = true) : x.duty ≤ 4 := by
  rw [Mill.duty, h]
  exact Nat.min_le_right _ _

theorem Mill.duty_le_of_limiter {x : Mill} (h : x.limiter = true) : x.duty ≤ 8 := by
  rw [Mill.duty, h]
  exact (Nat.min_le_left _ _).trans (Nat.min_le_right _ _)

theorem Mill.throttled_spec (x : Mill) (hot : Nat) :
    (x.throttled hot).temp = x.temp ∧ ((x.throttled hot).hot = true ↔ 100 ≤ x.temp ∨ 90 ≤ hot) ∧
    ((x.throttled hot).thermLimit = true ↔ 105 ≤ x.temp ∨ 95 ≤ hot) ∧
    ((x.throttled hot).thermLimit = true → 32 ≤ (x.throttled hot).thermK ∧ (x.throttled hot).duty ≤ 4) ∧ (x.throttled hot).divK = x.divK := by
  refine ⟨rfl, decide_eq_true_iff, decide_eq_true_iff, fun h => ⟨?_, Mill.duty_le_of_thermLimit h⟩, rfl⟩
  have hk : (x.throttled hot).thermK = if (x.throttled hot).thermLimit = true then max x.thermK 32 else x.thermK := rfl
  rw [hk, if_pos h]
  exact Nat.le_max_right _ _

theorem exec_sensorSample_of_safe {s : State} {r : Readings} (hon : s.pins.power = .on) (hsafe : tripped r = false) :
    exec (.sensorSample r) s = .next (if s.live = true then if s.clk.switching = .none then (s.sampled r).thermal else s.sampled r else s.frozenSample r) := by
  change execSensorSample r s = _
  rw [execSensorSample, if_neg (fun h => h.1 hon), hsafe, if_neg Bool.false_ne_true]
  cases hlive : s.live
  · simp [hon]
  · rfl

theorem sensorSamples : Claims.SensorSamples := by
  refine ⟨fun s r hpow htrip => ?trip, fun s r hlive hsafe => ⟨fun hsw => ?switching, fun hsw => ?sample⟩, fun s r hon hfrozen hsafe => ?frozen, fun s => rfl⟩
  case trip =>
    have hexec : exec (.sensorSample r) s = .next s.trip := by
      change execSensorSample r s = _
      rw [execSensorSample, if_neg, if_pos (show tripped r = true from htrip)]
      rintro ⟨hon, hstart, hshut⟩
      exact hpow.elim hon fun h => h.elim hstart hshut
    exact ⟨s.trip, hexec, rfl, rfl, rfl, rfl, rfl⟩
  case switching => rw [exec_sensorSample_of_safe (State.live_of_on hlive) hsafe, if_pos hlive, if_neg hsw]
  case sample =>
    have hclk := State.thermal_clk (s.sampled r)
    have htemp {k : Nat} (hk : k < 12) : ((s.sampled r).stack k).temp = reading r.hbm k := by rw [State.sampled_stack s r hk, Stack.temp_warmed]
    refine ⟨(s.sampled r).thermal, by rw [exec_sensorSample_of_safe (State.live_of_on hlive) hsafe, if_pos hlive, if_pos hsw], by rw [hclk]; rfl,
      by rw [hclk]; exact decide_eq_true_iff, by rw [hclk]; exact decide_eq_true_iff, fun m hm => ?_, fun k hk => ?_⟩
    · have hhot : (s.sampled r).hottest m = stackMax r m := by
        rw [State.hottest, htemp (by omega), htemp (by omega), htemp (by omega)]
        rfl
      rw [State.thermal_mill _ hm, hhot, State.sampled_mill s r hm]
      exact Mill.throttled_spec _ _
    · rw [State.thermal_stack _ hk, htemp hk]
      exact ⟨rfl, decide_eq_true_iff, rfl⟩
  case frozen =>
    have hstopped : s.live = false := by rw [State.live, hfrozen, Bool.not_true, Bool.and_false]
    exact ⟨s.frozenSample r, by rw [exec_sensorSample_of_safe hon hsafe, hstopped, if_neg Bool.false_ne_true], rfl,
      fun m hm => s.frozenSample_mill r hm, fun k hk => s.frozenSample_stack r hk⟩

/-! ### Throttling steps -/

theorem throttleSteps : Claims.ThrottleSteps := by
  have hrun {s : State} (hlive : s.live = true) (hsw : s.clk.switching = .none) : ¬((!s.live) = true ∨ s.clk.switching ≠ .none) := by simp [hlive, hsw]
  refine ⟨fun s m hlive hsw hm => ⟨fun hhot => ?hot, fun hhot => ?notHot, fun hcool => ?cool, fun hcool => ?notCool⟩,
    fun s hlive hsw => ⟨fun hhot => ?hub, fun hcool => ?hubCool⟩, fun s hlive hsw => ⟨fun hhot => ?reg, fun hhot => ?regCool⟩⟩
  case hot =>
    change execThermalThrottleStep m s = _
    rw [execThermalThrottleStep, if_neg (hrun hlive hsw), if_pos hm, if_pos hhot]
    rfl
  case notHot =>
    change execThermalThrottleStep m s = _
    rw [execThermalThrottleStep, if_neg (hrun hlive hsw), if_pos hm, hhot, if_neg Bool.false_ne_true]
  case cool =>
    change execThermalRecoveryStep m s = _
    rw [execThermalRecoveryStep, if_neg (hrun hlive hsw), if_pos hm, if_pos hcool]
    rfl
  case notCool =>
    change execThermalRecoveryStep m s = _
    rw [execThermalRecoveryStep, if_neg (hrun hlive hsw), if_pos hm, hcool, if_neg Bool.false_ne_true]
  case hub =>
    change execThermalThrottleStep 4 s = _
    rw [execThermalThrottleStep, if_neg (hrun hlive hsw), if_neg (Nat.lt_irrefl 4), if_pos ⟨rfl, hhot⟩]
  case hubCool =>
    change execThermalRecoveryStep 4 s = _
    rw [execThermalRecoveryStep, if_neg (hrun hlive hsw), if_neg (Nat.lt_irrefl 4), if_pos ⟨rfl, hcool⟩]
  case reg =>
    change execRegulatorCapStep s = _
    rw [execRegulatorCapStep, hlive, hhot, hsw]
    rfl
  case regCool =>
    change execRegulatorCapRestore s = _
    rw [execRegulatorCapRestore, hlive, hhot]
    rfl

/-- Settles O54. -/
theorem sensors : Obligations.Sensors := ⟨sensorSamples, throttleSteps⟩

/-! ### The power loops -/

theorem State.each_limiter (s : State) (b : Bool) : ∃ ms, (s.each (List.range 4) fun s m => s.modMill m fun x => { x with limiter := b }) = { s with mills := ms } ∧
    ∀ m, m < 4 → State.mill { s with mills := ms } m = { s.mill m with limiter := b } := by
  obtain ⟨ms, hms, hget⟩ := State.each_modMill (g := fun _ _ x => { x with limiter := b }) (s := s) (fun _ _ => rfl) (xs := List.range 4) List.nodup_range
  exact ⟨ms, hms, fun m hm => (hget m).trans (if_pos (List.mem_range.mpr hm))⟩

/-- Noting the points leaves the cap's point of every mill. -/
theorem State.notePoints_mill_point (s : State) {m : Nat} (hm : m < 4) :
    (s.notePoints.mill m).capK = (s.mill m).capK ∧ (s.notePoints.mill m).capDuty = (s.mill m).capDuty ∧ (s.notePoints.mill m).goal = (s.mill m).goal := by
  rw [s.notePoints_mill hm]
  exact ⟨rfl, rfl, rfl⟩

/-- Mills lowered: those of every place before the last to the edge, those of the last place towards the point. -/
theorem State.lowerMills_eq (s : State) (ranks : Nat) (pt : CapPoint) : ∃ ms, s.lowerMills ranks pt = { s with mills := ms } ∧
    ∀ m, m < 4 → State.mill { s with mills := ms } m =
      if s.capPlace m < s.lastPlace ranks then (s.mill m).toEdge else if s.capPlace m = s.lastPlace ranks then (s.mill m).lower pt else s.mill m := by
  obtain ⟨low, hlow, hlget⟩ := State.each_modMill (g := fun _ _ x => x.toEdge) (s := s) (fun _ _ => rfl)
    (xs := (List.range 4).filter fun m => s.capPlace m < s.lastPlace ranks) (List.nodup_range.filter _)
  obtain ⟨ms, hms, hget⟩ := State.each_modMill (g := fun _ _ x => x.lower pt) (s := { s with mills := low }) (fun _ _ => rfl)
    (xs := (List.range 4).filter fun m => s.capPlace m = s.lastPlace ranks) (List.nodup_range.filter _)
  refine ⟨ms, ?_, fun m hm => ?_⟩
  · rw [State.lowerMills, hlow, hms]
  · have hfinal : State.mill { s with mills := ms } m = _ := hget m
    rw [hfinal, hlget m]
    simp only [List.mem_filter, List.mem_range, hm, true_and, decide_eq_true_eq]
    split
    · rename_i heq
      rw [if_neg (by omega), if_neg (by omega)]
    · rfl

theorem State.lowerFloor_eq (s : State) (pt : CapPoint) : ∃ ms ks, s.lowerFloor pt = { s with mills := ms, hbms := ks } ∧
    (∀ m, m < 4 → Tbl.get {} ms m = { s.mill m with capK := min 64 (max ((s.mill m).capK + 1) pt.divK) }) ∧
    ∀ k, k < 12 → Tbl.get {} ks k = { s.stack k with actCap := if (s.stack k).actCap = 100 then 50 else 25 } := by
  obtain ⟨ms, hms, hmget⟩ := State.each_modMill (g := fun _ _ x => { x with capK := min 64 (max (x.capK + 1) pt.divK) }) (s := s) (fun _ _ => rfl)
    (xs := List.range 4) List.nodup_range
  obtain ⟨ks, hks, hkget⟩ := State.each_modStack (fun _ x => { x with actCap := if x.actCap = 100 then 50 else 25 }) { s with mills := ms }
    (xs := List.range 12) List.nodup_range
  refine ⟨ms, ks, ?_, fun m hm => (hmget m).trans (if_pos (List.mem_range.mpr hm)), fun k hk => (hkget k).trans (if_pos (List.mem_range.mpr hk))⟩
  rw [State.lowerFloor, hms, hks]

theorem State.lowerMills_noted (s : State) (ranks : Nat) (pt : CapPoint) :
    (s.lowerMills ranks pt).notePoints.clk = s.clk ∧
    (∀ m, m < 4 →
      let y := if s.capPlace m < s.lastPlace ranks then (s.mill m).toEdge else if s.capPlace m = s.lastPlace ranks then (s.mill m).lower pt else s.mill m
      ((s.lowerMills ranks pt).notePoints.mill m).capK = y.capK ∧ ((s.lowerMills ranks pt).notePoints.mill m).capDuty = y.capDuty ∧
        ((s.lowerMills ranks pt).notePoints.mill m).goal = y.goal) ∧
    ∀ k, k < 12 → (s.lowerMills ranks pt).notePoints.stack k = s.stack k := by
  obtain ⟨ms, hms, hget⟩ := s.lowerMills_eq ranks pt
  rw [hms]
  refine ⟨State.notePoints_clk _, fun m hm => ?_, fun k _ => State.notePoints_stack _ k⟩
  obtain ⟨hk, hd, hg⟩ := State.notePoints_mill_point { s with mills := ms } hm
  exact ⟨hk.trans (congrArg Mill.capK (hget m hm)), hd.trans (congrArg Mill.capDuty (hget m hm)), hg.trans (congrArg Mill.goal (hget m hm))⟩

theorem State.lowerFloor_noted (s : State) (pt : CapPoint) :
    (s.lowerFloor pt).notePoints.clk = s.clk ∧
    (∀ m, m < 4 → ((s.lowerFloor pt).notePoints.mill m).capK = min 64 (max ((s.mill m).capK + 1) pt.divK) ∧
      ((s.lowerFloor pt).notePoints.mill m).capDuty = (s.mill m).capDuty) ∧
    ∀ k, k < 12 → ((s.lowerFloor pt).notePoints.stack k).actCap = if (s.stack k).actCap = 100 then 50 else 25 := by
  obtain ⟨ms, ks, hms, hmget, hkget⟩ := s.lowerFloor_eq pt
  rw [hms]
  refine ⟨State.notePoints_clk _, fun m hm => ?_, fun k hk => ?_⟩
  · have hmill : State.mill { s with mills := ms, hbms := ks } m = { s.mill m with capK := min 64 (max ((s.mill m).capK + 1) pt.divK) } := hmget m hm
    obtain ⟨hk, hd, _⟩ := State.notePoints_mill_point { s with mills := ms, hbms := ks } hm
    rw [hk, hd, hmill]
    exact ⟨rfl, rfl⟩
  · have hstack : State.stack { s with mills := ms, hbms := ks } k = _ := hkget k hk
    rw [State.notePoints_stack, hstack]

@[simp] theorem State.mill_freeActs (s : State) (m : Nat) : s.freeActs.mill m = s.mill m := by
  unfold State.freeActs
  split
  · obtain ⟨ks, hks, _⟩ := State.each_modStack (fun _ x => { x with actCap := 100 }) s (xs := List.range 12) List.nodup_range
    rw [hks]
    rfl
  · rfl

/-- The state on which the firmware judges the cap. -/
def State.capInput (s : State) (w : Nat) : State := { s with clk := { s.clk with inputPower := w, adminCap := s.clk.adminCapNext } }

theorem exec_firmwareCapEval {s : State} (hlive : s.live = true) (hctl : s.isReady bitControl = true) (hsw : s.clk.switching = .none) (w ranks : Nat)
    (pt : CapPoint) : exec (.firmwareCapEval w ranks pt) s = .next (if w ≤ (s.capInput w).cap then s.capInput w else
      (if (s.capInput w).atFloorEdge = true then (s.capInput w).lowerFloor pt else (s.capInput w).lowerMills ranks pt).notePoints) := by
  change execFirmwareCapEval w ranks pt s = _
  rw [execFirmwareCapEval, if_neg (by simp [hlive, hctl, hsw])]
  exact (apply_ite Host.Outcome.next _ _ _).symm

/-- A mill after FIRMWARE_RESTORE raised it. -/
def Mill.raised (x : Mill) (byDuty : Bool) : Mill :=
  if byDuty then { x with capDuty := min 16 (x.capDuty + 1), goal := max x.goal (min 16 (x.capDuty + 1)) } else { x with capK := max 16 (x.capK - 1) }

theorem exec_firmwareRestore {s : State} (hlive : s.live = true) (hctl : s.isReady bitControl = true) (hsw : s.clk.switching = .none) (w m : Nat) (d : Bool) :
    exec (.firmwareRestore w m d) s =
      (let t : State := { s with clk := { s.clk with inputPower := w } }
       if 97 * s.cap ≤ 100 * w ∨ (!s.raisable m) = true then .next t else .next (t.modMill m fun x => x.raised d).freeActs) := by
  change execFirmwareRestore w m d s = _
  rw [execFirmwareRestore, if_neg (by simp [hlive, hctl, hsw])]
  rfl

theorem Mill.lower_duty (x : Mill) (pt : CapPoint) (h : 1 < x.capDuty) : (x.lower pt).capDuty < x.capDuty := by
  have hduty : (x.lower pt).capDuty = max 1 (min (x.capDuty - 1) pt.now) := rfl
  omega

theorem Mill.lower_divider (x : Mill) (pt : CapPoint) (hd : x.capDuty ≤ 1) (hk : x.capK < 32) : x.capK < (x.lower pt).capK := by
  have hcapK : (x.lower pt).capK = max x.capK (min 32 (max pt.divK (x.capK + 1))) :=
    congrArg (fun n => max x.capK (min 32 n)) (if_pos hd)
  omega

theorem powerLoops : Claims.PowerLoops := by
  refine ⟨fun s w hlive => ⟨fun hover => ?limit, fun hunder => ?noLimit, fun hunder => ?release, fun hover => ?noRelease⟩,
    fun s w ranks pt hlive hctl hsw => ?eval, fun x pt => ⟨x.lower_duty pt, x.lower_divider pt⟩,
    fun s w m d hlive hctl hsw => ⟨fun hno => ?noRestore, fun hlow hmay => ?restore⟩⟩
  case limit =>
    obtain ⟨ms, hms, hget⟩ := s.each_limiter true
    refine ⟨State.notePoints { s with mills := ms }, ?_, fun m hm => ?_⟩
    · change execHardwareLimiter w s = _
      rw [execHardwareLimiter, if_pos ⟨hlive, hover⟩, hms]
    · rw [State.notePoints_mill _ hm, hget m hm]
      exact ⟨rfl, Mill.duty_le_of_limiter rfl, rfl⟩
  case noLimit =>
    change execHardwareLimiter w s = _
    rw [execHardwareLimiter, if_neg (fun h => Nat.not_lt.mpr hunder h.2)]
  case release =>
    obtain ⟨ms, hms, hget⟩ := s.each_limiter false
    refine ⟨{ s with mills := ms }, ?_, hget⟩
    change execLimiterRelease w s = _
    rw [execLimiterRelease, if_pos ⟨hlive, hunder⟩, hms]
  case noRelease =>
    change execLimiterRelease w s = _
    rw [execLimiterRelease, if_neg (fun h => Nat.not_lt.mpr hover h.2)]
  case eval =>
    have hexec := exec_firmwareCapEval hlive hctl hsw w ranks pt
    refine ⟨fun hle => ?_, fun hover hedge => ?_, fun hover hedge => ?_⟩
    · have hle : w ≤ (s.capInput w).cap := hle
      rw [hexec, if_pos hle]
      rfl
    · have hover : ¬w ≤ (s.capInput w).cap := Nat.not_le.mpr hover
      have hedge : ¬(s.capInput w).atFloorEdge = true := by
        rw [show (s.capInput w).atFloorEdge = false from hedge]
        exact Bool.false_ne_true
      rw [if_neg hover, if_neg hedge] at hexec
      obtain ⟨hclk, hmill, hstack⟩ := State.lowerMills_noted (s.capInput w) ranks pt
      exact ⟨_, hexec, hclk, hmill, hstack⟩
    · have hover : ¬w ≤ (s.capInput w).cap := Nat.not_le.mpr hover
      have hedge : (s.capInput w).atFloorEdge = true := hedge
      rw [if_neg hover, if_pos hedge] at hexec
      obtain ⟨hclk, hmill, hstack⟩ := State.lowerFloor_noted (s.capInput w) pt
      exact ⟨_, hexec, hclk, hmill, hstack⟩
  case noRestore =>
    rw [exec_firmwareRestore hlive hctl hsw]
    exact if_pos (hno.imp id fun h => by rw [h]; rfl)
  case restore =>
    refine ⟨(State.modMill { s with clk := { s.clk with inputPower := w } } m fun x => x.raised d).freeActs, ?_, ?_, fun n _ hn => ?_⟩
    · rw [exec_firmwareRestore hlive hctl hsw]
      exact if_neg (by rw [hmay]; exact fun h => h.elim (Nat.not_le.mpr hlow) Bool.noConfusion)
    · rw [State.mill_freeActs, State.mill_modMill_self]
      rfl
    · rw [State.mill_freeActs]
      exact State.mill_setMill_ne _ _ (Ne.symm hn)

/-! ### Ramps -/

theorem Mill.arrived_divK (x : Mill) : x.arrived.divK = x.divK ∧ x.arrived.rail = x.rail := by
  unfold Mill.arrived
  split <;> exact ⟨rfl, rfl⟩

/-- A mill after one step of its ramp. -/
def State.ramped (s : State) (m : Nat) : Mill :=
  let x := s.mill m
  let t := s.targetDiv m
  if x.divK < t then Mill.arrived { x with divK := x.divK + 1, rail := if x.divK + 1 = t ∧ s.clk.switching = .none then railFor t else x.rail }
  else if t < x.divK then (if x.rail < railFor t ∧ s.clk.switching = .none then x else { x with divK := x.divK - 1 })
  else Mill.arrived { x with rail := if s.clk.switching = .none then railFor t else x.rail }

theorem State.rampMill_mill (s : State) (m : Nat) : (s.rampMill m).mill m = s.ramped m := by
  unfold State.rampMill State.ramped
  dsimp only
  split
  · exact State.mill_setMill_self ..
  · split
    · split
      · rfl
      · exact State.mill_setMill_self ..
    · exact State.mill_setMill_self ..

theorem State.rampMill_mill_ne (s : State) {m n : Nat} (h : m ≠ n) : (s.rampMill m).mill n = s.mill n := by
  unfold State.rampMill
  dsimp only
  split
  · exact State.mill_setMill_ne _ _ h
  · split
    · split
      · rfl
      · exact State.mill_setMill_ne _ _ h
    · exact State.mill_setMill_ne _ _ h

theorem State.ramped_spec (s : State) (m : Nat) :
    ((s.mill m).divK < s.targetDiv m → (s.ramped m).divK = (s.mill m).divK + 1) ∧
    (s.targetDiv m < (s.mill m).divK → railFor (s.targetDiv m) ≤ (s.mill m).rail → (s.ramped m).divK = (s.mill m).divK - 1) ∧
    (s.targetDiv m < (s.mill m).divK → (s.mill m).rail < railFor (s.targetDiv m) →
      (s.ramped m).divK = (if s.clk.switching = .none then (s.mill m).divK else (s.mill m).divK - 1)) ∧
    (s.clk.switching ≠ .none → (s.ramped m).rail = (s.mill m).rail) := by
  refine ⟨fun hslow => ?_, fun hfast hrail => ?_, fun hfast hrail => ?_, fun hsw => ?_⟩
  · rw [State.ramped, if_pos hslow, (Mill.arrived_divK _).1]
  · rw [State.ramped, if_neg (Nat.lt_asymm hfast), if_pos hfast, if_neg (fun h => Nat.not_lt.mpr hrail h.1)]
  · rw [State.ramped, if_neg (Nat.lt_asymm hfast), if_pos hfast, apply_ite Mill.divK]
    simp only [hrail, true_and]
  · rw [State.ramped]
    split
    · rw [(Mill.arrived_divK _).2, if_neg (fun h => hsw h.2)]
    · split
      · rw [if_neg (fun h => hsw h.2)]
      · exact (Mill.arrived_divK _).2

theorem ramps : Claims.Ramps := by
  refine ⟨fun s m hlive hm => ?mill, fun s hlive => ⟨?hub, ?fabric, fun k hk => ?stack⟩, fun s m hlive hm hsw => ?rail⟩
  case mill =>
    refine ⟨(s.rampMill m).notePoints, ?_, ?_⟩
    · change execDividerRampStep m s = _
      rw [execDividerRampStep, hlive, if_neg (by simp), if_pos hm]
    · obtain ⟨hup, hdown, hwait, hstill⟩ := s.ramped_spec m
      rw [State.notePoints_mill _ hm, State.rampMill_mill]
      refine ⟨hup, hdown, hwait, hstill, fun n hn hne => ?_⟩
      rw [State.notePoints_mill _ hn, State.rampMill_mill_ne s (Ne.symm hne)]
      exact ⟨rfl, rfl⟩
  case hub =>
    change execDividerRampStep 4 s = _
    rw [execDividerRampStep, hlive]
    rfl
  case fabric =>
    change execDividerRampStep 5 s = _
    rw [execDividerRampStep, hlive]
    rfl
  case stack =>
    change execDividerRampStep (6 + k) s = _
    rw [execDividerRampStep, hlive, if_neg (by simp), if_neg (by omega), if_neg (by omega), if_neg (by omega), if_pos (by omega), Nat.add_sub_cancel_left]
  case rail =>
    change execRailRaised m s = _
    rw [execRailRaised, if_pos ⟨hlive, hm, hsw⟩]
    rfl

/-- Settles O55. -/
theorem powerControl : Obligations.PowerControl := ⟨powerLoops, ramps⟩

end Sys2Proof.Machine
end

section
/-! The references and the essentials page (R65 to R69, R77, R79, R394 to R397). -/

namespace Sys2Proof.Machine
open Sys2Proof.Claims

/-! ### What a switch of source leaves as it is while no job exists -/

/-- The jobs, the cores, the ream length, the warm reset, the fuses and the clock settings of the EEPROM. -/
def State.outlast (s : State) : Tbl (Option Job) × Tbl CoreSt × Nat × Bool × Fuses × Bool × Nat × Nat :=
  (s.jobs, s.cores, s.reamLen, s.boot.warm, s.sec.fuses, s.clk.sysrefUse, s.clk.sysrefDelay, s.clk.integratorCap)

theorem State.jobs_of_outlast {s t : State} (h : t.outlast = s.outlast) : t.jobs = s.jobs := congrArg Prod.fst h

theorem State.job_of_outlast {s t : State} (h : t.outlast = s.outlast) (j : Nat) : t.job j = s.job j := job_eq_of_jobs (State.jobs_of_outlast h) j

theorem State.jobNums_of_outlast {s t : State} (h : t.outlast = s.outlast) : t.jobNums = s.jobNums := by
  unfold State.jobNums
  simp only [State.job_of_outlast h]

theorem State.runningJobs_of_idle {s : State} (h : s.jobNums = []) : s.runningJobs = [] := by rw [State.runningJobs, h, List.filter_nil]

theorem State.portJobs_of_idle {s : State} (h : s.jobNums = []) (p : Port) : s.portJobs p = [] := by rw [State.portJobs, h, List.filter_nil]

@[simp] theorem State.outlast_modPort (s : State) (p : Port) (f : PortSt → PortSt) : (s.modPort p f).outlast = s.outlast := by cases p <;> rfl

theorem State.outlast_onPorts {f : State → Port → State} (s : State) (h : ∀ t p, t.outlast = s.outlast → (f t p).outlast = s.outlast) :
    (s.onPorts f).outlast = s.outlast := h _ _ (h s .a rfl)

theorem State.outlast_each {α : Type} {f : State → α → State} (s : State) (xs : List α) (h : ∀ t x, (f t x).outlast = t.outlast) :
    (s.each xs f).outlast = s.outlast := State.each_frame (g := State.outlast) h s xs

@[simp] theorem State.outlast_readyChanged (s : State) : s.readyChanged.outlast = s.outlast := by
  unfold State.readyChanged
  have hcause : (if (s.isReady (bitPort .a) || s.isReady (bitPort .b)) = true then s.noteCause 0x0707 else s).outlast = s.outlast := by split <;> rfl
  refine (State.outlast_onPorts _ fun t p ht => ?_).trans hcause
  split
  · exact (State.outlast_modPort ..).trans ht
  · exact ht

@[simp] theorem State.outlast_setReady (s : State) (i : Nat) (v : Bool) : (s.setReady i v).outlast = s.outlast := by
  unfold State.setReady
  split
  · rfl
  · exact State.outlast_readyChanged _

@[simp] theorem State.outlast_announce (s : State) (code : Nat) : (s.announce code).outlast = s.outlast := by
  have hevents : (s.moduleEvents code 0).outlast = s.outlast :=
    State.outlast_onPorts (s.noteCause code) fun t p ht => (State.outlast_modPort ..).trans ht
  exact hevents

@[simp] theorem State.outlast_stick (s : State) (b : BitVec 3) : (s.stick b).outlast = s.outlast :=
  State.outlast_onPorts s fun _ _ ht => (State.outlast_modPort ..).trans ht

@[simp] theorem State.outlast_noteRefs (s : State) : s.noteRefs.outlast = s.outlast :=
  State.outlast_onPorts s fun t p ht => by
    split
    · exact (State.outlast_modPort ..).trans ht
    · exact ht

@[simp] theorem State.outlast_dropTests (s : State) (p : Port) : (s.dropTests p).outlast = s.outlast := State.outlast_each _ _ fun _ _ => rfl

theorem State.outlast_portReset {s : State} (h : s.jobNums = []) (p : Port) : (s.portReset p).outlast = s.outlast := by
  have hnone : (s.each (s.portJobs p) fun s j => (s.tellStop j 0x0703).killJob j) = s := by
    rw [State.portJobs_of_idle h]
    rfl
  unfold State.portReset
  rw [hnone, State.outlast_setReady, State.outlast_dropTests]
  exact State.outlast_modPort ..

@[simp] theorem State.outlast_endSecure (s : State) (p : Port) : (s.endSecure p).outlast = s.outlast := by
  have hend : (s.endSessions p).outlast = s.outlast := by
    have hport := State.outlast_modPort s p fun q => { q with sessions := [], agreed := 0 }
    unfold State.endSessions
    dsimp only
    split
    · split <;> exact hport
    · exact hport
  exact (State.outlast_modPort ..).trans hend

theorem State.outlast_enterLimp {s : State} (h : s.jobNums = []) : s.enterLimp.outlast = s.outlast := by
  unfold State.enterLimp
  dsimp only
  have hlinks : (s.each ((List.range 24).filter fun k => match (s.link k).st with
      | .off => false
      | _ => true) fun s k => ((s.modLink k Link.down).unroute k).setReady (bitLink k) false).outlast = s.outlast :=
    State.outlast_each _ _ fun t k => State.outlast_setReady ..
  generalize (s.each ((List.range 24).filter fun k => match (s.link k).st with
      | .off => false
      | _ => true) fun s k => ((s.modLink k Link.down).unroute k).setReady (bitLink k) false) = t at hlinks ⊢
  have ht : t.jobNums = [] := (State.jobNums_of_outlast hlinks).trans h
  rw [State.runningJobs_of_idle ht, State.outlast_noteRefs]
  refine (State.outlast_onPorts t fun u p hu => ?_).trans hlinks
  split
  · exact hu
  · have hidle : u.jobNums = [] := (State.jobNums_of_outlast hu).trans ht
    rw [State.outlast_modPort, State.outlast_endSecure, State.outlast_portReset hidle, hu]

/-- A switch of source up to its announcement. -/
def State.switchBegun (s : State) (src : Source) : State :=
  let s := if s.limp then s.trainLinks else s
  let s := if s.clk.switching = .none then s.each (List.range 4) fun s m => s.modMill m fun x => { x with before := x.divK } else s
  let s := State.restStacks { s with clk := { s.clk with source := src, switching := .ramping } }
  (s.stick 1).announce 0x0504

/-- Limp entered where the oscillator becomes the source. -/
def State.switchLimp (s : State) (src : Source) : State := if src = .oscillator then (s.announce 0x0705).enterLimp else s

theorem State.switchTo_eq (s : State) (src : Source) : s.switchTo src = (let t := (s.switchBegun src).switchLimp src
    t.each t.runningJobs fun s j => s.beginReplay j { contained := false, code := 0x0504, res := {}, detail := 0, tag := 0 }) := rfl

@[simp] theorem State.outlast_restStacks (s : State) : s.restStacks.outlast = s.outlast := State.outlast_each _ _ fun _ _ => rfl

@[simp] theorem State.outlast_source (s : State) (src : Source) (ph : SwitchPhase) :
    State.outlast { s with clk := { s.clk with source := src, switching := ph } } = s.outlast := rfl

theorem State.outlast_noteDividers (s : State) :
    (if s.clk.switching = .none then s.each (List.range 4) fun s m => s.modMill m fun x => { x with before := x.divK } else s).outlast = s.outlast := by
  split
  · exact State.outlast_each _ _ fun t x => rfl
  · rfl

theorem State.outlast_switchBegun (s : State) (src : Source) : (s.switchBegun src).outlast = s.outlast := by
  unfold State.switchBegun
  rw [State.outlast_announce, State.outlast_stick, State.outlast_restStacks, State.outlast_source, State.outlast_noteDividers]
  split <;> rfl

theorem State.outlast_switchLimp {s : State} (h : s.jobNums = []) (src : Source) : (s.switchLimp src).outlast = s.outlast := by
  unfold State.switchLimp
  split
  · rw [State.outlast_enterLimp ((State.jobNums_of_outlast (State.outlast_announce s 0x0705)).trans h), State.outlast_announce]
  · rfl

theorem State.outlast_switchTo {s : State} (h : s.jobNums = []) (src : Source) : (s.switchTo src).outlast = s.outlast := by
  have hbegun := s.outlast_switchBegun src
  have hlimp := (State.outlast_switchLimp ((State.jobNums_of_outlast hbegun).trans h) src).trans hbegun
  rw [State.switchTo_eq]
  dsimp only
  rw [State.runningJobs_of_idle ((State.jobNums_of_outlast hlimp).trans h)]
  exact hlimp

@[simp] theorem State.outlast_reselectIdle (s : State) : s.reselectIdle.outlast = s.outlast := by
  unfold State.reselectIdle
  split
  · next hidle =>
    unfold State.reselect
    split
    · rfl
    · split
      · exact State.outlast_switchTo (List.isEmpty_iff.mp hidle.1) _
      · rfl
  · rfl

theorem State.reselectIdle_of_best {s : State} (h : s.better = none) : s.reselectIdle = s := by
  unfold State.reselectIdle State.reselect
  rw [h]
  exact ite_self _

theorem State.reselectIdle_of_idle {s : State} (hidle : s.jobNums = []) (hlive : s.live = true) : s.reselectIdle = s.reselect := by
  unfold State.reselectIdle
  rw [if_pos ⟨by rw [hidle]; rfl, hlive⟩]

theorem State.reselectIdle_of_jobs {s : State} (hjobs : s.jobNums ≠ []) : s.reselectIdle = s := by
  unfold State.reselectIdle
  rw [if_neg fun h => hjobs (List.isEmpty_iff.mp h.1)]

/-! ### The references -/

theorem Tbl.get_map_same {α : Type} {d : α} {t : Tbl α} {f : Nat × α → α} {n : Nat} (h : f (n, Tbl.get d t n) = Tbl.get d t n) :
    Tbl.get d (t.map fun c => (c.1, f c)) n = Tbl.get d t n := by
  induction t with
  | nil => rfl
  | cons c t ih =>
    obtain ⟨k, v⟩ := c
    rw [List.map_cons, Tbl.get, Tbl.get]
    by_cases hk : k = n
    · rw [Tbl.get, if_pos hk] at h
      subst hk
      rw [if_pos rfl, if_pos rfl, h]
    · rw [Tbl.get, if_neg hk] at h
      rw [if_neg hk, if_neg hk, ih h]

theorem State.notePoints_of_idle {s : State} (h : s.runningJobs = []) : ∃ ms, s.notePoints = { s with mills := ms } := by
  obtain ⟨ms, hms, _⟩ := State.each_modMill (g := fun _ _ x => { x with slow := x.slow || x.below }) (s := s) (fun _ _ => rfl) (xs := List.range 4)
    List.nodup_range
  have hrun : State.runningJobs { s with mills := ms } = [] := h
  refine ⟨ms, ?_⟩
  rw [State.notePoints, hms, hrun]
  rfl

theorem State.thermal_of_idle {s : State} (h : s.runningJobs = []) : ∃ ms ks, s.thermal = { s with
      mills := ms, hbms := ks, clk := { s.clk with hubHot := decide (100 ≤ s.clk.hubTemp),
                                                   hubTherm := if 105 ≤ s.clk.hubTemp then max s.clk.hubTherm 32 else s.clk.hubTherm } } ∧
    ∀ k, k < 12 → Tbl.get {} ks k = (s.stack k).sample (s.stack k).temp := by
  obtain ⟨ms, ks, heq, _, hstack⟩ := s.thermal_eq
  obtain ⟨ms', hnote⟩ := State.notePoints_of_idle (s := { s with
    mills := ms, hbms := ks, clk := { s.clk with hubHot := decide (100 ≤ s.clk.hubTemp),
                                                 hubTherm := if 105 ≤ s.clk.hubTemp then max s.clk.hubTherm 32 else s.clk.hubTherm } }) h
  exact ⟨ms', ks, heq.trans hnote, hstack⟩

/-- A stack at the end of a switch of source: one that left self-refresh runs at the new rate. -/
def State.switched (s : State) (c : Nat × Stack) : Stack :=
  if c.2.st == 0 && s.isReady (bitHbm c.1) then
    { c.2 with st := 1, rate := s.pinRate, trainedAt := some c.2.temp, trainTemp := [], due := [], retraining := none } else c.2

/-- The state at the end of a switch of source, before the replays. -/
def State.quiesceOver (s : State) : State :=
  let t := State.thermal { s with clk := { s.clk with switching := .none } }
  { t with hbms := t.hbms.map fun c => (c.1, t.switched c) }

theorem State.quiesceOver_of_idle {s : State} (hidle : s.runningJobs = []) : ∃ ms ks, s.quiesceOver = { s with
      mills := ms, hbms := ks, clk := { s.clk with switching := .none, hubHot := decide (100 ≤ s.clk.hubTemp),
                                                   hubTherm := if 105 ≤ s.clk.hubTemp then max s.clk.hubTherm 32 else s.clk.hubTherm } } ∧
    ∀ k, k < 12 → (s.stack k).st ≠ 0 → Tbl.get {} ks k = (s.stack k).sample (s.stack k).temp := by
  obtain ⟨ms, ks, heq, hget⟩ := State.thermal_of_idle (s := { s with clk := { s.clk with switching := .none } }) hidle
  refine ⟨ms, ks.map fun c => (c.1, State.switched (State.thermal { s with clk := { s.clk with switching := .none } }) c), ?_, fun k hk hst => ?_⟩
  · rw [State.quiesceOver]
    dsimp only
    rw [heq]
  · have hstack : Tbl.get {} ks k = (s.stack k).sample (s.stack k).temp := hget k hk
    have hsame (t : State) : t.switched (k, Tbl.get {} ks k) = Tbl.get {} ks k := by
      unfold State.switched
      refine if_neg ?_
      rw [hstack, Bool.and_eq_true]
      exact fun h => hst (eq_of_beq h.1)
    rw [Tbl.get_map_same (hsame _), hstack]

theorem exec_limpQuiesceComplete_of_idle {s : State} (hlive : s.live = true) (hsw : s.clk.switching = .relocked) (hat : s.atTargets = true)
    (hbest : s.better = none) (hwarm : s.clk.warmWaits = false) (hidle : s.runningJobs = []) :
    exec .limpQuiesceComplete s = .next s.quiesceOver := by
  obtain ⟨ms, ks, heq, _⟩ := State.quiesceOver_of_idle hidle
  have hrun : s.quiesceOver.runningJobs = [] := by rw [heq]; exact hidle
  have hbetter : s.quiesceOver.better = none := by rw [heq]; exact hbest
  have hwait : s.quiesceOver.clk.warmWaits = false := by rw [heq]; exact hwarm
  change execLimpQuiesceComplete s = _
  rw [execLimpQuiesceComplete, if_neg (by simp [hlive, hsw, hat])]
  extract_lets _ _ u v w
  have hu : u = s.quiesceOver := rfl
  have hv : v = u := by
    have hnone : u.runningJobs = [] := by rw [hu, hrun]
    unfold v
    rw [hnone]
    rfl
  have hw : w = s.quiesceOver := by
    unfold w
    rw [hv, hu, State.reselectIdle_of_best hbetter]
  exact congrArg Host.Outcome.next ((if_neg (by rw [hw, hwait]; exact fun h => Bool.false_ne_true h.1)).trans hw)

/-- Settles O23. -/
theorem references : Obligations.References := by
  refine ⟨fun s n ref hlive => ⟨fun hlo hhi => ?inside, fun hout => ?outside, ?noEdge⟩, fun s => ?fails, fun s hlive hsw => ⟨fun hat => ?relock, fun hat => ?noRelock⟩,
    fun s hlive hsw => ⟨fun hat => ?noQuiesce, fun hat hbest hwarm hidle => ?quiesce⟩,
    fun s hlive hfuses => ⟨fun hjobs => ?sysrefBusy, fun hjobs => ?sysrefIdle⟩, fun s hlive => ⟨fun hjobs => ?crystalBusy, fun hjobs => ?crystalIdle⟩⟩
  case inside =>
    change execClockMonitorWindow n s ref = _
    rw [execClockMonitorWindow, if_neg fun h => h.2 ⟨hlo, hhi⟩]
  case outside =>
    change execClockMonitorWindow n s ref = _
    rw [execClockMonitorWindow, if_pos ⟨hlive, by omega⟩]
  case noEdge =>
    change execReferenceEdgeTimeout s ref = _
    rw [execReferenceEdgeTimeout, if_pos hlive]
  case fails =>
    intro c y
    refine ⟨rfl, fun h => ?_, fun h => ?_, fun hok hsrc => ?_, fun hok hsrc => ?_, fun hq hsrc => ?_, fun hq hsrc => ?_⟩
    · exact if_pos (by rw [h]; rfl)
    · exact if_pos (by rw [h]; rfl)
    · exact (if_neg (by rw [hok]; exact Bool.false_ne_true)).trans (if_neg hsrc)
    · exact (if_neg (by rw [hok]; exact Bool.false_ne_true)).trans (if_pos hsrc)
    · exact (if_neg (by rw [hq]; exact Bool.false_ne_true)).trans (if_neg hsrc)
    · exact (if_neg (by rw [hq]; exact Bool.false_ne_true)).trans (if_pos hsrc)
  case relock =>
    change execPllRelock s = _
    rw [execPllRelock, if_pos ⟨hlive, hsw, hat⟩]
  case noRelock =>
    change execPllRelock s = _
    rw [execPllRelock, if_neg fun h => Bool.false_ne_true (hat.symm.trans h.2.2)]
  case noQuiesce =>
    change execLimpQuiesceComplete s = _
    rw [execLimpQuiesceComplete, if_pos (.inr (.inr (by rw [hat]; rfl)))]
  case quiesce =>
    obtain ⟨ms, ks, heq, hget⟩ := State.quiesceOver_of_idle hidle
    refine ⟨s.quiesceOver, exec_limpQuiesceComplete_of_idle hlive hsw hat hbest hwarm hidle, ?_⟩
    rw [heq]
    refine ⟨rfl, rfl, rfl, fun k hk hst => ?_⟩
    change (Tbl.get {} ks k).st = _ ∧ (Tbl.get {} ks k).rate = _
    rw [hget k hk hst]
    exact ⟨rfl, rfl⟩
  case sysrefBusy =>
    change execSysrefQualified s = _
    rw [execSysrefQualified, if_pos ⟨hlive, hfuses⟩, State.reselectIdle_of_jobs]
    exact hjobs
  case sysrefIdle =>
    change execSysrefQualified s = _
    rw [execSysrefQualified, if_pos ⟨hlive, hfuses⟩, State.reselectIdle_of_idle]
    exacts [hjobs, hlive]
  case crystalBusy =>
    change execCrystalRecovered s = _
    rw [execCrystalRecovered, if_pos hlive, State.reselectIdle_of_jobs]
    exact hjobs
  case crystalIdle =>
    change execCrystalRecovered s = _
    rw [execCrystalRecovered, if_pos hlive, State.reselectIdle_of_idle]
    exacts [hjobs, hlive]

/-! ### The essentials page -/

theorem State.essOk_live {s : State} {p : Port} (h : s.essOk p = true) : s.live = true ∧ (s.port p).linkUp = true := by
  rw [State.essOk, Bool.and_eq_true, Bool.and_eq_true] at h
  exact h.1

theorem State.essGo_eq {s : State} (hok : s.essOk s.adminPort = true) (v : Reg) : s.essGo s.adminPort v =
    (let nn := v.toNat % 256
     let a := (s.port s.adminPort).armed
     let t := s.setPort s.adminPort { s.port s.adminPort with armed := 0 }
     if v.toNat / 256 ≠ 0x5AA500 ∨ a = 0 ∨ a ≠ nn then t.logErr s.adminPort 0x034 0 true 7
     else if nn = 1 then t.startWarm else if nn = 2 then t.freezeNow else t.safeShutdown) := by
  unfold State.essGo
  rw [hok, if_neg (by simp), if_neg (fun h => h rfl), State.modPort_eq]

theorem State.essGo_of_armed {s : State} {v : Reg} (hok : s.essOk s.adminPort = true) {n : Nat} (hn : n ≠ 0) (hkey : v.toNat / 256 = 0x5AA500)
    (hv : v.toNat % 256 = n) (ha : (s.port s.adminPort).armed = n) : s.essGo s.adminPort v =
    (let t := s.setPort s.adminPort { s.port s.adminPort with armed := 0 }
     if n = 1 then t.startWarm else if n = 2 then t.freezeNow else t.safeShutdown) := by
  rw [State.essGo_eq hok]
  dsimp only
  rw [hv, ha, if_neg]
  rintro (h | h | h)
  exacts [h hkey, hn h, h rfl]

theorem State.flrNow_eq {s : State} {p : Port} (hok : s.essOk p = true) :
    s.flrNow p = if (s.port p).inReset = true then s else (s.portReset p).modPort p fun q => { q with conf := q.conf.flr } := by
  obtain ⟨hlive, hup⟩ := State.essOk_live hok
  unfold State.flrNow
  rw [hlive, hup]
  simp

theorem essActions (s : State) (v : Reg) (hok : s.essOk s.adminPort = true) :
    let p := s.adminPort
    let k := (s.port p).armed
    let s' := s.setPort p { s.port p with armed := 0 }
    (v.toNat / 256 = 0x5AA500 → v.toNat % 256 = 2 → k = 2 → exec (.essFreeze p v) s = .next s'.freezeNow) ∧
    (v.toNat / 256 = 0x5AA500 → v.toNat % 256 = 3 → k = 3 → exec (.essPowerDown p v) s = .next s'.safeShutdown) ∧
    (v.toNat / 256 ≠ 0x5AA500 ∨ k = 0 ∨ k ≠ v.toNat % 256 → exec (.essFreeze p v) s = .next (s'.logErr p 0x034 0 true 7)) := by
  intro p k s'
  refine ⟨fun hkey hv hk => ?_, fun hkey hv hk => ?_, fun hno => ?_⟩
  · change Host.Outcome.next (s.essGo s.adminPort v) = _
    rw [State.essGo_of_armed hok (by decide) hkey hv hk]
    rfl
  · change Host.Outcome.next (s.essGo s.adminPort v) = _
    rw [State.essGo_of_armed hok (by decide) hkey hv hk]
    rfl
  · change Host.Outcome.next (s.essGo s.adminPort v) = _
    rw [State.essGo_eq hok v]
    exact congrArg Host.Outcome.next (if_pos hno)

theorem State.killWord {s : State} {p : Port} (hok : s.essOk p = true) (v : Reg) :
    s.essKill p v = if v = 0x4B4C then s.each (s.portJobs p) fun s j => s.endJob j 0x0704 none else s.logErr p 0x020 0 true 7 := by
  unfold State.essKill
  rw [hok]
  rfl

theorem State.flrWord {s : State} {p : Port} (hok : s.essOk p = true) (v : Reg) :
    s.essFlr p v = if v = 0x464C then s.flrNow p else s.logErr p 0x024 0 true 7 := by
  unfold State.essFlr
  rw [hok]
  rfl

theorem State.readyChanged_eq (s : State) : ∃ c a b o, s.readyChanged = { s with boot := { s.boot with cause := c }, portA := a, portB := b, out := o } := by
  have hpost (t : State) : t.OnlyPorts (t.onPorts fun u p => if u.isReady (bitPort p) = true then u.moduleEvent p 0x0707 u.ready.toNat else u) :=
    State.onlyPorts_onPorts (fun u p => by
      split
      · exact u.onlyPorts_post ..
      · exact .refl u) t
  unfold State.readyChanged
  split
  · obtain ⟨a, b, o, heq⟩ := hpost (s.noteCause 0x0707)
    exact ⟨_, a, b, o, heq⟩
  · obtain ⟨a, b, o, heq⟩ := hpost s
    exact ⟨s.boot.cause, a, b, o, heq⟩

/-- The announcement of a warm reset changes what the ports show and the cause. -/
theorem State.warmAnnounced_eq (s : State) : ∃ c a b o, ((s.readyChanged.noteCause 0x0702).raise .a 0).raise .b 0 =
    { s with boot := { s.boot with cause := c }, portA := a, portB := b, out := o } := by
  obtain ⟨c, a, b, o, heq⟩ := s.readyChanged_eq
  obtain ⟨a', b', o', hraise⟩ := ((s.readyChanged.noteCause 0x0702).onlyPorts_raise .a 0).trans (State.onlyPorts_raise _ .b 0)
  exact ⟨0x0702, a', b', o', hraise.trans (by rw [heq]; rfl)⟩

/-- What a warm reset has emptied and kept. -/
theorem State.warmReset_spec (s : State) :
    s.warmReset.jobs = [] ∧ s.warmReset.cores = [] ∧ s.warmReset.mems = ([], [], s.eeprom) ∧
    (s.better = none → s.warmReset.ready = s.ready &&& 0xE) ∧ s.warmReset.boot.warm = true ∧ s.warmReset.reamLen = s.reamNext ∧
    s.warmReset.sec.fuses = s.sec.fuses := by
  have hstops : s.OnlyLinks (s.each s.jobNums fun s j =>
      match (s.job j).bind Job.span with
      | none => s
      | some i => s.spanSend i clsControl kindStop (le 2 0x0703)) := State.onlyLinks_each (fun t j => by
        split
        · exact .refl t
        · exact State.onlyLinks_each (fun u m => u.onlyLinks_sendMsg ..) t _) s _
  unfold State.warmReset
  extract_lets u reset _ _ v
  obtain ⟨ls, o, hu⟩ := hstops
  have hu : u = { s with links := ls, out := o } := hu
  obtain ⟨c, a, b, o', hann⟩ := v.warmAnnounced_eq
  rw [hann]
  generalize hw : ({ v with boot := { v.boot with cause := c }, portA := a, portB := b, out := o' } : State) = w
  have hkept : w.reselectIdle.outlast = w.outlast := State.outlast_reselectIdle w
  have hv : w.outlast = ([], [], u.reamNext, true, u.sec.fuses, u.clk.sysrefUse, u.clk.sysrefDelay, u.clk.integratorCap) := by
    rw [← hw]
    rfl
  have hmems : w.reselectIdle.mems = ([], [], u.eeprom) := by
    rw [State.reselectIdle_mems, ← hw]
    rfl
  rw [hv] at hkept
  have hready (hbest : s.better = none) : w.reselectIdle.ready = s.ready &&& 0xE := by
    rw [State.reselectIdle_of_best (by rw [← hw]; exact (congrArg State.better hu).trans hbest), ← hw]
    change u.ready &&& keptBits = _
    rw [hu]
    rfl
  rw [hu] at hmems hkept
  simp only [State.outlast, Prod.mk.injEq] at hkept
  obtain ⟨hjobs, hcores, hream, hwarm, hfuses, _⟩ := hkept
  exact ⟨hjobs, hcores, hmems, hready, hwarm, hream, hfuses⟩

/-- Settles O25. -/
theorem essentials : Obligations.Essentials := by
  refine ⟨essActions, fun s p hlive => ?lapse, fun s p hok => ⟨?kill, congrArg Host.Outcome.next ((State.flrWord hok _).trans (if_pos rfl)), fun hfree => ?flr, fun hbusy => ?flrBusy, fun v => ⟨fun hv => ?noKill, fun hv => ?noFlr⟩⟩,
    fun s hlive => ⟨fun hctl => ?beat, fun us => ?age⟩, fun s => ?warm⟩
  case lapse =>
    change execEssArmLapse p s = _
    rw [execEssArmLapse, if_pos hlive, State.modPort_eq]
  case kill => exact congrArg Host.Outcome.next ((State.killWord hok _).trans (if_pos rfl))
  case flr =>
    refine congrArg Host.Outcome.next ((State.flrWord hok _).trans ((if_pos rfl).trans ?_))
    rw [State.flrNow_eq hok, hfree, if_neg Bool.false_ne_true]
    rfl
  case flrBusy =>
    refine congrArg Host.Outcome.next ((State.flrWord hok _).trans ((if_pos rfl).trans ?_))
    rw [State.flrNow_eq hok, if_pos hbusy]
  case noKill => exact congrArg Host.Outcome.next ((State.killWord hok _).trans (if_neg hv))
  case noFlr => exact congrArg Host.Outcome.next ((State.flrWord hok _).trans (if_neg hv))
  case beat =>
    change execHeartbeat s = _
    rw [execHeartbeat, if_pos ⟨hlive, hctl⟩]
  case age =>
    change execHbStale us s = _
    rw [execHbStale, if_pos hlive]
  case warm =>
    obtain ⟨hjobs, hcores, hmems, hready, hwarm, hream, hfuses⟩ := s.warmReset_spec
    have hticks : s.warmReset.ticks = s.ticks := s.warmReset_ticks
    exact ⟨hjobs, hcores, congrArg (fun m => m.1) hmems, congrArg (fun m => m.2.1) hmems, hready, hwarm, congrArg (fun t => t.2.1) hticks, hream, hfuses⟩

end Sys2Proof.Machine
end

section
/-! Resets of the ports and the steps of bring-up (R25, R48, R80, R87 to R94, R303, R354, R383). -/

namespace Sys2Proof.Machine
open Sys2Proof.Claims

/-! ### Ready bits -/

/-- A ready bit given a value changes the bitmap, the cause, and what the ports show of events. -/
theorem State.setReady_eq (s : State) (i : Nat) (v : Bool) : ∃ rd c a b o,
    s.setReady i v = { s with ready := rd, boot := { s.boot with cause := c }, portA := a, portB := b, out := o } := by
  unfold State.setReady
  split
  · exact ⟨s.ready, s.boot.cause, s.portA, s.portB, s.out, rfl⟩
  · obtain ⟨c, a, b, o, heq⟩ := State.readyChanged_eq
      { s with ready := if v then s.ready ||| (1 <<< i : BitVec 64) else s.ready &&& ~~~(1 <<< i : BitVec 64) }
    exact ⟨_, c, a, b, o, heq⟩

theorem State.isReady_setReady_true (s : State) {i : Nat} (hi : i < 64) : (s.setReady i true).isReady i = true := by
  by_cases h : s.isReady i = true
  · rw [State.setReady, if_pos h, h]
  · obtain ⟨c, a, b, o, heq⟩ := State.readyChanged_eq { s with ready := if true then s.ready ||| (1 <<< i : BitVec 64) else s.ready &&& ~~~(1 <<< i : BitVec 64) }
    rw [State.setReady, if_neg h, heq]
    have hone : (BitVec.ofNat 64 (1 <<< i)).getLsbD i = true := by
      rw [BitVec.getLsbD_ofNat, Nat.one_shiftLeft, Nat.testBit_two_pow_self, decide_eq_true hi, Bool.true_and]
    exact (BitVec.getLsbD_or ..).trans (by rw [BitVec.natCast_eq_ofNat, hone, Bool.or_true])

theorem State.port_moduleEvent (s : State) (p q : Port) (code n : Nat) : ∃ ev, (s.moduleEvent p code n).port q = { s.port q with ev := ev } := by
  have hsame : ∃ ev, (s.moduleEvent p code n).port p = { s.port p with ev := ev } := by
    rw [State.moduleEvent, State.post, State.port_modPort_self]
    dsimp only
    split <;> exact ⟨_, rfl⟩
  by_cases h : p = q
  · rw [← h]
    exact hsame
  · obtain rfl : q = otherPort p := by
      revert h
      cases p <;> cases q <;> decide
    exact ⟨(s.port (otherPort p)).ev, State.port_modPort_other ..⟩

/-- A change of a ready bit shows at a port as an event only. -/
theorem State.port_setReady (s : State) (i : Nat) (v : Bool) (q : Port) : ∃ ev, (s.setReady i v).port q = { s.port q with ev := ev } := by
  have hstep (t : State) (p : Port) : ∃ ev,
      (if t.isReady (bitPort p) = true then t.moduleEvent p 0x0707 t.ready.toNat else t).port q = { t.port q with ev := ev } := by
    split
    · exact t.port_moduleEvent ..
    · exact ⟨(t.port q).ev, rfl⟩
  have hboth (t : State) : ∃ ev, (t.onPorts fun u p => if u.isReady (bitPort p) = true then u.moduleEvent p 0x0707 u.ready.toNat else u).port q =
      { t.port q with ev := ev } := by
    obtain ⟨ev, ha⟩ := hstep t .a
    obtain ⟨ev', hb⟩ := hstep (if t.isReady (bitPort .a) = true then t.moduleEvent .a 0x0707 t.ready.toNat else t) .b
    exact ⟨ev', hb.trans (by rw [ha])⟩
  have hchanged (t : State) : ∃ ev, t.readyChanged.port q = { t.port q with ev := ev } := by
    unfold State.readyChanged
    split
    · exact hboth (t.noteCause 0x0707)
    · exact hboth t
  unfold State.setReady
  split
  · exact ⟨(s.port q).ev, rfl⟩
  · exact hchanged { s with ready := if v then s.ready ||| (1 <<< i : BitVec 64) else s.ready &&& ~~~(1 <<< i : BitVec 64) }

/-! ### Port resets -/

theorem State.flrNow_of_up {s : State} {p : Port} (hlive : s.live = true) (hup : (s.port p).linkUp = true) :
    s.flrNow p = if (s.port p).inReset = true then s else (s.portReset p).modPort p fun q => { q with conf := q.conf.flr } := by
  unfold State.flrNow
  rw [hlive, hup]
  simp

theorem mem_widths {w : Nat} : widthOk w = true ↔ w ∈ [16, 8, 4, 2, 1] := by
  simp [widthOk, or_assoc]

theorem exec_portLinkUp {s : State} {p : Port} {width : Nat} (hlive : s.live = true) (hperst : s.perst p = true) (hw : width ∈ [16, 8, 4, 2, 1])
    (hclk : s.limp = false ∨ s.refclk p = true) (gts : Nat) (rev : Bool) (pol : BitVec 16) :
    exec (.portLinkUp p gts width rev pol) s = .next ((s.modPort p fun q =>
      { q with linkUp := true, gts := gts, width := width, reversed := rev, polarity := pol, inReset := false, d3 := false }).portCheck p) := by
  change execPortLinkUp p gts width s rev pol = _
  rw [execPortLinkUp, if_neg]
  rw [hlive, hperst, mem_widths.mpr hw]
  rintro (h | h | h | ⟨h1, h2⟩)
  · cases h
  · cases h
  · cases h
  · obtain h | h := hclk
    · rw [h] at h1
      cases h1
    · rw [h] at h2
      cases h2

theorem portResets : Claims.PortResets := by
  refine ⟨fun s p hlive hgood => ?perst, fun s clk hgood => ⟨?deassertA, ?deassertB⟩, fun s p clk hbad => ⟨?ignored, ?ignored2⟩,
    fun s p hlive hup => ⟨?hot, fun hfree => ⟨?flr, ?d3⟩, fun hbusy => ?flrBusy⟩,
    fun s p gts width rev pol hlive hperst => ⟨fun hw => ?badWidth, fun hw hclk hcfg => ?linkUp⟩,
    fun s p hlive hperst => ⟨fun hdown => ?space, fun hup hcfg => ?retry⟩⟩
  case perst =>
    change execPerstAssert p s = _
    unfold execPerstAssert
    refine (if_neg (by rw [hgood]; exact Bool.false_ne_true)).trans ?_
    cases p
    · exact if_neg (by rw [show State.live { s with pins := { s.pins with perstA := false } } = s.live from rfl, hlive]; exact Bool.false_ne_true)
    · exact if_neg (by rw [show State.live { s with pins := { s.pins with perstB := false } } = s.live from rfl, hlive]; exact Bool.false_ne_true)
  case deassertA =>
    change execPerstDeassert .a s clk = _
    rw [execPerstDeassert, hgood]
    rfl
  case deassertB =>
    change execPerstDeassert .b s clk = _
    rw [execPerstDeassert, hgood]
    rfl
  case ignored =>
    change execPerstAssert p s = _
    unfold execPerstAssert
    exact if_pos (by rw [hbad]; rfl)
  case ignored2 =>
    change execPerstDeassert p s clk = _
    unfold execPerstDeassert
    exact if_pos (by rw [hbad]; rfl)
  case hot =>
    change execHotReset p s = _
    rw [execHotReset, hlive, hup]
    rfl
  case flr =>
    change Host.Outcome.next (s.flrNow p) = _
    rw [State.flrNow_of_up hlive hup, hfree, if_neg Bool.false_ne_true]
    rfl
  case d3 =>
    change execD3hotEntry p s = _
    rw [execD3hotEntry, hlive, hup, if_neg (by simp), State.flrNow_of_up hlive hup, hfree, if_neg Bool.false_ne_true, State.modPort_modPort]
    rfl
  case flrBusy =>
    change Host.Outcome.next (s.flrNow p) = _
    rw [State.flrNow_of_up hlive hup, if_pos hbusy]
  case badWidth =>
    change execPortLinkUp p gts width s rev pol = _
    rw [execPortLinkUp, if_pos]
    exact .inr (.inr (.inl (by rw [Bool.eq_false_iff.mpr fun h => hw (mem_widths.mp h)]; rfl)))
  case linkUp =>
    let t : State := s.modPort p fun q =>
      { q with linkUp := true, gts := gts, width := width, reversed := rev, polarity := pol, inReset := false, d3 := false }
    have hport : t.port p = { s.port p with linkUp := true, gts := gts, width := width, reversed := rev, polarity := pol, inReset := false, d3 := false } :=
      State.port_modPort_self ..
    have hcheck : t.portCheck p = t.setReady (bitPort p) true := by
      rw [State.portCheck, hport]
      exact if_pos ⟨rfl, hcfg, rfl, rfl⟩
    obtain ⟨ev, hev⟩ := t.port_setReady (bitPort p) true p
    refine ⟨t.portCheck p, exec_portLinkUp hlive hperst hw hclk gts rev pol, ?_, ?_⟩
    · rw [hcheck]
      exact t.isReady_setReady_true (by cases p <;> decide)
    · rw [hcheck, hev, hport]
      exact ⟨rfl, rfl, rfl, rfl, rfl, rfl⟩
  case space =>
    change execConfigSpaceReady p s = _
    rw [execConfigSpaceReady, if_neg (by simp [hlive, hperst]), State.modPort_eq, State.portCheck]
    dsimp only
    rw [if_neg]
    rw [State.port_setPort_self]
    exact fun h => Bool.false_ne_true (hdown.symm.trans h.1)
  case retry =>
    unfold State.configAnswer
    rw [if_neg (by simp [hlive, hup])]
    split
    · rfl
    · rw [hcfg]
      rfl

/-! ### Bring-up -/

theorem State.outlast_fieldInvalid (s : State) (off : Nat) : (s.fieldInvalid off).outlast = s.outlast := by
  have hlog : (s.failRec 0x0708 5 off).outlast = s.outlast := rfl
  exact (State.outlast_onPorts _ fun _ _ ht => (State.outlast_modPort ..).trans ht).trans hlog

/-- The clock settings that EEPROM_FIELDS_READ takes from the EEPROM, or their defaults. -/
theorem exec_eepromFieldsRead {s : State} (hlive : s.live = true) (hfuses : s.boot.fusesSensed = true) (hfirst : s.boot.eepromRead = false) (readable : Bool) :
    exec (.eepromFieldsRead readable) s = .next
      (let cfg := (s.eeprom.get 0x40).toNat
       let dly := (s.eeprom.get 0x41).toNat
       let cap := leVal (s.eeprom.read 0x42 2)
       let okCfg := readable && cfg < 2
       let okDly := readable && dly ≤ 0x80
       let okCap := readable && (cap == 0 || capOk cap)
       let t : State := { s with
         boot := { s.boot with eepromRead := true }
         clk := { s.clk with sysrefUse := okCfg && cfg == 1, sysrefDelay := if okDly && dly != 0 then dly else 20,
                             integratorCap := if okCap && cap != 0 then cap else 1000 } }
       let t := if okCfg then t else t.fieldInvalid 0x40
       let t := if okDly then t else t.fieldInvalid 0x41
       (if okCap then t else t.fieldInvalid 0x42).reselectIdle) := by
  change execEepromFieldsRead readable s = _
  rw [execEepromFieldsRead, if_neg (by simp [hlive, hfuses, hfirst])]

/-- The groups of a list changed each, and no other. -/
theorem State.each_modGroup (g : Group → Group) {h : Nat → Nat} (hinj : Function.Injective h) (s : State) {xs : List Nat} (hn : xs.Nodup) :
    ∃ gs, (s.each xs fun t k => t.modGroup (h k) g) = { s with groups := gs } ∧ (∀ k ∈ xs, Tbl.get {} gs (h k) = g (s.group (h k))) ∧
      ∀ i, (∀ k ∈ xs, h k ≠ i) → Tbl.get {} gs i = s.group i := by
  induction xs generalizing s with
  | nil => exact ⟨s.groups, rfl, fun k hk => absurd hk List.not_mem_nil, fun i _ => rfl⟩
  | cons x xs ih =>
    obtain ⟨hx, hn⟩ := List.nodup_cons.mp hn
    have hne {k : Nat} (hk : k ∈ xs) : h x ≠ h k := fun heq => hx (hinj heq ▸ hk)
    obtain ⟨gs, heq, hin, hout⟩ := ih (s.modGroup (h x) g) hn
    refine ⟨gs, heq, fun k hk => ?_, fun i hi => ?_⟩
    · obtain rfl | hk := List.mem_cons.mp hk
      · rw [hout _ fun j hj => (hne hj).symm, State.group_modGroup_self]
      · rw [hin k hk, State.group_modGroup_ne _ _ (hne hk)]
    · rw [hout i fun k hk => hi k (List.mem_cons_of_mem _ hk), State.group_modGroup_ne _ _ (hi x List.mem_cons_self)]

theorem Tbl.get_map_pairs {α : Type} (d : α) (f : Nat → α) (xs : List Nat) (n : Nat) :
    Tbl.get d (xs.map fun c => (c, f c)) n = if n ∈ xs then f n else d := by
  induction xs with
  | nil => rfl
  | cons x xs ih =>
    rw [List.map_cons, Tbl.get, ih]
    by_cases hx : x = n
    · subst hx
      rw [if_pos rfl, if_pos List.mem_cons_self]
    · simp [hx, Ne.symm hx]

/-- The spare lanes of a stack whose training repairs all of it. -/
theorem Stack.trained_spares (x : Stack) (data cmd : List (Nat × Nat)) (hcmd : ∀ c, Tbl.get 0 cmd c ≤ 1) :
    (∀ c, c < 64 → Tbl.get 0 (x.trained [] data cmd).dataSpares c = Tbl.get 0 data c) ∧
    ∀ c, c < 32 → Tbl.get 0 (x.trained [] data cmd).cmdSpares c = Tbl.get 0 cmd c := by
  refine ⟨fun c hc => ?_, fun c hc => ?_⟩
  · rw [Stack.trained, Tbl.get_map_pairs]
    by_cases h : Tbl.get 0 data c = 0
    · simp [h]
    · simp [h, hc]
  · rw [Stack.trained, Tbl.get_map_pairs 0 fun _ => 1]
    have hle := hcmd c
    by_cases h : Tbl.get 0 cmd c = 1
    · simp [h, hc]
    · have h0 : Tbl.get 0 cmd c = 0 := by omega
      simp [h0]

theorem unrepaired_of_few {data cmd : List (Nat × Nat)} (hdata : ∀ c, Tbl.get 0 data c ≤ 2) (hcmd : ∀ c, Tbl.get 0 cmd c ≤ 1) : unrepaired data cmd = [] :=
  List.filter_eq_nil_iff.mpr fun c _ => by
    have h1 := hdata c
    have h2 := hcmd (c / 2)
    simp only [Bool.or_eq_true, decide_eq_true_eq, not_or, Nat.not_lt]
    exact ⟨h1, h2⟩

/-- A bank group that its self-test passed, wiped. -/
def Group.tested (y : Group) : Group := if y.st = .retired then y else { y with st := .free, owner := 0 }

theorem exec_millSramReady {s : State} {m : Nat} (hlive : s.live = true) (hfuses : s.boot.fusesSensed = true) (hm : m < 4) (hnot : s.isReady (bitSram m) = false) :
    exec (.millSramReady m []) s = .next (((s.each (List.range 128) fun s g => s.modGroup (128 * m + g) Group.tested).modMill m fun y =>
      { y with ramped := true }).setReady (bitSram m) true) := by
  change execMillSramReady m [] s = _
  rw [execMillSramReady, if_neg (by simp [hlive, hfuses, hnot, Nat.not_le.mpr hm])]
  rfl

/-- A stack in use after its training. -/
def Stack.inUse (x : Stack) (data cmd : List (Nat × Nat)) (rate : Nat) : Stack :=
  { x.trained [] data cmd with st := 1, retired := [], rate := rate, filling := false, trainedAt := none, trainTemp := [] }

theorem exec_hbmReady {s : State} {k : Nat} (hlive : s.live = true) (hk : k < 12) (hst : (s.stack k).st = 0) {data cmd : List (Nat × Nat)}
    (hgood : ((s.stack k).retired ++ unrepaired data cmd).dedup = []) :
    exec (.hbmReady k true data cmd) s = .next ((s.modStack k fun x => x.inUse data cmd s.pinRate).setReady (bitHbm k) true) := by
  change execHbmReady k true data cmd s = _
  rw [execHbmReady, if_neg (by simp [hlive, hst, Nat.not_le.mpr hk])]
  dsimp only
  rw [hgood]
  rfl

theorem bringUp : Claims.BringUp := by
  refine ⟨fun s hlive => ?fuses, fun s hlive hfuses hfirst => ⟨fun hcfg hdly hcap => ?fields, ?defaults⟩, fun s m hlive hfuses hm hnot => ?sram,
    fun s m hlive hctl hm hnot hsafe hsome => ?cores, fun s k data cmd hlive hk hst => ⟨?untrained, fun hdata hcmd hret => ?trained, fun hmany => ?many⟩,
    fun s hlive hwarm hrun => ?firmware⟩
  case fuses =>
    change execFusesSensed s = _
    rw [execFusesSensed, if_pos hlive]
  case fields =>
    rw [exec_eepromFieldsRead hlive hfuses hfirst]
    have hokCap : (leVal (s.eeprom.read 0x42 2) == 0 || capOk (leVal (s.eeprom.read 0x42 2))) = true := by simpa using hcap
    simp only [hcfg, hdly, hokCap, decide_true, Bool.and_self, Bool.true_and, if_true, bne_iff_ne, ne_eq]
  case defaults =>
    have hexec := exec_eepromFieldsRead hlive hfuses hfirst false
    simp only [Bool.false_and, Bool.false_eq_true, if_false] at hexec
    refine ⟨_, hexec, ?_⟩
    generalize hw : State.reselectIdle _ = w
    have hkept : w.outlast = (s.jobs, s.cores, s.reamLen, s.boot.warm, s.sec.fuses, false, 20, 1000) := by
      rw [← hw, State.outlast_reselectIdle, State.outlast_fieldInvalid, State.outlast_fieldInvalid, State.outlast_fieldInvalid]
      rfl
    simp only [State.outlast, Prod.mk.injEq] at hkept
    obtain ⟨_, _, _, _, _, huse, hdelay, hcap⟩ := hkept
    exact ⟨huse, hdelay, hcap⟩
  case sram =>
    obtain ⟨gs, hgs, hin, _⟩ := State.each_modGroup Group.tested (h := fun g => 128 * m + g) (fun a b h => by dsimp only at h; omega) s (xs := List.range 128)
      List.nodup_range
    have hexec := exec_millSramReady hlive hfuses hm hnot
    rw [hgs] at hexec
    obtain ⟨rd, c, a, b, o, heq⟩ := State.setReady_eq (State.modMill { s with groups := gs } m fun y => { y with ramped := true }) (bitSram m) true
    refine ⟨_, hexec, State.isReady_setReady_true _ (by rw [bitSram]; omega), ?_, fun g hg => ?_⟩
    · rw [heq]
      exact congrArg Mill.ramped (State.mill_modMill_self { s with groups := gs } m fun y => { y with ramped := true })
    · rw [heq]
      refine (congrArg Group.st (hin g (List.mem_range.mpr hg))).trans ?_
      unfold Group.tested
      split
      · next h => rw [h]
      · rfl
  case cores =>
    change execMillCoresReady m [] s = _
    rw [execMillCoresReady, if_neg (by simp [hlive, hctl, hnot, hsafe, Nat.not_le.mpr hm])]
    exact congrArg Host.Outcome.next (if_neg fun h => hsome (List.isEmpty_iff.mp h))
  case untrained =>
    change execHbmReady k false data cmd s = _
    rw [execHbmReady, if_neg (by simp [hlive, hst, Nat.not_le.mpr hk])]
    rfl
  case trained =>
    have hgood : ((s.stack k).retired ++ unrepaired data cmd).dedup = [] := by
      rw [hret, unrepaired_of_few hdata hcmd]
      rfl
    obtain ⟨hdspares, hcspares⟩ := (s.stack k).trained_spares data cmd hcmd
    obtain ⟨rd, c, a, b, o, heq⟩ := State.setReady_eq (s.modStack k fun x => x.inUse data cmd s.pinRate) (bitHbm k) true
    refine ⟨_, exec_hbmReady hlive hk hst hgood, State.isReady_setReady_true _ (by rw [bitHbm]; omega), ?_⟩
    have hstack : ((s.modStack k fun x => x.inUse data cmd s.pinRate).setReady (bitHbm k) true).stack k = (s.stack k).inUse data cmd s.pinRate := by
      rw [heq]
      exact State.stack_modStack_self s k fun x => x.inUse data cmd s.pinRate
    rw [hstack]
    exact ⟨rfl, rfl, rfl, hdspares, hcspares⟩
  case many =>
    change execHbmReady k true data cmd s = _
    rw [execHbmReady, if_neg (by simp [hlive, hst, Nat.not_le.mpr hk])]
    exact if_pos (.inr hmany)
  case firmware =>
    change execFirmwareRestarted s = _
    rw [execFirmwareRestarted, if_pos ⟨hlive, hwarm, hrun⟩]
    rfl

/-- Settles O56. -/
theorem portsAndBringUp : Obligations.PortsAndBringUp := ⟨portResets, bringUp⟩

end Sys2Proof.Machine
end

section
/-! What the statements on tokens and on SPDM say beside the model: the end of a job that no reference serves, and a draw for an answer
that is an error (R67, R82, R445, R458). -/

namespace Sys2Proof.Machine
open Sys2Proof.Claims

/-! ### Tokens -/

/-- A module whose last job is wiped for a RETIRE token, whose crystal has failed, and whose port A, without a REFCLK, loses its link when
limp begins. -/
def retiresInLimp : State :=
  { pins := { power := .on, refclkA := false }, clk := { crystalOk := false }, portA := { linkUp := true }, jobs := [(1, some { st := .wiping })],
    sec := { token := some { port := .a, ring := 0, retire := true, jobs := [1] } } }

/-- The token that waits in a next state. -/
def tokenAfter : Outcome → Option TokenWait
  | .next u => u.sec.token
  | _ => none

theorem tokenAfter_retiresInLimp :
    tokenAfter (exec (.jobWiped 1) retiresInLimp) = some { port := .a, ring := 0, retire := true, jobs := [], lost := true } := by
  decide +kernel

/-- Refutes O57: with no job left the module moves to the oscillator, and the reset of port A that limp brings to it takes the completion from
the token, where the statement has the security block unchanged but for the token's jobs and the fuse. -/
theorem not_security : ¬ Obligations.Security := by
  intro h
  obtain ⟨_, _, _, htokens, _⟩ := h
  obtain ⟨u, hexec, hretire, _⟩ := htokens retiresInLimp 1 { st := .wiping } { port := .a, ring := 0, retire := true, jobs := [1] } rfl rfl rfl
    (by decide +kernel) rfl rfl
  have htoken := tokenAfter_retiresInLimp
  rw [hexec, tokenAfter, hretire rfl] at htoken
  exact absurd htoken (by decide)

/-! ### SPDM -/

/-- A module that answers SPDM at port A, with nothing agreed. -/
def answersSpdm : State := { pins := { power := .on }, ready := 8, portA := { linkUp := true } }

/-- Refutes O58: GET_CAPABILITIES before GET_VERSION is answered with an error after a free value was drawn for the body, where the statement
has nothing but the answer changed. -/
theorem not_attestations : ¬ Obligations.Attestations := by
  intro h
  obtain ⟨_, _, hspdm, _⟩ := h
  obtain ⟨_, hagreed, _⟩ := hspdm answersSpdm .a (by decide)
  have hexec : exec (.getCapabilities .a) answersSpdm = .next (answersSpdm.spdm .a 0x7F [4, 0]) := (hagreed rfl).1
  have hdrawn : exec (.getCapabilities .a) answersSpdm = .next (answersSpdm.draw.2.spdm .a 0x7F [4, 0]) := rfl
  have hsame := hdrawn.symm.trans hexec
  injection hsame with hstate
  exact absurd (congrArg State.freeCtr hstate) (by decide)

end Sys2Proof.Machine
end

section
/-! What the statement on self-tests says of a scan that fails (R394, R471). -/

namespace Sys2Proof.Machine
open Sys2Proof.Claims

/-- The slot under test: slot 0 of a mill, in its scan, with the spare in its place. -/
def scannedSlot : SlotTest := { slot := 0, core := none, asker := none, scanning := true, result := none, spare := true }

/-- A module that scans that slot of mill 0. -/
def scansSlot : State := { pins := { power := .on }, stests := [(0, { under := [scannedSlot], spare := 1 })] }

/-- The code of the last module event, as the essentials page shows it, in a next state. -/
def causeAfter : Outcome → Option Nat
  | .next u => some u.boot.cause
  | _ => none

theorem causeAfter_scansSlot : causeAfter (exec (.scanDone (.core 0 0) false 0) scansSlot) = some 0x0270 := by decide +kernel

/-- Refutes O59: a failed scan is a module event, whose code ESS_CAUSE then holds, where the statement has the boot state unchanged. -/
theorem not_selfTest : ¬ Obligations.SelfTest := by
  intro h
  obtain ⟨⟨_, _, _, _, hscan, _⟩, _⟩ := h
  obtain ⟨_, hfails, _⟩ := hscan scansSlot 0 0 scannedSlot rfl rfl rfl rfl rfl rfl rfl rfl
  obtain ⟨t, hexec, _, _, _, _, hboot⟩ := hfails (by decide) (by decide) (by decide) rfl rfl 0
  have hcause := causeAfter_scansSlot
  rw [hexec, causeAfter, hboot] at hcause
  exact absurd hcause (by decide)

end Sys2Proof.Machine
end

section
/-! What the statement on links says of a link beyond the twenty-four of the module (R91, R418). -/

namespace Sys2Proof.Machine
open Sys2Proof.Claims

/-- The entry of a link of number 32. -/
def entryOf32 : RouteLink := { k := 32, peer := 1, peerLink := 0 }

/-- A route table with that entry. -/
def routeOf32 : Route := { self := 0, master := 0, backup := 0xFF, encrypt := false, links := [entryOf32], forwards := [], spans := [] }

/-- A module that runs and trains that link. -/
def trainsLink32 : State := { pins := { power := .on }, links := [(32, { st := .training })], route := some routeOf32 }

/-- Refutes O60: link 32, which no module has, trains as its entry says, but its bit lies beyond the ready bitmap and stays clear. -/
theorem not_quireLinks : ¬ Obligations.QuireLinks := by
  intro h
  obtain ⟨_, ⟨htrains, _⟩, _⟩ := h
  obtain ⟨hup, _⟩ := htrains trainsLink32 32 routeOf32 entryOf32 15 0 0 rfl rfl rfl rfl rfl
  obtain ⟨t, _, _, hready, _⟩ := hup (by decide) rfl
  rw [State.isReady_of_ge t (by decide)] at hready
  exact Bool.false_ne_true hready

end Sys2Proof.Machine
end

section
/-! The tick, its reams and the announcement of the next one (R95, R96, R117, R118, R433). -/

namespace Sys2Proof.Machine
open Sys2Proof.Claims

/-! ### The ream registers, and the operations of a tick that leave them as they are

As for the tick number in `Laws/Ticks.lean`: each operation that a job's sheet can call changes none of them, so only the end of the
sheet itself (`State.reamTick`) and a boundary to latch (`State.latchReam`) do. -/

/-- What decides where reams begin and end, and how long they are. -/
def State.reamView (s : State) : Bool × Nat × Nat × Nat × Option (Tbl Nat) × Bool :=
  (s.periodSet, s.reamLen, s.reamNext, s.sheetInReam, s.boundary, s.reamOn)
@[simp] theorem State.reamView_mk (x_pins : Pins) (x_clk : Clk) (x_mills : Tbl Mill) (x_hbms : Tbl Stack) (x_boot : Boot) (x_sec : Sec) (x_grade : Grade) (x_ready : BitVec 64) (x_portA : PortSt) (x_portB : PortSt) (x_eeprom : Mem) (x_period : Nat) (x_periodNext : Nat) (x_periodSet : Bool) (x_reamLen : Nat) (x_reamNext : Nat) (x_sheetInReam : Nat) (x_boundary : Option (Tbl Nat)) (x_reamOn : Bool) (x_ticking : Bool) (x_tick : Nat) (x_reams : BitVec 32) (x_timeoutMs : Nat) (x_selftestHours : Nat) (x_admitA : Bool) (x_admitB : Bool) (x_quotaJobs : Nat) (x_quotaCores : Nat) (x_adminPort : Port) (x_admissions : Nat) (x_jobs : Tbl (Option Job)) (x_cores : Tbl CoreSt) (x_groups : Tbl Group) (x_sparesUsed : Tbl Nat) (x_units : Tbl HUnit) (x_sram : Mem) (x_hbm : Mem) (x_hbmTag : Tbl Nat) (x_headboxes : Tbl Headbox) (x_ingest : Option Ingest) (x_ingestQ : List IngestWait) (x_ingestLast : Port) (x_passes : List Pass) (x_building : List Nat) (x_tableUnits : Tbl (List Nat)) (x_xcOrder : Nat) (x_links : Tbl Link) (x_route : Option Route) (x_spans : Tbl Span) (x_tickGroup : TickGroup) (x_ctr : Tbl Nat) (x_ream : Tbl Nat) (x_pcStorm : Tbl (Option Nat)) (x_pcTag : Tbl (Option Nat)) (x_stests : Tbl STest) (x_modTest : Option ModTest) (x_freeCtr : Nat) (x_out : List Out) (x_pending : List Instr) :
    (State.mk x_pins x_clk x_mills x_hbms x_boot x_sec x_grade x_ready x_portA x_portB x_eeprom x_period x_periodNext x_periodSet x_reamLen x_reamNext x_sheetInReam x_boundary x_reamOn x_ticking x_tick x_reams x_timeoutMs x_selftestHours x_admitA x_admitB x_quotaJobs x_quotaCores x_adminPort x_admissions x_jobs x_cores x_groups x_sparesUsed x_units x_sram x_hbm x_hbmTag x_headboxes x_ingest x_ingestQ x_ingestLast x_passes x_building x_tableUnits x_xcOrder x_links x_route x_spans x_tickGroup x_ctr x_ream x_pcStorm x_pcTag x_stests x_modTest x_freeCtr x_out x_pending).reamView = (x_periodSet, x_reamLen, x_reamNext, x_sheetInReam, x_boundary, x_reamOn) := rfl
@[simp] theorem State.reamView_eta (s : State) : (s.periodSet, s.reamLen, s.reamNext, s.sheetInReam, s.boundary, s.reamOn) = s.reamView := rfl
@[simp] theorem State.reamView_ite (c : Prop) [Decidable c] (a b : State) : (if c then a else b).reamView = if c then a.reamView else b.reamView := by split <;> rfl
@[simp] theorem State.reamView_foldl {α : Type} (f : State → α → State) (h : ∀ s x, (f s x).reamView = s.reamView) (xs : List α) (s : State) :
    (xs.foldl f s).reamView = s.reamView := by
  induction xs generalizing s with
  | nil => rfl
  | cons x xs ih => rw [List.foldl_cons, ih, h]
@[simp] theorem State.reamView_each {α : Type} (s : State) (xs : List α) (f : State → α → State) (h : ∀ s x, (f s x).reamView = s.reamView) :
    (s.each xs f).reamView = s.reamView := State.reamView_foldl f h xs s
@[simp] theorem State.reamView_onPorts (s : State) (f : State → Port → State) (h : ∀ s x, (f s x).reamView = s.reamView) :
    (s.onPorts f).reamView = s.reamView := by simp [State.onPorts, h]
@[simp] theorem State.setPort_reamView (s : State) (p : Port) (x : PortSt) : (State.setPort s p x).reamView = s.reamView := by
  unfold State.setPort; (repeat' split) <;> simp
@[simp] theorem State.modPort_reamView (s : State) (p : Port) (f : PortSt → PortSt) : (State.modPort s p f).reamView = s.reamView := by
  unfold State.modPort; simp
@[simp] theorem State.setJob_reamView (s : State) (j : Nat) (x : Option Job) : (State.setJob s j x).reamView = s.reamView := by rfl
@[simp] theorem State.modJob_reamView (s : State) (j : Nat) (f : Job → Job) : (State.modJob s j f).reamView = s.reamView := by
  unfold State.modJob; (repeat' split) <;> simp
@[simp] theorem State.setCore_reamView (s : State) (n : Nat) (x : CoreSt) : (State.setCore s n x).reamView = s.reamView := by rfl
@[simp] theorem State.modCore_reamView (s : State) (n : Nat) (f : CoreSt → CoreSt) : (State.modCore s n f).reamView = s.reamView := by rfl
@[simp] theorem State.setMill_reamView (s : State) (m : Nat) (x : Mill) : (State.setMill s m x).reamView = s.reamView := by rfl
@[simp] theorem State.modMill_reamView (s : State) (m : Nat) (f : Mill → Mill) : (State.modMill s m f).reamView = s.reamView := by rfl
@[simp] theorem State.modStack_reamView (s : State) (k : Nat) (f : Stack → Stack) : (State.modStack s k f).reamView = s.reamView := by rfl
@[simp] theorem State.modGroup_reamView (s : State) (x : Nat) (f : Group → Group) : (State.modGroup s x f).reamView = s.reamView := by rfl
@[simp] theorem State.modUnit_reamView (s : State) (x : Nat) (f : HUnit → HUnit) : (State.modUnit s x f).reamView = s.reamView := by rfl
@[simp] theorem State.modHeadbox_reamView (s : State) (m : Nat) (f : Headbox → Headbox) : (State.modHeadbox s m f).reamView = s.reamView := by rfl
@[simp] theorem State.modStest_reamView (s : State) (m : Nat) (f : STest → STest) : (State.modStest s m f).reamView = s.reamView := by rfl
@[simp] theorem State.setRing_reamView (s : State) (p : Port) (r : Nat) (x : Ring) : (State.setRing s p r x).reamView = s.reamView := by
  unfold State.setRing; simp
@[simp] theorem State.draw_reamView (s : State) : (State.draw s).2.reamView = s.reamView := by rfl
@[simp] theorem State.emit_reamView (s : State) (o : Out) : (State.emit s o).reamView = s.reamView := by rfl
@[simp] theorem State.bump_reamView (s : State) (key n : Nat) : (State.bump s key n).reamView = s.reamView := by
  unfold State.bump; simp
@[simp] theorem State.work_reamView (s : State) (n i amount : Nat) : (State.work s n i amount).reamView = s.reamView := by
  unfold State.work; simp
@[simp] theorem State.raise_reamView (s : State) (p : Port) (v : Nat) : (State.raise s p v).reamView = s.reamView := by
  unfold State.raise; simp
@[simp] theorem State.post_reamView (s : State) (p : Port) (e : EvRec) : (State.post s p e).reamView = s.reamView := by
  unfold State.post; simp
@[simp] theorem State.jobEvent_reamView (s : State) (j type code units : Nat) (body : Bytes) (tick : Option Nat) : (State.jobEvent s j type code units body tick).reamView = s.reamView := by
  unfold State.jobEvent; (repeat' split) <;> simp
@[simp] theorem State.putRec_reamView (s : State) (p : Port) (r : ErrRec) : (State.putRec s p r).reamView = s.reamView := by
  unfold State.putRec; simp
@[simp] theorem State.errRec_reamView (s : State) (r : ErrRec) : (State.errRec s r).reamView = s.reamView := by rfl
@[simp] theorem State.complete_reamView (s : State) (p : Port) (r : Nat) (d : Done) : (State.complete s p r d).reamView = s.reamView := by
  unfold State.complete; dsimp only; (repeat' split) <;> simp
@[simp] theorem State.modLink_reamView (s : State) (k : Nat) (f : Link → Link) : (State.modLink s k f).reamView = s.reamView := by rfl
@[simp] theorem State.modSpan_reamView (s : State) (i : Nat) (f : Span → Span) : (State.modSpan s i f).reamView = s.reamView := by rfl
@[simp] theorem State.useLink_reamView (s : State) (k : Nat) (js : List Nat) : (State.useLink s k js).reamView = s.reamView := by rfl
@[simp] theorem State.sendIdle_reamView (s : State) (k : Nat) (nak : Bool) : (State.sendIdle s k nak).reamView = s.reamView := by rfl
@[simp] theorem State.owe_reamView (s : State) (k cls : Nat) : (State.owe s k cls).reamView = s.reamView := by rfl
@[simp] theorem State.transmit_reamView (s : State) (k : Nat) (f : Flit) : (State.transmit s k f).reamView = s.reamView := by
  unfold State.transmit; dsimp only; (repeat' split) <;> simp
@[simp] theorem State.pump_reamView (n : Nat) (s : State) (k : Nat) : (State.pump n s k).reamView = s.reamView := by
  induction n generalizing s with
  | zero => rfl
  | succ n ih => unfold State.pump; split; · rfl
                 split; · rfl
                 rw [ih]; simp
@[simp] theorem State.enqueue_reamView (s : State) (k : Nat) (fs : List Flit) : (State.enqueue s k fs).reamView = s.reamView := by
  unfold State.enqueue; simp
@[simp] theorem State.sendMsg_reamView (s : State) (dst cls span tag : Nat) (payload : Bytes) (opens : Bool) (ends : Bool) : (State.sendMsg s dst cls span tag payload opens ends).reamView = s.reamView := by
  unfold State.sendMsg; dsimp only; (repeat' split) <;> simp
@[simp] theorem State.spanSend_reamView (s : State) (i cls tag : Nat) (payload : Bytes) : (State.spanSend s i cls tag payload).reamView = s.reamView := by
  unfold State.spanSend; simp
@[simp] theorem State.resend_reamView (s : State) (k : Nat) : (State.resend s k).reamView = s.reamView := by
  unfold State.resend; simp
@[simp] theorem State.takeAck_reamView (s : State) (k : Nat) (h : FlitHdr) : (State.takeAck s k h).reamView = s.reamView := by
  unfold State.takeAck; simp
@[simp] theorem State.takeFlit_reamView (s : State) (k : Nat) (h : FlitHdr) (cls : Nat) : (State.takeFlit s k h cls).reamView = s.reamView := by
  unfold State.takeFlit; simp
@[simp] theorem State.linkErr_reamView (s : State) (k bit : Nat) : (State.linkErr s k bit).reamView = s.reamView := by rfl
@[simp] theorem State.badFlit_reamView (s : State) (k : Nat) : (State.badFlit s k).reamView = s.reamView := by rfl
@[simp] theorem State.forward_reamView (s : State) (h : FlitHdr) (cls : Nat) (payload : Bytes) (via : Option Nat) : (State.forward s h cls payload via).reamView = s.reamView := by
  unfold State.forward; (repeat' split) <;> simp
@[simp] theorem State.takeIn_reamView (s : State) (k cls want : Nat) (h : FlitHdr) (line : FlitLine) (payload : Bytes) (act : State → State)
    (e : ∀ s, (act s).reamView = s.reamView) : (s.takeIn k cls want h line payload act).reamView = s.reamView := by
  unfold State.takeIn; split
  · rw [State.badFlit_reamView, State.reamView_each _ _ _ (fun s m => by simp)]
  · dsimp only; split <;> simp [e]
@[simp] theorem State.receive_reamView (s : State) (arr : Option Arrival) (want : Nat) (payload : Bytes) (act : State → State)
    (e : ∀ s, (act s).reamView = s.reamView) : (s.receive arr want payload act).reamView = s.reamView := by
  unfold State.receive; (repeat' split) <;> simp [e]
@[simp] theorem State.carry_reamView (s : State) (moves : Nat → Bool) (dest : Nat → Nat) : (State.carry s moves dest).reamView = s.reamView := by rfl
@[simp] theorem State.moveGranule_reamView (s : State) (key : Nat) : (State.moveGranule s key).reamView = s.reamView := by
  unfold State.moveGranule; simp
@[simp] theorem State.hbmWrite_reamView (s : State) (key : Nat) (b : Bytes) : (State.hbmWrite s key b).reamView = s.reamView := by
  unfold State.hbmWrite; simp
@[simp] theorem State.jobCores_reamView (s : State) (j : Nat) (f : CoreSt → CoreSt) : (State.jobCores s j f).reamView = s.reamView := by
  unfold State.jobCores; (repeat' split) <;> simp
@[simp] theorem State.endKeyStreams_reamView (s : State) (j : Nat) : (State.endKeyStreams s j).reamView = s.reamView := by
  unfold State.endKeyStreams; simp
@[simp] theorem State.clearDir_reamView (s : State) (j : Nat) (set : Option Bytes) : (State.clearDir s j set).reamView = s.reamView := by rfl
@[simp] theorem State.closeWins_reamView (s : State) (j : Nat) : (State.closeWins s j).reamView = s.reamView := by rfl
@[simp] theorem State.abortWaiting_reamView (s : State) (j : Nat) : (s.abortWaiting j).reamView = s.reamView := by
  unfold State.abortWaiting; dsimp only; split; · rfl
  rw [State.modJob_reamView, State.reamView_each _ _ _ (by simp), State.reamView_each _ _ _ (fun s k => by (repeat' split) <;> simp)]; simp
@[simp] theorem State.endRequests_reamView (s : State) (p : Port) : (State.endRequests s p).reamView = s.reamView := by
  unfold State.endRequests; simp
@[simp] theorem State.haltJob_reamView (s : State) (j : Nat) (m : CoreMode) : (State.haltJob s j m).reamView = s.reamView := by
  unfold State.haltJob; simp
@[simp] theorem State.stopErr_reamView (s : State) (j : Nat) (i : StopInfo) : (State.stopErr s j i).reamView = s.reamView := by
  unfold State.stopErr; simp
@[simp] theorem State.stopRec_reamView (s : State) (j : Nat) (i : StopInfo) : (State.stopRec s j i).reamView = s.reamView := by
  unfold State.stopRec; (repeat' split) <;> simp
@[simp] theorem State.stopNow_reamView (s : State) (j : Nat) (i : StopInfo) (tell : Bool) : (State.stopNow s j i tell).reamView = s.reamView := by
  unfold State.stopNow; dsimp only; (repeat' split) <;> simp
@[simp] theorem State.stopJob_reamView (s : State) (j : Nat) (i : StopInfo) (tell : Bool) : (State.stopJob s j i tell).reamView = s.reamView := by
  unfold State.stopJob; (repeat' split) <;> simp
@[simp] theorem State.beginReplay_reamView (s : State) (j : Nat) (q : Quiesce) : (State.beginReplay s j q).reamView = s.reamView := by
  unfold State.beginReplay; dsimp only; (repeat' split) <;> simp
@[simp] theorem State.putByte_reamView (s : State) (p : Place) (v : Byte) : (State.putByte s p v).reamView = s.reamView := by
  unfold State.putByte; (repeat' split) <;> simp
@[simp] theorem State.tagSector_reamView (s : State) (key tag : Nat) : (State.tagSector s key tag).reamView = s.reamView := by rfl
@[simp] theorem State.refill_reamView (s : State) (key : Nat) : (State.refill s key).reamView = s.reamView := by
  unfold State.refill; simp
@[simp] theorem State.writeSectors_reamView (s : State) (place : Nat → Nat) (off : Nat) (b : Bytes) (tag : Nat) : (State.writeSectors s place off b tag).reamView = s.reamView := by
  unfold State.writeSectors; simp
@[simp] theorem State.keepUndo_reamView (s : State) (j key : Nat) : (State.keepUndo s j key).reamView = s.reamView := by
  unfold State.keepUndo; simp
@[simp] theorem State.writeByte_reamView (s : State) (j : Nat) (undo : Bool) (p : Place) (v : Byte) : (State.writeByte s j undo p v).reamView = s.reamView := by
  unfold State.writeByte; (repeat' split) <;> simp
@[simp] theorem State.fillWet_reamView (s : State) (j b : Nat) (e : Handle) (k : Blk) : (s.fillWet j b e k).reamView = s.reamView := by
  unfold State.fillWet; exact State.reamView_each _ _ _ fun s m => by simp
@[simp] theorem State.openBlock_reamView (s : State) (j h : Nat) (e : Handle) (b lo hi : Nat) : (State.openBlock s j h e b lo hi).reamView = s.reamView := by
  unfold State.openBlock; dsimp only; (repeat' split) <;> simp
theorem State.writes_reamView (data : Bytes) (g : State → Nat → Byte → State) (h : ∀ s n v, (g s n v).reamView = s.reamView) (a : State × Nat) :
    (data.foldl (fun (a : State × Nat) v => (g a.1 a.2 v, a.2 + 1)) a).1.reamView = a.1.reamView := by
  induction data generalizing a with
  | nil => rfl
  | cons v vs ih => rw [List.foldl_cons, ih, h]
@[simp] theorem State.store_reamView (s : State) (j h off : Nat) (data : Bytes) : (s.store j h off data).reamView = s.reamView := by
  have k (e : Handle) : (if e.durable ∧ 0 < data.length then
      s.each (fromTo (off / 4096) ((off + data.length - 1) / 4096 + 1)) fun s b => s.openBlock j h e b off (off + data.length)
      else s).reamView = s.reamView := by
    split
    · exact State.reamView_each _ _ _ fun s b => by simp
    · rfl
  unfold State.store; dsimp only; split; · rfl
  split
  · exact k _
  · exact (State.writes_reamView data (fun s n v => s.writeByte j _ (s.place _ (Job.writeBase _ h _ n) n) v) (by simp) _).trans (k _)
@[simp] theorem State.retired_reamView (s : State) (code res index : Nat) : (State.retired s code res index).reamView = s.reamView := by rfl
@[simp] theorem State.wakeStacks_reamView (s : State) (m : Nat) : (State.wakeStacks s m).reamView = s.reamView := by
  unfold State.wakeStacks; simp
@[simp] theorem State.setAt_reamView (s : State) (n pos : Nat) : (State.setAt s n pos).reamView = s.reamView := by
  unfold State.setAt; simp
@[simp] theorem State.enterAll_reamView (s : State) (j : Nat) (xs : List (Nat × Nat)) : (State.enterAll s j xs).reamView = s.reamView := by
  unfold State.enterAll; dsimp only; (repeat' split) <;> simp
@[simp] theorem State.arrive_reamView (s : State) (j : Nat) (x : Job) : (s.arrive j x).reamView = s.reamView := by
  unfold State.arrive; exact State.reamView_each _ _ _ fun s m => by dsimp only; (repeat' split) <;> simp
@[simp] theorem State.releaseBar_reamView (s : State) (j b : Nat) : (State.releaseBar s j b).reamView = s.reamView := by
  unfold State.releaseBar; dsimp only; (repeat' split) <;> simp
@[simp] theorem State.serveWait_reamView (s : State) (j n : Nat) : (State.serveWait s j n).reamView = s.reamView := by
  unfold State.serveWait; (repeat' split) <;> simp
@[simp] theorem State.settle_reamView (s : State) (j : Nat) : (State.settle s j).reamView = s.reamView := by
  unfold State.settle; dsimp only; (repeat' split) <;> simp
@[simp] theorem State.takeSnap_reamView (s : State) (j : Nat) : (State.takeSnap s j).reamView = s.reamView := by
  unfold State.takeSnap; simp
@[simp] theorem State.wipeScratch_reamView (s : State) (hs : Tbl Handle) : (State.wipeScratch s hs).reamView = s.reamView := by rfl
@[simp] theorem State.fillDir_reamView (s : State) (j slot : Nat) (k : KeySet) : (State.fillDir s j slot k).reamView = s.reamView := by
  unfold State.fillDir; (repeat' split) <;> simp
@[simp] theorem State.notePasses_reamView (s : State) : (State.notePasses s).reamView = s.reamView := by rfl
@[simp] theorem State.stageBlock_reamView (s : State) (m q b : Nat) (t : KeyStream) : (State.stageBlock s m q b t).reamView = s.reamView := by
  unfold State.stageBlock; simp
@[simp] theorem State.grantKeys_reamView (n : Nat) (s : State) (m : Nat) : (State.grantKeys n s m).reamView = s.reamView := by
  induction n generalizing s with
  | zero => rfl
  | succ n ih => unfold State.grantKeys; split <;> simp [ih]
@[simp] theorem State.grant_reamView (s : State) (m : Nat) : (State.grant s m).reamView = s.reamView := by
  unfold State.grant; simp
@[simp] theorem State.lostShard_reamView (s : State) (j : Nat) (r : KeyRing) (ix : Nat) : (State.lostShard s j r ix).reamView = s.reamView := by
  unfold State.lostShard; simp
@[simp] theorem State.requestPass_reamView (s : State) (j : Nat) (k : KeySet) (ix : Nat) : (State.requestPass s j k ix).reamView = s.reamView := by
  unfold State.requestPass; dsimp only; (repeat' split) <;> simp
@[simp] theorem State.beginStream_reamView (s : State) (m q : Nat) (t : KeyStream) (k : KeySet) : (State.beginStream s m q t k).reamView = s.reamView := by
  unfold State.beginStream; simp
@[simp] theorem State.dropPass_reamView (s : State) (j slot ix : Nat) : (State.dropPass s j slot ix).reamView = s.reamView := by
  unfold State.dropPass; dsimp only; (repeat' split) <;> simp
@[simp] theorem State.retryKeys_reamView (s : State) (j : Nat) : (s.retryKeys j).reamView = s.reamView := by
  unfold State.retryKeys; split; · rfl
  exact State.reamView_each _ _ _ fun s c => by dsimp only; (repeat' split) <;> simp
@[simp] theorem State.resumeKeys_reamView (s : State) (j : Nat) : (s.resumeKeys j).reamView = s.reamView := by
  unfold State.resumeKeys; simp
@[simp] theorem State.wipeKey_reamView (s : State) (j : Nat) (runs : List (Nat × Nat)) : (State.wipeKey s j runs).reamView = s.reamView := by
  unfold State.wipeKey; simp
@[simp] theorem State.takeTable_reamView (s : State) (i : Nat) : (State.takeTable s i).reamView = s.reamView := by
  unfold State.takeTable; simp
@[simp] theorem State.startBuild_reamView (s : State) (k : KeySet) : (State.startBuild s k).reamView = s.reamView := by
  unfold State.startBuild; (repeat' split) <;> simp
@[simp] theorem State.bindNow_reamView (s : State) (j : Nat) (k : KeySet) : (State.bindNow s j k).reamView = s.reamView := by
  unfold State.bindNow; dsimp only; (repeat' split) <;> simp
@[simp] theorem State.unbindNow_reamView (s : State) (j : Nat) (k : KeySet) : (State.unbindNow s j k).reamView = s.reamView := by
  unfold State.unbindNow; dsimp only; (repeat' split) <;> simp
@[simp] theorem State.takeBind_reamView (s : State) (j : Nat) (keep : List Bytes) (o : BindOp) : (State.takeBind s j keep o).reamView = s.reamView := by
  unfold State.takeBind; dsimp only; (repeat' split) <;> simp
@[simp] theorem State.takeBinds_reamView (s : State) (j : Nat) (keep : List Bytes) : (State.takeBinds s j keep).reamView = s.reamView := by
  unfold State.takeBinds; simp
@[simp] theorem State.beginPower_reamView (s : State) (w : PendPower) : (State.beginPower s w).reamView = s.reamView := by
  unfold State.beginPower; simp
@[simp] theorem State.endPower_reamView (s : State) (j : Nat) (couch : Bool) : (State.endPower s j couch).reamView = s.reamView := by
  unfold State.endPower; dsimp only; (repeat' split) <;> simp
@[simp] theorem State.couchHandles_reamView (s : State) (j : Nat) : (State.couchHandles s j).reamView = s.reamView := by
  unfold State.couchHandles; dsimp only; (repeat' split) <;> simp
@[simp] theorem State.guaranteeRec_reamView (s : State) (j kind place cause adm new : Nat) (down : Bool) : (State.guaranteeRec s j kind place cause adm new down).reamView = s.reamView := by
  unfold State.guaranteeRec; simp
@[simp] theorem State.reportCore_reamView (s : State) (j : Nat) (x : Job) : (State.reportCore s j x).reamView = s.reamView := by
  unfold State.reportCore; simp
@[simp] theorem State.reportKeys_reamView (s : State) (j : Nat) (x : Job) : (State.reportKeys s j x).reamView = s.reamView := by
  unfold State.reportKeys; simp
@[simp] theorem State.reportLat_reamView (s : State) (j : Nat) (x : Job) : (State.reportLat s j x).reamView = s.reamView := by
  unfold State.reportLat; simp
@[simp] theorem State.reportGuarantees_reamView (s : State) : (State.reportGuarantees s).reamView = s.reamView := by
  unfold State.reportGuarantees; simp
@[simp] theorem State.startRelease_reamView (s : State) (j : Nat) : (State.startRelease s j).reamView = s.reamView := by
  unfold State.startRelease; (repeat' split) <;> simp
@[simp] theorem State.grantTo_reamView (s : State) (span m stream credits : Nat) : (State.grantTo s span m stream credits).reamView = s.reamView := by
  unfold State.grantTo; simp
@[simp] theorem State.commitAreas_reamView (s : State) (j : Nat) : (s.commitAreas j).reamView = s.reamView := by
  unfold State.commitAreas; dsimp only; split; · rfl
  rw [State.modJob_reamView]
  exact State.reamView_each _ _ _ fun s m => by (repeat' split) <;> simp
@[simp] theorem State.queueRelease_reamView (s : State) (j : Nat) (es : List RelEntry) (final inter : Bool) : (State.queueRelease s j es final inter).reamView = s.reamView := by
  unfold State.queueRelease; dsimp only; (repeat' split) <;> simp
@[simp] theorem State.endTest_reamView (s : State) (m : Nat) (u : SlotTest) (status : Nat) : (State.endTest s m u status).reamView = s.reamView := by
  unfold State.endTest; dsimp only; (repeat' split) <;> simp
@[simp] theorem State.askSuspend_reamView (s : State) (j : Nat) : (State.askSuspend s j).reamView = s.reamView := by
  unfold State.askSuspend; simp
@[simp] theorem State.beginTest_reamView (s : State) (m : Nat) (u : SlotTest) (spare : Bool) : (State.beginTest s m u spare).reamView = s.reamView := by
  unfold State.beginTest; simp
@[simp] theorem State.startRequest_reamView (s : State) (m : Nat) (q : Nat × Bool × Port × Nat) : (State.startRequest s m q).reamView = s.reamView := by
  unfold State.startRequest; dsimp only; (repeat' split) <;> simp
@[simp] theorem State.startTurn_reamView (s : State) (m : Nat) : (State.startTurn s m).reamView = s.reamView := by
  unfold State.startTurn; dsimp only; (repeat' split) <;> simp
@[simp] theorem State.nextTest_reamView (s : State) (m : Nat) : (State.nextTest s m).reamView = s.reamView := by
  unfold State.nextTest; dsimp only; (repeat' split) <;> simp
@[simp] theorem State.stepTest_reamView (s : State) (m j : Nat) (u : SlotTest) : (State.stepTest s m j u).reamView = s.reamView := by
  unfold State.stepTest; simp
@[simp] theorem State.testStep_reamView (s : State) (m j : Nat) : (State.testStep s m j).reamView = s.reamView := by
  unfold State.testStep; simp
@[simp] theorem State.testSteps_reamView (s : State) (j : Nat) : (State.testSteps s j).reamView = s.reamView := by
  unfold State.testSteps; simp
@[simp] theorem State.saveImages_reamView (s : State) (j : Nat) : (State.saveImages s j).reamView = s.reamView := by
  unfold State.saveImages; dsimp only; (repeat' split) <;> simp
@[simp] theorem State.suspendNow_reamView (s : State) (j : Nat) : (State.suspendNow s j).reamView = s.reamView := by
  unfold State.suspendNow; simp
@[simp] theorem State.modStart_reamView (s : State) : (State.modStart s).reamView = s.reamView := by
  unfold State.modStart; (repeat' split) <;> simp
@[simp] theorem State.leaveCouch_reamView (s : State) (j : Nat) : (State.leaveCouch s j).reamView = s.reamView := by
  unfold State.leaveCouch; (repeat' split) <;> simp
@[simp] theorem State.newStride_reamView (s : State) (j : Nat) : (State.newStride s j).reamView = s.reamView := by
  unfold State.newStride; simp
@[simp] theorem State.commit_reamView (s : State) (j : Nat) (final inter : Bool) (keep : List Bytes) : (State.commit s j final inter keep).reamView = s.reamView := by
  unfold State.commit; dsimp only; (repeat' split) <;> simp
@[simp] theorem State.ordinaryCouch_reamView (s : State) (j : Nat) : (State.ordinaryCouch s j).reamView = s.reamView := by
  unfold State.ordinaryCouch; (repeat' split) <;> simp
@[simp] theorem State.couchDue_reamView (s : State) (j : Nat) : (State.couchDue s j).reamView = s.reamView := by
  unfold State.couchDue; simp
@[simp] theorem State.storeFree_reamView (s : State) (j : Nat) (h : Option Nat) (off n : Nat) : (State.storeFree s j h off n).reamView = s.reamView := by
  unfold State.storeFree; simp
@[simp] theorem State.saveCore_reamView (s : State) (j n : Nat) : (State.saveCore s j n).reamView = s.reamView := by
  unfold State.saveCore; simp
@[simp] theorem State.macroPasses_reamView (s : State) (j : Nat) : (State.macroPasses s j).reamView = s.reamView := by
  unfold State.macroPasses; (repeat' split) <;> simp
@[simp] theorem State.interludeCommit_reamView (s : State) (j : Nat) : (State.interludeCommit s j).reamView = s.reamView := by
  unfold State.interludeCommit; dsimp only; (repeat' split) <;> simp
@[simp] theorem State.repulpWork_reamView (s : State) (j : Nat) (p : ParamSet) : (State.repulpWork s j p).reamView = s.reamView := by
  unfold State.repulpWork; simp
@[simp] theorem State.refreshCt_reamView (s : State) (j : Nat) (keys : Bytes) (l : Loc) : (State.refreshCt s j keys l).reamView = s.reamView := by
  unfold State.refreshCt; dsimp only; (repeat' split) <;> simp
@[simp] theorem State.dirtyWork_reamView (s : State) (j : Nat) (cts : List Loc) : (State.dirtyWork s j cts).reamView = s.reamView := by
  unfold State.dirtyWork; (repeat' split) <;> simp
@[simp] theorem State.insertedRec_reamView (s : State) (j : Nat) (r : RepReq) : (State.insertedRec s j r).reamView = s.reamView := by
  unfold State.insertedRec; simp
@[simp] theorem State.macroCommit_reamView (s : State) (j : Nat) (last : Bool) : (State.macroCommit s j last).reamView = s.reamView := by
  unfold State.macroCommit; dsimp only; (repeat' split) <;> simp
@[simp] theorem State.unhalt_reamView (s : State) (j : Nat) (cores : List Nat) : (State.unhalt s j cores).reamView = s.reamView := by
  unfold State.unhalt; simp
@[simp] theorem State.resumeNow_reamView (s : State) (j : Nat) : (State.resumeNow s j).reamView = s.reamView := by
  unfold State.resumeNow; dsimp only; (repeat' split) <;> simp
@[simp] theorem State.lateTick_reamView (s : State) (j : Nat) : (State.lateTick s j).reamView = s.reamView := by
  unfold State.lateTick; simp
@[simp] theorem State.deadlockStop_reamView (s : State) (j : Nat) (tell : Bool) : (State.deadlockStop s j tell).reamView = s.reamView := by
  unfold State.deadlockStop; (repeat' split) <;> simp
@[simp] theorem State.commitSpan_reamView (s : State) (j : Nat) : (State.commitSpan s j).reamView = s.reamView := by
  unfold State.commitSpan; (repeat' split) <;> simp
@[simp] theorem State.deferSpan_reamView (s : State) (j : Nat) : (State.deferSpan s j).reamView = s.reamView := by
  unfold State.deferSpan; (repeat' split) <;> simp
@[simp] theorem State.rollbackSpan_reamView (s : State) (i j : Nat) (lost : Bool) : (State.rollbackSpan s i j lost).reamView = s.reamView := by
  unfold State.rollbackSpan; simp
@[simp] theorem State.takeDecision_reamView (s : State) (i j seq : Nat) (d : Decision) (lost : Bool) : (State.takeDecision s i j seq d lost).reamView = s.reamView := by
  unfold State.takeDecision; dsimp only; (repeat' split) <;> simp
@[simp] theorem State.decideAs_reamView (s : State) (i : Nat) (d : Decision) : (State.decideAs s i d).reamView = s.reamView := by
  unfold State.decideAs; dsimp only; (repeat' split) <;> simp
@[simp] theorem State.stopSpan_reamView (s : State) (i code : Nat) : (State.stopSpan s i code).reamView = s.reamView := by
  unfold State.stopSpan; dsimp only; (repeat' split) <;> simp
@[simp] theorem State.judge_reamView (s : State) (i : Nat) : (State.judge s i).reamView = s.reamView := by
  unfold State.judge; simp
@[simp] theorem State.takeVote_reamView (s : State) (i m seq : Nat) (v : Vote) (k d : Nat) (dead : Bool) : (State.takeVote s i m seq v k d dead).reamView = s.reamView := by
  unfold State.takeVote; simp
@[simp] theorem State.castVote_reamView (s : State) (i j : Nat) (v : Vote) (dead : Bool) : (State.castVote s i j v dead).reamView = s.reamView := by
  unfold State.castVote; dsimp only; (repeat' split) <;> simp
@[simp] theorem State.overrunNow_reamView (s : State) (j : Nat) : (State.overrunNow s j).reamView = s.reamView := by
  unfold State.overrunNow; simp
@[simp] theorem State.interludeDue_reamView (s : State) (j : Nat) : (State.interludeDue s j).reamView = s.reamView := by
  unfold State.interludeDue; simp
@[simp] theorem State.beginStride_reamView (s : State) (j : Nat) : (s.beginStride j).reamView = s.reamView := by
  unfold State.beginStride; dsimp only; split; · rfl
  rw [State.settle_reamView, State.enterAll_reamView, State.reamView_each _ _ _ (fun s m => by simp)]
  split <;> simp
@[simp] theorem State.foldExc_reamView (s : State) (j : Nat) : (State.foldExc s j).reamView = s.reamView := by
  unfold State.foldExc; dsimp only; (repeat' split) <;> simp
@[simp] theorem State.countSheet_reamView (s : State) (j : Nat) (x : Job) : (State.countSheet s j x).reamView = s.reamView := by
  unfold State.countSheet; simp
@[simp] theorem State.closeSheet_reamView (s : State) (j : Nat) : (State.closeSheet s j).reamView = s.reamView := by
  unfold State.closeSheet; dsimp only; (repeat' split) <;> simp
@[simp] theorem State.endSheet_reamView (s : State) (j : Nat) (x : Job) : (State.endSheet s j x).reamView = s.reamView := by
  unfold State.endSheet; dsimp only; (repeat' split) <;> simp
@[simp] theorem State.faultVote_reamView (s : State) (j : Nat) (x : Job) : (State.faultVote s j x).reamView = s.reamView := by
  unfold State.faultVote; simp
@[simp] theorem State.tickJob_reamView (s : State) (j : Nat) : (State.tickJob s j).reamView = s.reamView := by
  unfold State.tickJob; dsimp only; (repeat' split) <;> simp
@[simp] theorem State.countModule_reamView (s : State) : (State.countModule s).reamView = s.reamView := by
  unfold State.countModule; simp
@[simp] theorem State.tell_reamView (s : State) (k cls tag : Nat) (payload : Bytes) : (State.tell s k cls tag payload).reamView = s.reamView := by
  unfold State.tell; simp

/-! ### The tick -/

theorem State.latchReam_of_none {s : State} (h : s.boundary = none) : s.latchReam = s := by
  rw [State.latchReam, h]

/-- With no boundary to latch, what the last tick made due leaves the ream registers as they are. -/
theorem State.closeTick_reamView {s : State} (h : s.boundary = none) : s.closeTick.reamView = s.reamView := by
  unfold State.closeTick
  generalize ht : s.each s.runningJobs _ = t
  have hview : t.reamView = s.reamView := by
    subst ht
    simp
  have hb : t.boundary = none := (congrArg (fun x => x.2.2.2.2.1) hview).trans h
  rw [State.latchReam_of_none hb, hview]

/-- The state whose sheet has ended for every job, before it counts in its ream. -/
def State.sheetClosed (s : State) : State :=
  let s := s.closeTick.countModule
  let s := s.each (List.range 12) fun s k => s.modStack k fun x => x.copies s.period
  s.each s.runningJobs State.closeSheet

theorem State.sheetClosed_reamView {s : State} (h : s.boundary = none) : s.sheetClosed.reamView = s.reamView := by
  unfold State.sheetClosed
  simp [State.closeTick_reamView h]

/-- What follows the count of the sheet in its ream changes no ream register but that the period set is in use. -/
theorem State.tickNow_reamView (s : State) : s.tickNow.reamView = { s.sheetClosed.reamTick with periodSet := false }.reamView := by
  unfold State.tickNow State.sheetClosed
  extract_lets s1 s2 s3 s4 s5 s6
  simp [s4, s5, s6]

theorem State.reamTick_reamOn (s : State) : s.reamTick.reamOn = true := by
  unfold State.reamTick
  split
  case isTrue hon =>
    dsimp only
    split <;> exact hon
  case isFalse => rfl

/-- The tick at which a ream ends: the length set for the next ream is in use, and the boundary waits to be latched (R117). -/
theorem State.reamTick_ends {s : State} (hon : s.reamOn = true) (hend : (s.periodSet || decide (s.reamLen ≤ s.sheetInReam + 1)) = true) :
    s.reamTick = { s with sheetInReam := s.sheetInReam + 1, boundary := some s.ctr, reamLen := s.reamNext } := by
  unfold State.reamTick
  exact (if_pos hon).trans (if_pos hend)

theorem State.reamTick_within {s : State} (hon : s.reamOn = true) (hend : (s.periodSet || decide (s.reamLen ≤ s.sheetInReam + 1)) = false) :
    s.reamTick = { s with sheetInReam := s.sheetInReam + 1, boundary := none } := by
  unfold State.reamTick
  exact (if_pos hon).trans (if_neg (by simp [hend]))

/-- The ream registers after a tick at a boundary and after any other. -/
theorem State.tickNow_ends {s : State} (hb : s.boundary = none) (hon : s.reamOn = true)
    (hend : (s.periodSet || decide (s.reamLen ≤ s.sheetInReam + 1)) = true) :
    s.tickNow.reamLen = s.reamNext ∧ s.tickNow.boundary.isSome = true := by
  have hview := State.tickNow_reamView s
  obtain ⟨hset, hlen, hnext, hsheet, hbound, hon'⟩ : _ ∧ _ ∧ _ ∧ _ ∧ _ ∧ _ := by
    simpa only [State.reamView, Prod.mk.injEq] using State.sheetClosed_reamView hb
  rw [State.reamTick_ends (hon'.trans hon) (by rw [hset, hlen, hsheet, hend])] at hview
  simp only [State.reamView, Prod.mk.injEq] at hview
  obtain ⟨-, hlen', -, -, hbound', -⟩ := hview
  exact ⟨hlen'.trans hnext, by rw [hbound']; rfl⟩

theorem State.tickNow_within {s : State} (hb : s.boundary = none) (hon : s.reamOn = true)
    (hend : (s.periodSet || decide (s.reamLen ≤ s.sheetInReam + 1)) = false) :
    s.tickNow.reamLen = s.reamLen ∧ s.tickNow.boundary = none := by
  have hview := State.tickNow_reamView s
  obtain ⟨hset, hlen, hnext, hsheet, hbound, hon'⟩ : _ ∧ _ ∧ _ ∧ _ ∧ _ ∧ _ := by
    simpa only [State.reamView, Prod.mk.injEq] using State.sheetClosed_reamView hb
  rw [State.reamTick_within (hon'.trans hon) (by rw [hset, hlen, hsheet, hend])] at hview
  simp only [State.reamView, Prod.mk.injEq] at hview
  obtain ⟨-, hlen', -, -, hbound', -⟩ := hview
  exact ⟨hlen'.trans hlen, hbound'⟩

theorem State.reamOn_of_reamView {s t : State} (h : s.reamView = t.reamView) : s.reamOn = t.reamOn :=
  congrArg (fun x => x.2.2.2.2.2) h

theorem State.tickNow_reamOn (s : State) : s.tickNow.reamOn = true :=
  (State.reamOn_of_reamView s.tickNow_reamView).trans s.sheetClosed.reamTick_reamOn

theorem State.ticks_eq_iff {s : State} {n p q : Nat} : s.ticks = (n, p, q) ↔ s.tick = n ∧ s.period = p ∧ s.periodNext = q := by
  simp only [State.ticks, Prod.mk.injEq]

/-- The flit that announces the next tick on a link, with the number and the period that one state holds. -/
def State.announcement (t : State) (no period k : Nat) : Flit :=
  { cls := clsTick, dst := (t.link k).peer, src := t.self, span := 0, tag := 0, first := true, last := true,
    payload := tickPayload no period 1 (t.link k).delay }

/-- An announcement sent changes neither the tick nor the period, so every link carries the same ones. -/
theorem announce_eq {s t : State} (h : t.ticks = s.ticks) (ks : List Nat) :
    (t.each ks fun t k => t.enqueue k [t.announcement t.tick t.periodNext k]) =
      ks.foldl (fun t k => t.enqueue k [t.announcement s.tick s.periodNext k]) t := by
  induction ks generalizing t with
  | nil => rfl
  | cons k ks ih =>
    obtain ⟨hno, -, hnext⟩ := State.ticks_eq_iff.mp h
    change (t.enqueue k [t.announcement t.tick t.periodNext k]).each ks _ = _
    rw [ih ((State.enqueue_ticks ..).trans h), List.foldl_cons, hno, hnext]

theorem ticks : Claims.Ticks := by
  unfold Claims.Ticks
  refine ⟨fun s hlive htick hswitch => ?tick, fun s hidle => ?idle, fun s hlive hrole => ?announce⟩
  case tick =>
    obtain ⟨hno, hperiod, hnext⟩ := State.ticks_eq_iff.mp s.tickNow_ticks
    refine ⟨s.tickNow, ?_, hno, hperiod, hnext, s.tickNow_reamOn, State.tickNow_ends, State.tickNow_within⟩
    change execTick s = _
    rw [execTick, if_pos ⟨hlive, htick, hswitch⟩]
  case idle =>
    change execTick s = _
    rw [execTick, if_neg]
    rintro ⟨hlive, htick, hswitch⟩
    obtain h | h | h := hidle
    · exact Bool.noConfusion (h.symm.trans hlive)
    · exact Bool.noConfusion (h.symm.trans htick)
    · exact h hswitch
  case announce =>
    change execTickMessageSend s = _
    rw [execTickMessageSend, if_neg (by simp [hlive, hrole])]
    exact congrArg Host.Outcome.next (announce_eq rfl _)

/-! ### The boundary of a ream -/

/-- A change that does the same twice as once, made to each job of a list, reaches every job of it. -/
theorem State.job_each_modJob {g : Job → Job} (hg : ∀ x, g (g x) = g x) {s : State} {xs : List Nat} {j : Nat} {x : Job}
    (hj : s.job j = some x) (hmem : j ∈ xs) : (s.each xs fun t k => t.modJob k g).job j = some (g x) := by
  have hkeep (t : State) (k : Nat) (ht : t.job j = some (g x)) : (t.modJob k g).job j = some (g x) := by
    rw [State.job_modJob]
    split
    case isTrue h =>
      rw [h, ht, Option.map_some, hg]
    case isFalse => exact ht
  induction xs generalizing s with
  | nil => exact absurd hmem List.not_mem_nil
  | cons k ks ih =>
    obtain rfl | hne := eq_or_ne j k
    · exact State.each_induct (P := fun t => t.job j = some (g x)) (s := s.modJob j g) (State.job_modJob_self hj g) fun t k _ ht => hkeep t k ht
    · refine ih ?_ (List.mem_of_ne_of_mem hne hmem)
      rw [State.job_modJob, if_neg hne.symm]
      exact hj

/-- What a ream counts of a job begins afresh (R117). -/
def Job.newReam (x : Job) : Job := { x with lateReam := b2n x.lateNow 1, uncounted := 0 }

/-- What a latched boundary leaves of the counters and the ream registers. -/
def State.reamRegs (s : State) := (s.reams, s.sheetInReam, s.boundary, s.reamLen, s.reamNext, s.ctr, s.ream)

theorem State.reamRegs_modJob (s : State) (j : Nat) (f : Job → Job) : (s.modJob j f).reamRegs = s.reamRegs := by
  unfold State.modJob
  split <;> rfl

theorem State.latchReam_of_some {s : State} {b : Tbl Nat} (h : s.boundary = some b) :
    s.latchReam = ({ s with ream := b, ctr := s.since b, reams := s.reams + 1, sheetInReam := 0, boundary := none } : State).each s.jobNums
      fun t j => t.modJob j Job.newReam := by
  rw [State.latchReam, h]
  rfl

theorem reams : Claims.Reams := by
  unfold Claims.Reams
  refine ⟨fun s b hlive hb => ?latch, fun s hlive hb => ?none⟩
  case latch =>
    have hregs := (congrArg State.reamRegs (State.latchReam_of_some hb)).trans
      (State.each_frame State.reamRegs (f := fun t j => t.modJob j Job.newReam) (fun t j => t.reamRegs_modJob j _) _ _)
    simp only [State.reamRegs, Prod.mk.injEq] at hregs
    obtain ⟨hreams, hsheet, hbound, hlen, hnext, hctr, hream⟩ := hregs
    refine ⟨s.latchReam, if_pos hlive, hreams, hsheet, hbound, hlen, hnext, hctr, hream, fun j x hmem hx => ⟨x.newReam, ?_, rfl, rfl⟩⟩
    rw [State.latchReam_of_some hb]
    exact State.job_each_modJob (g := Job.newReam) (fun x => rfl) hx (List.contains_iff_mem.mp hmem)
  case none =>
    change execReamBoundary s = _
    rw [execReamBoundary, if_pos hlive, State.latchReam_of_none hb]

/-- Settles O47: a tick's jobs change no ream register, so the count of the sheet in its ream decides them. -/
theorem sheetsAndReams : Obligations.SheetsAndReams := ⟨ticks, reams⟩

end Sys2Proof.Machine
end
